-- ==== Sys2Proof/Word.lean ====
section
/-! DEFINITION. The machine's word types: a register word, a byte, an instruction word and an accumulator row.

Multi-byte values are little-endian (R5): byte 0 of a `Row` is its bits 7..0. -/

namespace Sys2Proof

/-- A 64-bit register or address (R34, R35). -/
abbrev Word := BitVec 64

/-- One byte of memory. -/
abbrev Byte := BitVec 8

/-- One 32-bit word of kernel text (R27). -/
abbrev IWord := BitVec 32

/-- One 512-byte accumulator row or queue row (R35, R82), byte 0 in bits 7..0. -/
abbrev Row := BitVec 4096

/-- A SHA3-256 value, byte 0 of the digest in bits 7..0. -/
abbrev Digest := BitVec 256

/-- The two streams of a cell (R77). -/
inductive Stream where
  | a
  | x
  deriving DecidableEq, Repr

/-- The other stream of the same cell. -/
def Stream.other : Stream → Stream
  | .a => .x
  | .x => .a

end Sys2Proof
end

