-- ==== Sys2Proof/Syntax.lean ====
section
/-! DEFINITION. The instruction type: one constructor for each row of the table of operations and events.

A row that the table encodes in one word carries that word's fields, in the order of the table and each at its
width (R30 and the instruction's own layout).  A long form (`…L`, or an operation that has a long form only)
carries its first word's fields and then the fields of its extension word.  A row without an encoding is a step
that the device or the outside world takes; its fields say which cell, context, queue, port or object it acts on and
what the outside supplies (data bytes, what an ECC check found, whether a signature verified). -/

namespace Sys2Proof

/-- What the ECC check of a word finds (R25). -/
inductive EccFinding where
  | clean
  | correctable
  | uncorrectable
  deriving DecidableEq, Repr

/-- A node of a graph's counter tree: a cell's counter, a cluster's or a die's (R308); the root is the graph's own. -/
inductive CounterNode where
  | cell (n : Nat)
  | cluster (n : Nat)
  | die (n : Nat)
  deriving DecidableEq, Repr

/-- Who speaks SPDM to the root firmware: a host port's management QP, or a gang peer over VC 3 (R366). -/
inductive SpdmAsker where
  | host (port : Nat)
  | peer (device : Nat)
  deriving DecidableEq, Repr

/-- The source elements of a collective's participant on another device, by rank (R361, R363). -/
structure RemoteSource where
  rank : Nat
  digest : Digest
  data : List Byte
  deriving DecidableEq, Repr

/-- What kind of destination a latch entry has (R338, DKIND). -/
inductive LatchDest where
  | aReg
  | xReg
  | accRow
  | pred
  deriving DecidableEq, Repr

/-- A latch entry (R338). -/
structure Latch where
  seq : Word
  pc : Word
  kind : LatchDest
  flags : BitVec 6
  dest : Nat
  remain : Nat
  ctrAdv : Nat
  value : Row
  deriving DecidableEq, Repr

/-- An instruction that a cell's physical translation had issued when a pre-empt request stops it (R338): the cell, the
stream, the address of its first word, the sequence number that it takes and the cycles still to run. -/
structure LatchIn where
  cell : Nat
  stream : Stream
  pc : Word
  seq : Word
  remain : Nat
  deriving DecidableEq, Repr

/-- The kernel that a die has translated eagerly, by its slot, and the regions whose translation has failed, each by its stream
and its first word's index (R74, R75). -/
structure EagerLoad where
  slot : Nat
  failed : List (Stream × Nat)
  deriving DecidableEq, Repr

/-- A word of SRAM that the scrub reads (R24, R25): of a scratchpad image by its key, of a row of a cell's accumulator
file in its active or its shadow bank, or of the die buffer by the memory word that it holds. -/
inductive SramWord where
  | scratchpad (key : Nat)
  | accumulator (cell : Nat) (shadow : Bool) (row : Nat) (word : Nat)
  | dieBuffer (key : Nat)
  deriving DecidableEq, Repr

/-- The steps of the device: every row of the table of operations and events. -/
inductive Instr where
  /-- POWER_APPLIED (R23): Power is applied; the root firmware runs and either a cold start or RECOVERY begins, depending on the failed-start count. -/
  | powerApplied (recOk : Bool)
  /-- POWER_LOST (R23): Power is lost; the device goes to OFF, and during a start this counts as a failed start. -/
  | powerLost (recOk : Bool)
  /-- HOST_COLD_START (R22): A host cold-start command ends every context and begins the cold-start steps. -/
  | hostColdStart
  /-- HOST_WARM_START (R22): A host warm-start command, issued in READY, ends every context and begins the warm-start steps. -/
  | hostWarmStart
  /-- START_COMPLETE (R23): Every start step completes within 60 s; the device becomes READY and the failed-start count is cleared. -/
  | startComplete
  /-- START_STEP_FAILURE (R23): A start step fails; the failed-start count advances and a cold start or RECOVERY follows. -/
  | startStepFailure (recOk : Bool)
  /-- START_TIMEOUT (R23): 60 s pass without the start completing; this is handled as a failed start. -/
  | startTimeout (recOk : Bool)
  /-- FIRMWARE_INSTALL (R23): In RECOVERY, the host installs a service firmware image. -/
  | firmwareInstall (ed : Bool) (mldsa : Bool)
  /-- RECOVERY_IMAGE_INSTALL (R23): In STOPPED, the host installs through SPDM a recovery image that passes R21; the device enters RECOVERY. -/
  | recoveryImageInstall (ed : Bool) (mldsa : Bool)
  /-- POWER_ALARM_ASSERT (R19): The 1 ms module power exceeds 2,900 W or the coolant outlet reaches 55 °C; the power alarm asserts. -/
  | powerAlarmAssert
  /-- POWER_ALARM_CLEAR (R19): The 10 ms power stays below 2,600 W and the coolant is below 50 °C; the power alarm clears. -/
  | powerAlarmClear
  /-- POWER_LIMIT_EXCEEDED (R19): With the alarm asserted, the 1 ms power exceeds 3,000 W; the dispatchers issue no new task. -/
  | powerLimitExceeded
  /-- POWER_LIMIT_RECOVERED (R19): The 1 ms power falls below 3,000 W; dispatch resumes. -/
  | powerLimitRecovered
  /-- DRAM_PATROL_SCRUB (R25): The patrol scrub reads a DRAM word; it rewrites a correctable word, poisons an uncorrectable one, and counts either. -/
  | dramPatrolScrub (addr : Nat) (found : EccFinding) (storeBetween : Bool)
  /-- SRAM_PATROL_SCRUB (R24): The patrol scrub reads an SRAM word in an idle bank cycle and corrects it or poisons it. -/
  | sramPatrolScrub (at_ : SramWord) (found : EccFinding) (storeBetween : Bool)
  /-- LINK_RECALIBRATION (R24): An Ethernet port pauses for at most 2 µs to recalibrate, holding its traffic in its queues. -/
  | linkRecalibration (port : Nat) (us : Nat)
  /-- DRAM_RECALIBRATION (R24): A DRAM channel pauses for at most 2 µs to recalibrate. -/
  | dramRecalibration (us : Nat)
  /-- FLASH_WEAR_MANAGEMENT (R24): The service firmware performs flash erase or block retirement. -/
  | flashWearManagement (erased : Nat) (retired : Nat)
  /-- TELEMETRY_SAMPLE (R24): A telemetry sample is sent over the management network, or dropped if it cannot be sent. -/
  | telemetrySample (sent : Bool)
  /-- LOAD_DATA_ARRIVAL (R107): The data of an outstanding memory read arrives; ECC is corrected, or a poisoned word puts the context into LOST. -/
  | loadDataArrival (cell : Nat) (addr : Nat) (found : EccFinding)
  /-- KERNEL_LOAD_COMPLETE (R68): The loader finishes checks 9 to 11, maps and copies the sections, enters the kernel as RESIDENT and reports the status. -/
  | kernelLoadComplete (ctx : Nat) (slot : Nat) (room : Option (List Nat))
  /-- KERNEL_UNLOAD_COMPLETE (R69): Every galley entry is invalidated, TEXT and RODATA are unmapped and the counts are decremented; the slot becomes ABSENT. -/
  | kernelUnloadComplete (ctx : Nat) (slot : Nat)
  /-- GALLEY_ENTRY_RECLAIM (R73): A dead galley entry's space is reclaimed once no stream remains in it. -/
  | galleyEntryReclaim (die : Nat) (entry : Nat)
  /-- EAGER_TRANSLATION_COMPLETE (R75): A die completes the eager translation of a kernel, and dispatch of that kernel's tasks on the die is enabled. -/
  | eagerTranslationComplete (die : Nat) (ctx : Nat) (slot : EagerLoad)
  /-- REGION_TRANSLATION_COMPLETE (R70): The compositor completes the translation of a region and writes a galley entry, replacing entries LRU and updating the kernel's die set. -/
  | regionTranslationComplete (cell : Nat) (st : Stream) (hashOk : Bool × Bool)
  /-- COMPOSITOR_FAILURE (R74): A translation attempt fails or runs past 100,000 cycles; it is retried, and after the third failure the stream faults TRANSLATE. -/
  | compositorFailure (cell : Nat) (st : Stream)
  /-- STREAM_SKIP (R28): A stream skips an instruction not tagged for it, advancing by 1 + L and faulting FETCH_MALFORMED on a TAG 0b11 first word. -/
  | streamSkip (two : Bool)
  /-- LDVQ_FILL (R82): The data of a reserved LDVQ row arrives and fills its queue entry, in whichever bank holds it. -/
  | ldvqFill (cell : Nat) (q : Nat)
  /-- CELL_FAULT_TAKEN (R89): The non-faulting stream reaches its cut, and the cell's fault is taken with the faulting stream's cause. -/
  | cellFaultTaken (cell : Nat)
  /-- TILE_ENGINE_OP_START (R185): The matrix engine begins its next queued operation once the previous one has completed and any version wait is met. -/
  | tileEngineOpStart (cell : Nat)
  /-- MATRIX_K_STEP (R196): The engine completes one K-step of a nest, adding the group sums in fixed order. -/
  | matrixKStep (cell : Nat)
  /-- TILE_ENGINE_OP_COMPLETE (R185): A tile-engine operation completes; its rows or bytes become visible and the engine sequence number increments. -/
  | tileEngineOpComplete (cell : Nat)
  /-- PAGE_WALK_COMPLETE (R213): A page-table walk ends with a translation, or with a not-present, malformed, permission or ordering outcome. -/
  | pageWalkComplete (cell : Nat) (addr : Word)
  /-- INVALIDATION_ACK (R218): Every retired or engine use of the old translation has been performed, and the invalidation is acknowledged. -/
  | invalidationAck (cell : Nat)
  /-- COPY_START (R257): A copy begins moving bytes once its channel's earlier copies have started and any version wait is met. -/
  | copyStart (cell : Nat) (ch : Nat)
  /-- COPY_BYTES_DELIVERED (R257): The channel delivers bytes of a copy; WP advances over the delivered prefix and barrier PENDING decrements. -/
  | copyBytesDelivered (cell : Nat) (ch : Nat) (n : Nat) (poolError : Bool)
  /-- COPY_COMPLETE (R257): A copy completes in channel order: the handle becomes FULL or FREE, the barrier arrival is made and the sequence number advances. -/
  | copyComplete (cell : Nat) (ch : Nat)
  /-- TAIL_WRITE (R272): The host writes a queue's TAIL over RDMA; a bad value stops the queue with TAIL_BAD. -/
  | tailWrite (ctx : Nat) (q : Nat) (value : Word)
  /-- QUEUE_RESUME (R272): Software writes RESUME in a queue's CTL; a STOPPED queue becomes ACTIVE and reparses the packet at HEAD. -/
  | queueResume (ctx : Nat) (q : Nat)
  /-- GRAPH_PACKET (R273): The front end parses a GRAPH packet; it admits it, holds it, or stops the queue. -/
  | graphPacket (ctx : Nat) (q : Nat)
  /-- LOAD_PACKET (R271): The front end parses a LOAD packet and starts the loader. -/
  | loadPacket (ctx : Nat) (q : Nat)
  /-- UNLOAD_PACKET (R271): The front end parses an UNLOAD packet and unloads the slot. -/
  | unloadPacket (ctx : Nat) (q : Nat)
  /-- BIND_PACKET (R271): The front end parses a BIND packet and binds the descriptor, or refuses it as busy or under R136. -/
  | bindPacket (ctx : Nat) (q : Nat)
  /-- RETIRE_PACKET (R271): The front end parses a RETIRE packet and retires the descriptor, or marks the retire pending. -/
  | retirePacket (ctx : Nat) (q : Nat)
  /-- CANCEL_PACKET (R271): The front end parses a CANCEL packet and applies the cancel step to the graph's tasks in TCB order. -/
  | cancelPacket (ctx : Nat) (q : Nat)
  /-- NOP_PACKET (R271): The front end parses a NOP packet, which completes at once. -/
  | nopPacket (ctx : Nat) (q : Nat)
  /-- GRAPH_ADMISSION (R273): A graph is admitted: its TCBs and successor lists are written, its plate is looked up, and tasks with PRED 0 become READY. -/
  | graphAdmission (ctx : Nat) (q : Nat)
  /-- TASK_DISPATCH (R279): A cell's dispatcher takes the first task of its highest level and checks its kernel, bindings, launch extents and argument header. -/
  | taskDispatch (cell : Nat)
  /-- STEAL_REQUEST (R281): An idle cell sends a steal request to an LFSR-chosen victim in its cluster or die. -/
  | stealRequest (cell : Nat)
  /-- STEAL_ANSWER (R281): The victim's queue engine answers with its last stealable one-cell task from its lowest-priority level, or empty. -/
  | stealAnswer (cell : Nat)
  /-- STEAL_BACKOFF_EXPIRY (R281): The 256-cycle wait after six failed steal requests expires and stealing begins again. -/
  | stealBackoffExpiry (cell : Nat)
  /-- STAGING_BASE_ALLOCATE (R312): The dispatcher chooses the lowest free allocation base, writes it at BASEOFF and starts the staging copies. -/
  | stagingBaseAllocate (grp : Nat)
  /-- STAGING_COPY_COMPLETE (R312): A staging copy run by the front-end copy engine completes or faults. -/
  | stagingCopyComplete (grp : Nat)
  /-- SHARD_START (R306): Once every held cell's bank is free and staging is complete, each shard's first pass starts and the task becomes RUNNING. -/
  | shardStart (grp : Nat)
  /-- GROUP_COMPLETION (R307): The AND tree reports every halt line set, and the home die performs the completion write from RUNNING to DONE. -/
  | groupCompletion (grp : Nat)
  /-- COUNTER_REGISTER (R308): A graph counter that goes from 0 to nonzero adds 1 to its parent. -/
  | counterRegister (graph : Nat) (node : CounterNode)
  /-- COUNTER_COMBINE (R308): A graph counter that returns to 0 subtracts 1 from its parent. -/
  | counterCombine (graph : Nat) (node : CounterNode)
  /-- LANE_ENTRY_ISSUE (R321): A plate lane's head entry issues once its wait set is met, after the SHAPE guard, forming and staging its group. -/
  | laneEntryIssue (cell : Nat)
  /-- MAKE_READY (R325): After a run without hand-back, the dispatcher swaps stalled entries, raises staging leads and advances GEN. -/
  | makeReady (plate : Nat)
  /-- PLATE_SECTION_RECEIVE (R326): A plate section from a gang peer arrives over the gang links and is stored. -/
  | plateSectionReceive (image : List Byte)
  /-- CONTEXT_CREATE (R331): A creation request is checked, and the context enters LOADING or is refused. -/
  | contextCreate (request : List Byte) (fromRoot : Option Nat)
  /-- CONTEXT_SETUP_COMPLETE (R332): Context set-up completes; the context becomes READY and its queues ACTIVE. -/
  | contextSetupComplete (ctx : Nat)
  /-- CONTEXT_GRANT (R332): The scheduler grants the partition to a READY context, which becomes ACTIVE. -/
  | contextGrant (ctx : Nat)
  /-- PREEMPT_REQUEST (R333): A pre-empt request swaps every bank of the context into the shadow bank. -/
  | preemptRequest (ctx : Nat) (latches : List LatchIn)
  /-- SHADOW_SWAP_COMPLETE (R333): The 64-cycle swap completes; faults that arrived during it are recorded as pending. -/
  | shadowSwapComplete (ctx : Nat)
  /-- RESUME_REQUEST (R332): A resume request swaps a SHADOW context back, or starts restoring a SPILLED one. -/
  | resumeRequest (ctx : Nat)
  /-- SPILL_START (R336): Another context needs the shadow bank, and a background spill of the SHADOW context begins. -/
  | spillStart (ctx : Nat)
  /-- SPILL_COMPLETE (R336): Every bank has been written to its slot, and the context is SPILLED. -/
  | spillComplete (ctx : Nat)
  /-- RESTORE_COMPLETE (R332): Every bank is restored, the context becomes ACTIVE and pending faults are delivered. -/
  | restoreComplete (ctx : Nat)
  /-- SCRATCHPAD_LINE_EXCHANGE (R334): A scratchpad line tagged to another context is written to its owner's slot and the accessing context's line is read in. -/
  | scratchpadLineExchange (cell : Nat) (line : Nat) (ctx : Nat)
  /-- CONTEXT_END_REQUEST (R332): An end request moves the context to RETIRED: engines stop, queues are disabled, kernels unloaded and descriptors retired. -/
  | contextEndRequest (ctx : Nat)
  /-- CONTEXT_RETIRE_COMPLETE (R332): Every engine has stopped; confidential state is erased and the context becomes FREE. -/
  | contextRetireComplete (ctx : Nat)
  /-- SUPERVISOR_TASK_START (R340): The supervisor runtime kernel starts as a one-shard task when the event ring is non-empty and no such task runs. -/
  | supervisorTaskStart (ctx : Nat)
  /-- WATCHDOG_EXPIRY (R341): A bank's hang watchdog count reaches 2^WDSHIFT; WATCHDOG is raised, or a pending cut is ended. -/
  | watchdogExpiry (cell : Nat)
  /-- RDMA_WRITE (R355): An RDMA WRITE is translated and performed by a device agent as a DEVICE-scope release, or is NAKed. -/
  | rdmaWrite (port : Nat) (qp : Nat) (addr : Word) (data : List Byte)
  /-- RDMA_READ (R355): An RDMA READ is translated and answered with data, or is NAKed. -/
  | rdmaRead (port : Nat) (qp : Nat) (addr : Word) (len : Nat)
  /-- MANAGEMENT_SEND (R354): A SEND arrives on the management QP. -/
  | managementSend (port : Nat) (data : List Byte)
  /-- RDMA_ATOMIC_REQUEST (R354): An RDMA atomic request is answered with the NAK Invalid Request, and memory is unchanged. -/
  | rdmaAtomicRequest (port : Nat) (qp : Nat)
  /-- QP_CREATE (R354): The firmware creates an RC queue pair bound to one context, refusing UD and UC. -/
  | qpCreate (port : Nat) (qp : Nat) (ctx : Nat) (rc : Bool) (byRoot : Bool)
  /-- HOST_PORT_DOWN (R356): A host port leaves UP, and its QPs enter the RoCEv2 error state. -/
  | hostPortDown (port : Nat)
  /-- FLIT_DATA (R358): A DATA flit is received; it is accepted in SEQ order, forwarded, or discarded with a NAK. -/
  | flitData (port : Nat) (flit : List Byte) (tagOk : Bool)
  /-- FLIT_ACK (R358): An ACK flit is received. -/
  | flitAck (port : Nat) (flit : List Byte) (tagOk : Bool)
  /-- FLIT_NAK (R358): A NAK flit triggers retransmission from the named SEQ; the retry limit takes the link DOWN. -/
  | flitNak (port : Nat) (flit : List Byte) (tagOk : Bool)
  /-- FLIT_CREDIT (R357): A CREDIT flit is received. -/
  | flitCredit (port : Nat) (flit : List Byte) (tagOk : Bool)
  /-- FLIT_CONTROL (R357): A CONTROL flit is received. -/
  | flitControl (port : Nat) (flit : List Byte) (tagOk : Bool)
  /-- LINK_RETRAIN_REQUEST (R359): A retrain request or start step 5 moves a gang port to TRAINING; a LOCKED port in use refuses it. -/
  | linkRetrainRequest (port : Nat)
  /-- TRAINING_COMPLETE (R359): Link training ends with 8 lanes (UP), 4 to 7 lanes (DEGRADED) or fewer (DOWN). -/
  | trainingComplete (port : Nat) (lanes : Nat)
  /-- TRAINING_TIMEOUT (R359): Training runs 50 ms without success, and the port goes DOWN. -/
  | trainingTimeout (port : Nat)
  /-- TRAINING_RETRY_TIMER (R359): 1 s after a failed training, the port retries training. -/
  | trainingRetryTimer (port : Nat)
  /-- LANE_FAILURE (R359): A lane fails; the port degrades to 4 lanes or goes DOWN. -/
  | laneFailure (port : Nat) (lanes : Nat)
  /-- LINK_KEY_INSTALL (R359): The root firmware installs a link key, and the port becomes LOCKED. -/
  | linkKeyInstall (port : Nat)
  /-- COLLECTIVE_COMPLETE (R365): A participant's collective has written its destination; it arrives at its barrier and the collective sequence number increments. -/
  | collectiveComplete (cell : Nat) (remote : List RemoteSource)
  /-- GET_VERSION (R366): SPDM GET_VERSION request to the root firmware. -/
  | getVersion (asker : SpdmAsker)
  /-- GET_CAPABILITIES (R366): SPDM GET_CAPABILITIES request. -/
  | getCapabilities (asker : SpdmAsker)
  /-- NEGOTIATE_ALGORITHMS (R366): SPDM NEGOTIATE_ALGORITHMS request. -/
  | negotiateAlgorithms (asker : SpdmAsker)
  /-- GET_DIGESTS (R366): SPDM GET_DIGESTS request. -/
  | getDigests (asker : SpdmAsker)
  /-- GET_CERTIFICATE (R366): SPDM GET_CERTIFICATE request. -/
  | getCertificate (asker : SpdmAsker)
  /-- CHALLENGE (R366): SPDM CHALLENGE request, answered with a dual-signed response. -/
  | challenge (asker : SpdmAsker)
  /-- GET_MEASUREMENTS (R367): SPDM GET_MEASUREMENTS request returning the measurement indices. -/
  | getMeasurements (asker : SpdmAsker) (index : Nat)
  /-- KEY_EXCHANGE (R366): SPDM KEY_EXCHANGE request starting a session. -/
  | keyExchange (asker : SpdmAsker) (session : Nat)
  /-- FINISH (R366): SPDM FINISH request completing a session handshake. -/
  | finish (session : Nat)
  /-- KEY_UPDATE (R366): SPDM KEY_UPDATE request. -/
  | keyUpdate (session : Nat)
  /-- HEARTBEAT (R366): SPDM HEARTBEAT request. -/
  | heartbeat (session : Nat)
  /-- END_SESSION (R367): SPDM END_SESSION request; the keys derived from the session are destroyed. -/
  | endSession (session : Nat)
  /-- ADD (R94): a[d] := a[a] + a[b]. -/
  | add (d : BitVec 6) (a : BitVec 6) (b : BitVec 6)
  /-- SUB (R94): a[d] := a[a] − a[b]. -/
  | sub (d : BitVec 6) (a : BitVec 6) (b : BitVec 6)
  /-- AND (R94): Bitwise AND. -/
  | and (d : BitVec 6) (a : BitVec 6) (b : BitVec 6)
  /-- OR (R94): Bitwise OR. -/
  | or (d : BitVec 6) (a : BitVec 6) (b : BitVec 6)
  /-- XOR (R94): Bitwise XOR. -/
  | xor (d : BitVec 6) (a : BitVec 6) (b : BitVec 6)
  /-- SHL (R94): Shift left by a[b] mod 64. -/
  | shl (d : BitVec 6) (a : BitVec 6) (b : BitVec 6)
  /-- SHR (R94): Logical shift right. -/
  | shr (d : BitVec 6) (a : BitVec 6) (b : BitVec 6)
  /-- SRA (R94): Arithmetic shift right. -/
  | sra (d : BitVec 6) (a : BitVec 6) (b : BitVec 6)
  /-- ROTR (R94): Rotate right. -/
  | rotr (d : BitVec 6) (a : BitVec 6) (b : BitVec 6)
  /-- MIN (R94): Signed minimum. -/
  | min (d : BitVec 6) (a : BitVec 6) (b : BitVec 6)
  /-- MAX (R94): Signed maximum. -/
  | max (d : BitVec 6) (a : BitVec 6) (b : BitVec 6)
  /-- MINU (R94): Unsigned minimum. -/
  | minu (d : BitVec 6) (a : BitVec 6) (b : BitVec 6)
  /-- MAXU (R94): Unsigned maximum. -/
  | maxu (d : BitVec 6) (a : BitVec 6) (b : BitVec 6)
  /-- SLT (R94): Signed set-less-than. -/
  | slt (d : BitVec 6) (a : BitVec 6) (b : BitVec 6)
  /-- SLTU (R94): Unsigned set-less-than. -/
  | sltu (d : BitVec 6) (a : BitVec 6) (b : BitVec 6)
  /-- SEQ (R94): Set if equal. -/
  | seq (d : BitVec 6) (a : BitVec 6) (b : BitVec 6)
  /-- MUL (R95): Low 64 bits of the signed product. -/
  | mul (d : BitVec 6) (a : BitVec 6) (b : BitVec 6)
  /-- MULH (R95): High bits of the signed product. -/
  | mulh (d : BitVec 6) (a : BitVec 6) (b : BitVec 6)
  /-- MULHU (R95): High bits of the unsigned product. -/
  | mulhu (d : BitVec 6) (a : BitVec 6) (b : BitVec 6)
  /-- DIV (R95): Signed division with defined results for divide-by-zero and overflow. -/
  | div (d : BitVec 6) (a : BitVec 6) (b : BitVec 6)
  /-- DIVU (R95): Unsigned division. -/
  | divu (d : BitVec 6) (a : BitVec 6) (b : BitVec 6)
  /-- REM (R95): Signed remainder. -/
  | rem (d : BitVec 6) (a : BitVec 6) (b : BitVec 6)
  /-- REMU (R95): Unsigned remainder. -/
  | remu (d : BitVec 6) (a : BitVec 6) (b : BitVec 6)
  /-- SEL (R95): Selects a[a] if the old a[d] is nonzero, else a[b]. -/
  | sel (d : BitVec 6) (a : BitVec 6) (b : BitVec 6)
  /-- CLZ (R96): Counts leading zero bits. -/
  | clz (d : BitVec 6) (a : BitVec 6)
  /-- CTZ (R96): Counts trailing zero bits. -/
  | ctz (d : BitVec 6) (a : BitVec 6)
  /-- POPC (R96): Population count. -/
  | popc (d : BitVec 6) (a : BitVec 6)
  /-- SEXT (R96): Sign-extends from n bits. -/
  | sext (d : BitVec 6) (a : BitVec 6) (n : BitVec 6)
  /-- ZEXT (R96): Zero-extends from n bits. -/
  | zext (d : BitVec 6) (a : BitVec 6) (n : BitVec 6)
  /-- BSWAP (R96): Reverses the byte order. -/
  | bswap (d : BitVec 6) (a : BitVec 6)
  /-- BFX (R97): Extracts a bit field. -/
  | bfx (d : BitVec 6) (a : BitVec 6) (im : BitVec 10)
  /-- BFX_L (R97): Long form of BFX. -/
  | bfxL (d : BitVec 6) (a : BitVec 6) (im : BitVec 30)
  /-- BFI (R97): Inserts a bit field. -/
  | bfi (d : BitVec 6) (a : BitVec 6) (im : BitVec 10)
  /-- BFI_L (R97): Long form of BFI. -/
  | bfiL (d : BitVec 6) (a : BitVec 6) (im : BitVec 30)
  /-- ADDI (R98): Adds an immediate. -/
  | addi (d : BitVec 6) (a : BitVec 6) (im : BitVec 10)
  /-- ADDI_L (R98): Long form of ADDI with a 30-bit immediate. -/
  | addiL (d : BitVec 6) (a : BitVec 6) (im : BitVec 30)
  /-- ANDI (R98): AND with an immediate. -/
  | andi (d : BitVec 6) (a : BitVec 6) (im : BitVec 10)
  /-- ANDI_L (R98): Long form of ANDI. -/
  | andiL (d : BitVec 6) (a : BitVec 6) (im : BitVec 30)
  /-- ORI (R98): OR with an immediate. -/
  | ori (d : BitVec 6) (a : BitVec 6) (im : BitVec 10)
  /-- ORI_L (R98): Long form of ORI. -/
  | oriL (d : BitVec 6) (a : BitVec 6) (im : BitVec 30)
  /-- XORI (R98): XOR with an immediate. -/
  | xori (d : BitVec 6) (a : BitVec 6) (im : BitVec 10)
  /-- XORI_L (R98): Long form of XORI. -/
  | xoriL (d : BitVec 6) (a : BitVec 6) (im : BitVec 30)
  /-- SHLI (R98): Shift left by an immediate. -/
  | shli (d : BitVec 6) (a : BitVec 6) (im : BitVec 10)
  /-- SHLI_L (R98): Long form of SHLI. -/
  | shliL (d : BitVec 6) (a : BitVec 6) (im : BitVec 30)
  /-- SHRI (R98): Logical shift right by an immediate. -/
  | shri (d : BitVec 6) (a : BitVec 6) (im : BitVec 10)
  /-- SHRI_L (R98): Long form of SHRI. -/
  | shriL (d : BitVec 6) (a : BitVec 6) (im : BitVec 30)
  /-- SRAI (R98): Arithmetic shift right by an immediate. -/
  | srai (d : BitVec 6) (a : BitVec 6) (im : BitVec 10)
  /-- SRAI_L (R98): Long form of SRAI. -/
  | sraiL (d : BitVec 6) (a : BitVec 6) (im : BitVec 30)
  /-- SLTI (R98): Signed set-less-than against an immediate. -/
  | slti (d : BitVec 6) (a : BitVec 6) (im : BitVec 10)
  /-- SLTI_L (R98): Long form of SLTI. -/
  | sltiL (d : BitVec 6) (a : BitVec 6) (im : BitVec 30)
  /-- SLTIU (R98): Unsigned set-less-than against an immediate. -/
  | sltiu (d : BitVec 6) (a : BitVec 6) (im : BitVec 10)
  /-- SLTIU_L (R98): Long form of SLTIU. -/
  | sltiuL (d : BitVec 6) (a : BitVec 6) (im : BitVec 30)
  /-- SEQI (R98): Set if equal to an immediate. -/
  | seqi (d : BitVec 6) (a : BitVec 6) (im : BitVec 10)
  /-- SEQI_L (R98): Long form of SEQI. -/
  | seqiL (d : BitVec 6) (a : BitVec 6) (im : BitVec 30)
  /-- MULI (R98): Multiplies by an immediate. -/
  | muli (d : BitVec 6) (a : BitVec 6) (im : BitVec 10)
  /-- MULI_L (R98): Long form of MULI. -/
  | muliL (d : BitVec 6) (a : BitVec 6) (im : BitVec 30)
  /-- LI (R99): Loads a sign-extended 16-bit immediate. -/
  | li (d : BitVec 6) (im : BitVec 16)
  /-- LIH (R99): Shifts left 16 and adds a 16-bit immediate. -/
  | lih (d : BitVec 6) (im : BitVec 16)
  /-- QPUSH (R102): Pushes a scalar into a qx queue, waiting for a free entry. -/
  | qpush (d : BitVec 6) (a : BitVec 6)
  /-- QPOPA (R103): Pops a scalar from a qa queue; a loss of decoupling. -/
  | qpopa (d : BitVec 6) (a : BitVec 6)
  /-- LDS (R107): Scalar load from S space. -/
  | lds (t : BitVec 6) (b : BitVec 6) (sz : BitVec 2) (o : BitVec 8)
  /-- LDS_L (R107): Long form of LDS with scope, order and a 25-bit offset. -/
  | ldsL (t : BitVec 6) (b : BitVec 6) (sz : BitVec 2) (sc : BitVec 3) (od : BitVec 2) (off : BitVec 25)
  /-- STS (R107): Scalar store to S space. -/
  | sts (t : BitVec 6) (b : BitVec 6) (sz : BitVec 2) (o : BitVec 8)
  /-- STS_L (R107): Long form of STS. -/
  | stsL (t : BitVec 6) (b : BitVec 6) (sz : BitVec 2) (sc : BitVec 3) (od : BitVec 2) (off : BitVec 25)
  /-- LDC (R107): Scalar load from a cluster peer's scratchpad. -/
  | ldc (t : BitVec 6) (b : BitVec 6) (sz : BitVec 2) (o : BitVec 8)
  /-- LDC_L (R107): Long form of LDC. -/
  | ldcL (t : BitVec 6) (b : BitVec 6) (sz : BitVec 2) (sc : BitVec 3) (od : BitVec 2) (off : BitVec 25)
  /-- STC (R107): Scalar store to C space. -/
  | stc (t : BitVec 6) (b : BitVec 6) (sz : BitVec 2) (o : BitVec 8)
  /-- STC_L (R107): Long form of STC. -/
  | stcL (t : BitVec 6) (b : BitVec 6) (sz : BitVec 2) (sc : BitVec 3) (od : BitVec 2) (off : BitVec 25)
  /-- LDG (R107): Scalar load from G space. -/
  | ldg (t : BitVec 6) (b : BitVec 6) (sz : BitVec 2) (o : BitVec 8)
  /-- LDG_L (R107): Long form of LDG. -/
  | ldgL (t : BitVec 6) (b : BitVec 6) (sz : BitVec 2) (sc : BitVec 3) (od : BitVec 2) (off : BitVec 25)
  /-- STG (R107): Scalar store to G space. -/
  | stg (t : BitVec 6) (b : BitVec 6) (sz : BitVec 2) (o : BitVec 8)
  /-- STG_L (R107): Long form of STG. -/
  | stgL (t : BitVec 6) (b : BitVec 6) (sz : BitVec 2) (sc : BitVec 3) (od : BitVec 2) (off : BitVec 25)
  /-- LDR (R108): Loads from the ring's consumer stage slot. -/
  | ldr (t : BitVec 6) (b : BitVec 6) (sz : BitVec 2) (o : BitVec 8)
  /-- LDR_L (R108): Long form of LDR. -/
  | ldrL (t : BitVec 6) (b : BitVec 6) (sz : BitVec 2) (sc : BitVec 3) (od : BitVec 2) (off : BitVec 25)
  /-- STR (R108): Stores to the ring's producer stage slot. -/
  | str (t : BitVec 6) (b : BitVec 6) (sz : BitVec 2) (o : BitVec 8)
  /-- STR_L (R108): Long form of STR. -/
  | strL (t : BitVec 6) (b : BitVec 6) (sz : BitVec 2) (sc : BitVec 3) (od : BitVec 2) (off : BitVec 25)
  /-- LDGV (R109): Waits for a tensor version, then loads from G space. -/
  | ldgv (t : BitVec 6) (b : BitVec 6) (sz : BitVec 2) (o : BitVec 8)
  /-- LDGV_L (R109): Long form of LDGV. -/
  | ldgvL (t : BitVec 6) (b : BitVec 6) (sz : BitVec 2) (sc : BitVec 3) (od : BitVec 2) (off : BitVec 25)
  /-- LDVQ (R110): Loads a 512-byte row into a qx queue, with an optional first-fault form. -/
  | ldvq (t : BitVec 6) (b : BitVec 6) (sz : BitVec 2) (o : BitVec 8)
  /-- LDVQ_L (R110): Long form of LDVQ. -/
  | ldvqL (t : BitVec 6) (b : BitVec 6) (sz : BitVec 2) (sc : BitVec 3) (od : BitVec 2) (off : BitVec 25)
  /-- STVQ (R111): Fills a 512-byte row with a scalar. -/
  | stvq (t : BitVec 6) (b : BitVec 6) (sz : BitVec 2) (o : BitVec 8)
  /-- STVQ_L (R111): Long form of STVQ. -/
  | stvqL (t : BitVec 6) (b : BitVec 6) (sz : BitVec 2) (sc : BitVec 3) (od : BitVec 2) (off : BitVec 25)
  /-- CPRE (R112): Prefetches a row into the die buffer; never faults. -/
  | cpre (b : BitVec 6) (o : BitVec 8)
  /-- CPRE_L (R112): Long form of CPRE. -/
  | cpreL (b : BitVec 6) (sc : BitVec 3) (od : BitVec 2) (off : BitVec 25)
  /-- AMOG (R113): 8-byte fetch-and-op in G space. -/
  | amog (t : BitVec 6) (b : BitVec 6) (sz : BitVec 2) (o : BitVec 8)
  /-- AMOG_L (R113): Long form of AMOG. -/
  | amogL (t : BitVec 6) (b : BitVec 6) (sz : BitVec 2) (sc : BitVec 3) (od : BitVec 2) (off : BitVec 25)
  /-- AMOS (R113): 8-byte fetch-and-op in S space. -/
  | amos (t : BitVec 6) (b : BitVec 6) (sz : BitVec 2) (o : BitVec 8)
  /-- AMOS_L (R113): Long form of AMOS. -/
  | amosL (t : BitVec 6) (b : BitVec 6) (sz : BitVec 2) (sc : BitVec 3) (od : BitVec 2) (off : BitVec 25)
  /-- CASG (R114): Compare-and-swap in G space. -/
  | casg (t : BitVec 6) (b : BitVec 6) (sz : BitVec 2) (o : BitVec 8)
  /-- CASG_L (R114): Long form of CASG. -/
  | casgL (t : BitVec 6) (b : BitVec 6) (sz : BitVec 2) (sc : BitVec 3) (od : BitVec 2) (off : BitVec 25)
  /-- CASS (R114): Compare-and-swap in S space. -/
  | cass (t : BitVec 6) (b : BitVec 6) (sz : BitVec 2) (o : BitVec 8)
  /-- CASS_L (R114): Long form of CASS. -/
  | cassL (t : BitVec 6) (b : BitVec 6) (sz : BitVec 2) (sc : BitVec 3) (od : BitVec 2) (off : BitVec 25)
  /-- B (R115): Private relative branch of the A stream. -/
  | b (o : BitVec 22)
  /-- BC (R116): Private conditional branch. -/
  | bc (c : BitVec 4) (a : BitVec 6) (b : BitVec 6) (o : BitVec 6)
  /-- BC_L (R116): Long form of BC with a 30-bit offset. -/
  | bcL (c : BitVec 4) (a : BitVec 6) (b : BitVec 6) (o : BitVec 30)
  /-- CALL (R115): Writes a63 := pc + 4 and branches. -/
  | call (o : BitVec 22)
  /-- RET (R117): Jumps to a[a]. -/
  | ret (a : BitVec 6)
  /-- JI (R117): Indirect jump that links in a[d]. -/
  | ji (d : BitVec 6) (a : BitVec 6)
  /-- BQP (R118): Decrements an lc register and branches while it is nonzero. -/
  | bqp (a : BitVec 6) (o : BitVec 6)
  /-- BQP_L (R118): Long form of BQP. -/
  | bqpL (a : BitVec 6) (o : BitVec 30)
  /-- LSET (R100): Sets an lc register to a saturated a[a] + imm. -/
  | lset (d : BitVec 6) (a : BitVec 6) (im : BitVec 10)
  /-- LSET_L (R100): Long form of LSET. -/
  | lsetL (d : BitVec 6) (a : BitVec 6) (im : BitVec 30)
  /-- SDSET (R101): Loads a 32-byte stream descriptor from S space. -/
  | sdset (d : BitVec 6) (a : BitVec 6) (im : BitVec 10)
  /-- NSET (R193): Writes a nest level with an immediate trip into the inactive half. -/
  | nset (l : BitVec 3) (t : BitVec 8) (a : BitVec 6)
  /-- NSET_LC (R193): Writes a nest level whose trip comes from an lc register. -/
  | nsetLc (l : BitVec 3) (c : BitVec 8) (a : BitVec 6)
  /-- NSET_L (R193): Long form of NSET with a 30-bit immediate trip. -/
  | nsetL (l : BitVec 3) (a : BitVec 6) (t : BitVec 30)
  /-- MMA (R194): Swaps the nest halves, checks the operands and forks a matrix nest. -/
  | mma (a : BitVec 4) (b : BitVec 4) (m : BitVec 2) (n : BitVec 3) (d : BitVec 3) (x : BitVec 6)
  /-- MZERO (R199): Forks a tile-engine operation that zeroes accumulator rows. -/
  | mzero (a : BitVec 6)
  /-- MWB (R201): Writes back accumulator lanes with rounding, plain or quantising. -/
  | mwb (d : BitVec 4) (m : BitVec 2) (n : BitVec 3) (sz : BitVec 6) (b : BitVec 6)
  /-- MWB_RAW (R203): Writes back accumulator bytes unchanged. -/
  | mwbRaw (d : BitVec 4) (m : BitVec 2) (n : BitVec 3) (sz : BitVec 6)
  /-- SDGET (R200): Stores a stream descriptor to S space. -/
  | sdget (d : BitVec 6) (a : BitVec 6) (im : BitVec 10)
  /-- CPY (R255): Checks and forks a box copy on ch0, ch1 or ch3. -/
  | cpy (h : BitVec 6) (a : BitVec 6) (x : BitVec 5) (e : BitVec 1) (c : BitVec 2) (p : BitVec 1) (f : BitVec 1)
  /-- CPYF (R261): Forks a copy on ch2 from the far tier. -/
  | cpyf (h : BitVec 6) (a : BitVec 6) (x : BitVec 5) (e : BitVec 1) (p : BitVec 1) (f : BitVec 1)
  /-- GATH (R255): Forks an indexed gather copy. -/
  | gath (h : BitVec 6) (a : BitVec 6) (x : BitVec 5) (e : BitVec 1) (c : BitVec 2) (p : BitVec 1) (f : BitVec 1)
  /-- SCAT (R255): Forks an indexed scatter copy. -/
  | scat (h : BitVec 6) (a : BitVec 6) (x : BitVec 5) (e : BitVec 1) (c : BitVec 2) (p : BitVec 1) (f : BitVec 1)
  /-- HWAIT (R264): Waits for a handle to become FULL and joins the copy. -/
  | hwait (h : BitVec 6)
  /-- HWAITP (R264): Waits for WP to reach n and joins that prefix. -/
  | hwaitp (h : BitVec 6) (b : BitVec 6)
  /-- HREL (R265): Moves a handle from FULL to FREE, or from FILLING to DRAINING. -/
  | hrel (h : BitVec 6)
  /-- HSTAT (R266): Reads a handle's state, WP and TOTAL. -/
  | hstat (h : BitVec 6) (d : BitVec 6)
  /-- BXINIT (R241): Sets up a hardware barrier with a scope and EXPECT. -/
  | bxinit (x : BitVec 5) (sz : BitVec 3) (e : BitVec 6)
  /-- BXEXP (R242): Adds expected bytes to a barrier, its own, a peer's or a ring stage's. -/
  | bxexp (x : BitVec 5) (g : BitVec 1) (sz : BitVec 1) (p : BitVec 1) (c : BitVec 3) (a : BitVec 6)
  /-- BXARR (R242): Releases and arrives at a barrier with a count and bytes. -/
  | bxarr (x : BitVec 5) (g : BitVec 1) (sz : BitVec 1) (p : BitVec 1) (c : BitVec 3) (a : BitVec 6)
  /-- BXWAIT (R243): Waits for a barrier phase or a ring rotation, then acquires. -/
  | bxwait (x : BitVec 5) (g : BitVec 1) (sz : BitVec 1) (p : BitVec 6)
  /-- BXTEST (R244): Reads a barrier's or a ring's status word. -/
  | bxtest (x : BitVec 5) (g : BitVec 1) (d : BitVec 6)
  /-- RINGSET (R245): Sets up, replaces or tears down a ring region and its stage barriers. -/
  | ringset (k : BitVec 3) (c : BitVec 6)
  /-- FENCE (R237): Orders A-stream accesses at a scope, optionally joining engine operations. -/
  | fence (sz : BitVec 3) (k : BitVec 2) (e : BitVec 1)
  /-- PROMOTE (R236): Acquires the home cell's releases at a wider scope. -/
  | promote (sz : BitVec 3)
  /-- TSPAWN (R287): Creates and arms a task in the issuing task's graph. -/
  | tspawn (im : BitVec 6) (sz : BitVec 6)
  /-- TSPAWN_CREATE (R287): Creates a task without arming it. -/
  | tspawnCreate (im : BitVec 6) (sz : BitVec 6)
  /-- TSPAWN_ARM (R287): Arms a CREATED task. -/
  | tspawnArm (im : BitVec 6)
  /-- TEDGE (R288): Adds an edge from task p to task s. -/
  | tedge (p : BitVec 6) (sz : BitVec 6)
  /-- TDONE (R289): Waits for a task to become terminal and joins it. -/
  | tdone (d : BitVec 6) (t : BitVec 6)
  /-- TCANCEL (R290): Applies the cancel step to a task and returns the result code. -/
  | tcancel (d : BitVec 6) (t : BitVec 6)
  /-- FNEW (R291): Resets a future to EMPTY. -/
  | fnew (f : BitVec 6)
  /-- FREG (R292): Registers a continuation on a future, returning the prior state word. -/
  | freg (d : BitVec 6) (f : BitVec 6) (t : BitVec 6)
  /-- FRES (R292): Resolves a future with a value. -/
  | fres (f : BitVec 6) (v : BitVec 6)
  /-- FFAIL (R292): Fails a future with a code. -/
  | ffail (f : BitVec 6) (v : BitVec 6)
  /-- TYIELD (R293): Yields the cell to a higher-priority READY task through the shadow bank. -/
  | tyield
  /-- TGUARD (R294): Writes a graph guard word once. -/
  | tguard (im : BitVec 6) (v : BitVec 6)
  /-- TREC (R148): Writes the task's snapshot of a record to S space. -/
  | trec (b : BitVec 6) (im : BitVec 6)
  /-- TREC_CLR (R148): Clears a record after the earlier engine operations. -/
  | trecClr (im : BitVec 6)
  /-- TFOLD (R149): Group-wide fold of presented updates into the snapshot. -/
  | tfold (im : BitVec 6)
  /-- TVER (R150): Releases and advances a tensor's version. -/
  | tver (im : BitVec 6) (v : BitVec 6) (sz : BitVec 3)
  /-- TVWAIT (R151): Waits for a tensor version and acquires. -/
  | tvwait (im : BitVec 6) (v : BitVec 6) (sz : BitVec 3)
  /-- COLL (R364): Checks and forks a collective that arrives at a barrier on completion. -/
  | coll (a : BitVec 6) (x : BitVec 5) (p : BitVec 1)
  /-- LSTAT (R368): Reads a port's link status. -/
  | lstat (d : BitVec 6) (p : BitVec 6)
  /-- INVR (R223): Invalidates the translations of a range and waits for acknowledgement. -/
  | invr (sz : BitVec 6) (n : BitVec 6) (im : BitVec 6)
  /-- INVA (R223): Invalidates every translation of an ASID. -/
  | inva (im : BitVec 6)
  /-- PROBE (R224): Walks a G address and reports the translation. -/
  | probe (d : BitVec 6) (sz : BitVec 6)
  /-- FREPLAY_RESUME (R225): Resumes a replayed far copy. -/
  | freplayResume (t : BitVec 6)
  /-- FREPLAY_ABORT (R225): Aborts a replayed far copy as an engine fault. -/
  | freplayAbort (t : BitVec 6)
  /-- TRAP (R349): Traps to the supervisor with a code. -/
  | trap (c : BitVec 16)
  /-- ERET (R350): Resumes or ends the trapped bank from its frame. -/
  | eret (f : BitVec 6)
  /-- SRD (R351): Reads a system register. -/
  | srd (d : BitVec 6) (n : BitVec 8)
  /-- SWR (R351): Writes a system register. -/
  | swr (sz : BitVec 6) (n : BitVec 8)
  /-- NOP (R352): No effect. -/
  | nop
  /-- BRK (R349): Breakpoint trap when DEBUG is 1, otherwise a NOP. -/
  | brk (c : BitVec 16)
  /-- WFE (R352): Waits until a G word differs from a[v]. -/
  | wfe (v : BitVec 6) (a : BitVec 6)
  /-- YIELDCTX (R352): Asks the scheduler to pre-empt the context. -/
  | yieldctx
  /-- XADD (R158): X-stream add. -/
  | xadd (d : BitVec 6) (a : BitVec 6) (b : BitVec 6)
  /-- XSUB (R158): X-stream subtract. -/
  | xsub (d : BitVec 6) (a : BitVec 6) (b : BitVec 6)
  /-- XAND (R158): X-stream AND. -/
  | xand (d : BitVec 6) (a : BitVec 6) (b : BitVec 6)
  /-- XIOR (R158): X-stream OR. -/
  | xior (d : BitVec 6) (a : BitVec 6) (b : BitVec 6)
  /-- XEOR (R158): X-stream XOR. -/
  | xeor (d : BitVec 6) (a : BitVec 6) (b : BitVec 6)
  /-- XSHL (R158): X-stream shift left. -/
  | xshl (d : BitVec 6) (a : BitVec 6) (b : BitVec 6)
  /-- XSHR (R158): X-stream logical shift right. -/
  | xshr (d : BitVec 6) (a : BitVec 6) (b : BitVec 6)
  /-- XSRA (R158): X-stream arithmetic shift right. -/
  | xsra (d : BitVec 6) (a : BitVec 6) (b : BitVec 6)
  /-- XROTR (R158): X-stream rotate right. -/
  | xrotr (d : BitVec 6) (a : BitVec 6) (b : BitVec 6)
  /-- XMIN (R158): X-stream signed minimum. -/
  | xmin (d : BitVec 6) (a : BitVec 6) (b : BitVec 6)
  /-- XMAX (R158): X-stream signed maximum. -/
  | xmax (d : BitVec 6) (a : BitVec 6) (b : BitVec 6)
  /-- XMINU (R158): X-stream unsigned minimum. -/
  | xminu (d : BitVec 6) (a : BitVec 6) (b : BitVec 6)
  /-- XMAXU (R158): X-stream unsigned maximum. -/
  | xmaxu (d : BitVec 6) (a : BitVec 6) (b : BitVec 6)
  /-- XSLT (R158): X-stream signed set-less-than. -/
  | xslt (d : BitVec 6) (a : BitVec 6) (b : BitVec 6)
  /-- XSLTU (R158): X-stream unsigned set-less-than. -/
  | xsltu (d : BitVec 6) (a : BitVec 6) (b : BitVec 6)
  /-- XSEQ (R158): X-stream set if equal. -/
  | xseq (d : BitVec 6) (a : BitVec 6) (b : BitVec 6)
  /-- XMUL (R158): X-stream multiply. -/
  | xmul (d : BitVec 6) (a : BitVec 6) (b : BitVec 6)
  /-- XMULH (R158): X-stream signed high multiply. -/
  | xmulh (d : BitVec 6) (a : BitVec 6) (b : BitVec 6)
  /-- XMULHU (R158): X-stream unsigned high multiply. -/
  | xmulhu (d : BitVec 6) (a : BitVec 6) (b : BitVec 6)
  /-- XDIV (R158): X-stream signed divide. -/
  | xdiv (d : BitVec 6) (a : BitVec 6) (b : BitVec 6)
  /-- XDIVU (R158): X-stream unsigned divide. -/
  | xdivu (d : BitVec 6) (a : BitVec 6) (b : BitVec 6)
  /-- XREM (R158): X-stream signed remainder. -/
  | xrem (d : BitVec 6) (a : BitVec 6) (b : BitVec 6)
  /-- XREMU (R158): X-stream unsigned remainder. -/
  | xremu (d : BitVec 6) (a : BitVec 6) (b : BitVec 6)
  /-- XSEL (R158): X-stream select on the old x[d]. -/
  | xsel (d : BitVec 6) (a : BitVec 6) (b : BitVec 6)
  /-- XADDI (R159): X-stream add immediate. -/
  | xaddi (d : BitVec 6) (a : BitVec 6) (im : BitVec 10)
  /-- XADDI_L (R159): Long form of XADDI. -/
  | xaddiL (d : BitVec 6) (a : BitVec 6) (im : BitVec 30)
  /-- XSHLI (R159): X-stream shift left by an immediate. -/
  | xshli (d : BitVec 6) (a : BitVec 6) (k : BitVec 6)
  /-- XSHLI_L (R159): Long form of XSHLI. -/
  | xshliL (d : BitVec 6) (a : BitVec 6) (k : BitVec 6)
  /-- XSHRI (R159): X-stream logical shift right by an immediate. -/
  | xshri (d : BitVec 6) (a : BitVec 6) (k : BitVec 6)
  /-- XSHRI_L (R159): Long form of XSHRI. -/
  | xshriL (d : BitVec 6) (a : BitVec 6) (k : BitVec 6)
  /-- XSRAI (R159): X-stream arithmetic shift right by an immediate. -/
  | xsrai (d : BitVec 6) (a : BitVec 6) (k : BitVec 6)
  /-- XSRAI_L (R159): Long form of XSRAI. -/
  | xsraiL (d : BitVec 6) (a : BitVec 6) (k : BitVec 6)
  /-- XROTI (R159): X-stream rotate right by an immediate. -/
  | xroti (d : BitVec 6) (a : BitVec 6) (k : BitVec 6)
  /-- XROTI_L (R159): Long form of XROTI. -/
  | xrotiL (d : BitVec 6) (a : BitVec 6) (k : BitVec 6)
  /-- XLI (R160): X-stream load immediate. -/
  | xli (d : BitVec 6) (im : BitVec 16)
  /-- XLIH (R160): X-stream shift and add immediate. -/
  | xlih (d : BitVec 6) (im : BitVec 16)
  /-- XQPOP (R161): Pops a scalar from a qx queue. -/
  | xqpop (d : BitVec 6) (a : BitVec 6)
  /-- XQPUSH (R161): Pushes a scalar into a qa queue. -/
  | xqpush (d : BitVec 6) (a : BitVec 6)
  /-- VADD (R162): Lane-wise add. -/
  | vadd (d : BitVec 6) (a : BitVec 6) (b : BitVec 6) (p : BitVec 4)
  /-- VADD_L (R162): Long form of VADD. -/
  | vaddL (d : BitVec 6) (a : BitVec 6) (b : BitVec 6) (p : BitVec 4) (ty : BitVec 4) (rnd : BitVec 3)
  /-- VSUB (R162): Lane-wise subtract. -/
  | vsub (d : BitVec 6) (a : BitVec 6) (b : BitVec 6) (p : BitVec 4)
  /-- VSUB_L (R162): Long form of VSUB. -/
  | vsubL (d : BitVec 6) (a : BitVec 6) (b : BitVec 6) (p : BitVec 4) (ty : BitVec 4) (rnd : BitVec 3)
  /-- VMUL (R162): Lane-wise multiply. -/
  | vmul (d : BitVec 6) (a : BitVec 6) (b : BitVec 6) (p : BitVec 4)
  /-- VMUL_L (R162): Long form of VMUL. -/
  | vmulL (d : BitVec 6) (a : BitVec 6) (b : BitVec 6) (p : BitVec 4) (ty : BitVec 4) (rnd : BitVec 3)
  /-- VFMA (R162): Fused a × b + c, with c the destination in the short form. -/
  | vfma (d : BitVec 6) (a : BitVec 6) (b : BitVec 6) (p : BitVec 4)
  /-- VFMA_L (R162): Long form of VFMA. -/
  | vfmaL (d : BitVec 6) (a : BitVec 6) (b : BitVec 6) (p : BitVec 4) (c : BitVec 6) (ty : BitVec 4) (rnd : BitVec 3)
  /-- VFMS (R162): Fused a × b − c. -/
  | vfms (d : BitVec 6) (a : BitVec 6) (b : BitVec 6) (p : BitVec 4)
  /-- VFMS_L (R162): Long form of VFMS. -/
  | vfmsL (d : BitVec 6) (a : BitVec 6) (b : BitVec 6) (p : BitVec 4) (c : BitVec 6) (ty : BitVec 4) (rnd : BitVec 3)
  /-- VFNMA (R162): Fused c − a × b. -/
  | vfnma (d : BitVec 6) (a : BitVec 6) (b : BitVec 6) (p : BitVec 4)
  /-- VFNMA_L (R162): Long form of VFNMA. -/
  | vfnmaL (d : BitVec 6) (a : BitVec 6) (b : BitVec 6) (p : BitVec 4) (c : BitVec 6) (ty : BitVec 4) (rnd : BitVec 3)
  /-- VMIN (R162): Lane-wise minimum. -/
  | vmin (d : BitVec 6) (a : BitVec 6) (b : BitVec 6) (p : BitVec 4)
  /-- VMIN_L (R162): Long form of VMIN. -/
  | vminL (d : BitVec 6) (a : BitVec 6) (b : BitVec 6) (p : BitVec 4) (ty : BitVec 4)
  /-- VMAX (R162): Lane-wise maximum. -/
  | vmax (d : BitVec 6) (a : BitVec 6) (b : BitVec 6) (p : BitVec 4)
  /-- VMAX_L (R162): Long form of VMAX. -/
  | vmaxL (d : BitVec 6) (a : BitVec 6) (b : BitVec 6) (p : BitVec 4) (ty : BitVec 4)
  /-- VABS (R162): Lane-wise absolute value. -/
  | vabs (d : BitVec 6) (a : BitVec 6) (p : BitVec 4)
  /-- VABS_L (R162): Long form of VABS. -/
  | vabsL (d : BitVec 6) (a : BitVec 6) (p : BitVec 4) (ty : BitVec 4)
  /-- VNEG (R162): Lane-wise negation. -/
  | vneg (d : BitVec 6) (a : BitVec 6) (p : BitVec 4)
  /-- VNEG_L (R162): Long form of VNEG. -/
  | vnegL (d : BitVec 6) (a : BitVec 6) (p : BitVec 4) (ty : BitVec 4)
  /-- VDIV (R162): Lane-wise floating division. -/
  | vdiv (d : BitVec 6) (a : BitVec 6) (b : BitVec 6) (p : BitVec 4)
  /-- VDIV_L (R162): Long form of VDIV. -/
  | vdivL (d : BitVec 6) (a : BitVec 6) (b : BitVec 6) (p : BitVec 4) (ty : BitVec 4) (rnd : BitVec 3)
  /-- VSQRT (R162): Lane-wise square root. -/
  | vsqrt (d : BitVec 6) (a : BitVec 6) (p : BitVec 4)
  /-- VSQRT_L (R162): Long form of VSQRT. -/
  | vsqrtL (d : BitVec 6) (a : BitVec 6) (p : BitVec 4) (ty : BitVec 4) (rnd : BitVec 3)
  /-- VSEL (R162): Lane-wise select by predicate. -/
  | vsel (d : BitVec 6) (a : BitVec 6) (b : BitVec 6) (p : BitVec 4)
  /-- VSEL_L (R162): Long form of VSEL. -/
  | vselL (d : BitVec 6) (a : BitVec 6) (b : BitVec 6) (p : BitVec 4) (ty : BitVec 4)
  /-- VMOV (R162): Lane-wise copy. -/
  | vmov (d : BitVec 6) (a : BitVec 6) (p : BitVec 4)
  /-- VMOV_L (R162): Long form of VMOV. -/
  | vmovL (d : BitVec 6) (a : BitVec 6) (p : BitVec 4) (ty : BitVec 4)
  /-- EXP2 (R163): Correctly rounded 2^a. -/
  | exp2 (d : BitVec 6) (a : BitVec 6) (p : BitVec 4)
  /-- EXP2_L (R163): Long form of EXP2. -/
  | exp2L (d : BitVec 6) (a : BitVec 6) (p : BitVec 4) (ty : BitVec 4) (rnd : BitVec 3)
  /-- LOG2 (R163): Correctly rounded log2 a; long form only. -/
  | log2 (d : BitVec 6) (a : BitVec 6) (p : BitVec 4) (ty : BitVec 4) (rnd : BitVec 3)
  /-- RCP (R163): Correctly rounded reciprocal; long form only. -/
  | rcp (d : BitVec 6) (a : BitVec 6) (p : BitVec 4) (ty : BitVec 4) (rnd : BitVec 3)
  /-- RSQ (R163): Correctly rounded reciprocal square root; long form only. -/
  | rsq (d : BitVec 6) (a : BitVec 6) (p : BitVec 4) (ty : BitVec 4) (rnd : BitVec 3)
  /-- TANH (R163): Correctly rounded tanh; long form only. -/
  | tanh (d : BitVec 6) (a : BitVec 6) (p : BitVec 4) (ty : BitVec 4) (rnd : BitVec 3)
  /-- SIGM (R163): Correctly rounded sigmoid; long form only. -/
  | sigm (d : BitVec 6) (a : BitVec 6) (p : BitVec 4) (ty : BitVec 4) (rnd : BitVec 3)
  /-- VCMP (R164): Lane compare into a predicate; the short form compares EQ with no limit. -/
  | vcmp (d : BitVec 6) (a : BitVec 6) (b : BitVec 6) (p : BitVec 4)
  /-- VCMP_L (R164): Long form of VCMP with a condition and a count limit. -/
  | vcmpL (d : BitVec 6) (a : BitVec 6) (b : BitVec 6) (p : BitVec 4) (ty : BitVec 4) (cond : BitVec 4) (lim : BitVec 5)
  /-- PAND (R165): Predicate AND. -/
  | pand (d : BitVec 6) (a : BitVec 6) (b : BitVec 6) (p : BitVec 4)
  /-- PAND_L (R165): Long form of PAND. -/
  | pandL (d : BitVec 6) (a : BitVec 6) (b : BitVec 6) (p : BitVec 4) (ty : BitVec 4) (lim : BitVec 5)
  /-- POR (R165): Predicate OR. -/
  | por (d : BitVec 6) (a : BitVec 6) (b : BitVec 6) (p : BitVec 4)
  /-- POR_L (R165): Long form of POR. -/
  | porL (d : BitVec 6) (a : BitVec 6) (b : BitVec 6) (p : BitVec 4) (ty : BitVec 4) (lim : BitVec 5)
  /-- PNOT (R165): Predicate NOT. -/
  | pnot (d : BitVec 6) (a : BitVec 6) (p : BitVec 4)
  /-- PNOT_L (R165): Long form of PNOT. -/
  | pnotL (d : BitVec 6) (a : BitVec 6) (p : BitVec 4) (ty : BitVec 4) (lim : BitVec 5)
  /-- PCNT (R166): Counts the set active predicate bits. -/
  | pcnt (d : BitVec 6) (a : BitVec 6) (p : BitVec 4)
  /-- PCNT_L (R166): Long form of PCNT. -/
  | pcntL (d : BitVec 6) (a : BitVec 6) (p : BitVec 4) (ty : BitVec 4)
  /-- PFIRST (R166): Index of the first set active predicate bit; long form only. -/
  | pfirst (d : BitVec 6) (a : BitVec 6) (p : BitVec 4) (ty : BitVec 4)
  /-- VRSUM (R167): Fixed-tree sum of the active lanes into an x register. -/
  | vrsum (d : BitVec 6) (a : BitVec 6) (p : BitVec 4)
  /-- VRSUM_L (R167): Long form of VRSUM. -/
  | vrsumL (d : BitVec 6) (a : BitVec 6) (p : BitVec 4) (ty : BitVec 4) (rnd : BitVec 3)
  /-- VRMAX (R167): Fixed-tree maximum. -/
  | vrmax (d : BitVec 6) (a : BitVec 6) (p : BitVec 4)
  /-- VRMAX_L (R167): Long form of VRMAX. -/
  | vrmaxL (d : BitVec 6) (a : BitVec 6) (p : BitVec 4) (ty : BitVec 4)
  /-- VRMIN (R167): Fixed-tree minimum. -/
  | vrmin (d : BitVec 6) (a : BitVec 6) (p : BitVec 4)
  /-- VRMIN_L (R167): Long form of VRMIN. -/
  | vrminL (d : BitVec 6) (a : BitVec 6) (p : BitVec 4) (ty : BitVec 4)
  /-- VRAMAX (R167): Fixed-tree maximum magnitude. -/
  | vramax (d : BitVec 6) (a : BitVec 6) (p : BitVec 4)
  /-- VRAMAX_L (R167): Long form of VRAMAX. -/
  | vramaxL (d : BitVec 6) (a : BitVec 6) (p : BitVec 4) (ty : BitVec 4)
  /-- VSCAN (R168): Sequential prefix sum with a carry from an x register. -/
  | vscan (d : BitVec 6) (a : BitVec 6) (b : BitVec 6) (p : BitVec 4)
  /-- VSCAN_L (R168): Long form of VSCAN. -/
  | vscanL (d : BitVec 6) (a : BitVec 6) (b : BitVec 6) (p : BitVec 4) (ty : BitVec 4) (rnd : BitVec 3)
  /-- VSORTK (R170): Stable key and payload sort, descending in the short form. -/
  | vsortk (d : BitVec 6) (a : BitVec 6) (p : BitVec 4)
  /-- VSORTK_L (R170): Long form of VSORTK, with an ascending choice. -/
  | vsortkL (d : BitVec 6) (a : BitVec 6) (p : BitVec 4) (ty : BitVec 4) (asc : BitVec 1)
  /-- VMERGEK (R171): Stable merge of two key and payload pairs. -/
  | vmergek (d : BitVec 6) (a : BitVec 6) (b : BitVec 6) (p : BitVec 4)
  /-- VMERGEK_L (R171): Long form of VMERGEK with a second destination. -/
  | vmergekL (d : BitVec 6) (a : BitVec 6) (b : BitVec 6) (p : BitVec 4) (c : BitVec 6) (ty : BitVec 4) (asc : BitVec 1)
  /-- VPERM (R172): Lane permutation by an index row. -/
  | vperm (d : BitVec 6) (a : BitVec 6) (b : BitVec 6) (p : BitVec 4)
  /-- VPERM_L (R172): Long form of VPERM. -/
  | vpermL (d : BitVec 6) (a : BitVec 6) (b : BitVec 6) (p : BitVec 4) (ty : BitVec 4)
  /-- VCVT (R173): Converts between element types by part; long form only. -/
  | vcvt (d : BitVec 6) (a : BitVec 6) (p : BitVec 4) (ty : BitVec 4) (rnd : BitVec 3) (sty : BitVec 4) (part : BitVec 3)
  /-- VQNT (R176): Quantises a row into packed block-scaled elements and writes shifts and ETS. -/
  | vqnt (d : BitVec 6) (a : BitVec 6) (b : BitVec 6) (p : BitVec 4)
  /-- VQNT_L (R176): Long form of VQNT with pos and type. -/
  | vqntL (d : BitVec 6) (a : BitVec 6) (b : BitVec 6) (p : BitVec 4) (ty : BitVec 4) (rnd : BitVec 3) (pos : BitVec 3)
  /-- VDQNT (R177): Dequantises packed elements using the shift array. -/
  | vdqnt (d : BitVec 6) (a : BitVec 6) (b : BitVec 6) (p : BitVec 4)
  /-- VDQNT_L (R177): Long form of VDQNT. -/
  | vdqntL (d : BitVec 6) (a : BitVec 6) (b : BitVec 6) (p : BitVec 4) (ty : BitVec 4) (rnd : BitVec 3) (pos : BitVec 3)
  /-- VBCAST (R174): Broadcasts an x register into the lanes. -/
  | vbcast (d : BitVec 6) (a : BitVec 6) (p : BitVec 4)
  /-- VBCAST_L (R174): Long form of the x-register broadcast. -/
  | vbcastL (d : BitVec 6) (a : BitVec 6) (p : BitVec 4) (ty : BitVec 4) (rnd : BitVec 3)
  /-- VBCAST_LANE (R174): Broadcasts one lane chosen by an x register (minor 1); long form only. -/
  | vbcastLane (d : BitVec 6) (a : BitVec 6) (b : BitVec 6) (p : BitVec 4) (ty : BitVec 4)
  /-- VRNG (R178): Counter-generator uniform values; advances sr.seed_ctr. -/
  | vrng (d : BitVec 6) (p : BitVec 4)
  /-- VRNG_L (R178): Long form of the uniform VRNG with a type. -/
  | vrngL (d : BitVec 6) (p : BitVec 4) (ty : BitVec 4)
  /-- VRNG_RAW (R178): Raw counter-generator bits (minor 1); long form only. -/
  | vrngRaw (d : BitVec 6) (p : BitVec 4) (ty : BitVec 4)
  /-- VIOTA (R179): Writes s + i into each active lane. -/
  | viota (d : BitVec 6) (a : BitVec 6) (p : BitVec 4)
  /-- VIOTA_L (R179): Long form of VIOTA, with the RAW choice. -/
  | viotaL (d : BitVec 6) (a : BitVec 6) (p : BitVec 4) (ty : BitVec 4) (rnd : BitVec 3) (raw : BitVec 1)
  /-- VLDI (R180): Writes the rounded m × 2^e into each active lane. -/
  | vldi (d : BitVec 6) (m : BitVec 12) (p : BitVec 4)
  /-- VLDI_L (R180): Long form of VLDI with an exponent. -/
  | vldiL (d : BitVec 6) (m : BitVec 12) (p : BitVec 4) (ty : BitVec 4) (rnd : BitVec 3) (ex : BitVec 8)
  /-- VQPOP (R181): Pops a row from a qx queue into a v register. -/
  | vqpop (d : BitVec 6) (a : BitVec 6) (p : BitVec 4)
  /-- VQPOP_L (R181): Long form of VQPOP. -/
  | vqpopL (d : BitVec 6) (a : BitVec 6) (p : BitVec 4) (ty : BitVec 4)
  /-- VWIN (R182): Sets sr.vwin and optionally retags the tile. -/
  | vwin (t : BitVec 3) (w : BitVec 16)
  /-- BQ (R119): Shared conditional branch, its outcome passed through bq. -/
  | bq (c : BitVec 4) (a : BitVec 6) (b : BitVec 6) (o : BitVec 6)
  /-- BQ_L (R119): Long form of BQ. -/
  | bqL (c : BitVec 4) (a : BitVec 6) (b : BitVec 6) (o : BitVec 30)
  /-- LOOP (R120): Shared loop head that skips the body when lc is 0. -/
  | loop (c : BitVec 6) (o : BitVec 16)
  /-- ENDL (R120): Shared loop end that decrements lc and repeats. -/
  | endl (c : BitVec 6) (o : BitVec 16)
  /-- SYNC (R121): Pairs the two streams' SYNC words. -/
  | sync
  /-- WIN (R122): Sets the executing stream's sr.window. -/
  | win (n : BitVec 16)
  /-- FPC_ALL (R123): FPC mode 0: sets DAZ, FTZ and RM. -/
  | fpcAll (z : BitVec 1) (f : BitVec 1) (r : BitVec 3)
  /-- FPC_RM (R123): FPC mode 1: sets RM. -/
  | fpcRm (r : BitVec 3)
  /-- FPC_DAZ_FTZ (R123): FPC mode 2: sets DAZ and FTZ. -/
  | fpcDazFtz (z : BitVec 1) (f : BitVec 1)
  /-- HALT (R305): Ends a pass after both streams meet and every engine operation drains. -/
  | halt
  /-- OPCODE_UNDEF (R47): A stream decodes a word tagged for it whose major opcode, sub-code or required-zero field is unassigned, and it faults OPCODE_UNDEF; an S word faults once, when both streams have reached it. -/
  | opcodeUndef (shared : Bool)
  /-- FETCH_MALFORMED (R29): A stream fetches a first word outside TEXT or at an address not a multiple of 4, or an L = 1 first word that is the last word of TEXT, and faults FETCH_MALFORMED with sr.fva the target. -/
  | fetchMalformed (fva : Word)
  deriving DecidableEq, Repr

end Sys2Proof
end

