-- ==== Sys2Proof/Decode.lean ====
section
/-! DEFINITION. Decoding: kernel text to instructions, total on any bytes, and the encoder.

The first word's TAG, L and MAJOR fields select the instruction (R27, R44 to R46); a code that no table assigns and a
nonzero value in a field required to be 0 are OPCODE_UNDEF (R33, R47).  These are checks 2 to 5 of R49; the later
checks of an instruction are in its meaning. -/

namespace Sys2Proof

/-- Why words are not an instruction (checks 2 to 5 and 7 of R49). -/
inductive DecodeErr where
  /-- the first word has TAG 0b11, or is not there: FETCH_MALFORMED at the first word -/
  | badFirst
  /-- L is 1 and the next word is missing or does not have TAG 0b11: FETCH_MALFORMED at the next word -/
  | badExt
  /-- an unassigned code or a nonzero required-zero field: OPCODE_UNDEF -/
  | undef
  /-- an XSHI immediate outside 0 to 255 (R159), which no row of the table covers: OPERAND_ILLEGAL -/
  | illegal
  deriving DecidableEq, Repr

/-- The field of `n` bits whose lowest bit is `lo`. -/
def fld (w : IWord) (lo n : Nat) : BitVec n := w.extractLsb' lo n

/-- TAG, bits [31:30] (R27). -/
def tagOf (w : IWord) : BitVec 2 := fld w 30 2

/-- L, bit [29] (R27): one extension word follows. -/
def longOf (w : IWord) : Bool := fld w 29 1 == 1#1

/-- MAJOR, bits [28:22] (R27). -/
def majorOf (w : IWord) : Nat := (fld w 22 7).toNat

/-- BXEXP and BXARR (R242): with RING the two high bits of bx are 0, without RING SEL is 0, without PEER CELL is 0. -/
def arriveFieldsOk (x : BitVec 5) (g sel p : BitVec 1) (c : BitVec 3) : Bool :=
  (g == 0#1 || x.extractLsb' 3 2 == 0#2) && (g == 1#1 || sel == 0#1) && (p == 1#1 || c == 0#3)

/-- BXWAIT (R243): as for BXARR, and the ring forms name no phase register. -/
def waitFieldsOk (x : BitVec 5) (g sel : BitVec 1) (p : BitVec 6) : Bool :=
  (g == 0#1 || (x.extractLsb' 3 2 == 0#2 && p == 0#6)) && (g == 1#1 || sel == 0#1)

/-- BXTEST (R244): with RING the two high bits of bx are 0. -/
def ringFieldOk (x : BitVec 5) (g : BitVec 1) : Bool := g == 0#1 || x.extractLsb' 3 2 == 0#2

/-- The copy word (R255): without B, bx and PAR are 0. -/
def copyFieldsOk (x : BitVec 5) (b par : BitVec 1) : Bool := b == 1#1 || (x == 0#5 && par == 0#1)

/-- `some i` when the required-zero and sub-code tests hold. -/
def onlyIf (b : Bool) (i : Instr) : Option Instr := if b then some i else none

/-- The A space, one word (R44). `none` is OPCODE_UNDEF. -/
noncomputable def decodeAShort (w : IWord) : Option Instr :=
  match majorOf w with
  | 0x00 => match (fld w 0 4).toNat with
    | 0 => some (.add (fld w 16 6) (fld w 10 6) (fld w 4 6))
    | 1 => some (.sub (fld w 16 6) (fld w 10 6) (fld w 4 6))
    | 2 => some (.and (fld w 16 6) (fld w 10 6) (fld w 4 6))
    | 3 => some (.or (fld w 16 6) (fld w 10 6) (fld w 4 6))
    | 4 => some (.xor (fld w 16 6) (fld w 10 6) (fld w 4 6))
    | 5 => some (.shl (fld w 16 6) (fld w 10 6) (fld w 4 6))
    | 6 => some (.shr (fld w 16 6) (fld w 10 6) (fld w 4 6))
    | 7 => some (.sra (fld w 16 6) (fld w 10 6) (fld w 4 6))
    | 8 => some (.rotr (fld w 16 6) (fld w 10 6) (fld w 4 6))
    | 9 => some (.min (fld w 16 6) (fld w 10 6) (fld w 4 6))
    | 10 => some (.max (fld w 16 6) (fld w 10 6) (fld w 4 6))
    | 11 => some (.minu (fld w 16 6) (fld w 10 6) (fld w 4 6))
    | 12 => some (.maxu (fld w 16 6) (fld w 10 6) (fld w 4 6))
    | 13 => some (.slt (fld w 16 6) (fld w 10 6) (fld w 4 6))
    | 14 => some (.sltu (fld w 16 6) (fld w 10 6) (fld w 4 6))
    | 15 => some (.seq (fld w 16 6) (fld w 10 6) (fld w 4 6))
    | _ => none
  | 0x01 => match (fld w 0 4).toNat with
    | 0 => some (.mul (fld w 16 6) (fld w 10 6) (fld w 4 6))
    | 1 => some (.mulh (fld w 16 6) (fld w 10 6) (fld w 4 6))
    | 2 => some (.mulhu (fld w 16 6) (fld w 10 6) (fld w 4 6))
    | 3 => some (.div (fld w 16 6) (fld w 10 6) (fld w 4 6))
    | 4 => some (.divu (fld w 16 6) (fld w 10 6) (fld w 4 6))
    | 5 => some (.rem (fld w 16 6) (fld w 10 6) (fld w 4 6))
    | 6 => some (.remu (fld w 16 6) (fld w 10 6) (fld w 4 6))
    | 7 => some (.sel (fld w 16 6) (fld w 10 6) (fld w 4 6))
    | _ => none
  | 0x02 =>
    if fld w 0 10 == 0#10 then some (.clz (fld w 16 6) (fld w 10 6))
    else if fld w 0 10 == 1#10 then some (.ctz (fld w 16 6) (fld w 10 6))
    else if fld w 0 10 == 2#10 then some (.popc (fld w 16 6) (fld w 10 6))
    else if fld w 0 4 == 3#4 then some (.sext (fld w 16 6) (fld w 10 6) (fld w 4 6))
    else if fld w 0 4 == 4#4 then some (.zext (fld w 16 6) (fld w 10 6) (fld w 4 6))
    else if fld w 0 10 == 5#10 then some (.bswap (fld w 16 6) (fld w 10 6))
    else none
  | 0x03 => some (.bfx (fld w 16 6) (fld w 10 6) (fld w 0 10))
  | 0x04 => some (.bfi (fld w 16 6) (fld w 10 6) (fld w 0 10))
  | 0x08 => some (.addi (fld w 16 6) (fld w 10 6) (fld w 0 10))
  | 0x09 => some (.andi (fld w 16 6) (fld w 10 6) (fld w 0 10))
  | 0x0a => some (.ori (fld w 16 6) (fld w 10 6) (fld w 0 10))
  | 0x0b => some (.xori (fld w 16 6) (fld w 10 6) (fld w 0 10))
  | 0x0c => some (.shli (fld w 16 6) (fld w 10 6) (fld w 0 10))
  | 0x0d => some (.shri (fld w 16 6) (fld w 10 6) (fld w 0 10))
  | 0x0e => some (.srai (fld w 16 6) (fld w 10 6) (fld w 0 10))
  | 0x0f => some (.slti (fld w 16 6) (fld w 10 6) (fld w 0 10))
  | 0x10 => some (.sltiu (fld w 16 6) (fld w 10 6) (fld w 0 10))
  | 0x11 => some (.seqi (fld w 16 6) (fld w 10 6) (fld w 0 10))
  | 0x12 => some (.muli (fld w 16 6) (fld w 10 6) (fld w 0 10))
  | 0x13 => some (.li (fld w 16 6) (fld w 0 16))
  | 0x14 => some (.lih (fld w 16 6) (fld w 0 16))
  | 0x18 => onlyIf (fld w 0 10 == 0#10) (.qpush (fld w 16 6) (fld w 10 6))
  | 0x19 => onlyIf (fld w 0 10 == 0#10) (.qpopa (fld w 16 6) (fld w 10 6))
  | 0x20 => some (.lds (fld w 16 6) (fld w 10 6) (fld w 8 2) (fld w 0 8))
  | 0x21 => some (.sts (fld w 16 6) (fld w 10 6) (fld w 8 2) (fld w 0 8))
  | 0x22 => some (.ldc (fld w 16 6) (fld w 10 6) (fld w 8 2) (fld w 0 8))
  | 0x23 => some (.stc (fld w 16 6) (fld w 10 6) (fld w 8 2) (fld w 0 8))
  | 0x24 => some (.ldg (fld w 16 6) (fld w 10 6) (fld w 8 2) (fld w 0 8))
  | 0x25 => some (.stg (fld w 16 6) (fld w 10 6) (fld w 8 2) (fld w 0 8))
  | 0x26 => some (.ldr (fld w 16 6) (fld w 10 6) (fld w 8 2) (fld w 0 8))
  | 0x27 => some (.str (fld w 16 6) (fld w 10 6) (fld w 8 2) (fld w 0 8))
  | 0x28 => some (.ldgv (fld w 16 6) (fld w 10 6) (fld w 8 2) (fld w 0 8))
  | 0x29 => onlyIf (((fld w 8 2) != 1#2)) (.ldvq (fld w 16 6) (fld w 10 6) (fld w 8 2) (fld w 0 8))
  | 0x2a => onlyIf (((fld w 8 2) == 0#2 || (fld w 8 2) == 2#2)) (.stvq (fld w 16 6) (fld w 10 6) (fld w 8 2) (fld w 0 8))
  | 0x2b => onlyIf (fld w 16 6 == 0#6 && fld w 8 2 == 0#2) (.cpre (fld w 10 6) (fld w 0 8))
  | 0x2c => some (.amog (fld w 16 6) (fld w 10 6) (fld w 8 2) (fld w 0 8))
  | 0x2d => some (.amos (fld w 16 6) (fld w 10 6) (fld w 8 2) (fld w 0 8))
  | 0x2e => some (.casg (fld w 16 6) (fld w 10 6) (fld w 8 2) (fld w 0 8))
  | 0x2f => some (.cass (fld w 16 6) (fld w 10 6) (fld w 8 2) (fld w 0 8))
  | 0x30 => some (.b (fld w 0 22))
  | 0x31 => onlyIf ((decide ((fld w 18 4).toNat < 6))) (.bc (fld w 18 4) (fld w 12 6) (fld w 6 6) (fld w 0 6))
  | 0x32 => some (.call (fld w 0 22))
  | 0x33 => onlyIf (fld w 16 6 == 0#6 && fld w 0 10 == 0#10) (.ret (fld w 10 6))
  | 0x34 => onlyIf (fld w 0 10 == 0#10) (.ji (fld w 16 6) (fld w 10 6))
  | 0x35 => onlyIf (fld w 18 4 == 0#4 && fld w 6 6 == 0#6) (.bqp (fld w 12 6) (fld w 0 6))
  | 0x38 => some (.lset (fld w 16 6) (fld w 10 6) (fld w 0 10))
  | 0x39 => some (.sdset (fld w 16 6) (fld w 10 6) (fld w 0 10))
  | 0x3a =>
    if fld w 18 1 == 0#1 && fld w 0 4 == 0#4 then some (.nset (fld w 19 3) (fld w 10 8) (fld w 4 6))
    else if fld w 18 1 == 1#1 && fld w 0 4 == 0#4 then some (.nsetLc (fld w 19 3) (fld w 10 8) (fld w 4 6))
    else none
  | 0x3b => some (.mma (fld w 18 4) (fld w 14 4) (fld w 12 2) (fld w 9 3) (fld w 6 3) (fld w 0 6))
  | 0x3c => onlyIf (fld w 16 6 == 0#6 && fld w 0 10 == 0#10) (.mzero (fld w 10 6))
  | 0x3d =>
    if fld w 12 1 == 0#1 then some (.mwb (fld w 18 4) (fld w 16 2) (fld w 13 3) (fld w 6 6) (fld w 0 6))
    else if fld w 12 1 == 1#1 && fld w 0 6 == 0#6 then some (.mwbRaw (fld w 18 4) (fld w 16 2) (fld w 13 3) (fld w 6 6))
    else none
  | 0x3e => some (.sdget (fld w 16 6) (fld w 10 6) (fld w 0 10))
  | 0x40 => onlyIf ((copyFieldsOk (fld w 5 5) (fld w 4 1) (fld w 1 1))) (.cpy (fld w 16 6) (fld w 10 6) (fld w 5 5) (fld w 4 1) (fld w 2 2) (fld w 1 1) (fld w 0 1))
  | 0x41 => onlyIf (fld w 2 2 == 0#2 && (copyFieldsOk (fld w 5 5) (fld w 4 1) (fld w 1 1))) (.cpyf (fld w 16 6) (fld w 10 6) (fld w 5 5) (fld w 4 1) (fld w 1 1) (fld w 0 1))
  | 0x42 => onlyIf ((copyFieldsOk (fld w 5 5) (fld w 4 1) (fld w 1 1))) (.gath (fld w 16 6) (fld w 10 6) (fld w 5 5) (fld w 4 1) (fld w 2 2) (fld w 1 1) (fld w 0 1))
  | 0x43 => onlyIf ((copyFieldsOk (fld w 5 5) (fld w 4 1) (fld w 1 1))) (.scat (fld w 16 6) (fld w 10 6) (fld w 5 5) (fld w 4 1) (fld w 2 2) (fld w 1 1) (fld w 0 1))
  | 0x44 => onlyIf (fld w 0 16 == 0#16) (.hwait (fld w 16 6))
  | 0x45 => onlyIf (fld w 0 10 == 0#10) (.hwaitp (fld w 16 6) (fld w 10 6))
  | 0x46 => onlyIf (fld w 0 16 == 0#16) (.hrel (fld w 16 6))
  | 0x47 => onlyIf (fld w 0 10 == 0#10) (.hstat (fld w 16 6) (fld w 10 6))
  | 0x48 => onlyIf (fld w 0 8 == 0#8) (.bxinit (fld w 17 5) (fld w 14 3) (fld w 8 6))
  | 0x49 => onlyIf (fld w 0 5 == 0#5 && (arriveFieldsOk (fld w 17 5) (fld w 16 1) (fld w 15 1) (fld w 14 1) (fld w 11 3))) (.bxexp (fld w 17 5) (fld w 16 1) (fld w 15 1) (fld w 14 1) (fld w 11 3) (fld w 5 6))
  | 0x4a => onlyIf (fld w 0 5 == 0#5 && (arriveFieldsOk (fld w 17 5) (fld w 16 1) (fld w 15 1) (fld w 14 1) (fld w 11 3))) (.bxarr (fld w 17 5) (fld w 16 1) (fld w 15 1) (fld w 14 1) (fld w 11 3) (fld w 5 6))
  | 0x4b => onlyIf (fld w 11 4 == 0#4 && fld w 0 5 == 0#5 && (waitFieldsOk (fld w 17 5) (fld w 16 1) (fld w 15 1) (fld w 5 6))) (.bxwait (fld w 17 5) (fld w 16 1) (fld w 15 1) (fld w 5 6))
  | 0x4c => onlyIf (fld w 0 10 == 0#10 && (ringFieldOk (fld w 17 5) (fld w 16 1))) (.bxtest (fld w 17 5) (fld w 16 1) (fld w 10 6))
  | 0x4d => onlyIf (fld w 0 13 == 0#13) (.ringset (fld w 19 3) (fld w 13 6))
  | 0x4e => onlyIf (fld w 0 16 == 0#16) (.fence (fld w 19 3) (fld w 17 2) (fld w 16 1))
  | 0x4f => onlyIf (fld w 0 19 == 0#19) (.promote (fld w 19 3))
  | 0x50 =>
    if fld w 0 10 == 0x100#10 then some (.tspawn (fld w 16 6) (fld w 10 6))
    else if fld w 0 10 == 0#10 then some (.tspawnCreate (fld w 16 6) (fld w 10 6))
    else if fld w 0 16 == 0x200#16 then some (.tspawnArm (fld w 16 6))
    else none
  | 0x51 => onlyIf (fld w 0 10 == 0#10) (.tedge (fld w 16 6) (fld w 10 6))
  | 0x52 => onlyIf (fld w 0 10 == 0#10) (.tdone (fld w 16 6) (fld w 10 6))
  | 0x53 => onlyIf (fld w 0 10 == 0#10) (.tcancel (fld w 16 6) (fld w 10 6))
  | 0x54 => onlyIf (fld w 0 16 == 0#16) (.fnew (fld w 16 6))
  | 0x55 => onlyIf (fld w 0 4 == 0#4) (.freg (fld w 16 6) (fld w 10 6) (fld w 4 6))
  | 0x56 => onlyIf (fld w 0 10 == 0#10) (.fres (fld w 16 6) (fld w 10 6))
  | 0x57 => onlyIf (fld w 0 10 == 0#10) (.ffail (fld w 16 6) (fld w 10 6))
  | 0x58 => onlyIf (fld w 0 22 == 0#22) (.tyield)
  | 0x59 => onlyIf (fld w 0 10 == 0#10) (.tguard (fld w 16 6) (fld w 10 6))
  | 0x5c =>
    if fld w 0 10 == 0#10 then some (.trec (fld w 16 6) (fld w 10 6))
    else if fld w 16 6 == 0#6 && fld w 0 10 == 0x200#10 then some (.trecClr (fld w 10 6))
    else none
  | 0x5d => onlyIf (fld w 16 6 == 0#6 && fld w 0 10 == 0#10) (.tfold (fld w 10 6))
  | 0x5e => onlyIf (fld w 16 6 == 0#6 && fld w 0 1 == 0#1) (.tver (fld w 10 6) (fld w 4 6) (fld w 1 3))
  | 0x5f => onlyIf (fld w 16 6 == 0#6 && fld w 0 1 == 0#1) (.tvwait (fld w 10 6) (fld w 4 6) (fld w 1 3))
  | 0x60 => onlyIf (fld w 0 10 == 0#10) (.coll (fld w 16 6) (fld w 11 5) (fld w 10 1))
  | 0x61 => onlyIf (fld w 0 10 == 0#10) (.lstat (fld w 16 6) (fld w 10 6))
  | 0x68 => onlyIf (fld w 0 4 == 0#4) (.invr (fld w 16 6) (fld w 10 6) (fld w 4 6))
  | 0x69 => onlyIf (fld w 0 16 == 0#16) (.inva (fld w 16 6))
  | 0x6a => onlyIf (fld w 0 10 == 0#10) (.probe (fld w 16 6) (fld w 10 6))
  | 0x6b =>
    if fld w 0 16 == 0#16 then some (.freplayResume (fld w 16 6))
    else if fld w 0 16 == 0x8000#16 then some (.freplayAbort (fld w 16 6))
    else none
  | 0x70 => onlyIf (fld w 16 6 == 0#6) (.trap (fld w 0 16))
  | 0x71 => onlyIf (fld w 0 16 == 0#16) (.eret (fld w 16 6))
  | 0x72 => onlyIf (fld w 0 8 == 0#8) (.srd (fld w 16 6) (fld w 8 8))
  | 0x73 => onlyIf (fld w 0 8 == 0#8) (.swr (fld w 16 6) (fld w 8 8))
  | 0x74 => onlyIf (fld w 0 22 == 0#22) (.nop)
  | 0x75 => onlyIf (fld w 16 6 == 0#6) (.brk (fld w 0 16))
  | 0x76 => onlyIf (fld w 0 10 == 0#10) (.wfe (fld w 16 6) (fld w 10 6))
  | 0x77 => onlyIf (fld w 0 22 == 0#22) (.yieldctx)
  | _ => none

/-- The A space, two words (R44). `none` is OPCODE_UNDEF. -/
noncomputable def decodeALong (w e : IWord) : Option Instr :=
  match majorOf w with
  | 0x03 => onlyIf (fld w 0 10 == 0#10) (.bfxL (fld w 16 6) (fld w 10 6) (fld e 0 30))
  | 0x04 => onlyIf (fld w 0 10 == 0#10) (.bfiL (fld w 16 6) (fld w 10 6) (fld e 0 30))
  | 0x08 => onlyIf (fld w 0 10 == 0#10) (.addiL (fld w 16 6) (fld w 10 6) (fld e 0 30))
  | 0x09 => onlyIf (fld w 0 10 == 0#10) (.andiL (fld w 16 6) (fld w 10 6) (fld e 0 30))
  | 0x0a => onlyIf (fld w 0 10 == 0#10) (.oriL (fld w 16 6) (fld w 10 6) (fld e 0 30))
  | 0x0b => onlyIf (fld w 0 10 == 0#10) (.xoriL (fld w 16 6) (fld w 10 6) (fld e 0 30))
  | 0x0c => onlyIf (fld w 0 10 == 0#10) (.shliL (fld w 16 6) (fld w 10 6) (fld e 0 30))
  | 0x0d => onlyIf (fld w 0 10 == 0#10) (.shriL (fld w 16 6) (fld w 10 6) (fld e 0 30))
  | 0x0e => onlyIf (fld w 0 10 == 0#10) (.sraiL (fld w 16 6) (fld w 10 6) (fld e 0 30))
  | 0x0f => onlyIf (fld w 0 10 == 0#10) (.sltiL (fld w 16 6) (fld w 10 6) (fld e 0 30))
  | 0x10 => onlyIf (fld w 0 10 == 0#10) (.sltiuL (fld w 16 6) (fld w 10 6) (fld e 0 30))
  | 0x11 => onlyIf (fld w 0 10 == 0#10) (.seqiL (fld w 16 6) (fld w 10 6) (fld e 0 30))
  | 0x12 => onlyIf (fld w 0 10 == 0#10) (.muliL (fld w 16 6) (fld w 10 6) (fld e 0 30))
  | 0x20 => onlyIf (fld w 0 8 == 0#8) (.ldsL (fld w 16 6) (fld w 10 6) (fld w 8 2) (fld e 27 3) (fld e 25 2) (fld e 0 25))
  | 0x21 => onlyIf (fld w 0 8 == 0#8) (.stsL (fld w 16 6) (fld w 10 6) (fld w 8 2) (fld e 27 3) (fld e 25 2) (fld e 0 25))
  | 0x22 => onlyIf (fld w 0 8 == 0#8) (.ldcL (fld w 16 6) (fld w 10 6) (fld w 8 2) (fld e 27 3) (fld e 25 2) (fld e 0 25))
  | 0x23 => onlyIf (fld w 0 8 == 0#8) (.stcL (fld w 16 6) (fld w 10 6) (fld w 8 2) (fld e 27 3) (fld e 25 2) (fld e 0 25))
  | 0x24 => onlyIf (fld w 0 8 == 0#8) (.ldgL (fld w 16 6) (fld w 10 6) (fld w 8 2) (fld e 27 3) (fld e 25 2) (fld e 0 25))
  | 0x25 => onlyIf (fld w 0 8 == 0#8) (.stgL (fld w 16 6) (fld w 10 6) (fld w 8 2) (fld e 27 3) (fld e 25 2) (fld e 0 25))
  | 0x26 => onlyIf (fld w 0 8 == 0#8) (.ldrL (fld w 16 6) (fld w 10 6) (fld w 8 2) (fld e 27 3) (fld e 25 2) (fld e 0 25))
  | 0x27 => onlyIf (fld w 0 8 == 0#8) (.strL (fld w 16 6) (fld w 10 6) (fld w 8 2) (fld e 27 3) (fld e 25 2) (fld e 0 25))
  | 0x28 => onlyIf (fld w 0 8 == 0#8) (.ldgvL (fld w 16 6) (fld w 10 6) (fld w 8 2) (fld e 27 3) (fld e 25 2) (fld e 0 25))
  | 0x29 => onlyIf (fld w 0 8 == 0#8 && ((fld w 8 2) != 1#2)) (.ldvqL (fld w 16 6) (fld w 10 6) (fld w 8 2) (fld e 27 3) (fld e 25 2) (fld e 0 25))
  | 0x2a => onlyIf (fld w 0 8 == 0#8 && ((fld w 8 2) == 0#2 || (fld w 8 2) == 2#2)) (.stvqL (fld w 16 6) (fld w 10 6) (fld w 8 2) (fld e 27 3) (fld e 25 2) (fld e 0 25))
  | 0x2b => onlyIf (fld w 16 6 == 0#6 && fld w 8 2 == 0#2 && fld w 0 8 == 0#8) (.cpreL (fld w 10 6) (fld e 27 3) (fld e 25 2) (fld e 0 25))
  | 0x2c => onlyIf (fld w 0 8 == 0#8) (.amogL (fld w 16 6) (fld w 10 6) (fld w 8 2) (fld e 27 3) (fld e 25 2) (fld e 0 25))
  | 0x2d => onlyIf (fld w 0 8 == 0#8) (.amosL (fld w 16 6) (fld w 10 6) (fld w 8 2) (fld e 27 3) (fld e 25 2) (fld e 0 25))
  | 0x2e => onlyIf (fld w 0 8 == 0#8) (.casgL (fld w 16 6) (fld w 10 6) (fld w 8 2) (fld e 27 3) (fld e 25 2) (fld e 0 25))
  | 0x2f => onlyIf (fld w 0 8 == 0#8) (.cassL (fld w 16 6) (fld w 10 6) (fld w 8 2) (fld e 27 3) (fld e 25 2) (fld e 0 25))
  | 0x31 => onlyIf (fld w 0 6 == 0#6 && (decide ((fld w 18 4).toNat < 6))) (.bcL (fld w 18 4) (fld w 12 6) (fld w 6 6) (fld e 0 30))
  | 0x35 => onlyIf (fld w 18 4 == 0#4 && fld w 6 6 == 0#6 && fld w 0 6 == 0#6) (.bqpL (fld w 12 6) (fld e 0 30))
  | 0x38 => onlyIf (fld w 0 10 == 0#10) (.lsetL (fld w 16 6) (fld w 10 6) (fld e 0 30))
  | 0x3a => onlyIf (fld w 18 1 == 0#1 && fld w 10 8 == 0#8 && fld w 0 4 == 0#4) (.nsetL (fld w 19 3) (fld w 4 6) (fld e 0 30))
  | _ => none

/-- The X space, one word (R45). `none` is OPCODE_UNDEF. -/
noncomputable def decodeXShort (w : IWord) : Option Instr :=
  match majorOf w with
  | 0x00 => match (fld w 0 4).toNat with
    | 0 => some (.xadd (fld w 16 6) (fld w 10 6) (fld w 4 6))
    | 1 => some (.xsub (fld w 16 6) (fld w 10 6) (fld w 4 6))
    | 2 => some (.xand (fld w 16 6) (fld w 10 6) (fld w 4 6))
    | 3 => some (.xior (fld w 16 6) (fld w 10 6) (fld w 4 6))
    | 4 => some (.xeor (fld w 16 6) (fld w 10 6) (fld w 4 6))
    | 5 => some (.xshl (fld w 16 6) (fld w 10 6) (fld w 4 6))
    | 6 => some (.xshr (fld w 16 6) (fld w 10 6) (fld w 4 6))
    | 7 => some (.xsra (fld w 16 6) (fld w 10 6) (fld w 4 6))
    | 8 => some (.xrotr (fld w 16 6) (fld w 10 6) (fld w 4 6))
    | 9 => some (.xmin (fld w 16 6) (fld w 10 6) (fld w 4 6))
    | 10 => some (.xmax (fld w 16 6) (fld w 10 6) (fld w 4 6))
    | 11 => some (.xminu (fld w 16 6) (fld w 10 6) (fld w 4 6))
    | 12 => some (.xmaxu (fld w 16 6) (fld w 10 6) (fld w 4 6))
    | 13 => some (.xslt (fld w 16 6) (fld w 10 6) (fld w 4 6))
    | 14 => some (.xsltu (fld w 16 6) (fld w 10 6) (fld w 4 6))
    | 15 => some (.xseq (fld w 16 6) (fld w 10 6) (fld w 4 6))
    | _ => none
  | 0x01 => match (fld w 0 4).toNat with
    | 0 => some (.xmul (fld w 16 6) (fld w 10 6) (fld w 4 6))
    | 1 => some (.xmulh (fld w 16 6) (fld w 10 6) (fld w 4 6))
    | 2 => some (.xmulhu (fld w 16 6) (fld w 10 6) (fld w 4 6))
    | 3 => some (.xdiv (fld w 16 6) (fld w 10 6) (fld w 4 6))
    | 4 => some (.xdivu (fld w 16 6) (fld w 10 6) (fld w 4 6))
    | 5 => some (.xrem (fld w 16 6) (fld w 10 6) (fld w 4 6))
    | 6 => some (.xremu (fld w 16 6) (fld w 10 6) (fld w 4 6))
    | 7 => some (.xsel (fld w 16 6) (fld w 10 6) (fld w 4 6))
    | _ => none
  | 0x02 => some (.xaddi (fld w 16 6) (fld w 10 6) (fld w 0 10))
  | 0x03 =>
    if fld w 6 4 == 0#4 then some (.xshli (fld w 16 6) (fld w 10 6) (fld w 0 6))
    else if fld w 6 4 == 1#4 then some (.xshri (fld w 16 6) (fld w 10 6) (fld w 0 6))
    else if fld w 6 4 == 2#4 then some (.xsrai (fld w 16 6) (fld w 10 6) (fld w 0 6))
    else if fld w 6 4 == 3#4 then some (.xroti (fld w 16 6) (fld w 10 6) (fld w 0 6))
    else none
  | 0x04 => some (.xli (fld w 16 6) (fld w 0 16))
  | 0x05 => some (.xlih (fld w 16 6) (fld w 0 16))
  | 0x06 => onlyIf (fld w 0 10 == 0#10) (.xqpop (fld w 16 6) (fld w 10 6))
  | 0x07 => onlyIf (fld w 0 10 == 0#10) (.xqpush (fld w 16 6) (fld w 10 6))
  | 0x10 => some (.vadd (fld w 16 6) (fld w 10 6) (fld w 4 6) (fld w 0 4))
  | 0x11 => some (.vsub (fld w 16 6) (fld w 10 6) (fld w 4 6) (fld w 0 4))
  | 0x12 => some (.vmul (fld w 16 6) (fld w 10 6) (fld w 4 6) (fld w 0 4))
  | 0x13 => some (.vfma (fld w 16 6) (fld w 10 6) (fld w 4 6) (fld w 0 4))
  | 0x14 => some (.vfms (fld w 16 6) (fld w 10 6) (fld w 4 6) (fld w 0 4))
  | 0x15 => some (.vfnma (fld w 16 6) (fld w 10 6) (fld w 4 6) (fld w 0 4))
  | 0x16 => some (.vmin (fld w 16 6) (fld w 10 6) (fld w 4 6) (fld w 0 4))
  | 0x17 => some (.vmax (fld w 16 6) (fld w 10 6) (fld w 4 6) (fld w 0 4))
  | 0x18 => onlyIf (fld w 4 6 == 0#6) (.vabs (fld w 16 6) (fld w 10 6) (fld w 0 4))
  | 0x19 => onlyIf (fld w 4 6 == 0#6) (.vneg (fld w 16 6) (fld w 10 6) (fld w 0 4))
  | 0x1a => some (.vdiv (fld w 16 6) (fld w 10 6) (fld w 4 6) (fld w 0 4))
  | 0x1b => onlyIf (fld w 4 6 == 0#6) (.vsqrt (fld w 16 6) (fld w 10 6) (fld w 0 4))
  | 0x1c => some (.vsel (fld w 16 6) (fld w 10 6) (fld w 4 6) (fld w 0 4))
  | 0x1d => onlyIf (fld w 4 6 == 0#6) (.vmov (fld w 16 6) (fld w 10 6) (fld w 0 4))
  | 0x20 => onlyIf (fld w 4 6 == 0#6) (.exp2 (fld w 16 6) (fld w 10 6) (fld w 0 4))
  | 0x28 => some (.vcmp (fld w 16 6) (fld w 10 6) (fld w 4 6) (fld w 0 4))
  | 0x29 => some (.pand (fld w 16 6) (fld w 10 6) (fld w 4 6) (fld w 0 4))
  | 0x2a => some (.por (fld w 16 6) (fld w 10 6) (fld w 4 6) (fld w 0 4))
  | 0x2b => onlyIf (fld w 4 6 == 0#6) (.pnot (fld w 16 6) (fld w 10 6) (fld w 0 4))
  | 0x2c => onlyIf (fld w 4 6 == 0#6) (.pcnt (fld w 16 6) (fld w 10 6) (fld w 0 4))
  | 0x30 => onlyIf (fld w 4 6 == 0#6) (.vrsum (fld w 16 6) (fld w 10 6) (fld w 0 4))
  | 0x31 => onlyIf (fld w 4 6 == 0#6) (.vrmax (fld w 16 6) (fld w 10 6) (fld w 0 4))
  | 0x32 => onlyIf (fld w 4 6 == 0#6) (.vrmin (fld w 16 6) (fld w 10 6) (fld w 0 4))
  | 0x33 => onlyIf (fld w 4 6 == 0#6) (.vramax (fld w 16 6) (fld w 10 6) (fld w 0 4))
  | 0x34 => some (.vscan (fld w 16 6) (fld w 10 6) (fld w 4 6) (fld w 0 4))
  | 0x35 => onlyIf (fld w 4 6 == 0#6) (.vsortk (fld w 16 6) (fld w 10 6) (fld w 0 4))
  | 0x36 => some (.vmergek (fld w 16 6) (fld w 10 6) (fld w 4 6) (fld w 0 4))
  | 0x37 => some (.vperm (fld w 16 6) (fld w 10 6) (fld w 4 6) (fld w 0 4))
  | 0x39 => some (.vqnt (fld w 16 6) (fld w 10 6) (fld w 4 6) (fld w 0 4))
  | 0x3a => some (.vdqnt (fld w 16 6) (fld w 10 6) (fld w 4 6) (fld w 0 4))
  | 0x3b => onlyIf (fld w 4 6 == 0#6) (.vbcast (fld w 16 6) (fld w 10 6) (fld w 0 4))
  | 0x40 => onlyIf (fld w 4 12 == 0#12) (.vrng (fld w 16 6) (fld w 0 4))
  | 0x41 => onlyIf (fld w 4 6 == 0#6) (.viota (fld w 16 6) (fld w 10 6) (fld w 0 4))
  | 0x42 => some (.vldi (fld w 16 6) (fld w 4 12) (fld w 0 4))
  | 0x43 => onlyIf (fld w 4 6 == 0#6) (.vqpop (fld w 16 6) (fld w 10 6) (fld w 0 4))
  | 0x60 => onlyIf (fld w 19 3 == 0#3) (.vwin (fld w 16 3) (fld w 0 16))
  | _ => none

/-- The X space, two words (R45). `none` is OPCODE_UNDEF. -/
noncomputable def decodeXLong (w e : IWord) : Option Instr :=
  match majorOf w with
  | 0x02 => onlyIf (fld w 0 10 == 0#10) (.xaddiL (fld w 16 6) (fld w 10 6) (fld e 0 30))
  | 0x03 =>
    if fld w 0 10 == 0#10 && fld e 6 24 == 0#24 then some (.xshliL (fld w 16 6) (fld w 10 6) (fld e 0 6))
    else if fld w 0 10 == 0#10 && fld e 6 24 == 1#24 then some (.xshriL (fld w 16 6) (fld w 10 6) (fld e 0 6))
    else if fld w 0 10 == 0#10 && fld e 6 24 == 2#24 then some (.xsraiL (fld w 16 6) (fld w 10 6) (fld e 0 6))
    else if fld w 0 10 == 0#10 && fld e 6 24 == 3#24 then some (.xrotiL (fld w 16 6) (fld w 10 6) (fld e 0 6))
    else none
  | 0x10 => onlyIf (fld e 24 6 == (fld w 16 6) && fld e 13 4 == 0#4 && fld e 0 13 == 0#13) (.vaddL (fld w 16 6) (fld w 10 6) (fld w 4 6) (fld w 0 4) (fld e 20 4) (fld e 17 3))
  | 0x11 => onlyIf (fld e 24 6 == (fld w 16 6) && fld e 13 4 == 0#4 && fld e 0 13 == 0#13) (.vsubL (fld w 16 6) (fld w 10 6) (fld w 4 6) (fld w 0 4) (fld e 20 4) (fld e 17 3))
  | 0x12 => onlyIf (fld e 24 6 == (fld w 16 6) && fld e 13 4 == 0#4 && fld e 0 13 == 0#13) (.vmulL (fld w 16 6) (fld w 10 6) (fld w 4 6) (fld w 0 4) (fld e 20 4) (fld e 17 3))
  | 0x13 => onlyIf (fld e 13 4 == 0#4 && fld e 0 13 == 0#13) (.vfmaL (fld w 16 6) (fld w 10 6) (fld w 4 6) (fld w 0 4) (fld e 24 6) (fld e 20 4) (fld e 17 3))
  | 0x14 => onlyIf (fld e 13 4 == 0#4 && fld e 0 13 == 0#13) (.vfmsL (fld w 16 6) (fld w 10 6) (fld w 4 6) (fld w 0 4) (fld e 24 6) (fld e 20 4) (fld e 17 3))
  | 0x15 => onlyIf (fld e 13 4 == 0#4 && fld e 0 13 == 0#13) (.vfnmaL (fld w 16 6) (fld w 10 6) (fld w 4 6) (fld w 0 4) (fld e 24 6) (fld e 20 4) (fld e 17 3))
  | 0x16 => onlyIf (fld e 24 6 == (fld w 16 6) && fld e 17 3 == 0#3 && fld e 13 4 == 0#4 && fld e 0 13 == 0#13) (.vminL (fld w 16 6) (fld w 10 6) (fld w 4 6) (fld w 0 4) (fld e 20 4))
  | 0x17 => onlyIf (fld e 24 6 == (fld w 16 6) && fld e 17 3 == 0#3 && fld e 13 4 == 0#4 && fld e 0 13 == 0#13) (.vmaxL (fld w 16 6) (fld w 10 6) (fld w 4 6) (fld w 0 4) (fld e 20 4))
  | 0x18 => onlyIf (fld w 4 6 == 0#6 && fld e 24 6 == (fld w 16 6) && fld e 17 3 == 0#3 && fld e 13 4 == 0#4 && fld e 0 13 == 0#13) (.vabsL (fld w 16 6) (fld w 10 6) (fld w 0 4) (fld e 20 4))
  | 0x19 => onlyIf (fld w 4 6 == 0#6 && fld e 24 6 == (fld w 16 6) && fld e 17 3 == 0#3 && fld e 13 4 == 0#4 && fld e 0 13 == 0#13) (.vnegL (fld w 16 6) (fld w 10 6) (fld w 0 4) (fld e 20 4))
  | 0x1a => onlyIf (fld e 24 6 == (fld w 16 6) && fld e 13 4 == 0#4 && fld e 0 13 == 0#13) (.vdivL (fld w 16 6) (fld w 10 6) (fld w 4 6) (fld w 0 4) (fld e 20 4) (fld e 17 3))
  | 0x1b => onlyIf (fld w 4 6 == 0#6 && fld e 24 6 == (fld w 16 6) && fld e 13 4 == 0#4 && fld e 0 13 == 0#13) (.vsqrtL (fld w 16 6) (fld w 10 6) (fld w 0 4) (fld e 20 4) (fld e 17 3))
  | 0x1c => onlyIf (fld e 24 6 == (fld w 16 6) && fld e 17 3 == 0#3 && fld e 13 4 == 0#4 && fld e 0 13 == 0#13) (.vselL (fld w 16 6) (fld w 10 6) (fld w 4 6) (fld w 0 4) (fld e 20 4))
  | 0x1d => onlyIf (fld w 4 6 == 0#6 && fld e 24 6 == (fld w 16 6) && fld e 17 3 == 0#3 && fld e 13 4 == 0#4 && fld e 0 13 == 0#13) (.vmovL (fld w 16 6) (fld w 10 6) (fld w 0 4) (fld e 20 4))
  | 0x20 =>
    if fld w 4 6 == 0#6 && fld e 24 6 == (fld w 16 6) && fld e 13 4 == 0#4 && fld e 0 13 == 0#13 then some (.exp2L (fld w 16 6) (fld w 10 6) (fld w 0 4) (fld e 20 4) (fld e 17 3))
    else if fld w 4 6 == 0#6 && fld e 24 6 == (fld w 16 6) && fld e 13 4 == 1#4 && fld e 0 13 == 0#13 then some (.log2 (fld w 16 6) (fld w 10 6) (fld w 0 4) (fld e 20 4) (fld e 17 3))
    else if fld w 4 6 == 0#6 && fld e 24 6 == (fld w 16 6) && fld e 13 4 == 2#4 && fld e 0 13 == 0#13 then some (.rcp (fld w 16 6) (fld w 10 6) (fld w 0 4) (fld e 20 4) (fld e 17 3))
    else if fld w 4 6 == 0#6 && fld e 24 6 == (fld w 16 6) && fld e 13 4 == 3#4 && fld e 0 13 == 0#13 then some (.rsq (fld w 16 6) (fld w 10 6) (fld w 0 4) (fld e 20 4) (fld e 17 3))
    else if fld w 4 6 == 0#6 && fld e 24 6 == (fld w 16 6) && fld e 13 4 == 4#4 && fld e 0 13 == 0#13 then some (.tanh (fld w 16 6) (fld w 10 6) (fld w 0 4) (fld e 20 4) (fld e 17 3))
    else if fld w 4 6 == 0#6 && fld e 24 6 == (fld w 16 6) && fld e 13 4 == 5#4 && fld e 0 13 == 0#13 then some (.sigm (fld w 16 6) (fld w 10 6) (fld w 0 4) (fld e 20 4) (fld e 17 3))
    else none
  | 0x28 => onlyIf (fld e 24 6 == (fld w 16 6) && fld e 17 3 == 0#3 && fld e 0 8 == 0#8 && (decide ((fld e 13 4).toNat < 8))) (.vcmpL (fld w 16 6) (fld w 10 6) (fld w 4 6) (fld w 0 4) (fld e 20 4) (fld e 13 4) (fld e 8 5))
  | 0x29 => onlyIf (fld e 24 6 == (fld w 16 6) && fld e 17 3 == 0#3 && fld e 13 4 == 0#4 && fld e 0 8 == 0#8) (.pandL (fld w 16 6) (fld w 10 6) (fld w 4 6) (fld w 0 4) (fld e 20 4) (fld e 8 5))
  | 0x2a => onlyIf (fld e 24 6 == (fld w 16 6) && fld e 17 3 == 0#3 && fld e 13 4 == 0#4 && fld e 0 8 == 0#8) (.porL (fld w 16 6) (fld w 10 6) (fld w 4 6) (fld w 0 4) (fld e 20 4) (fld e 8 5))
  | 0x2b => onlyIf (fld w 4 6 == 0#6 && fld e 24 6 == (fld w 16 6) && fld e 17 3 == 0#3 && fld e 13 4 == 0#4 && fld e 0 8 == 0#8) (.pnotL (fld w 16 6) (fld w 10 6) (fld w 0 4) (fld e 20 4) (fld e 8 5))
  | 0x2c =>
    if fld w 4 6 == 0#6 && fld e 24 6 == (fld w 16 6) && fld e 17 3 == 0#3 && fld e 13 4 == 0#4 && fld e 0 13 == 0#13 then some (.pcntL (fld w 16 6) (fld w 10 6) (fld w 0 4) (fld e 20 4))
    else if fld w 4 6 == 0#6 && fld e 24 6 == (fld w 16 6) && fld e 17 3 == 0#3 && fld e 13 4 == 1#4 && fld e 0 13 == 0#13 then some (.pfirst (fld w 16 6) (fld w 10 6) (fld w 0 4) (fld e 20 4))
    else none
  | 0x30 => onlyIf (fld w 4 6 == 0#6 && fld e 24 6 == (fld w 16 6) && fld e 13 4 == 0#4 && fld e 0 13 == 0#13) (.vrsumL (fld w 16 6) (fld w 10 6) (fld w 0 4) (fld e 20 4) (fld e 17 3))
  | 0x31 => onlyIf (fld w 4 6 == 0#6 && fld e 24 6 == (fld w 16 6) && fld e 17 3 == 0#3 && fld e 13 4 == 0#4 && fld e 0 13 == 0#13) (.vrmaxL (fld w 16 6) (fld w 10 6) (fld w 0 4) (fld e 20 4))
  | 0x32 => onlyIf (fld w 4 6 == 0#6 && fld e 24 6 == (fld w 16 6) && fld e 17 3 == 0#3 && fld e 13 4 == 0#4 && fld e 0 13 == 0#13) (.vrminL (fld w 16 6) (fld w 10 6) (fld w 0 4) (fld e 20 4))
  | 0x33 => onlyIf (fld w 4 6 == 0#6 && fld e 24 6 == (fld w 16 6) && fld e 17 3 == 0#3 && fld e 13 4 == 0#4 && fld e 0 13 == 0#13) (.vramaxL (fld w 16 6) (fld w 10 6) (fld w 0 4) (fld e 20 4))
  | 0x34 => onlyIf (fld e 24 6 == (fld w 16 6) && fld e 13 4 == 0#4 && fld e 0 13 == 0#13) (.vscanL (fld w 16 6) (fld w 10 6) (fld w 4 6) (fld w 0 4) (fld e 20 4) (fld e 17 3))
  | 0x35 => onlyIf (fld w 4 6 == 0#6 && fld e 24 6 == (fld w 16 6) && fld e 17 3 == 0#3 && fld e 13 4 == 0#4 && fld e 1 12 == 0#12) (.vsortkL (fld w 16 6) (fld w 10 6) (fld w 0 4) (fld e 20 4) (fld e 0 1))
  | 0x36 => onlyIf (fld e 17 3 == 0#3 && fld e 13 4 == 0#4 && fld e 1 12 == 0#12) (.vmergekL (fld w 16 6) (fld w 10 6) (fld w 4 6) (fld w 0 4) (fld e 24 6) (fld e 20 4) (fld e 0 1))
  | 0x37 => onlyIf (fld e 24 6 == (fld w 16 6) && fld e 17 3 == 0#3 && fld e 13 4 == 0#4 && fld e 0 13 == 0#13) (.vpermL (fld w 16 6) (fld w 10 6) (fld w 4 6) (fld w 0 4) (fld e 20 4))
  | 0x38 => onlyIf (fld w 4 6 == 0#6 && fld e 24 6 == (fld w 16 6) && fld e 13 4 == 0#4 && fld e 8 5 == 0#5 && fld e 3 1 == 0#1) (.vcvt (fld w 16 6) (fld w 10 6) (fld w 0 4) (fld e 20 4) (fld e 17 3) (fld e 4 4) (fld e 0 3))
  | 0x39 => onlyIf (fld e 24 6 == (fld w 16 6) && fld e 13 4 == 0#4 && fld e 3 10 == 0#10) (.vqntL (fld w 16 6) (fld w 10 6) (fld w 4 6) (fld w 0 4) (fld e 20 4) (fld e 17 3) (fld e 0 3))
  | 0x3a => onlyIf (fld e 24 6 == (fld w 16 6) && fld e 13 4 == 0#4 && fld e 3 10 == 0#10) (.vdqntL (fld w 16 6) (fld w 10 6) (fld w 4 6) (fld w 0 4) (fld e 20 4) (fld e 17 3) (fld e 0 3))
  | 0x3b =>
    if fld w 4 6 == 0#6 && fld e 24 6 == (fld w 16 6) && fld e 13 4 == 0#4 && fld e 0 13 == 0#13 then some (.vbcastL (fld w 16 6) (fld w 10 6) (fld w 0 4) (fld e 20 4) (fld e 17 3))
    else if fld e 24 6 == (fld w 16 6) && fld e 17 3 == 0#3 && fld e 13 4 == 1#4 && fld e 0 13 == 0#13 then some (.vbcastLane (fld w 16 6) (fld w 10 6) (fld w 4 6) (fld w 0 4) (fld e 20 4))
    else none
  | 0x40 =>
    if fld w 4 12 == 0#12 && fld e 24 6 == (fld w 16 6) && fld e 17 3 == 0#3 && fld e 13 4 == 0#4 && fld e 0 13 == 0#13 then some (.vrngL (fld w 16 6) (fld w 0 4) (fld e 20 4))
    else if fld w 4 12 == 0#12 && fld e 24 6 == (fld w 16 6) && fld e 17 3 == 0#3 && fld e 13 4 == 1#4 && fld e 0 13 == 0#13 then some (.vrngRaw (fld w 16 6) (fld w 0 4) (fld e 20 4))
    else none
  | 0x41 => onlyIf (fld w 4 6 == 0#6 && fld e 24 6 == (fld w 16 6) && fld e 13 4 == 0#4 && fld e 1 12 == 0#12) (.viotaL (fld w 16 6) (fld w 10 6) (fld w 0 4) (fld e 20 4) (fld e 17 3) (fld e 0 1))
  | 0x42 => onlyIf (fld e 24 6 == (fld w 16 6) && fld e 13 4 == 0#4 && fld e 0 5 == 0#5) (.vldiL (fld w 16 6) (fld w 4 12) (fld w 0 4) (fld e 20 4) (fld e 17 3) (fld e 5 8))
  | 0x43 => onlyIf (fld w 4 6 == 0#6 && fld e 24 6 == (fld w 16 6) && fld e 17 3 == 0#3 && fld e 13 4 == 0#4 && fld e 0 13 == 0#13) (.vqpopL (fld w 16 6) (fld w 10 6) (fld w 0 4) (fld e 20 4))
  | _ => none

/-- The S space, one word (R46). `none` is OPCODE_UNDEF. -/
noncomputable def decodeSShort (w : IWord) : Option Instr :=
  match majorOf w with
  | 0x00 => onlyIf ((decide (((fld w 18 4).extractLsb' 0 3).toNat < 6))) (.bq (fld w 18 4) (fld w 12 6) (fld w 6 6) (fld w 0 6))
  | 0x01 => some (.loop (fld w 16 6) (fld w 0 16))
  | 0x02 => some (.endl (fld w 16 6) (fld w 0 16))
  | 0x03 => onlyIf (fld w 0 22 == 0#22) (.sync)
  | 0x04 => onlyIf (fld w 16 6 == 0#6) (.win (fld w 0 16))
  | 0x05 =>
    if fld w 5 17 == 0#17 then some (.fpcAll (fld w 4 1) (fld w 3 1) (fld w 0 3))
    else if fld w 3 19 == 0x2000#19 then some (.fpcRm (fld w 0 3))
    else if fld w 5 17 == 0x1000#17 && fld w 0 3 == 0#3 then some (.fpcDazFtz (fld w 4 1) (fld w 3 1))
    else none
  | 0x06 => onlyIf (fld w 0 22 == 0#22) (.halt)
  | _ => none

/-- The S space, two words (R46). `none` is OPCODE_UNDEF. -/
noncomputable def decodeSLong (w e : IWord) : Option Instr :=
  match majorOf w with
  | 0x00 => onlyIf (fld w 0 6 == 0#6 && (decide (((fld w 18 4).extractLsb' 0 3).toNat < 6))) (.bqL (fld w 18 4) (fld w 12 6) (fld w 6 6) (fld e 0 30))
  | _ => none

/-- An XSHI word whose immediate lies outside 0 to 255 (R159): its fields are in order, its operand is not. -/
def xshiOutOfRange (w : IWord) (e : Option IWord) : Bool :=
  tagOf w == 1#2 && majorOf w == 3 &&
    match e with
    | none => fld w 8 2 != 0#2
    | some e => fld w 0 10 == 0#10 && fld e 8 22 != 0#22

/-- Checks 4 and 5 of R49 for a first word and its extension word. -/
noncomputable def decodeBody (w : IWord) (e : Option IWord) : Option Instr :=
  match (tagOf w).toNat, e with
  | 0, none => decodeAShort w
  | 0, some e => decodeALong w e
  | 1, none => decodeXShort w
  | 1, some e => decodeXLong w e
  | 2, none => decodeSShort w
  | 2, some e => decodeSLong w e
  | _, _ => none

/-- Decode the instruction whose first word is `w`; `next` is the word after it, where TEXT holds one. -/
noncomputable def decode (w : IWord) (next : Option IWord) : Except DecodeErr Instr :=
  if tagOf w = 3#2 then .error .badFirst
  else if longOf w then
    match next with
    | none => .error .badExt
    | some e =>
      if tagOf e = 3#2 then
        match decodeBody w (some e) with
        | some i => .ok i
        | none => .error (if xshiOutOfRange w (some e) then .illegal else .undef)
      else .error .badExt
  else
    match decodeBody w none with
    | some i => .ok i
    | none => .error (if xshiOutOfRange w none then .illegal else .undef)

/-- The little-endian word that four bytes hold (R5). -/
def wordOfBytes (b0 b1 b2 b3 : Byte) : IWord := b3 ++ b2 ++ b1 ++ b0

/-- Decode from bytes: the instruction and the bytes after it. -/
noncomputable def decodeBytes : List Byte → Except DecodeErr (Instr × List Byte)
  | b0 :: b1 :: b2 :: b3 :: rest =>
    let w := wordOfBytes b0 b1 b2 b3
    match rest with
    | c0 :: c1 :: c2 :: c3 :: rest' =>
      match decode w (some (wordOfBytes c0 c1 c2 c3)) with
      | .ok i => .ok (i, if longOf w then rest' else rest)
      | .error r => .error r
    | _ =>
      match decode w none with
      | .ok i => .ok (i, rest)
      | .error r => .error r
  | _ => .error .badFirst

/-- The bytes of a word as text holds them, lowest address first (R5). -/
def bytesOfWord (w : IWord) : List Byte :=
  [w.extractLsb' 0 8, w.extractLsb' 8 8, w.extractLsb' 16 8, w.extractLsb' 24 8]

/-- The instruction the decoder reads from bits numbered from the first word's bit 0: the first word and, for a long
form, the word after it, laid out in bytes as text holds them. -/
noncomputable def decodeTableWord (_nbits w : Nat) : Option Instr :=
  let w0 : IWord := BitVec.ofNat 32 w
  let w1 : IWord := BitVec.ofNat 32 (w >>> 32)
  match decodeBytes (bytesOfWord w0 ++ bytesOfWord w1) with
  | .ok (i, _) => some i
  | .error _ => none

/-- The words of an instruction, from the layouts of R30 and of each instruction; a step without an encoding has none. -/
def encode : Instr → List IWord
  | .powerApplied _ => []
  | .powerLost _ => []
  | .hostColdStart => []
  | .hostWarmStart => []
  | .startComplete => []
  | .startStepFailure _ => []
  | .startTimeout _ => []
  | .firmwareInstall _ _ => []
  | .recoveryImageInstall _ _ => []
  | .powerAlarmAssert => []
  | .powerAlarmClear => []
  | .powerLimitExceeded => []
  | .powerLimitRecovered => []
  | .dramPatrolScrub _ _ _ => []
  | .sramPatrolScrub _ _ _ => []
  | .linkRecalibration _ _ => []
  | .dramRecalibration _ => []
  | .flashWearManagement _ _ => []
  | .telemetrySample _ => []
  | .loadDataArrival _ _ _ => []
  | .kernelLoadComplete _ _ _ => []
  | .kernelUnloadComplete _ _ => []
  | .galleyEntryReclaim _ _ => []
  | .eagerTranslationComplete _ _ _ => []
  | .regionTranslationComplete _ _ _ => []
  | .compositorFailure _ _ => []
  | .streamSkip _ => []
  | .ldvqFill _ _ => []
  | .cellFaultTaken _ => []
  | .tileEngineOpStart _ => []
  | .matrixKStep _ => []
  | .tileEngineOpComplete _ => []
  | .pageWalkComplete _ _ => []
  | .invalidationAck _ => []
  | .copyStart _ _ => []
  | .copyBytesDelivered _ _ _ _ => []
  | .copyComplete _ _ => []
  | .tailWrite _ _ _ => []
  | .queueResume _ _ => []
  | .graphPacket _ _ => []
  | .loadPacket _ _ => []
  | .unloadPacket _ _ => []
  | .bindPacket _ _ => []
  | .retirePacket _ _ => []
  | .cancelPacket _ _ => []
  | .nopPacket _ _ => []
  | .graphAdmission _ _ => []
  | .taskDispatch _ => []
  | .stealRequest _ => []
  | .stealAnswer _ => []
  | .stealBackoffExpiry _ => []
  | .stagingBaseAllocate _ => []
  | .stagingCopyComplete _ => []
  | .shardStart _ => []
  | .groupCompletion _ => []
  | .counterRegister _ _ => []
  | .counterCombine _ _ => []
  | .laneEntryIssue _ => []
  | .makeReady _ => []
  | .plateSectionReceive _ => []
  | .contextCreate _ _ => []
  | .contextSetupComplete _ => []
  | .contextGrant _ => []
  | .preemptRequest _ _ => []
  | .shadowSwapComplete _ => []
  | .resumeRequest _ => []
  | .spillStart _ => []
  | .spillComplete _ => []
  | .restoreComplete _ => []
  | .scratchpadLineExchange _ _ _ => []
  | .contextEndRequest _ => []
  | .contextRetireComplete _ => []
  | .supervisorTaskStart _ => []
  | .watchdogExpiry _ => []
  | .rdmaWrite _ _ _ _ => []
  | .rdmaRead _ _ _ _ => []
  | .managementSend _ _ => []
  | .rdmaAtomicRequest _ _ => []
  | .qpCreate _ _ _ _ _ => []
  | .hostPortDown _ => []
  | .flitData _ _ _ => []
  | .flitAck _ _ _ => []
  | .flitNak _ _ _ => []
  | .flitCredit _ _ _ => []
  | .flitControl _ _ _ => []
  | .linkRetrainRequest _ => []
  | .trainingComplete _ _ => []
  | .trainingTimeout _ => []
  | .trainingRetryTimer _ => []
  | .laneFailure _ _ => []
  | .linkKeyInstall _ => []
  | .collectiveComplete _ _ => []
  | .getVersion _ => []
  | .getCapabilities _ => []
  | .negotiateAlgorithms _ => []
  | .getDigests _ => []
  | .getCertificate _ => []
  | .challenge _ => []
  | .getMeasurements _ _ => []
  | .keyExchange _ _ => []
  | .finish _ => []
  | .keyUpdate _ => []
  | .heartbeat _ => []
  | .endSession _ => []
  | .add d a b => [0#2 ++ 0#1 ++ 0#7 ++ d ++ a ++ b ++ 0#4]
  | .sub d a b => [0#2 ++ 0#1 ++ 0#7 ++ d ++ a ++ b ++ 1#4]
  | .and d a b => [0#2 ++ 0#1 ++ 0#7 ++ d ++ a ++ b ++ 2#4]
  | .or d a b => [0#2 ++ 0#1 ++ 0#7 ++ d ++ a ++ b ++ 3#4]
  | .xor d a b => [0#2 ++ 0#1 ++ 0#7 ++ d ++ a ++ b ++ 4#4]
  | .shl d a b => [0#2 ++ 0#1 ++ 0#7 ++ d ++ a ++ b ++ 5#4]
  | .shr d a b => [0#2 ++ 0#1 ++ 0#7 ++ d ++ a ++ b ++ 6#4]
  | .sra d a b => [0#2 ++ 0#1 ++ 0#7 ++ d ++ a ++ b ++ 7#4]
  | .rotr d a b => [0#2 ++ 0#1 ++ 0#7 ++ d ++ a ++ b ++ 8#4]
  | .min d a b => [0#2 ++ 0#1 ++ 0#7 ++ d ++ a ++ b ++ 9#4]
  | .max d a b => [0#2 ++ 0#1 ++ 0#7 ++ d ++ a ++ b ++ 0xa#4]
  | .minu d a b => [0#2 ++ 0#1 ++ 0#7 ++ d ++ a ++ b ++ 0xb#4]
  | .maxu d a b => [0#2 ++ 0#1 ++ 0#7 ++ d ++ a ++ b ++ 0xc#4]
  | .slt d a b => [0#2 ++ 0#1 ++ 0#7 ++ d ++ a ++ b ++ 0xd#4]
  | .sltu d a b => [0#2 ++ 0#1 ++ 0#7 ++ d ++ a ++ b ++ 0xe#4]
  | .seq d a b => [0#2 ++ 0#1 ++ 0#7 ++ d ++ a ++ b ++ 0xf#4]
  | .mul d a b => [0#2 ++ 0#1 ++ 1#7 ++ d ++ a ++ b ++ 0#4]
  | .mulh d a b => [0#2 ++ 0#1 ++ 1#7 ++ d ++ a ++ b ++ 1#4]
  | .mulhu d a b => [0#2 ++ 0#1 ++ 1#7 ++ d ++ a ++ b ++ 2#4]
  | .div d a b => [0#2 ++ 0#1 ++ 1#7 ++ d ++ a ++ b ++ 3#4]
  | .divu d a b => [0#2 ++ 0#1 ++ 1#7 ++ d ++ a ++ b ++ 4#4]
  | .rem d a b => [0#2 ++ 0#1 ++ 1#7 ++ d ++ a ++ b ++ 5#4]
  | .remu d a b => [0#2 ++ 0#1 ++ 1#7 ++ d ++ a ++ b ++ 6#4]
  | .sel d a b => [0#2 ++ 0#1 ++ 1#7 ++ d ++ a ++ b ++ 7#4]
  | .clz d a => [0#2 ++ 0#1 ++ 2#7 ++ d ++ a ++ 0#10]
  | .ctz d a => [0#2 ++ 0#1 ++ 2#7 ++ d ++ a ++ 1#10]
  | .popc d a => [0#2 ++ 0#1 ++ 2#7 ++ d ++ a ++ 2#10]
  | .sext d a n => [0#2 ++ 0#1 ++ 2#7 ++ d ++ a ++ n ++ 3#4]
  | .zext d a n => [0#2 ++ 0#1 ++ 2#7 ++ d ++ a ++ n ++ 4#4]
  | .bswap d a => [0#2 ++ 0#1 ++ 2#7 ++ d ++ a ++ 5#10]
  | .bfx d a im => [0#2 ++ 0#1 ++ 3#7 ++ d ++ a ++ im]
  | .bfxL d a im => [0#2 ++ 1#1 ++ 3#7 ++ d ++ a ++ 0#10, 3#2 ++ im]
  | .bfi d a im => [0#2 ++ 0#1 ++ 4#7 ++ d ++ a ++ im]
  | .bfiL d a im => [0#2 ++ 1#1 ++ 4#7 ++ d ++ a ++ 0#10, 3#2 ++ im]
  | .addi d a im => [0#2 ++ 0#1 ++ 8#7 ++ d ++ a ++ im]
  | .addiL d a im => [0#2 ++ 1#1 ++ 8#7 ++ d ++ a ++ 0#10, 3#2 ++ im]
  | .andi d a im => [0#2 ++ 0#1 ++ 9#7 ++ d ++ a ++ im]
  | .andiL d a im => [0#2 ++ 1#1 ++ 9#7 ++ d ++ a ++ 0#10, 3#2 ++ im]
  | .ori d a im => [0#2 ++ 0#1 ++ 0xa#7 ++ d ++ a ++ im]
  | .oriL d a im => [0#2 ++ 1#1 ++ 0xa#7 ++ d ++ a ++ 0#10, 3#2 ++ im]
  | .xori d a im => [0#2 ++ 0#1 ++ 0xb#7 ++ d ++ a ++ im]
  | .xoriL d a im => [0#2 ++ 1#1 ++ 0xb#7 ++ d ++ a ++ 0#10, 3#2 ++ im]
  | .shli d a im => [0#2 ++ 0#1 ++ 0xc#7 ++ d ++ a ++ im]
  | .shliL d a im => [0#2 ++ 1#1 ++ 0xc#7 ++ d ++ a ++ 0#10, 3#2 ++ im]
  | .shri d a im => [0#2 ++ 0#1 ++ 0xd#7 ++ d ++ a ++ im]
  | .shriL d a im => [0#2 ++ 1#1 ++ 0xd#7 ++ d ++ a ++ 0#10, 3#2 ++ im]
  | .srai d a im => [0#2 ++ 0#1 ++ 0xe#7 ++ d ++ a ++ im]
  | .sraiL d a im => [0#2 ++ 1#1 ++ 0xe#7 ++ d ++ a ++ 0#10, 3#2 ++ im]
  | .slti d a im => [0#2 ++ 0#1 ++ 0xf#7 ++ d ++ a ++ im]
  | .sltiL d a im => [0#2 ++ 1#1 ++ 0xf#7 ++ d ++ a ++ 0#10, 3#2 ++ im]
  | .sltiu d a im => [0#2 ++ 0#1 ++ 0x10#7 ++ d ++ a ++ im]
  | .sltiuL d a im => [0#2 ++ 1#1 ++ 0x10#7 ++ d ++ a ++ 0#10, 3#2 ++ im]
  | .seqi d a im => [0#2 ++ 0#1 ++ 0x11#7 ++ d ++ a ++ im]
  | .seqiL d a im => [0#2 ++ 1#1 ++ 0x11#7 ++ d ++ a ++ 0#10, 3#2 ++ im]
  | .muli d a im => [0#2 ++ 0#1 ++ 0x12#7 ++ d ++ a ++ im]
  | .muliL d a im => [0#2 ++ 1#1 ++ 0x12#7 ++ d ++ a ++ 0#10, 3#2 ++ im]
  | .li d im => [0#2 ++ 0#1 ++ 0x13#7 ++ d ++ im]
  | .lih d im => [0#2 ++ 0#1 ++ 0x14#7 ++ d ++ im]
  | .qpush d a => [0#2 ++ 0#1 ++ 0x18#7 ++ d ++ a ++ 0#10]
  | .qpopa d a => [0#2 ++ 0#1 ++ 0x19#7 ++ d ++ a ++ 0#10]
  | .lds t b sz o => [0#2 ++ 0#1 ++ 0x20#7 ++ t ++ b ++ sz ++ o]
  | .ldsL t b sz sc od off => [0#2 ++ 1#1 ++ 0x20#7 ++ t ++ b ++ sz ++ 0#8, 3#2 ++ sc ++ od ++ off]
  | .sts t b sz o => [0#2 ++ 0#1 ++ 0x21#7 ++ t ++ b ++ sz ++ o]
  | .stsL t b sz sc od off => [0#2 ++ 1#1 ++ 0x21#7 ++ t ++ b ++ sz ++ 0#8, 3#2 ++ sc ++ od ++ off]
  | .ldc t b sz o => [0#2 ++ 0#1 ++ 0x22#7 ++ t ++ b ++ sz ++ o]
  | .ldcL t b sz sc od off => [0#2 ++ 1#1 ++ 0x22#7 ++ t ++ b ++ sz ++ 0#8, 3#2 ++ sc ++ od ++ off]
  | .stc t b sz o => [0#2 ++ 0#1 ++ 0x23#7 ++ t ++ b ++ sz ++ o]
  | .stcL t b sz sc od off => [0#2 ++ 1#1 ++ 0x23#7 ++ t ++ b ++ sz ++ 0#8, 3#2 ++ sc ++ od ++ off]
  | .ldg t b sz o => [0#2 ++ 0#1 ++ 0x24#7 ++ t ++ b ++ sz ++ o]
  | .ldgL t b sz sc od off => [0#2 ++ 1#1 ++ 0x24#7 ++ t ++ b ++ sz ++ 0#8, 3#2 ++ sc ++ od ++ off]
  | .stg t b sz o => [0#2 ++ 0#1 ++ 0x25#7 ++ t ++ b ++ sz ++ o]
  | .stgL t b sz sc od off => [0#2 ++ 1#1 ++ 0x25#7 ++ t ++ b ++ sz ++ 0#8, 3#2 ++ sc ++ od ++ off]
  | .ldr t b sz o => [0#2 ++ 0#1 ++ 0x26#7 ++ t ++ b ++ sz ++ o]
  | .ldrL t b sz sc od off => [0#2 ++ 1#1 ++ 0x26#7 ++ t ++ b ++ sz ++ 0#8, 3#2 ++ sc ++ od ++ off]
  | .str t b sz o => [0#2 ++ 0#1 ++ 0x27#7 ++ t ++ b ++ sz ++ o]
  | .strL t b sz sc od off => [0#2 ++ 1#1 ++ 0x27#7 ++ t ++ b ++ sz ++ 0#8, 3#2 ++ sc ++ od ++ off]
  | .ldgv t b sz o => [0#2 ++ 0#1 ++ 0x28#7 ++ t ++ b ++ sz ++ o]
  | .ldgvL t b sz sc od off => [0#2 ++ 1#1 ++ 0x28#7 ++ t ++ b ++ sz ++ 0#8, 3#2 ++ sc ++ od ++ off]
  | .ldvq t b sz o => [0#2 ++ 0#1 ++ 0x29#7 ++ t ++ b ++ sz ++ o]
  | .ldvqL t b sz sc od off => [0#2 ++ 1#1 ++ 0x29#7 ++ t ++ b ++ sz ++ 0#8, 3#2 ++ sc ++ od ++ off]
  | .stvq t b sz o => [0#2 ++ 0#1 ++ 0x2a#7 ++ t ++ b ++ sz ++ o]
  | .stvqL t b sz sc od off => [0#2 ++ 1#1 ++ 0x2a#7 ++ t ++ b ++ sz ++ 0#8, 3#2 ++ sc ++ od ++ off]
  | .cpre b o => [0#2 ++ 0#1 ++ 0x2b#7 ++ 0#6 ++ b ++ 0#2 ++ o]
  | .cpreL b sc od off => [0#2 ++ 1#1 ++ 0x2b#7 ++ 0#6 ++ b ++ 0#2 ++ 0#8, 3#2 ++ sc ++ od ++ off]
  | .amog t b sz o => [0#2 ++ 0#1 ++ 0x2c#7 ++ t ++ b ++ sz ++ o]
  | .amogL t b sz sc od off => [0#2 ++ 1#1 ++ 0x2c#7 ++ t ++ b ++ sz ++ 0#8, 3#2 ++ sc ++ od ++ off]
  | .amos t b sz o => [0#2 ++ 0#1 ++ 0x2d#7 ++ t ++ b ++ sz ++ o]
  | .amosL t b sz sc od off => [0#2 ++ 1#1 ++ 0x2d#7 ++ t ++ b ++ sz ++ 0#8, 3#2 ++ sc ++ od ++ off]
  | .casg t b sz o => [0#2 ++ 0#1 ++ 0x2e#7 ++ t ++ b ++ sz ++ o]
  | .casgL t b sz sc od off => [0#2 ++ 1#1 ++ 0x2e#7 ++ t ++ b ++ sz ++ 0#8, 3#2 ++ sc ++ od ++ off]
  | .cass t b sz o => [0#2 ++ 0#1 ++ 0x2f#7 ++ t ++ b ++ sz ++ o]
  | .cassL t b sz sc od off => [0#2 ++ 1#1 ++ 0x2f#7 ++ t ++ b ++ sz ++ 0#8, 3#2 ++ sc ++ od ++ off]
  | .b o => [0#2 ++ 0#1 ++ 0x30#7 ++ o]
  | .bc c a b o => [0#2 ++ 0#1 ++ 0x31#7 ++ c ++ a ++ b ++ o]
  | .bcL c a b o => [0#2 ++ 1#1 ++ 0x31#7 ++ c ++ a ++ b ++ 0#6, 3#2 ++ o]
  | .call o => [0#2 ++ 0#1 ++ 0x32#7 ++ o]
  | .ret a => [0#2 ++ 0#1 ++ 0x33#7 ++ 0#6 ++ a ++ 0#10]
  | .ji d a => [0#2 ++ 0#1 ++ 0x34#7 ++ d ++ a ++ 0#10]
  | .bqp a o => [0#2 ++ 0#1 ++ 0x35#7 ++ 0#4 ++ a ++ 0#6 ++ o]
  | .bqpL a o => [0#2 ++ 1#1 ++ 0x35#7 ++ 0#4 ++ a ++ 0#6 ++ 0#6, 3#2 ++ o]
  | .lset d a im => [0#2 ++ 0#1 ++ 0x38#7 ++ d ++ a ++ im]
  | .lsetL d a im => [0#2 ++ 1#1 ++ 0x38#7 ++ d ++ a ++ 0#10, 3#2 ++ im]
  | .sdset d a im => [0#2 ++ 0#1 ++ 0x39#7 ++ d ++ a ++ im]
  | .nset l t a => [0#2 ++ 0#1 ++ 0x3a#7 ++ l ++ 0#1 ++ t ++ a ++ 0#4]
  | .nsetLc l c a => [0#2 ++ 0#1 ++ 0x3a#7 ++ l ++ 1#1 ++ c ++ a ++ 0#4]
  | .nsetL l a t => [0#2 ++ 1#1 ++ 0x3a#7 ++ l ++ 0#1 ++ 0#8 ++ a ++ 0#4, 3#2 ++ t]
  | .mma a b m n d x => [0#2 ++ 0#1 ++ 0x3b#7 ++ a ++ b ++ m ++ n ++ d ++ x]
  | .mzero a => [0#2 ++ 0#1 ++ 0x3c#7 ++ 0#6 ++ a ++ 0#10]
  | .mwb d m n sz b => [0#2 ++ 0#1 ++ 0x3d#7 ++ d ++ m ++ n ++ 0#1 ++ sz ++ b]
  | .mwbRaw d m n sz => [0#2 ++ 0#1 ++ 0x3d#7 ++ d ++ m ++ n ++ 1#1 ++ sz ++ 0#6]
  | .sdget d a im => [0#2 ++ 0#1 ++ 0x3e#7 ++ d ++ a ++ im]
  | .cpy h a x e c p f => [0#2 ++ 0#1 ++ 0x40#7 ++ h ++ a ++ x ++ e ++ c ++ p ++ f]
  | .cpyf h a x e p f => [0#2 ++ 0#1 ++ 0x41#7 ++ h ++ a ++ x ++ e ++ 0#2 ++ p ++ f]
  | .gath h a x e c p f => [0#2 ++ 0#1 ++ 0x42#7 ++ h ++ a ++ x ++ e ++ c ++ p ++ f]
  | .scat h a x e c p f => [0#2 ++ 0#1 ++ 0x43#7 ++ h ++ a ++ x ++ e ++ c ++ p ++ f]
  | .hwait h => [0#2 ++ 0#1 ++ 0x44#7 ++ h ++ 0#16]
  | .hwaitp h b => [0#2 ++ 0#1 ++ 0x45#7 ++ h ++ b ++ 0#10]
  | .hrel h => [0#2 ++ 0#1 ++ 0x46#7 ++ h ++ 0#16]
  | .hstat h d => [0#2 ++ 0#1 ++ 0x47#7 ++ h ++ d ++ 0#10]
  | .bxinit x sz e => [0#2 ++ 0#1 ++ 0x48#7 ++ x ++ sz ++ e ++ 0#8]
  | .bxexp x g sz p c a => [0#2 ++ 0#1 ++ 0x49#7 ++ x ++ g ++ sz ++ p ++ c ++ a ++ 0#5]
  | .bxarr x g sz p c a => [0#2 ++ 0#1 ++ 0x4a#7 ++ x ++ g ++ sz ++ p ++ c ++ a ++ 0#5]
  | .bxwait x g sz p => [0#2 ++ 0#1 ++ 0x4b#7 ++ x ++ g ++ sz ++ 0#4 ++ p ++ 0#5]
  | .bxtest x g d => [0#2 ++ 0#1 ++ 0x4c#7 ++ x ++ g ++ d ++ 0#10]
  | .ringset k c => [0#2 ++ 0#1 ++ 0x4d#7 ++ k ++ c ++ 0#13]
  | .fence sz k e => [0#2 ++ 0#1 ++ 0x4e#7 ++ sz ++ k ++ e ++ 0#16]
  | .promote sz => [0#2 ++ 0#1 ++ 0x4f#7 ++ sz ++ 0#19]
  | .tspawn im sz => [0#2 ++ 0#1 ++ 0x50#7 ++ im ++ sz ++ 0x100#10]
  | .tspawnCreate im sz => [0#2 ++ 0#1 ++ 0x50#7 ++ im ++ sz ++ 0#10]
  | .tspawnArm im => [0#2 ++ 0#1 ++ 0x50#7 ++ im ++ 0x200#16]
  | .tedge p sz => [0#2 ++ 0#1 ++ 0x51#7 ++ p ++ sz ++ 0#10]
  | .tdone d t => [0#2 ++ 0#1 ++ 0x52#7 ++ d ++ t ++ 0#10]
  | .tcancel d t => [0#2 ++ 0#1 ++ 0x53#7 ++ d ++ t ++ 0#10]
  | .fnew f => [0#2 ++ 0#1 ++ 0x54#7 ++ f ++ 0#16]
  | .freg d f t => [0#2 ++ 0#1 ++ 0x55#7 ++ d ++ f ++ t ++ 0#4]
  | .fres f v => [0#2 ++ 0#1 ++ 0x56#7 ++ f ++ v ++ 0#10]
  | .ffail f v => [0#2 ++ 0#1 ++ 0x57#7 ++ f ++ v ++ 0#10]
  | .tyield => [0x16000000#32]
  | .tguard im v => [0#2 ++ 0#1 ++ 0x59#7 ++ im ++ v ++ 0#10]
  | .trec b im => [0#2 ++ 0#1 ++ 0x5c#7 ++ b ++ im ++ 0#10]
  | .trecClr im => [0#2 ++ 0#1 ++ 0x5c#7 ++ 0#6 ++ im ++ 0x200#10]
  | .tfold im => [0#2 ++ 0#1 ++ 0x5d#7 ++ 0#6 ++ im ++ 0#10]
  | .tver im v sz => [0#2 ++ 0#1 ++ 0x5e#7 ++ 0#6 ++ im ++ v ++ sz ++ 0#1]
  | .tvwait im v sz => [0#2 ++ 0#1 ++ 0x5f#7 ++ 0#6 ++ im ++ v ++ sz ++ 0#1]
  | .coll a x p => [0#2 ++ 0#1 ++ 0x60#7 ++ a ++ x ++ p ++ 0#10]
  | .lstat d p => [0#2 ++ 0#1 ++ 0x61#7 ++ d ++ p ++ 0#10]
  | .invr sz n im => [0#2 ++ 0#1 ++ 0x68#7 ++ sz ++ n ++ im ++ 0#4]
  | .inva im => [0#2 ++ 0#1 ++ 0x69#7 ++ im ++ 0#16]
  | .probe d sz => [0#2 ++ 0#1 ++ 0x6a#7 ++ d ++ sz ++ 0#10]
  | .freplayResume t => [0#2 ++ 0#1 ++ 0x6b#7 ++ t ++ 0#16]
  | .freplayAbort t => [0#2 ++ 0#1 ++ 0x6b#7 ++ t ++ 0x8000#16]
  | .trap c => [0#2 ++ 0#1 ++ 0x70#7 ++ 0#6 ++ c]
  | .eret f => [0#2 ++ 0#1 ++ 0x71#7 ++ f ++ 0#16]
  | .srd d n => [0#2 ++ 0#1 ++ 0x72#7 ++ d ++ n ++ 0#8]
  | .swr sz n => [0#2 ++ 0#1 ++ 0x73#7 ++ sz ++ n ++ 0#8]
  | .nop => [0x1d000000#32]
  | .brk c => [0#2 ++ 0#1 ++ 0x75#7 ++ 0#6 ++ c]
  | .wfe v a => [0#2 ++ 0#1 ++ 0x76#7 ++ v ++ a ++ 0#10]
  | .yieldctx => [0x1dc00000#32]
  | .xadd d a b => [1#2 ++ 0#1 ++ 0#7 ++ d ++ a ++ b ++ 0#4]
  | .xsub d a b => [1#2 ++ 0#1 ++ 0#7 ++ d ++ a ++ b ++ 1#4]
  | .xand d a b => [1#2 ++ 0#1 ++ 0#7 ++ d ++ a ++ b ++ 2#4]
  | .xior d a b => [1#2 ++ 0#1 ++ 0#7 ++ d ++ a ++ b ++ 3#4]
  | .xeor d a b => [1#2 ++ 0#1 ++ 0#7 ++ d ++ a ++ b ++ 4#4]
  | .xshl d a b => [1#2 ++ 0#1 ++ 0#7 ++ d ++ a ++ b ++ 5#4]
  | .xshr d a b => [1#2 ++ 0#1 ++ 0#7 ++ d ++ a ++ b ++ 6#4]
  | .xsra d a b => [1#2 ++ 0#1 ++ 0#7 ++ d ++ a ++ b ++ 7#4]
  | .xrotr d a b => [1#2 ++ 0#1 ++ 0#7 ++ d ++ a ++ b ++ 8#4]
  | .xmin d a b => [1#2 ++ 0#1 ++ 0#7 ++ d ++ a ++ b ++ 9#4]
  | .xmax d a b => [1#2 ++ 0#1 ++ 0#7 ++ d ++ a ++ b ++ 0xa#4]
  | .xminu d a b => [1#2 ++ 0#1 ++ 0#7 ++ d ++ a ++ b ++ 0xb#4]
  | .xmaxu d a b => [1#2 ++ 0#1 ++ 0#7 ++ d ++ a ++ b ++ 0xc#4]
  | .xslt d a b => [1#2 ++ 0#1 ++ 0#7 ++ d ++ a ++ b ++ 0xd#4]
  | .xsltu d a b => [1#2 ++ 0#1 ++ 0#7 ++ d ++ a ++ b ++ 0xe#4]
  | .xseq d a b => [1#2 ++ 0#1 ++ 0#7 ++ d ++ a ++ b ++ 0xf#4]
  | .xmul d a b => [1#2 ++ 0#1 ++ 1#7 ++ d ++ a ++ b ++ 0#4]
  | .xmulh d a b => [1#2 ++ 0#1 ++ 1#7 ++ d ++ a ++ b ++ 1#4]
  | .xmulhu d a b => [1#2 ++ 0#1 ++ 1#7 ++ d ++ a ++ b ++ 2#4]
  | .xdiv d a b => [1#2 ++ 0#1 ++ 1#7 ++ d ++ a ++ b ++ 3#4]
  | .xdivu d a b => [1#2 ++ 0#1 ++ 1#7 ++ d ++ a ++ b ++ 4#4]
  | .xrem d a b => [1#2 ++ 0#1 ++ 1#7 ++ d ++ a ++ b ++ 5#4]
  | .xremu d a b => [1#2 ++ 0#1 ++ 1#7 ++ d ++ a ++ b ++ 6#4]
  | .xsel d a b => [1#2 ++ 0#1 ++ 1#7 ++ d ++ a ++ b ++ 7#4]
  | .xaddi d a im => [1#2 ++ 0#1 ++ 2#7 ++ d ++ a ++ im]
  | .xaddiL d a im => [1#2 ++ 1#1 ++ 2#7 ++ d ++ a ++ 0#10, 3#2 ++ im]
  | .xshli d a k => [1#2 ++ 0#1 ++ 3#7 ++ d ++ a ++ 0#4 ++ k]
  | .xshliL d a k => [1#2 ++ 1#1 ++ 3#7 ++ d ++ a ++ 0#10, 3#2 ++ 0#24 ++ k]
  | .xshri d a k => [1#2 ++ 0#1 ++ 3#7 ++ d ++ a ++ 1#4 ++ k]
  | .xshriL d a k => [1#2 ++ 1#1 ++ 3#7 ++ d ++ a ++ 0#10, 3#2 ++ 1#24 ++ k]
  | .xsrai d a k => [1#2 ++ 0#1 ++ 3#7 ++ d ++ a ++ 2#4 ++ k]
  | .xsraiL d a k => [1#2 ++ 1#1 ++ 3#7 ++ d ++ a ++ 0#10, 3#2 ++ 2#24 ++ k]
  | .xroti d a k => [1#2 ++ 0#1 ++ 3#7 ++ d ++ a ++ 3#4 ++ k]
  | .xrotiL d a k => [1#2 ++ 1#1 ++ 3#7 ++ d ++ a ++ 0#10, 3#2 ++ 3#24 ++ k]
  | .xli d im => [1#2 ++ 0#1 ++ 4#7 ++ d ++ im]
  | .xlih d im => [1#2 ++ 0#1 ++ 5#7 ++ d ++ im]
  | .xqpop d a => [1#2 ++ 0#1 ++ 6#7 ++ d ++ a ++ 0#10]
  | .xqpush d a => [1#2 ++ 0#1 ++ 7#7 ++ d ++ a ++ 0#10]
  | .vadd d a b p => [1#2 ++ 0#1 ++ 0x10#7 ++ d ++ a ++ b ++ p]
  | .vaddL d a b p ty rnd => [1#2 ++ 1#1 ++ 0x10#7 ++ d ++ a ++ b ++ p, 3#2 ++ d ++ ty ++ rnd ++ 0#4 ++ 0#13]
  | .vsub d a b p => [1#2 ++ 0#1 ++ 0x11#7 ++ d ++ a ++ b ++ p]
  | .vsubL d a b p ty rnd => [1#2 ++ 1#1 ++ 0x11#7 ++ d ++ a ++ b ++ p, 3#2 ++ d ++ ty ++ rnd ++ 0#4 ++ 0#13]
  | .vmul d a b p => [1#2 ++ 0#1 ++ 0x12#7 ++ d ++ a ++ b ++ p]
  | .vmulL d a b p ty rnd => [1#2 ++ 1#1 ++ 0x12#7 ++ d ++ a ++ b ++ p, 3#2 ++ d ++ ty ++ rnd ++ 0#4 ++ 0#13]
  | .vfma d a b p => [1#2 ++ 0#1 ++ 0x13#7 ++ d ++ a ++ b ++ p]
  | .vfmaL d a b p c ty rnd => [1#2 ++ 1#1 ++ 0x13#7 ++ d ++ a ++ b ++ p, 3#2 ++ c ++ ty ++ rnd ++ 0#4 ++ 0#13]
  | .vfms d a b p => [1#2 ++ 0#1 ++ 0x14#7 ++ d ++ a ++ b ++ p]
  | .vfmsL d a b p c ty rnd => [1#2 ++ 1#1 ++ 0x14#7 ++ d ++ a ++ b ++ p, 3#2 ++ c ++ ty ++ rnd ++ 0#4 ++ 0#13]
  | .vfnma d a b p => [1#2 ++ 0#1 ++ 0x15#7 ++ d ++ a ++ b ++ p]
  | .vfnmaL d a b p c ty rnd => [1#2 ++ 1#1 ++ 0x15#7 ++ d ++ a ++ b ++ p, 3#2 ++ c ++ ty ++ rnd ++ 0#4 ++ 0#13]
  | .vmin d a b p => [1#2 ++ 0#1 ++ 0x16#7 ++ d ++ a ++ b ++ p]
  | .vminL d a b p ty => [1#2 ++ 1#1 ++ 0x16#7 ++ d ++ a ++ b ++ p, 3#2 ++ d ++ ty ++ 0#3 ++ 0#4 ++ 0#13]
  | .vmax d a b p => [1#2 ++ 0#1 ++ 0x17#7 ++ d ++ a ++ b ++ p]
  | .vmaxL d a b p ty => [1#2 ++ 1#1 ++ 0x17#7 ++ d ++ a ++ b ++ p, 3#2 ++ d ++ ty ++ 0#3 ++ 0#4 ++ 0#13]
  | .vabs d a p => [1#2 ++ 0#1 ++ 0x18#7 ++ d ++ a ++ 0#6 ++ p]
  | .vabsL d a p ty => [1#2 ++ 1#1 ++ 0x18#7 ++ d ++ a ++ 0#6 ++ p, 3#2 ++ d ++ ty ++ 0#3 ++ 0#4 ++ 0#13]
  | .vneg d a p => [1#2 ++ 0#1 ++ 0x19#7 ++ d ++ a ++ 0#6 ++ p]
  | .vnegL d a p ty => [1#2 ++ 1#1 ++ 0x19#7 ++ d ++ a ++ 0#6 ++ p, 3#2 ++ d ++ ty ++ 0#3 ++ 0#4 ++ 0#13]
  | .vdiv d a b p => [1#2 ++ 0#1 ++ 0x1a#7 ++ d ++ a ++ b ++ p]
  | .vdivL d a b p ty rnd => [1#2 ++ 1#1 ++ 0x1a#7 ++ d ++ a ++ b ++ p, 3#2 ++ d ++ ty ++ rnd ++ 0#4 ++ 0#13]
  | .vsqrt d a p => [1#2 ++ 0#1 ++ 0x1b#7 ++ d ++ a ++ 0#6 ++ p]
  | .vsqrtL d a p ty rnd => [1#2 ++ 1#1 ++ 0x1b#7 ++ d ++ a ++ 0#6 ++ p, 3#2 ++ d ++ ty ++ rnd ++ 0#4 ++ 0#13]
  | .vsel d a b p => [1#2 ++ 0#1 ++ 0x1c#7 ++ d ++ a ++ b ++ p]
  | .vselL d a b p ty => [1#2 ++ 1#1 ++ 0x1c#7 ++ d ++ a ++ b ++ p, 3#2 ++ d ++ ty ++ 0#3 ++ 0#4 ++ 0#13]
  | .vmov d a p => [1#2 ++ 0#1 ++ 0x1d#7 ++ d ++ a ++ 0#6 ++ p]
  | .vmovL d a p ty => [1#2 ++ 1#1 ++ 0x1d#7 ++ d ++ a ++ 0#6 ++ p, 3#2 ++ d ++ ty ++ 0#3 ++ 0#4 ++ 0#13]
  | .exp2 d a p => [1#2 ++ 0#1 ++ 0x20#7 ++ d ++ a ++ 0#6 ++ p]
  | .exp2L d a p ty rnd => [1#2 ++ 1#1 ++ 0x20#7 ++ d ++ a ++ 0#6 ++ p, 3#2 ++ d ++ ty ++ rnd ++ 0#4 ++ 0#13]
  | .log2 d a p ty rnd => [1#2 ++ 1#1 ++ 0x20#7 ++ d ++ a ++ 0#6 ++ p, 3#2 ++ d ++ ty ++ rnd ++ 1#4 ++ 0#13]
  | .rcp d a p ty rnd => [1#2 ++ 1#1 ++ 0x20#7 ++ d ++ a ++ 0#6 ++ p, 3#2 ++ d ++ ty ++ rnd ++ 2#4 ++ 0#13]
  | .rsq d a p ty rnd => [1#2 ++ 1#1 ++ 0x20#7 ++ d ++ a ++ 0#6 ++ p, 3#2 ++ d ++ ty ++ rnd ++ 3#4 ++ 0#13]
  | .tanh d a p ty rnd => [1#2 ++ 1#1 ++ 0x20#7 ++ d ++ a ++ 0#6 ++ p, 3#2 ++ d ++ ty ++ rnd ++ 4#4 ++ 0#13]
  | .sigm d a p ty rnd => [1#2 ++ 1#1 ++ 0x20#7 ++ d ++ a ++ 0#6 ++ p, 3#2 ++ d ++ ty ++ rnd ++ 5#4 ++ 0#13]
  | .vcmp d a b p => [1#2 ++ 0#1 ++ 0x28#7 ++ d ++ a ++ b ++ p]
  | .vcmpL d a b p ty cond lim => [1#2 ++ 1#1 ++ 0x28#7 ++ d ++ a ++ b ++ p, 3#2 ++ d ++ ty ++ 0#3 ++ cond ++ lim ++ 0#8]
  | .pand d a b p => [1#2 ++ 0#1 ++ 0x29#7 ++ d ++ a ++ b ++ p]
  | .pandL d a b p ty lim => [1#2 ++ 1#1 ++ 0x29#7 ++ d ++ a ++ b ++ p, 3#2 ++ d ++ ty ++ 0#3 ++ 0#4 ++ lim ++ 0#8]
  | .por d a b p => [1#2 ++ 0#1 ++ 0x2a#7 ++ d ++ a ++ b ++ p]
  | .porL d a b p ty lim => [1#2 ++ 1#1 ++ 0x2a#7 ++ d ++ a ++ b ++ p, 3#2 ++ d ++ ty ++ 0#3 ++ 0#4 ++ lim ++ 0#8]
  | .pnot d a p => [1#2 ++ 0#1 ++ 0x2b#7 ++ d ++ a ++ 0#6 ++ p]
  | .pnotL d a p ty lim => [1#2 ++ 1#1 ++ 0x2b#7 ++ d ++ a ++ 0#6 ++ p, 3#2 ++ d ++ ty ++ 0#3 ++ 0#4 ++ lim ++ 0#8]
  | .pcnt d a p => [1#2 ++ 0#1 ++ 0x2c#7 ++ d ++ a ++ 0#6 ++ p]
  | .pcntL d a p ty => [1#2 ++ 1#1 ++ 0x2c#7 ++ d ++ a ++ 0#6 ++ p, 3#2 ++ d ++ ty ++ 0#3 ++ 0#4 ++ 0#13]
  | .pfirst d a p ty => [1#2 ++ 1#1 ++ 0x2c#7 ++ d ++ a ++ 0#6 ++ p, 3#2 ++ d ++ ty ++ 0#3 ++ 1#4 ++ 0#13]
  | .vrsum d a p => [1#2 ++ 0#1 ++ 0x30#7 ++ d ++ a ++ 0#6 ++ p]
  | .vrsumL d a p ty rnd => [1#2 ++ 1#1 ++ 0x30#7 ++ d ++ a ++ 0#6 ++ p, 3#2 ++ d ++ ty ++ rnd ++ 0#4 ++ 0#13]
  | .vrmax d a p => [1#2 ++ 0#1 ++ 0x31#7 ++ d ++ a ++ 0#6 ++ p]
  | .vrmaxL d a p ty => [1#2 ++ 1#1 ++ 0x31#7 ++ d ++ a ++ 0#6 ++ p, 3#2 ++ d ++ ty ++ 0#3 ++ 0#4 ++ 0#13]
  | .vrmin d a p => [1#2 ++ 0#1 ++ 0x32#7 ++ d ++ a ++ 0#6 ++ p]
  | .vrminL d a p ty => [1#2 ++ 1#1 ++ 0x32#7 ++ d ++ a ++ 0#6 ++ p, 3#2 ++ d ++ ty ++ 0#3 ++ 0#4 ++ 0#13]
  | .vramax d a p => [1#2 ++ 0#1 ++ 0x33#7 ++ d ++ a ++ 0#6 ++ p]
  | .vramaxL d a p ty => [1#2 ++ 1#1 ++ 0x33#7 ++ d ++ a ++ 0#6 ++ p, 3#2 ++ d ++ ty ++ 0#3 ++ 0#4 ++ 0#13]
  | .vscan d a b p => [1#2 ++ 0#1 ++ 0x34#7 ++ d ++ a ++ b ++ p]
  | .vscanL d a b p ty rnd => [1#2 ++ 1#1 ++ 0x34#7 ++ d ++ a ++ b ++ p, 3#2 ++ d ++ ty ++ rnd ++ 0#4 ++ 0#13]
  | .vsortk d a p => [1#2 ++ 0#1 ++ 0x35#7 ++ d ++ a ++ 0#6 ++ p]
  | .vsortkL d a p ty asc => [1#2 ++ 1#1 ++ 0x35#7 ++ d ++ a ++ 0#6 ++ p, 3#2 ++ d ++ ty ++ 0#3 ++ 0#4 ++ 0#12 ++ asc]
  | .vmergek d a b p => [1#2 ++ 0#1 ++ 0x36#7 ++ d ++ a ++ b ++ p]
  | .vmergekL d a b p c ty asc => [1#2 ++ 1#1 ++ 0x36#7 ++ d ++ a ++ b ++ p, 3#2 ++ c ++ ty ++ 0#3 ++ 0#4 ++ 0#12 ++ asc]
  | .vperm d a b p => [1#2 ++ 0#1 ++ 0x37#7 ++ d ++ a ++ b ++ p]
  | .vpermL d a b p ty => [1#2 ++ 1#1 ++ 0x37#7 ++ d ++ a ++ b ++ p, 3#2 ++ d ++ ty ++ 0#3 ++ 0#4 ++ 0#13]
  | .vcvt d a p ty rnd sty part => [1#2 ++ 1#1 ++ 0x38#7 ++ d ++ a ++ 0#6 ++ p, 3#2 ++ d ++ ty ++ rnd ++ 0#4 ++ 0#5 ++ sty ++ 0#1 ++ part]
  | .vqnt d a b p => [1#2 ++ 0#1 ++ 0x39#7 ++ d ++ a ++ b ++ p]
  | .vqntL d a b p ty rnd pos => [1#2 ++ 1#1 ++ 0x39#7 ++ d ++ a ++ b ++ p, 3#2 ++ d ++ ty ++ rnd ++ 0#4 ++ 0#10 ++ pos]
  | .vdqnt d a b p => [1#2 ++ 0#1 ++ 0x3a#7 ++ d ++ a ++ b ++ p]
  | .vdqntL d a b p ty rnd pos => [1#2 ++ 1#1 ++ 0x3a#7 ++ d ++ a ++ b ++ p, 3#2 ++ d ++ ty ++ rnd ++ 0#4 ++ 0#10 ++ pos]
  | .vbcast d a p => [1#2 ++ 0#1 ++ 0x3b#7 ++ d ++ a ++ 0#6 ++ p]
  | .vbcastL d a p ty rnd => [1#2 ++ 1#1 ++ 0x3b#7 ++ d ++ a ++ 0#6 ++ p, 3#2 ++ d ++ ty ++ rnd ++ 0#4 ++ 0#13]
  | .vbcastLane d a b p ty => [1#2 ++ 1#1 ++ 0x3b#7 ++ d ++ a ++ b ++ p, 3#2 ++ d ++ ty ++ 0#3 ++ 1#4 ++ 0#13]
  | .vrng d p => [1#2 ++ 0#1 ++ 0x40#7 ++ d ++ 0#12 ++ p]
  | .vrngL d p ty => [1#2 ++ 1#1 ++ 0x40#7 ++ d ++ 0#12 ++ p, 3#2 ++ d ++ ty ++ 0#3 ++ 0#4 ++ 0#13]
  | .vrngRaw d p ty => [1#2 ++ 1#1 ++ 0x40#7 ++ d ++ 0#12 ++ p, 3#2 ++ d ++ ty ++ 0#3 ++ 1#4 ++ 0#13]
  | .viota d a p => [1#2 ++ 0#1 ++ 0x41#7 ++ d ++ a ++ 0#6 ++ p]
  | .viotaL d a p ty rnd raw => [1#2 ++ 1#1 ++ 0x41#7 ++ d ++ a ++ 0#6 ++ p, 3#2 ++ d ++ ty ++ rnd ++ 0#4 ++ 0#12 ++ raw]
  | .vldi d m p => [1#2 ++ 0#1 ++ 0x42#7 ++ d ++ m ++ p]
  | .vldiL d m p ty rnd ex => [1#2 ++ 1#1 ++ 0x42#7 ++ d ++ m ++ p, 3#2 ++ d ++ ty ++ rnd ++ 0#4 ++ ex ++ 0#5]
  | .vqpop d a p => [1#2 ++ 0#1 ++ 0x43#7 ++ d ++ a ++ 0#6 ++ p]
  | .vqpopL d a p ty => [1#2 ++ 1#1 ++ 0x43#7 ++ d ++ a ++ 0#6 ++ p, 3#2 ++ d ++ ty ++ 0#3 ++ 0#4 ++ 0#13]
  | .vwin t w => [1#2 ++ 0#1 ++ 0x60#7 ++ 0#3 ++ t ++ w]
  | .bq c a b o => [2#2 ++ 0#1 ++ 0#7 ++ c ++ a ++ b ++ o]
  | .bqL c a b o => [2#2 ++ 1#1 ++ 0#7 ++ c ++ a ++ b ++ 0#6, 3#2 ++ o]
  | .loop c o => [2#2 ++ 0#1 ++ 1#7 ++ c ++ o]
  | .endl c o => [2#2 ++ 0#1 ++ 2#7 ++ c ++ o]
  | .sync => [0x80c00000#32]
  | .win n => [2#2 ++ 0#1 ++ 4#7 ++ 0#6 ++ n]
  | .fpcAll z f r => [2#2 ++ 0#1 ++ 5#7 ++ 0#17 ++ z ++ f ++ r]
  | .fpcRm r => [2#2 ++ 0#1 ++ 5#7 ++ 0x2000#19 ++ r]
  | .fpcDazFtz z f => [2#2 ++ 0#1 ++ 5#7 ++ 0x1000#17 ++ z ++ f ++ 0#3]
  | .halt => [0x81800000#32]
  | .opcodeUndef _ => []
  | .fetchMalformed _ => []

/-- The length of an instruction in words, 1 + L (R27). -/
def wordCount (i : Instr) : Nat := (encode i).length

/-- The bytes of an instruction as text holds them. -/
def encodeBytes (i : Instr) : List Byte := (encode i).flatMap bytesOfWord

end Sys2Proof
end

