-- ==== Sys2Proof/Config.lean ====
section
/-! DEFINITION. The values the spec leaves open: constants without a body, so that nothing can be proved of them.

Each one is named in the assumption log.  A value that may differ each time it is drawn takes a number that the step
advances. -/

namespace Sys2Proof.Config

/-- Cycles that passed since the cell's cycle count was last read (R17, R38): a measurement. -/
opaque elapsed : Nat → Word

/-- Bytes of far memory installed (R210), at most 16 TiB. -/
opaque farInstalled : Nat

/-- The next value of a cell's steal LFSR, whose polynomial the spec does not give (R281). -/
opaque lfsrNext : BitVec 16 → BitVec 16

/-- Which of `n` candidate victims an LFSR value picks (R281). -/
opaque stealPick : BitVec 16 → Nat → Nat

/-- Byte `i` of a bank's device-format save region (R335), by a draw number. -/
opaque deviceFormat : Nat → Nat → Byte

/-- The bytes of an SPDM response that the spec names but does not lay out (R366). -/
opaque spdmBody : Nat → Nat → List Byte

/-- The bytes of a signature of the SPDM responder (R366): Ed25519's and ML-DSA-65's, by a draw number. -/
opaque edSignature : Nat → List Byte
opaque mldsaSignature : Nat → List Byte

/-- The device's public keys, and the rest of its certificate chain (R366). -/
opaque edKey : List Byte
opaque mldsaKey : List Byte
opaque chainRest : List Byte

/-- The MAC addresses of a frame's header by port, and the GCM tag of the frame of a draw number (R357). -/
opaque frameMacs : Nat → List Byte
opaque frameTag : Nat → List Byte

/-- The measurement at an index of the image of a number, or of the fuses (R21, R367). -/
opaque imageDigest : Nat → Nat → Digest

/-- Whether the service firmware assigns a device index to the far end of a port (R368). -/
opaque linkPeer : Nat → Nat → Option Nat

/-- Where the loader looks first for a free frame of the chunk store in the device structures region (R68, R210). -/
opaque chunkFrame : Nat → Nat

/-- Frames that the loader finds in a context's memory for RODATA, ARGS and page tables (R67, R68). -/
opaque contextFrames : Nat → List Nat

/-- Live entries that a galley gives up, least recently used first, before it writes one (R72). -/
opaque galleyEvicts : Nat → Nat

/-- The physical address of an SRAM word, which the spec does not place in its map (R25, R398): by its memory key. -/
opaque sramAddress : Nat → Nat

/-- Cycles that one stalled attempt adds to a stall counter (R86): a measurement. -/
opaque stallCycles : Nat → Nat

/-- The bytes of a galley entry's key, whose serialisation the spec does not give (R337): of die, stream, leaf, offset,
second leaf and context. -/
opaque galleyKeyBytes : Nat → Nat → Digest → Nat → Option Digest → Option Nat → List Byte

/-- The result the device gives where a rule states the effect and leaves the value open. -/
opaque freeWord : Nat → Word

end Sys2Proof.Config
end

