-- ==== Sys2Proof/Machine/Bits.lean ====
section
/-! DEFINITION. Bit-field, byte-order and sign helpers that every meaning uses (R5, R8, R9). -/

namespace Sys2Proof.Machine

/-- `bits(v, hi, lo)` of R9 on a natural number, by its lowest bit and its width. -/
def bitsAt (v lo n : Nat) : Nat := (v >>> lo) % 2 ^ n

/-- `sext(v, n)` of R9. -/
def sextNat (v n : Nat) : Int :=
  let w := v % 2 ^ n
  if n ≠ 0 ∧ w ≥ 2 ^ (n - 1) then (w : Int) - (2 ^ n : Nat) else w

/-- A word of exact value `v`: a register keeps the low 64 bits (R8). -/
def wordOfInt (v : Int) : Word := BitVec.ofInt 64 v

/-- A word of a natural number. -/
def wordOfNat (v : Nat) : Word := BitVec.ofNat 64 v

/-- The word 1 or 0 of a condition. -/
def wordOfBool (b : Bool) : Word := if b then 1#64 else 0#64

/-- The field of `n` bits at `lo` of any bit vector, as a number. -/
def field {w : Nat} (v : BitVec w) (lo n : Nat) : Nat := (v.extractLsb' lo n).toNat

/-- `v` with the field of `n` bits at `lo` holding the low bits of `x`. -/
def putField {w : Nat} (v : BitVec w) (lo n x : Nat) : BitVec w :=
  let m : BitVec w := BitVec.ofNat w ((2 ^ n - 1) <<< lo)
  (v &&& ~~~m) ||| (BitVec.ofNat w ((x % 2 ^ n) <<< lo))

/-- The bytes of `v`, `n` of them, lowest first (R5). -/
def bytesOfNat : Nat → Nat → List Byte
  | 0, _ => []
  | n + 1, v => BitVec.ofNat 8 v :: bytesOfNat n (v >>> 8)

/-- The little-endian number that bytes hold (R5). -/
def natOfBytes : List Byte → Nat
  | [] => 0
  | b :: bs => b.toNat + 256 * natOfBytes bs

/-- The bytes of a word. -/
def bytesOfWord64 (w : Word) (n : Nat) : List Byte := bytesOfNat n w.toNat

/-- The bytes `lo` to `lo + n − 1` of a byte list as a number; bytes past its end read as 0. -/
def leAt (bs : List Byte) (lo n : Nat) : Nat := natOfBytes ((bs.drop lo).take n)

/-- The word in the 8 bytes at `lo`. -/
def wordAt (bs : List Byte) (lo : Nat) : Word := wordOfNat (leAt bs lo 8)

/-- The byte at `i`, 0 past the end. -/
def byteAt (bs : List Byte) (i : Nat) : Nat := leAt bs i 1

/-- `true` when every listed byte is zero. -/
def allZero (bs : List Byte) : Bool := bs.all (· == 0#8)

/-- A row from its bytes. -/
def rowOfBytes (bs : List Byte) : Row := BitVec.ofNat 4096 (natOfBytes (bs.take 512))

/-- The 512 bytes of a row. -/
def bytesOfRow (r : Row) : List Byte := bytesOfNat 512 r.toNat

/-- Element `i` of width `w` bits of a row, numbered from byte 0 (R124, R153). -/
def rowElem (r : Row) (w i : Nat) : Nat := field r (w * i) w

/-- The elements of width `w` of a row, `n` of them from the first. -/
def rowElems (r : Row) (w n : Nat) : List Nat := (List.range n).map (rowElem r w)

/-- A number whose `w`-bit digits are the listed ones, first digit lowest. -/
def natOfDigits (w : Nat) : List Nat → Nat
  | [] => 0
  | x :: xs => x % 2 ^ w + 2 ^ w * natOfDigits w xs

/-- A row from its lanes of width `w`. -/
def rowOfLanes (w : Nat) (ls : List Nat) : Row := BitVec.ofNat 4096 (natOfDigits w ls)

/-- Replace element `i` of a list. -/
def setAt {α : Type} : List α → Nat → α → List α
  | [], _, _ => []
  | _ :: xs, 0, y => y :: xs
  | x :: xs, i + 1, y => x :: setAt xs i y

/-- Change element `i` of a list by `f`. -/
def modifyAt {α : Type} (l : List α) (i : Nat) (f : α → α) : List α :=
  match l[i]? with
  | some x => setAt l i (f x)
  | none => l

/-- The smallest of a list, `d` for the empty one. -/
def leastOf (d : Nat) : List Nat → Nat
  | [] => d
  | x :: xs => xs.foldl Nat.min x

/-- Round up division. -/
def ceilDiv (a b : Nat) : Nat := (a + b - 1) / b

/-- The low bit of the mask of lane `i`. -/
def bitOf {w : Nat} (v : BitVec w) (i : Nat) : Bool := v.getLsbD i

/-- A bit vector from its bits, lowest first. -/
def maskOf (w : Nat) (bs : List Bool) : BitVec w :=
  BitVec.ofNat w (natOfDigits 1 (bs.map fun b => if b then 1 else 0))

/-- `a xor b` of natural numbers on 3-bit line indices and hashes. -/
def natXor (a b : Nat) : Nat := Nat.xor a b

/-- `true` when `v` is a multiple of `n`. -/
def aligned (v : Word) (n : Nat) : Bool := v.toNat % n == 0

end Sys2Proof.Machine
end

