-- ==== Sys2Proof/Machine/Float.lean ====
section
/-! DEFINITION. Element types, rounding and exact arithmetic (R10, R124 to R134, R155).

Every operation is computed exactly and rounded once.  A magnitude is `m × 2^e`; with `sticky` it lies strictly
between `m × 2^e` and `(m + 1) × 2^e`, which is all that any rounding mode needs of an irrational result whose `e` is
at least 26 bits below the last kept bit. -/

namespace Sys2Proof.Machine

/-- The element types of R124, in code order. -/
inductive ElemTy where
  | f32 | bf16 | f16 | e4m3 | e5m2 | o4 | i8 | i16 | i32 | i64 | n8 | n16 | n32 | n64 | i4
  deriving DecidableEq, Repr

/-- The type of a code; 15 is reserved (R124). -/
def ElemTy.ofCode (c : Nat) : Option ElemTy :=
  match c with
  | 0 => some .f32 | 1 => some .bf16 | 2 => some .f16 | 3 => some .e4m3 | 4 => some .e5m2
  | 5 => some .o4 | 6 => some .i8 | 7 => some .i16 | 8 => some .i32 | 9 => some .i64
  | 10 => some .n8 | 11 => some .n16 | 12 => some .n32 | 13 => some .n64 | 14 => some .i4
  | _ => none

/-- The code of a type (R124). -/
def ElemTy.code : ElemTy → Nat
  | .f32 => 0 | .bf16 => 1 | .f16 => 2 | .e4m3 => 3 | .e5m2 => 4 | .o4 => 5 | .i8 => 6 | .i16 => 7
  | .i32 => 8 | .i64 => 9 | .n8 => 10 | .n16 => 11 | .n32 => 12 | .n64 => 13 | .i4 => 14

/-- Width in bits (R124). -/
def ElemTy.width : ElemTy → Nat
  | .f32 => 32 | .bf16 => 16 | .f16 => 16 | .e4m3 => 8 | .e5m2 => 8 | .o4 => 4 | .i8 => 8 | .i16 => 16
  | .i32 => 32 | .i64 => 64 | .n8 => 8 | .n16 => 16 | .n32 => 32 | .n64 => 64 | .i4 => 4

/-- Block-scaled types (R124). -/
def ElemTy.blockScaled : ElemTy → Bool
  | .e4m3 | .e5m2 | .o4 | .i8 | .i4 => true
  | _ => false

/-- Types that DAZ and FTZ reach (R128). -/
def ElemTy.dazApplies : ElemTy → Bool
  | .f32 | .bf16 | .f16 => true
  | _ => false

/-- The fields of a floating type (R125). -/
structure FloatFmt where
  ebits : Nat
  fbits : Nat
  bias : Nat
  /-- the largest finite pattern without its sign -/
  maxFin : Nat
  /-- the pattern of infinity without its sign; e4m3 has none -/
  infPat : Option Nat
  /-- the canonical NaN (R126) -/
  nanPat : Nat
  deriving DecidableEq, Repr

/-- The floating types of R125. -/
def ElemTy.fmt? : ElemTy → Option FloatFmt
  | .f32 => some ⟨8, 23, 127, 0x7F7FFFFF, some 0x7F800000, 0x7FC00000⟩
  | .bf16 => some ⟨8, 7, 127, 0x7F7F, some 0x7F80, 0x7FC0⟩
  | .f16 => some ⟨5, 10, 15, 0x7BFF, some 0x7C00, 0x7E00⟩
  | .e4m3 => some ⟨4, 3, 7, 0x7E, none, 0x7F⟩
  | .e5m2 => some ⟨5, 2, 15, 0x7B, some 0x7C, 0x7E⟩
  | _ => none

/-- Signed integer types and their two's-complement width; the unsigned ones carry `false` (R124). -/
def ElemTy.int? : ElemTy → Option (Bool × Nat)
  | .i8 => some (true, 8) | .i16 => some (true, 16) | .i32 => some (true, 32) | .i64 => some (true, 64)
  | .n8 => some (false, 8) | .n16 => some (false, 16) | .n32 => some (false, 32) | .n64 => some (false, 64)
  | .i4 => some (true, 4)
  | _ => none

/-- An exact number: NaN, an infinity, or a signed magnitude (a zero keeps its sign). -/
inductive Num where
  | nan
  | inf (neg : Bool)
  | fin (neg : Bool) (m : Nat) (e : Int) (sticky : Bool)
  deriving DecidableEq, Repr

/-- A rounding mode resolved for one rounding; `sto u` carries the 24-bit draw (R10, R134). -/
inductive Rm where
  | rne | rtz | rdn | rup | rna
  | sto (u : Nat)
  deriving DecidableEq, Repr

/-- Flag bits in the layout of sr.fflags (R41). -/
abbrev Flags := BitVec 6

/-- sr.fflags.NX. -/
def flNX : Flags := 1#6
/-- sr.fflags.UF. -/
def flUF : Flags := 2#6
/-- sr.fflags.OF. -/
def flOF : Flags := 4#6
/-- sr.fflags.DZ. -/
def flDZ : Flags := 8#6
/-- sr.fflags.NV. -/
def flNV : Flags := 16#6
/-- sr.fflags.SAT. -/
def flSAT : Flags := 32#6

/-- A rounding: the stored pattern, the flags, and whether the element counts as saturated (R140). -/
structure Rounded where
  bits : Nat
  flags : Flags
  sat : Bool
  deriving DecidableEq, Repr

/-- +0 -/
def Num.zero : Num := .fin false 0 0 false

/-- An exact integer. -/
def Num.ofInt (v : Int) : Num := .fin (decide (v < 0)) v.natAbs 0 false

/-- `true` for ±0. -/
def Num.isZero : Num → Bool
  | .fin _ m _ s => m == 0 && !s
  | _ => false

/-- `true` for NaN. -/
def Num.isNan : Num → Bool
  | .nan => true
  | _ => false

/-- `true` for ±∞. -/
def Num.isInf : Num → Bool
  | .inf _ => true
  | _ => false

/-- The sign; NaN has none. -/
def Num.neg? : Num → Bool
  | .nan => false
  | .inf n => n
  | .fin n _ _ _ => n

/-- −v. -/
def Num.negate : Num → Num
  | .nan => .nan
  | .inf n => .inf (!n)
  | .fin n m e s => .fin (!n) m e s

/-- |v|. -/
def Num.abs : Num → Num
  | .nan => .nan
  | .inf _ => .inf false
  | .fin _ m e s => .fin false m e s

/-- v × 2^k, exact. -/
def Num.scale (k : Int) : Num → Num
  | .fin n m e s => .fin n m (e + k) s
  | v => v

/-- The signed value of an exact magnitude in units of `2^e0`, for `e0 ≤ e`. -/
def signedAt (neg : Bool) (m : Nat) (e e0 : Int) : Int :=
  let a : Int := (m <<< (e - e0).toNat : Nat)
  if neg then -a else a

/-- Compare two exact finite numbers: the sign of a − b. -/
def cmpFin (na : Bool) (ma : Nat) (ea : Int) (nb : Bool) (mb : Nat) (eb : Int) : Ordering :=
  let e0 := min ea eb
  compare (signedAt na ma ea e0) (signedAt nb mb eb e0)

/-- Numeric comparison of two numbers neither of which is NaN; −0 equals +0 (R164). -/
def Num.cmp : Num → Num → Ordering
  | .inf n, .inf k => if n == k then .eq else if n then .lt else .gt
  | .inf n, _ => if n then .lt else .gt
  | _, .inf n => if n then .gt else .lt
  | .fin na ma ea _, .fin nb mb eb _ => cmpFin na ma ea nb mb eb
  | _, _ => .eq

/-- Decode a pattern of a floating type; under DAZ a subnormal reads as zero of its sign (R125, R128). -/
def decodeFloat (f : FloatFmt) (daz : Bool) (b : Nat) : Num :=
  let s := bitsAt b (f.ebits + f.fbits) 1 == 1
  let e := bitsAt b f.fbits f.ebits
  let fr := bitsAt b 0 f.fbits
  let mag := b % 2 ^ (f.ebits + f.fbits)
  if mag ≤ f.maxFin then
    if e = 0 then
      if daz then .fin s 0 0 false else .fin s fr (1 - (f.bias : Int) - f.fbits) false
    else .fin s (fr + 2 ^ f.fbits) ((e : Int) - f.bias - f.fbits) false
  else if some mag = f.infPat then .inf s
  else .nan

/-- Whether the rounding of `m` (and `sticky`) to a multiple of `2^d` goes away from zero, and whether it is exact. -/
def roundUp (neg : Bool) (n r d : Nat) (sticky : Bool) (rm : Rm) : Bool :=
  let inexact := r != 0 || sticky
  let half := 2 ^ d
  match rm with
  | .rtz => false
  | .rdn => neg && inexact
  | .rup => !neg && inexact
  | .rne => decide (2 * r > half) || (2 * r == half && (sticky || n % 2 == 1))
  | .rna => decide (2 * r ≥ half) && inexact
  | .sto u =>
    -- lo < v < hi are signed: below zero the neighbour away from zero is lo (R10)
    if neg then inexact && !decide (u < ((half - r - (if sticky then 1 else 0)) <<< 24) >>> d)
    else decide (u < (r <<< 24) >>> d)

/-- `floor(log2 v)` of a nonzero magnitude. -/
def magLog2 (m : Nat) (e : Int) : Int := (Nat.log2 m : Int) + e

/-- Round a magnitude to a multiple of `2^q`: the multiple's index and whether the result is exact. -/
def roundAt (neg : Bool) (m : Nat) (e : Int) (sticky : Bool) (q : Int) (rm : Rm) : Nat × Bool :=
  if e ≥ q then (m <<< (e - q).toNat, !sticky)
  else
    let d := (q - e).toNat
    let n := m >>> d
    let r := m % 2 ^ d
    (if roundUp neg n r d sticky rm then n + 1 else n, r == 0 && !sticky)

/-- What an overflow stores (R127): infinity (`true`) or the largest finite value. -/
def overflowsToInf (neg : Bool) : Rm → Bool
  | .rne | .rna | .sto _ => true
  | .rtz => false
  | .rdn => neg
  | .rup => !neg

/-- An infinity written to a floating type under the clip policy (`ieee` false is SAT), R127. -/
def writeInf (f : FloatFmt) (ieee clips : Bool) (neg : Bool) (fl : Flags) : Rounded :=
  let sg := if neg then 2 ^ (f.ebits + f.fbits) else 0
  match f.infPat with
  | some p => if clips && !ieee then ⟨sg + f.maxFin, fl ||| flSAT, true⟩ else ⟨sg + p, fl, false⟩
  | none => if ieee then ⟨f.nanPat, fl, false⟩ else ⟨sg + f.maxFin, fl ||| flSAT, true⟩

/-- `round(v, fmt, rm)` for a floating type (R10, R127, R128). `clips` says that the clip policy reaches this type. -/
def roundFloat (f : FloatFmt) (ieee clips ftz : Bool) (rm : Rm) : Num → Rounded
  | .nan => ⟨f.nanPat, 0, false⟩
  | .inf n => writeInf f ieee clips n 0
  | .fin neg m e sticky =>
    let sg := if neg then 2 ^ (f.ebits + f.fbits) else 0
    if m == 0 && !sticky then ⟨sg, 0, false⟩
    else
      let emin : Int := 1 - f.bias
      let qmin := emin - f.fbits
      let q := if m == 0 then qmin else max (magLog2 m e - f.fbits) qmin
      let (n, exact) := roundAt neg m e sticky q rm
      let pat := if n < 2 ^ f.fbits then n else ((q - qmin).toNat + 1) * 2 ^ f.fbits + (n - 2 ^ f.fbits)
      if pat > f.maxFin then
        if overflowsToInf neg rm then writeInf f ieee clips neg (flOF ||| flNX)
        else ⟨sg + f.maxFin, flOF ||| flNX, false⟩
      else
        let qu := if m == 0 then e else magLog2 m e - f.fbits
        let (nu, _) := roundAt neg m e sticky qu rm
        let tiny := if m == 0 then true
          else decide (qu < qmin) && decide (nu < 2 ^ ((emin - qu).toNat))
        if tiny && ftz then ⟨sg, flUF ||| flNX, false⟩
        else if exact then ⟨sg + pat, 0, false⟩
        else ⟨sg + pat, (if tiny then flUF ||| flNX else flNX), false⟩

/-- Round to an integer under a mode (R129): the integer and whether it is exact. -/
def roundToInt (rm : Rm) (neg : Bool) (m : Nat) (e : Int) (sticky : Bool) : Int × Bool :=
  let (n, ex) := roundAt neg m e sticky 0 rm
  ((if neg then -(n : Int) else n), ex)

/-- `round(v, fmt, rm)` for an integer range: the stored value, the flags and the saturation (R126, R129). -/
def roundIntRange (lo hi : Int) (rm : Rm) : Num → Int × Flags × Bool
  | .nan => (0, flNV, false)
  | .inf n => (if n then lo else hi, flSAT ||| flNX, true)
  | .fin neg m e sticky =>
    let (i, ex) := roundToInt rm neg m e sticky
    if i < lo then (lo, flSAT ||| flNX, true)
    else if i > hi then (hi, flSAT ||| flNX, true)
    else (i, (if ex then 0 else flNX), false)

/-- The range of an integer type of width `w`. -/
def intRange (signed : Bool) (w : Nat) : Int × Int :=
  if signed then (-(2 ^ (w - 1) : Nat), (2 ^ (w - 1) : Nat) - 1) else (0, (2 ^ w : Nat) - 1)

/-- Round to one of the o4 outlier magnitudes 8, 16, 32, 64 (R131): the index of the magnitude, whether it saturates
and whether it is inexact.  Between two members the fraction is (|q| − lo) / lo, since hi − lo = lo; a tie under RNE
goes to the even index. -/
def roundOutlier (rm : Rm) (neg : Bool) (m : Nat) (e : Int) (sticky : Bool) : Nat × Bool × Bool :=
  let lg := magLog2 m e
  let is64 := cmpFin false m e false 64 0 == .eq && !sticky
  if m == 0 || lg < 3 then (0, false, true)
  else if lg ≥ 6 then (3, !is64, !is64)
  else
    let k := (lg - 3).toNat
    let d := Nat.log2 m
    let r := m - 2 ^ d
    let exact := r == 0 && !sticky
    -- the stochastic comparison is of the magnitudes, for either sign (R131)
    let ng := match rm with | .sto _ => false | _ => neg
    (if roundUp ng k r d sticky rm then k + 1 else k, false, !exact)

/-- A NaN slot of an o4 pair acts as 0 (R131). -/
def o4Clean : Num → Num
  | .nan => .zero
  | v => v

/-- `true` when the stored integer `z` is exactly `v`. -/
def isExactly (v : Num) (z : Int) : Bool :=
  match v with
  | .fin n m e s => !s && cmpFin n m e (decide (z < 0)) z.natAbs 0 == .eq
  | _ => false

/-- |a| larger than |b| for o4 slots (R131): infinities are largest. -/
def magGt (a b : Num) : Bool := Num.cmp a.abs b.abs == .gt

/-- The result of an o4 or i4 pair: the byte, the flags, and which slots count as saturated. -/
structure PairRounded where
  byte : Nat
  flags : Flags
  sat0 : Bool
  sat1 : Bool
  deriving DecidableEq, Repr

/-- R131: a pair of exact reals as an o4 byte; `rm0` also serves the outlier magnitude. -/
def roundO4 (rm0 rm1 : Rm) (v0 v1 : Num) : PairRounded :=
  let nv : Flags := if v0.isNan || v1.isNan then flNV else 0
  let q0 := o4Clean v0
  let q1 := o4Clean v1
  let big : Int := 1000
  let ri := fun (rm : Rm) (q : Num) =>
    match q with
    | .fin n m e s => (roundToInt rm n m e s).1
    | .inf n => if n then -big else big
    | .nan => 0
  let r0 := ri rm0 q0
  let r1 := ri rm1 q1
  if r0.natAbs ≤ 7 && r1.natAbs ≤ 7 then
    let nx : Flags := if isExactly q0 r0 && isExactly q1 r1 then 0 else flNX
    ⟨(r0 % 16).toNat + 16 * (r1 % 16).toNat, nv ||| nx, false, false⟩
  else
    let odd := magGt q1 q0
    let qo := if odd then q1 else q0
    let qn := if odd then q0 else q1
    let rn := if odd then r0 else r1
    let (k, satO, inexO) :=
      match qo with
      | .fin n m e s =>
        roundOutlier rm0 n m e s
      | _ => (3, true, true)
    let satN := rn != 0
    let nx : Flags := if inexO || !(isExactly qn 0) then flNX else 0
    let st : Flags := if satO || satN then flSAT else 0
    let hi := (if odd then 8 else 0) + (if qo.neg? then 4 else 0) + k
    ⟨8 + 16 * hi, nv ||| nx ||| st, (if odd then satN else satO), (if odd then satO else satN)⟩

/-- A pair of exact reals as an i4 byte (R132, R129). -/
def roundI4 (rm0 rm1 : Rm) (v0 v1 : Num) : PairRounded :=
  let (a, fa, sa) := roundIntRange (-8) 7 rm0 v0
  let (b, fb, sb) := roundIntRange (-8) 7 rm1 v1
  ⟨(a % 16).toNat + 16 * (b % 16).toNat, fa ||| fb, sa, sb⟩

/-- The two values of an o4 byte (R130). -/
def decodeO4 (b : Nat) : Num × Num :=
  let lo := b % 16
  let hi := (b / 16) % 16
  if lo = 8 then
    let m : Int := (2 ^ (3 + hi % 4) : Nat)
    let v := Num.ofInt (if hi / 4 % 2 = 1 then -m else m)
    if hi / 8 = 0 then (v, .zero) else (.zero, v)
  else (Num.ofInt (sextNat lo 4), if hi = 8 then .nan else Num.ofInt (sextNat hi 4))

/-- The value of an element of a type other than o4 (R124, R125). -/
def decodeElem (t : ElemTy) (daz : Bool) (b : Nat) : Num :=
  match t.fmt? with
  | some f => decodeFloat f (daz && t.dazApplies) b
  | none =>
    match t.int? with
    | some (true, w) => Num.ofInt (sextNat b w)
    | some (false, w) => Num.ofInt (b % 2 ^ w : Nat)
    | none => .zero

/-- `round(v, T, rm)` for a type other than o4: pattern, flags, saturation. -/
def roundElem (t : ElemTy) (ieee ftz : Bool) (rm : Rm) (v : Num) : Rounded :=
  match t.fmt? with
  | some f => roundFloat f ieee (t == .e4m3 || t == .e5m2) (ftz && t.dazApplies) rm v
  | none =>
    match t.int? with
    | some (sg, w) =>
      let (lo, hi) := intRange sg w
      let (i, fl, sat) := roundIntRange lo hi rm v
      ⟨(i % (2 ^ w : Nat)).toNat, fl, sat⟩
    | none => ⟨0, 0, false⟩

/-- An exact result with the flags that the operation itself raises. -/
structure Exact where
  v : Num
  flags : Flags
  deriving DecidableEq, Repr

/-- The exact sum (R155): an ∞ − ∞ sets NV; an exact zero sum of unlike signs is +0, −0 under RDN. -/
def addNum (rdn : Bool) (a b : Num) : Exact :=
  match a, b with
  | .nan, _ => ⟨.nan, 0⟩
  | _, .nan => ⟨.nan, 0⟩
  | .inf n, .inf k => if n == k then ⟨.inf n, 0⟩ else ⟨.nan, flNV⟩
  | .inf n, _ => ⟨.inf n, 0⟩
  | _, .inf n => ⟨.inf n, 0⟩
  | .fin na ma ea _, .fin nb mb eb _ =>
    let e0 := min ea eb
    let s := signedAt na ma ea e0 + signedAt nb mb eb e0
    if s = 0 then
      if ma == 0 && mb == 0 && na == nb then ⟨.fin na 0 0 false, 0⟩ else ⟨.fin rdn 0 0 false, 0⟩
    else ⟨.fin (decide (s < 0)) s.natAbs e0 false, 0⟩

/-- The exact product; 0 × ∞ sets NV (R155, R162). -/
def mulNum (a b : Num) : Exact :=
  match a, b with
  | .nan, _ => ⟨.nan, 0⟩
  | _, .nan => ⟨.nan, 0⟩
  | .inf n, x => if x.isZero then ⟨.nan, flNV⟩ else ⟨.inf (n != x.neg?), 0⟩
  | x, .inf n => if x.isZero then ⟨.nan, flNV⟩ else ⟨.inf (n != x.neg?), 0⟩
  | .fin na ma ea _, .fin nb mb eb _ => ⟨.fin (na != nb) (ma * mb) (ea + eb) false, 0⟩

/-- a × b + c, exact; 0 × ∞ sets NV whatever c is (R162). -/
def fmaNum (rdn : Bool) (a b c : Num) : Exact :=
  let p := mulNum a b
  if p.flags != 0 then ⟨.nan, p.flags⟩ else addNum rdn p.v c

/-- a / b (R162): the quotient to 100 bits and a sticky bit. -/
def divNum (a b : Num) : Exact :=
  match a, b with
  | .nan, _ => ⟨.nan, 0⟩
  | _, .nan => ⟨.nan, 0⟩
  | .inf _, .inf _ => ⟨.nan, flNV⟩
  | .inf n, x => ⟨.inf (n != x.neg?), 0⟩
  | x, .inf n => ⟨.fin (n != x.neg?) 0 0 false, 0⟩
  | .fin na ma ea _, .fin nb mb eb _ =>
    let s := na != nb
    if mb = 0 then (if ma = 0 then ⟨.nan, flNV⟩ else ⟨.inf s, flDZ⟩)
    else
      let n := ma <<< 128
      ⟨.fin s (n / mb) (ea - eb - 128) (n % mb != 0), 0⟩

/-- Integer square root by digits: `fuel` result bits, highest first. -/
def isqrtAux : Nat → Nat → Nat → Nat
  | 0, _, r => r
  | k + 1, v, r =>
    let c := r + 2 ^ k
    isqrtAux k v (if c * c ≤ v then c else r)

/-- `floor(√v)`. -/
def isqrt (v : Nat) : Nat := isqrtAux (Nat.log2 v / 2 + 1) v 0

/-- √a (R162). -/
def sqrtNum (a : Num) : Exact :=
  match a with
  | .nan => ⟨.nan, 0⟩
  | .inf n => if n then ⟨.nan, flNV⟩ else ⟨.inf false, 0⟩
  | .fin n m e _ =>
    if m = 0 then ⟨.fin n 0 0 false, 0⟩
    else if n then ⟨.nan, flNV⟩
    else
      let odd := e % 2 ≠ 0
      let m' := m <<< (if odd then 129 else 128)
      let r := isqrt m'
      ⟨.fin false r ((if odd then e - 1 else e) / 2 - 64) (r * r != m'), 0⟩

/-- 1 / √a (R163). -/
def rsqrtNum (a : Num) : Exact :=
  match a with
  | .nan => ⟨.nan, 0⟩
  | .inf n => if n then ⟨.nan, flNV⟩ else ⟨.fin false 0 0 false, 0⟩
  | .fin n m e _ =>
    if m = 0 then ⟨.inf n, flDZ⟩
    else if n then ⟨.nan, flNV⟩
    else
      let odd := e % 2 ≠ 0
      let m' := if odd then 2 * m else m
      let e' := if odd then e - 1 else e
      let r := isqrt (2 ^ 320 / m')
      ⟨.fin false r (-(e' / 2) - 160) (r * r * m' != 2 ^ 320), 0⟩

/-- 1 / a (R163): ±0 gives ±∞ with DZ, ±∞ gives ±0. -/
def rcpNum (a : Num) : Exact := divNum (.ofInt 1) a

/-- IEEE 754-2019 maximum: NaN in either gives NaN; −0 is below +0 (R162). -/
def maxNum (a b : Num) : Num :=
  if a.isNan || b.isNan then .nan
  else
    match Num.cmp a b with
    | .gt => a
    | .lt => b
    | .eq => if a.neg? then b else a

/-- IEEE 754-2019 minimum. -/
def minNum (a b : Num) : Num :=
  if a.isNan || b.isNan then .nan
  else
    match Num.cmp a b with
    | .lt => a
    | .gt => b
    | .eq => if a.neg? then a else b

/-- The counter generator of R178: h for a key and a counter. -/
def counterGen (key c : Nat) : Nat :=
  let h := natXor (c % 2 ^ 32) (key % 2 ^ 32)
  let h := (h * 0x85EBCA6B) % 2 ^ 32
  let h := natXor h (h >>> 13)
  let h := (h * 0xC2B2AE35) % 2 ^ 32
  natXor h (h >>> 16)

/-- The controls an instruction captures at issue (R134): the rounding code, DAZ and FTZ, and the key and counter of
its stochastic draws (R156). -/
structure Controls where
  rm : Nat
  daz : Bool
  ftz : Bool
  key : Nat
  ctr : Nat
  deriving DecidableEq, Repr

/-- The mode of the `j`-th rounding of an instruction under its captured controls (R134, R156). -/
def Controls.rmAt (c : Controls) (j : Nat) : Rm :=
  match c.rm with
  | 2 => .rtz
  | 3 => .rdn
  | 4 => .rup
  | 5 => .rna
  | 6 => .sto (counterGen c.key (c.ctr + j) >>> 8)
  | _ => .rne

/-- The resolved mode is stochastic. -/
def Controls.stochastic (c : Controls) : Bool := c.rm == 6

/-- The resolved mode is RDN. -/
def Controls.rdn (c : Controls) : Bool := c.rm == 3

end Sys2Proof.Machine
end

