-- ==== Sys2Proof/Machine/State.lean ====
section
/-! DEFINITION. The machine's state: every piece of state the spec gives the device, as plain data.

A cell's registers, queues, handles, barriers, rings, nest tables and engine queues stand in its `Bank` (R77).  The
contexts, kernels, graphs, plates, ports and firmware state stand beside the cells.  Memory is one canonical list of
listed bytes over the physical map of R210 and the scratchpad images. -/

namespace Sys2Proof.Machine

open Sys2Proof

/-- Why a step stops the machine.  A fault of a program is no stop: it is an exception entry (R342, R346). -/
inductive Fault where
  /-- Raised by an event that names a cell, port, context, queue, die or other object the device does not have (R15,
  R330, R354).  Safe: the spec gives no such event. -/
  | noSuchObject
  deriving DecidableEq, Repr

/-- Why a step has no meaning here. -/
inductive Refusal where
  /-- Raised by a dispatch arm whose instruction has no meaning yet.  Safe. -/
  | notModelled (mnemonic : String)
  deriving DecidableEq, Repr

/-- Fault cause codes (R340). -/
inductive Cause where
  | fetchMalformed | opcodeUndef | operandIllegal | priv
  | accessRange | pageNotPresent | pagePerm | pageOrd | farFault
  | align | operandFormat | rescale
  | futDouble | taskState
  | handleState | barrierOver
  | translate | watchdog | saveArea | link | queuePacket
  deriving DecidableEq, Repr

/-- Element tags of tiles (R35). -/
inductive TileTag where
  | f32 | i32 | bf16 | f16
  deriving DecidableEq, Repr

/-- Privilege levels (R38, R346). -/
inductive Level where
  | task | supervisor
  deriving DecidableEq, Repr

/-- The A stream's register files (R34). -/
structure AFile where
  a : Vector Word 64
  lc : Vector (BitVec 32) 8
  sd : Vector (BitVec 256) 16
  deriving DecidableEq, Repr

/-- The X stream's register files and the accumulator array (R35). `acc` lists the rows that are not zero, by
ascending row number; `bad` lists the array's 8-byte words that are poisoned, word 64 r + k being word k of row r (R25). -/
structure XFile where
  x : Vector Word 32
  p : Vector (BitVec 256) 16
  tags : Vector TileTag 32
  acc : List (Nat × Row)
  bad : List Nat
  deriving DecidableEq, Repr

/-- The system registers a bank holds (R38); sr.mstat is computed from the engine (R42) and sr.cell from the cell. -/
structure SysRegs where
  fpcA : Word
  fpcX : Word
  windowA : Word
  windowX : Word
  fflags : Word
  vwin : Word
  seed : Word
  seedCtr : Word
  task : Word
  ctx : Word
  asid : Word
  shard : Vector Word 6
  pca : Word
  pcx : Word
  seqa : Word
  seqx : Word
  cause : Word
  fva : Word
  deriving DecidableEq, Repr

/-- Walk counts and their maxima (R80). -/
structure Walk where
  wa : Int
  wx : Int
  wmaxa : Int
  wmaxx : Int
  deriving DecidableEq, Repr

/-- A part of an access within one page: the G address (none in S space), the memory key, the length, and the size code of
the page (R213, R219). -/
structure RowPart where
  gva : Option Nat
  key : Nat
  len : Nat
  size : Nat
  deriving DecidableEq, Repr

/-- A translation that an operation holds: a 64 KiB piece of a page by its G address / 2^16, the memory key of its first
byte, and the size code of the whole page (R202, R219). -/
structure HeldFrame where
  page : Nat
  key : Nat
  size : Nat
  deriving DecidableEq, Repr

/-- A qx entry (R82). -/
inductive QEntry where
  | scalar (v : Word)
  | row (v : Row)
  /-- reserved by LDVQ, its data not yet arrived: what it reads, and the row of those bytes -/
  | pending (parts : List RowPart) (row : Row)
  deriving DecidableEq, Repr

/-- An occupied bq slot: the number of the shared control instruction that put it, the producer's first-word address and
the outcome (R84). -/
structure BqSlot where
  k : Nat
  addr : Word
  taken : Bool
  deriving DecidableEq, Repr

/-- The queues between the streams (R82, R84); heads first. -/
structure Queues where
  qx : Vector (List QEntry) 4
  qa : Vector (List Word) 2
  bq : Vector (Option BqSlot) 64
  kA : Nat
  kX : Nat
  deriving DecidableEq, Repr

/-- Handle states (R263). -/
inductive HState where
  | free | filling | full | draining
  deriving DecidableEq, Repr

/-- A handle (R262). -/
structure Handle where
  state : HState
  ch : Nat
  wp : Nat
  total : Nat
  deriving DecidableEq, Repr

/-- A held arrival or byte adjustment (R240). -/
structure HeldItem where
  cnt : Nat
  bytes : Int
  deriving DecidableEq, Repr

/-- A hardware barrier (R238); `phases` counts the completed phases since set-up, which ring rotation reads. -/
structure Barrier where
  live : Bool
  ring : Bool
  phase : Bool
  scope : Nat
  arrived : Nat
  expect : Nat
  pending : Int
  held : List HeldItem
  phases : Nat
  deriving DecidableEq, Repr

/-- A ring region (R245, R246). `base` and `slot` are in bytes. -/
structure Ring where
  isSet : Bool
  scope : Nat
  base : Nat
  slot : Nat
  n : Nat
  fb : Nat
  eb : Nat
  rp : Nat
  rc : Nat
  waitProd : Nat
  waitCons : Nat
  deriving DecidableEq, Repr

/-- Handles, barriers and rings of a bank. -/
structure SyncFile where
  handles : Vector Handle 64
  barriers : Vector Barrier 32
  rings : Vector Ring 8
  deriving DecidableEq, Repr

/-- The barrier a copy reports to, by its cell, and the parity (R255, R259). -/
structure BarRef where
  cell : Nat
  bx : Nat
  par : Bool
  deriving DecidableEq, Repr

/-- The copy instructions (R255). -/
inductive CopyKind where
  | cpy | cpyf | gath | scat
  deriving DecidableEq, Repr

/-- A translation of a whole page that a copy holds for its later bytes (R387): the page's first G address, its length
and the memory key of its first byte. -/
structure HeldPage where
  base : Nat
  len : Nat
  key : Nat
  deriving DecidableEq, Repr

/-- Where a copy stands (R257, R260, R261). -/
inductive CopyPhase where
  | queued
  | running
  /-- begun, and stalled on a barrier that holds 15 items (R240) -/
  | waiting
  | replay (token : Nat)
  | faulted
  deriving DecidableEq, Repr

/-- A copy that has not completed: its captured descriptor and indices, and its progress. -/
structure CopyOp where
  kind : CopyKind
  handle : Nat
  ch : Nat
  desc : List Byte
  idx : List Nat
  bar : Option BarRef
  /-- S address of the ring slot of an R destination, as read at issue -/
  slotBase : Nat
  total : Nat
  wp : Nat
  phase : CopyPhase
  srcHeld : List HeldPage
  dstHeld : List HeldPage
  /-- PRES: record index, HBASE and type of DIDX, and the bytes written so far -/
  shown : Option (Nat × Int × ElemTy)
  written : List Byte
  /-- sr.seqa before the instruction that started it (R337, CODE) -/
  seqa : Word
  deriving DecidableEq, Repr

/-- A level of the nest table (R192): `lc` names an lc register as trip source. -/
structure NestLevel where
  lc : Option Nat
  trip : Nat
  sa : Int
  sb : Int
  sc : Int
  deriving DecidableEq, Repr

/-- A running nest's captured operands and position (R192, R206). -/
structure MmaOp where
  sda : BitVec 256
  sdb : BitVec 256
  m : Nat
  n : Nat
  place : Word
  levels : List NestLevel
  daz : Bool
  ftz : Bool
  iter : Nat
  step : Nat
  deriving DecidableEq, Repr

/-- A write-back's captured operands (R203) and the translations that it holds (R202). -/
structure MwbOp where
  sd : BitVec 256
  src : Word
  m : Nat
  n : Nat
  raw : Bool
  rm : Nat
  daz : Bool
  ftz : Bool
  ieee : Bool
  frames : List HeldFrame
  /-- record index and HBASE of the tensor that the write presents to (R203) -/
  shown : Option (Nat × Int)
  deriving DecidableEq, Repr

/-- A byte that a quantising MWB writes: the bits of `mask` at a memory key become those of `val` (R204); `page` is the G
page number and the size code of its page. -/
structure PendWrite where
  key : Nat
  page : Option (Nat × Nat)
  val : Byte
  mask : Byte
  deriving DecidableEq, Repr

/-- What a tile-engine operation does (R185, R204). -/
inductive TileWork where
  | mma (o : MmaOp)
  | mzero (first count : Nat)
  | mwb (o : MwbOp)
  /-- the element and shift bytes of a quantising MWB, decided at issue -/
  | writes (l : List PendWrite)
  deriving DecidableEq, Repr

/-- A queued or running tile-engine operation. -/
structure TileOp where
  walk : Int
  started : Bool
  work : TileWork
  flags : Flags
  deriving DecidableEq, Repr

/-- A forked collective (R364): its descriptor, barrier, rank data and captured translations. -/
structure CollOp where
  desc : List Byte
  bx : Nat
  par : Bool
  ordinal : Nat
  digest : Digest
  srcFrames : List HeldFrame
  dstFrames : List HeldFrame
  /-- PRES: record index, HBASE and type of DIDX -/
  shown : Option (Nat × Int × ElemTy)
  /-- its destination is written, and its arrival is to come -/
  done : Bool
  seqa : Word
  deriving DecidableEq, Repr

/-- A bank's engines (R185, R187, R192, R198, R251, R364). -/
structure Engines where
  nests : Vector (Vector NestLevel 6) 2
  activeHalf : Fin 2
  tileQ : List TileOp
  /-- flags of completed operations by their walk counts, not yet entered in sr.fflags (R198) -/
  tileFlags : List (Int × Flags)
  engSeq : Nat
  channels : Vector (List CopyOp) 4
  chSeq : Vector Nat 4
  collQ : List CollOp
  collIssued : Nat
  collSeq : Nat
  /-- sr.mstat.NARROW (R42, R205) -/
  narrow : Bool
  deriving DecidableEq, Repr

/-- A statistics record (R139); `maxmag` is its f32 pattern and `hist` the 48 bins. -/
structure StatRecord where
  gen : Nat
  inf : Bool
  capped : Bool
  maxmag : Nat
  nan : Nat
  zero : Nat
  sat : Nat
  hist : List Nat
  deriving DecidableEq, Repr

/-- A fault that a stream or an engine operation has raised (R43, R337, R342). -/
structure FaultInfo where
  /-- sr.cause.STREAM: 0 A, 1 X, 2 engine, 3 both -/
  stream : Nat
  cause : Cause
  fva : Word
  /-- KIND of the frame: 1 stream fault, 2 engine or device fault, 3 TRAP, 4 BRK -/
  kind : Nat
  code : Word
  /-- a fault that no stream or engine operation issued: the TCB it names, or 0 (R342, R397) -/
  device : Option Word
  deriving DecidableEq, Repr

/-- The ASID and the G range of an invalidation that waits (R223). -/
structure InvRange where
  asid : Nat
  lo : Nat
  hi : Nat
  deriving DecidableEq, Repr

/-- What names a galley entry on its die: the stream, the leaf and the offset of its first word, the leaf of a second chunk
that it enters, and the context of a confidential kernel (R70). -/
structure GalleyKey where
  st : Stream
  leaf : Digest
  offset : Nat
  leaf2 : Option Digest
  ctx : Option Nat
  deriving DecidableEq, Repr

/-- The galley entry that a stream runs in (R70, R73): its first word's address, its words, and its key and generation.
A dead entry still holds its words for the streams that remain in it. -/
structure InEntry where
  base : Nat
  code : List IWord
  key : GalleyKey
  gen : Nat
  deriving DecidableEq, Repr

/-- What a bank is doing (R345, BANK). -/
inductive BankStatus where
  | idle | running | halted | handler
  deriving DecidableEq, Repr

/-- How a bank's streams stand: waits, pairings, faults and latches. -/
structure Control where
  owner : Option Nat
  status : BankStatus
  level : Level
  /-- the group whose shard runs here, and the shard's number in it -/
  group : Option Nat
  shardNo : Nat
  pass : Nat
  kslot : Nat
  /-- the stream stalls in wait_until, a queue wait or a slip stall (R12, R341) -/
  waitA : Bool
  waitX : Bool
  /-- the scratchpad line that a stream waits for (R334) -/
  wantLine : Option Nat
  /-- the galley entry that each stream has entered (R70, R214) -/
  galA : Option InEntry
  galX : Option InEntry
  /-- the region that each stream needed last, by its first address, and its failed compositor attempts (R74) -/
  triesA : Nat × Nat
  triesX : Nat × Nat
  /-- the recorded fault whose cut is being run (R89), and the later ones in the order they came (R342) -/
  fault : Option FaultInfo
  second : List FaultInfo
  /-- the partner stream has reached its cut -/
  atCut : Bool
  /-- the watchdog ended the cut (R341) -/
  wdogCut : Bool
  wdog : Nat
  /-- a fault that reached the cell during a swap (R343) -/
  pend : Option FaultInfo
  /-- what the instructions at the streams' PCs are about to raise, as far as it is known when a page walk ends in a swap
  (R343) -/
  ahead : List FaultInfo
  latA : List Latch
  latX : List Latch
  lkeep : Bool
  /-- INVR or INVA has dropped its entries and waits; and it has been acknowledged (R223) -/
  invWait : Option InvRange
  invAck : Bool
  /-- TFOLD words this shard is ready at (R149) -/
  foldReady : Nat
  foldDone : Nat
  foldIdx : Nat
  foldWalk : Int
  /-- updates presented since the record's previous TFOLD, by record index, with the walk count of an X instruction (R149) -/
  presented : List (Option Int × Nat × StatRecord)
  /-- handler: G address of the trapped bank's frame, and whether this entry froze the context (R346, R350) -/
  frame : Word
  froze : Bool
  /-- handler: the fault it was entered for -/
  entry : Option FaultInfo
  /-- the shadow bank holds a shard that TYIELD set aside for this one (R293) -/
  yielding : Bool
  /-- A stands at a TSPAWN that waits for its cell's counter to register (R308) -/
  spawning : Bool
  deriving DecidableEq, Repr

/-- All architectural state of a shard (R77): one of a cell's two banks. -/
structure Bank where
  af : AFile
  xf : XFile
  sr : SysRegs
  walk : Walk
  q : Queues
  sync : SyncFile
  eng : Engines
  ctl : Control
  deriving DecidableEq, Repr

/-- The counters of R86. -/
structure CellCounters where
  ldEvents : Nat
  ldCycles : Nat
  slipA : Nat
  slipX : Nat
  qxFull : Nat
  qxEmpty : Nat
  bqWait : Nat
  /-- cycles the matrix engine spent narrowed (R19) -/
  narrowed : Nat
  deriving DecidableEq, Repr

/-- A decided translation of a 64 KiB piece of a page (R212, R213): the leaf's bits, its size code (0, 1, 2 for 64 KiB,
2 MiB, 1 GiB), and the memory key of the piece's first byte. -/
structure Xlat where
  ord : Nat
  pin : Bool
  ex : Bool
  wr : Bool
  rd : Bool
  task : Bool
  far : Bool
  size : Nat
  key : Nat
  deriving DecidableEq, Repr

/-- A translation a cell's TLB holds (R217), by ASID and G address / 2^16. -/
structure TlbEntry where
  asid : Nat
  page : Nat
  x : Xlat
  deriving DecidableEq, Repr

/-- A READY task in a cell's queue (R277): decisions that passed it by. -/
structure ReadyTask where
  ctx : Nat
  tcb : Nat
  passed : Nat
  deriving DecidableEq, Repr

/-- Steal progress (R281). -/
structure StealState where
  lfsr : BitVec 16
  /-- requests sent in this round, 0 to 6 -/
  sent : Nat
  /-- the victim a request waits on -/
  victim : Option Nat
  backoff : Bool
  deriving DecidableEq, Repr

/-- A cell (R77). -/
structure Cell where
  active : Bank
  shadow : Bank
  /-- the context whose image each 64 KiB scratchpad line holds (R334) -/
  lineTags : Vector (Option Nat) 96
  counters : CellCounters
  /-- sr.cyc (R17, R38) -/
  cyc : Word
  tlb : List TlbEntry
  ready : Vector (List ReadyTask) 4
  /-- the forming group that holds the cell (R302) -/
  held : Option Nat
  steal : StealState
  deriving DecidableEq, Repr

/-- Context states (R332). -/
inductive CtxState where
  | free | loading | ready | active | shadow | spilling | spilled | restoring | frozen | lost | retired
  deriving DecidableEq, Repr

/-- Kernel slot states (R69); an absent slot is not listed. -/
inductive KernelState where
  | loading | verified | resident | translated | unloading | stale
  deriving DecidableEq, Repr

/-- Launch level kinds (R296). -/
inductive LevelKind where
  | temporal | cells | dies
  deriving DecidableEq, Repr

/-- A kernel in a slot (R68, R69). -/
structure Kernel where
  slot : Nat
  state : KernelState
  root : Digest
  leaves : List Digest
  /-- the words of TEXT up to TEXTSIZE -/
  text : List IWord
  entry : Nat
  textG : Word
  rodataG : Word
  argsG : Word
  rodata : List Byte
  args : List Byte
  textLen : Nat
  /-- the G addresses meet the sections' ALIGN (R67, order 9), and the status of its relocations (order 10) -/
  alignOk : Bool
  relocCode : Nat
  /-- the first relocation entry that fails: its index and SITE (R65) -/
  relocAt : Option (Nat × Nat)
  launch : List (LevelKind × Nat)
  shapeArgs : List Nat
  eager : Bool
  /-- dies whose eager translation has completed, and dies whose galleys hold entries -/
  eagerDone : BitVec 4
  dies : BitVec 4
  /-- the LOAD or UNLOAD packet that waits for the loader: queue, and its completion word, SEQ and TYPE -/
  packet : Option (Nat × Word × Word)
  deriving DecidableEq, Repr

/-- A 64 KiB page of TEXT that the loader has mapped (R68): the slot, the G page and its chunk-store frame. -/
structure Placed where
  slot : Nat
  page : Nat
  frame : Nat
  deriving DecidableEq, Repr

/-- An outstanding replay entry (R220, R225). -/
structure ReplayEntry where
  token : Nat
  cell : Nat
  cause : Cause
  fva : Word
  deriving DecidableEq, Repr

/-- A context (R330 to R332). -/
structure Ctx where
  state : CtxState
  conf : Bool
  debug : Bool
  asid : Nat
  nqueue : Nat
  wdshift : Nat
  svslot : Nat
  ptroot : Nat
  saveBase : Nat
  qdesc : Nat
  tcbBase : Nat
  tcbCount : Nat
  spadFirst : Nat
  spadLast : Nat
  ttable : Nat
  recBase : Nat
  evtBase : Nat
  replayBase : Nat
  part : BitVec 256
  /-- the creation request as it came, for the measurement of R367 -/
  request : List Byte
  /-- the SPDM session that keys a confidential context (R330, R367) -/
  session : Option Nat
  /-- ROOTs of the kernels loaded, in load order (R367) -/
  loaded : List Digest
  /-- faults the context has taken (R344, COUNT) -/
  faults : Nat
  /-- REASON of LOST (R344) -/
  reason : Nat
  kernels : List Kernel
  /-- the TEXT pages that the loader has mapped (R68, R210) -/
  placed : List Placed
  /-- event entries posted and consumed (R340) -/
  evtPosted : Nat
  evtTaken : Nat
  /-- outstanding entries of the replay queue (R220) -/
  replays : List ReplayEntry
  /-- replay entries written to each slot (R220, TOKEN) -/
  replayCount : List Nat
  /-- statistics records by record index (R139) and tensor indices with a retire pending (R137) -/
  records : List (Nat × StatRecord)
  retirePending : List (Nat × Nat × Word × Word)
  /-- tail writes not yet parsed: queue and TAIL, in order of arrival (R138) -/
  tailOrder : List (Nat × Nat)
  /-- queues whose graph has been parsed and is held, with its number in parse order (R138) -/
  heldGraphs : List (Nat × Nat)
  /-- a swap is in progress (R343) -/
  swapping : Bool
  /-- digests of the device-format save regions of its cells (R335) -/
  saveDigests : List (Nat × Digest)
  /-- the supervisor task of R340 runs -/
  svTask : Bool
  /-- a gang context of this number exists on every device (R361) -/
  gang : Bool
  /-- RETIRED: the frames that its page table mapped then, by first key and length (R332) -/
  ending : List (Nat × Nat)
  deriving DecidableEq, Repr

/-- A partial record (R141): the die, the writing task, the record index and the record. -/
structure Partial where
  graph : Nat
  tcb : Nat
  die : Nat
  idx : Nat
  record : StatRecord
  deriving DecidableEq, Repr

/-- A graph in flight (R273, R308). -/
structure Graph where
  id : Nat
  /-- its place in the order in which graphs were parsed (R138) -/
  parseNo : Nat
  ctx : Nat
  queue : Nat
  graphNo : Nat
  seq : Word
  compl : Word
  die : Nat
  tcb0 : Nat
  nt : Nat
  edges : List (Nat × Nat)
  guardBase : Word
  nguard : Nat
  /-- guard words written: word, task, value (R294, R317) -/
  guards : List (Nat × Nat × Word)
  /-- tasks of the graph by TCB index, with the counter that counted each (R308) -/
  tasks : List (Nat × Option CounterNode)
  /-- bindings of each task -/
  bindings : List (Nat × List (BitVec 32))
  /-- the records at admission (R142) and the partials of its tasks -/
  atAdmission : List (Nat × StatRecord)
  partials : List Partial
  root : Nat
  counters : List (CounterNode × Nat)
  /-- tasks that ended DONE, CANCELLED or FAILED -/
  ended : List (Nat × Nat)
  shape : Digest
  /-- the plate this graph records or runs; issued local tasks; READY tasks held by the run (R321) -/
  recording : Bool
  running : Bool
  issued : List Nat
  heldReady : List Nat
  /-- descriptor bytes of item 4 of R314 at admission, by tensor index -/
  shapes : List (Nat × List Byte)
  /-- TCB indices of the admitted tasks whose image has PRED above 0 (R320) -/
  imagePreds : List Nat
  deriving DecidableEq, Repr

/-- Group states (R306): FORMING with its cells held, staged and ready to start, then RUNNING; the completion write is one
step. -/
inductive GroupState where
  /-- the formation arbiter has not chosen its cells -/
  | requested
  | held | staging | ready | running
  deriving DecidableEq, Repr

/-- A group (R300, R306); a handler or a supervisor task is no group. -/
structure Group where
  id : Nat
  ctx : Nat
  graph : Nat
  tcb : Nat
  kslot : Nat
  home : Nat
  state : GroupState
  exts : List Nat
  /-- shard s stands on `cells[s]`; `started` and `halted` by shard -/
  p : Nat
  q : Nat
  cells : List Nat
  halted : List Bool
  args : Word
  prio : Nat
  spsize : Nat
  baseOff : Nat
  stages : List (List Byte)
  base : Option Nat
  stagesDone : Nat
  bindings : List (BitVec 32)
  snapshot : List (Nat × StatRecord)
  folds : Nat
  /-- updates that a halted shard presented whose cell has gone back to the shard that yielded it (R149, R293) -/
  gone : List (Option Int × Nat × StatRecord)
  /-- the base of the plate entry, when a run forms it (R321) -/
  plateBase : Option Nat
  deriving DecidableEq, Repr

/-- Plate states (R315). -/
inductive PlateState where
  | recording | sealed | refined | retired
  deriving DecidableEq, Repr

/-- A plate entry (R318) with its stall slot. -/
structure PlateEntry where
  /-- the local task; none is a JOIN -/
  loc : Option Nat
  kern : Nat
  spbase : Nat
  argrel : Nat
  waits : List (BitVec 32)
  guard : Nat
  hoist : Nat
  /-- SPSIZE of the task, as recorded or as its last issue read it -/
  spsize : Nat
  wstall : Nat
  sstall : Nat
  deriving DecidableEq, Repr

/-- A section of a plate (R315): one device's lanes by cell, and its health vector. -/
structure Section where
  dev : Nat
  health : BitVec 320
  lanes : List (Nat × List PlateEntry)
  deriving DecidableEq, Repr

/-- A plate (R315). -/
structure Plate where
  key : Digest
  digest : Digest
  gen : Nat
  state : PlateState
  ndev : Nat
  kerns : List Digest
  guards : List (Nat × Nat × Word)
  imposition : List (List Byte)
  nt : Nat
  hback : Nat
  conf : Bool
  ctx : Nat
  edges : List (Nat × Nat)
  sections : List Section
  /-- the graph of the run in flight, finished entries per lane, and whether make-ready is due -/
  run : Option Nat
  heads : List (Nat × Nat)
  handback : Bool
  due : Bool
  lastRun : Nat
  deriving DecidableEq, Repr

/-- A galley entry (R70, R73); `used` is the time of its last use, by which the galley replaces (R72). -/
structure GalleyEntry where
  key : GalleyKey
  gen : Nat
  dead : Bool
  words : Nat
  used : Nat
  deriving DecidableEq, Repr

/-- A die's galley: its entries and its generation counter (R76). -/
structure Galley where
  entries : List GalleyEntry
  gen : Nat
  deriving DecidableEq, Repr

/-- A chunk in the chunk store (R61): its 1,024 words. `bad` marks one whose stored bytes no longer match its hash (R62). -/
structure Chunk where
  leaf : Digest
  ctx : Option Nat
  code : List IWord
  count : Nat
  bad : Bool
  deriving DecidableEq, Repr

/-- Gang port states (R359); host ports use DOWN, TRAINING and UP. -/
inductive PortState where
  | down | training | up | degraded | locked
  deriving DecidableEq, Repr

/-- A port (R357 to R359, R368). -/
structure Port where
  state : PortState
  lanes : Nat
  epoch : BitVec 16
  retry : Nat
  peer : Option Nat
  rxSeq : BitVec 32
  txSeq : BitVec 32
  /-- flits sent and not yet acknowledged, with their retransmissions -/
  unacked : List (BitVec 32 × List Byte × Nat)
  bad : Nat
  credits : List Nat
  /-- a retry of a failed training is due (R359) -/
  retryDue : Bool
  /-- a host port's management QP is in the error state (R354, R356) -/
  qpError : Bool
  deriving DecidableEq, Repr

/-- A queue pair (R354 to R356). -/
structure Qp where
  port : Nat
  num : Nat
  ctx : Nat
  error : Bool
  deriving DecidableEq, Repr

/-- Session states of the SPDM responder (R366, R367). -/
inductive SessionState where
  | handshake | established
  deriving DecidableEq, Repr

/-- A session. -/
structure Session where
  id : Nat
  asker : SpdmAsker
  state : SessionState
  keyUpdates : Nat
  /-- ports that it has given a link key (R359, R367) -/
  keyed : List Nat
  deriving DecidableEq, Repr

/-- A firmware image in flash (R21): its number, and whether both its signatures verify. -/
structure FwImage where
  number : Nat
  verifies : Bool
  deriving DecidableEq, Repr

/-- A signature of the SPDM responder over its transcript (R366): Ed25519, and in OpaqueData an element of this ID with the
ML-DSA-65 signature over the same transcript hash. -/
structure SpdmSignature where
  ed : List Byte
  elementId : Nat
  mldsa : List Byte
  deriving DecidableEq, Repr

/-- The algorithms that the SPDM responder offers (R366). -/
inductive SpdmAlgorithm where
  | sha3_256 | ed25519 | secp384r1 | aes256Gcm
  deriving DecidableEq, Repr

/-- The certificate chain of slot 0 (R366): both public keys, and the rest of its bytes. -/
structure CertChain where
  edKey : List Byte
  mldsaKey : List Byte
  rest : List Byte
  deriving DecidableEq, Repr

/-- What an SPDM response says (R366, R367). -/
inductive SpdmBody where
  /-- fields that the spec does not lay out -/
  | fields (bytes : List Byte)
  | algorithms (l : List SpdmAlgorithm)
  /-- the digest of the chain of slot 0 -/
  | chainDigest (d : CertChain)
  | chain (c : CertChain)
  | measurement (index : Nat) (d : Digest)
  | error
  deriving DecidableEq, Repr

/-- An SPDM response: its code, what it says, and the signature of a signed one. -/
structure SpdmAnswer where
  code : Nat
  body : SpdmBody
  sig : Option SpdmSignature
  deriving DecidableEq, Repr

/-- Device states (R23). -/
inductive DevState where
  | off | starting | ready | recovery | stopped
  deriving DecidableEq, Repr

/-- What the device sends or answers. -/
inductive Out where
  | created (ctx : Nat) (accepted : Bool)
  | readData (port qp : Nat) (data : List Byte)
  | nak (port qp : Nat) (invalidRequest : Bool)
  | ack (port qp : Nat)
  /-- a gang port's Ethernet frame (R357) -/
  | frame (port : Nat) (bytes : List Byte)
  | delivered (port : Nat) (vc : Nat) (payload : List Byte)
  | spdm (asker : SpdmAsker) (answer : SpdmAnswer)
  /-- what the service firmware has read, or that it may not (R20) -/
  | serviceRead (ctx : Nat) (data : Option (List Byte))
  | serviceWrote (ctx : Nat) (done : Bool)
  /-- whether the uses of what the root firmware has invalidated are settled (R347) -/
  | rootInvalidated (ctx : Nat) (settled : Bool)
  | firmware (accepted : Bool)
  | managed (port : Nat) (data : List Byte)
  | qpMade (port qp : Nat) (accepted : Bool)
  /-- to a device of the gang -/
  | plateSection (dev : Nat) (image : List Byte)
  /-- the relocation entry that ends a load: context, slot, index of the entry and its SITE (R65) -/
  | relocRejected (ctx slot index site : Nat)
  deriving DecidableEq, Repr

/-- Background counters (R24). -/
structure Background where
  scrubPass : Nat
  dramCorrected : Nat
  dramUncorrectable : Nat
  sramCorrected : Nat
  sramUncorrectable : Nat
  linkRecal : Nat
  linkRecalUs : Nat
  dramRecal : Nat
  dramRecalUs : Nat
  flashErase : Nat
  flashRetired : Nat
  telemetrySamples : Nat
  telemetryDropped : Nat
  deriving DecidableEq, Repr

/-- The device's start-up and firmware state (R19 to R25). -/
structure Device where
  state : DevState
  cold : Bool
  failedStarts : Nat
  installed : Bool
  alarm : Bool
  inhibit : Bool
  bg : Background
  /-- poisoned words, by the key of their first byte (R25) -/
  poisoned : List Nat
  /-- the service firmware's image and the recovery image (R21, R23) -/
  service : FwImage
  recovery : FwImage
  /-- the images measured: measurement index and image number (R21, R367) -/
  measured : List (Nat × Nat)
  sessions : List Session
  /-- this device's index in its gang, and the gang's size (R326, R361) -/
  devIndex : Nat
  gangSize : Nat
  deriving DecidableEq, Repr

/-- What the firmware does of itself (R20): the service firmware reads and writes the memory of contexts that are not
confidential, and writes the route table (R358); the root firmware writes the page tables of a confidential context and
invalidates its translations (R347). -/
inductive FirmwareAct where
  | serviceRead (ctx addr n : Nat)
  | serviceWrite (ctx addr : Nat) (data : List Byte)
  | serviceRoutes (routes : List (Nat × Nat))
  | rootTable (ctx addr : Nat) (entry : Word)
  | rootInvalidate (ctx lo hi : Nat)
  | rootSettled (ctx lo hi : Nat)
  deriving DecidableEq, Repr

/-- What moves next: an input or device step, one stream of a cell, or the firmware. -/
inductive Action where
  | event (e : Instr)
  | stream (cell : Nat) (st : Stream)
  | firmware (a : FirmwareAct)
  deriving DecidableEq, Repr

/-- A bank and scratchpad owner set aside in its save slot (R335). -/
structure SavedBank where
  ctx : Nat
  cell : Nat
  bank : Bank
  deriving DecidableEq, Repr

/-- The scheduling state shared by the cells. -/
structure Sched where
  graphs : List Graph
  groups : List Group
  plates : List Plate
  /-- the next graph, group and run number -/
  nextId : Nat
  galleys : Vector Galley 4
  chunks : List Chunk
  deriving DecidableEq, Repr

/-- Ports and queue pairs. -/
structure Net where
  ports : Vector Port 18
  qps : List Qp
  /-- route table: destination device to port (R358) -/
  routes : List (Nat × Nat)
  deriving DecidableEq, Repr

/-- Memory: the listed bytes, addresses strictly rising, none equal to the unlisted value. -/
abbrev Memory := List Host.Cell

/-- The whole device. -/
structure State where
  cells : Vector Cell 256
  ctxs : Vector Ctx 64
  mem : Memory
  saved : List SavedBank
  sched : Sched
  net : Net
  dev : Device
  /-- the cell and stream that move next when the agenda is empty; `engine` gives the cell's engines their turn -/
  cur : Fin 256
  turn : Stream
  engine : Bool
  agenda : List Action
  outbox : List Out
  /-- the model's own: counts the free values drawn from Config -/
  freeCtr : Nat
  deriving DecidableEq, Repr

/-- sr.fpc at shard start (R38). -/
def fpcReset : Word := 1#64

/-- sr.window at shard start (R38). -/
def windowReset : Word := 4096#64

/-- A register file as R37 leaves it. -/
def SysRegs.reset : SysRegs :=
  ⟨fpcReset, fpcReset, windowReset, windowReset, 0, 0, 0, 0, 0, 0, 0, Vector.replicate 6 (0x100000000#64), 0, 0, 0, 0, 0, 0⟩

/-- An unset ring. -/
def Ring.reset : Ring := ⟨false, 0, 0, 0, 0, 0, 0, 0, 0, 0, 0⟩

/-- A barrier that is not LIVE. -/
def Barrier.reset : Barrier := ⟨false, false, false, 0, 0, 0, 0, [], 0⟩

/-- Queues at shard start. -/
def Queues.reset : Queues := ⟨Vector.replicate 4 [], Vector.replicate 2 [], Vector.replicate 64 none, 0, 0⟩

/-- Handles, barriers and rings at shard start. -/
def SyncFile.reset : SyncFile :=
  ⟨Vector.replicate 64 ⟨.free, 0, 0, 0⟩, Vector.replicate 32 .reset, Vector.replicate 8 .reset⟩

/-- A nest level at shard start (R192). -/
def NestLevel.reset : NestLevel := ⟨none, 0, 0, 0, 0⟩

/-- Engines at shard start. -/
def Engines.reset : Engines :=
  ⟨Vector.replicate 2 (Vector.replicate 6 .reset), 0, [], [], 0, Vector.replicate 4 [], Vector.replicate 4 0, [], 0, 0, false⟩

/-- Control state of an idle bank. -/
def Control.reset : Control :=
  { owner := none, status := .idle, level := .task, group := none, shardNo := 0, pass := 0, kslot := 0,
    waitA := false, waitX := false, wantLine := none, galA := none, galX := none, triesA := (0, 0), triesX := (0, 0),
    fault := none, second := [],
    atCut := false, wdogCut := false, wdog := 0, pend := none, ahead := [], latA := [], latX := [], lkeep := false,
    invWait := none, invAck := false, foldReady := 0, foldDone := 0, foldIdx := 0, foldWalk := 0, presented := [],
    frame := 0, froze := false, entry := none, yielding := false, spawning := false }

/-- A bank at shard start (R37). -/
def Bank.reset : Bank :=
  { af := ⟨Vector.replicate 64 0, Vector.replicate 8 0, Vector.replicate 16 0⟩
    xf := ⟨Vector.replicate 32 0, Vector.replicate 16 0, Vector.replicate 32 .f32, [], []⟩
    sr := .reset
    walk := ⟨0, 0, 0, 0⟩
    q := .reset
    sync := .reset
    eng := .reset
    ctl := .reset }

/-- A cell after a start; its steal LFSR is seeded by sr.cell (R281). -/
def Cell.reset (n : Nat) : Cell :=
  { active := .reset, shadow := .reset, lineTags := Vector.replicate 96 none,
    counters := ⟨0, 0, 0, 0, 0, 0, 0, 0⟩, cyc := 0, tlb := [], ready := Vector.replicate 4 [], held := none,
    steal := ⟨BitVec.ofNat 16 n, 0, none, false⟩ }

/-- A FREE context. -/
def Ctx.reset : Ctx :=
  { state := .free, conf := false, debug := false, asid := 0, nqueue := 0, wdshift := 0, svslot := 0, ptroot := 0,
    saveBase := 0, qdesc := 0, tcbBase := 0, tcbCount := 0, spadFirst := 0, spadLast := 0, ttable := 0, recBase := 0,
    evtBase := 0, replayBase := 0, part := 0, request := [], session := none, loaded := [], faults := 0, reason := 0, kernels := [], placed := [],
    evtPosted := 0, evtTaken := 0, replays := [], replayCount := List.replicate 64 0, records := [],
    retirePending := [], tailOrder := [], heldGraphs := [], swapping := false, saveDigests := [], svTask := false, gang := false, ending := [] }

/-- A port after link training with all 8 lanes (R359). -/
def Port.reset : Port :=
  { state := .up, lanes := 8, epoch := 1, retry := 0, peer := none, rxSeq := 0, txSeq := 0, unacked := [], bad := 0,
    credits := [0, 0, 0, 0], retryDue := false, qpError := false }

/-- Background counters after a cold start (R24). -/
def Background.reset : Background := ⟨0, 0, 0, 0, 0, 0, 0, 0, 0, 0, 0, 0, 0⟩

/-- A device that has completed a cold start (R23). -/
def Device.reset : Device :=
  { state := .ready, cold := true, failedStarts := 0, installed := false, alarm := false, inhibit := false,
    bg := .reset, poisoned := [], service := ⟨0, true⟩, recovery := ⟨0, true⟩, measured := [(1, 0), (2, 0)], sessions := [], devIndex := 0, gangSize := 1 }

/-- The machine after reset: a completed cold start from power-on.  Every context is FREE, every kernel ABSENT, memory
zero (R22), and nothing moves until an input comes. -/
def State.reset : State :=
  { cells := Vector.ofFn fun i => Cell.reset i.val
    ctxs := Vector.replicate 64 .reset
    mem := []
    saved := []
    sched := ⟨[], [], [], 0, Vector.replicate 4 ⟨[], 0⟩, []⟩
    net := ⟨Vector.replicate 18 .reset, [], []⟩
    dev := .reset
    cur := 0
    turn := .a
    engine := false
    agenda := []
    outbox := []
    freeCtr := 0 }

end Sys2Proof.Machine
end

