-- ==== Sys2Proof/Machine/Memory.lean ====
section
/-! DEFINITION. Memory as one canonical list of listed bytes, and the map of keys.

A key below 2^52 is a physical address (R210).  The scratchpad image that context `x` owns on cell `c` stands at
2^52 + (256 x + c) × 2^23 (R208, R334).  A start zeroes all DRAM and SRAM (R22), so an unlisted byte reads 0. -/

namespace Sys2Proof.Machine

/-- The byte an unlisted key reads as (R22, step 6). -/
def memBlank : Byte := 0#8

/-- Read one byte. -/
def memGet : Memory → Nat → Byte
  | [], _ => memBlank
  | (k, v) :: t, a => if a = k then v else if a < k then memBlank else memGet t a

/-- Write one byte, keeping the canonical form. -/
def memPut : Memory → Nat → Byte → Memory
  | [], a, b => if b = memBlank then [] else [(a, b)]
  | (k, v) :: t, a, b =>
    if a < k then (if b = memBlank then (k, v) :: t else (a, b) :: (k, v) :: t)
    else if a = k then (if b = memBlank then t else (a, b) :: t)
    else (k, v) :: memPut t a b

/-- Every listed key is at least `lo`, keys rise strictly and no entry equals the blank byte. -/
def memWfFrom : Nat → Memory → Bool
  | _, [] => true
  | lo, (k, v) :: t => decide (lo ≤ k) && (v != memBlank) && memWfFrom (k + 1) t

/-- The canonical form of a memory. -/
def Memory.wf (m : Memory) : Bool := memWfFrom 0 m

/-- Read `n` bytes from a key upward. -/
def memRead (m : Memory) (a : Nat) : Nat → List Byte
  | 0 => []
  | n + 1 => memGet m a :: memRead m (a + 1) n

/-- Write bytes from a key upward, in ascending order. -/
def memWrite (m : Memory) (a : Nat) : List Byte → Memory
  | [] => m
  | b :: bs => memWrite (memPut m a b) (a + 1) bs

/-- Write listed bytes in order. -/
def memWriteAll (m : Memory) (l : List (Nat × Byte)) : Memory := l.foldl (fun m kb => memPut m kb.1 kb.2) m

/-- Size of a scratchpad (R77). -/
def spadBytes : Nat := 0x600000

/-- The key of byte `off` of the scratchpad image that a context owns on a cell. -/
def spadKey (ctx cell off : Nat) : Nat := 2 ^ 52 + (256 * ctx + cell) * 2 ^ 23 + off

/-- The key by which the 8-byte word `w` (word 64 r + k being word k of row r) of a cell's accumulator file is named (R25): no
memory stands there. -/
def accKey (cell w : Nat) : Nat := 2 ^ 58 + (262144 * cell + w) * 8

/-- What a physical address belongs to (R210). -/
inductive Tier where
  | near | mid | device | far | hole
  deriving DecidableEq, Repr

/-- The physical map of R210. -/
def tierOf (p : Nat) : Tier :=
  if p < 0x4000000000 then (if p % 0x1000000000 ≤ 0xBFFFFFFFF then .near else .hole)
  else if 0x10000000000 ≤ p ∧ p ≤ 0x1DFFFFFFFFF then .mid
  else if 0x1E000000000 ≤ p ∧ p ≤ 0x1FFFFFFFFFF then .device
  else if 0x100000000000 ≤ p ∧ p ≤ 0x1FFFFFFFFFFF then
    (if p - 0x100000000000 < Config.farInstalled then .far else .hole)
  else .hole

/-- The first key of the 8-byte ECC word that holds a key. -/
def eccWord (k : Nat) : Nat := k / 8 * 8

/-- The first poisoned word that a read of `n` bytes at `k` touches (R25). -/
def firstPoison (bad : List Nat) (k n : Nat) : Option Nat :=
  bad.find? fun w => decide (w < k + n) && decide (k < w + 8)

/-- Poison left after a store of `n` bytes at `k`: a store that covers a word clears it (R25). -/
def clearPoison (bad : List Nat) (k n : Nat) : List Nat :=
  bad.filter fun w => !(decide (k ≤ w) && decide (w + 8 ≤ k + n))

/-- The first poisoned word that a store touches without covering it (R25). -/
def partialPoison (bad : List Nat) (k n : Nat) : Option Nat :=
  bad.find? fun w => decide (w < k + n) && decide (k < w + 8) && !(decide (k ≤ w) && decide (w + 8 ≤ k + n))

end Sys2Proof.Machine
end

