-- ==== Sys2Proof/Machine/Access.lean ====
section
/-! DEFINITION. Reading and writing the pieces of the state: registers by number, banks by place, cells by sr.cell.

Each register file has one reader and one writer; what is hard-wired (a0, x0, p0) lives in them (R34, R35). -/

namespace Sys2Proof.Machine

open Sys2Proof

/-- Element `i` of a vector, `d` past its end. -/
def vget {α : Type} {n : Nat} (v : Vector α n) (i : Nat) (d : α) : α := if h : i < n then v[i] else d

/-- `v` with element `i` replaced. -/
def vset {α : Type} {n : Nat} (v : Vector α n) (i : Nat) (x : α) : Vector α n := v.setIfInBounds i x

/-- The cell numbered `i` by sr.cell. -/
def State.cellAt (s : State) (i : Nat) : Cell := vget s.cells i (Cell.reset 0)

/-- Replace a cell. -/
def State.setCell (s : State) (i : Nat) (c : Cell) : State := { s with cells := vset s.cells i c }

/-- The cell that moves. -/
def State.cell (s : State) : Cell := s.cells[s.cur]

/-- Its active bank. -/
def State.bank (s : State) : Bank := s.cell.active

/-- Replace the moving cell. -/
def State.withCell (s : State) (c : Cell) : State := { s with cells := s.cells.set s.cur c }

/-- Replace its active bank. -/
def State.setBank (s : State) (b : Bank) : State := s.withCell { s.cell with active := b }

/-- The context numbered `i`. -/
def State.ctxAt (s : State) (i : Nat) : Ctx := vget s.ctxs i Ctx.reset

/-- Replace a context. -/
def State.setCtx (s : State) (i : Nat) (c : Ctx) : State := { s with ctxs := vset s.ctxs i c }

/-- The number of the context whose bank is active on the moving cell. -/
def State.ctxNo (s : State) : Nat := s.bank.sr.ctx.toNat

/-- Bits [7:0] of sr.cell (R16). -/
def State.cellNo (s : State) : Nat := s.cur.val

/-- Where a bank stands (R77, R335). -/
inductive BankPlace where
  | active | shadow | saved | none
  deriving DecidableEq, Repr

/-- A bank that holds a shard of context `x`, or stands idle for it; a handler's bank is no shard's (R346). -/
def Bank.shardOf (b : Bank) (x : Nat) : Bool := b.ctl.owner == some x && b.ctl.status != .handler

/-- Where the bank of context `x` on cell `c` is held. -/
def State.bankPlace (s : State) (x c : Nat) : BankPlace :=
  if (s.cellAt c).active.shardOf x then .active
  else if (s.cellAt c).shadow.shardOf x then .shadow
  else if s.saved.any fun b => b.ctx == x && b.cell == c then .saved
  else .none

/-- The bank at a place. -/
def State.bankIn (s : State) (p : BankPlace) (x c : Nat) : Option Bank :=
  match p with
  | .active => some (s.cellAt c).active
  | .shadow => some (s.cellAt c).shadow
  | .saved => (s.saved.find? fun b => b.ctx == x && b.cell == c).map (·.bank)
  | .none => none

/-- Replace the first bank of a context that is set aside for a cell. -/
def replaceSaved (x c : Nat) (b : Bank) : List SavedBank → List SavedBank
  | [] => []
  | e :: t => if e.ctx == x && e.cell == c then { e with bank := b } :: t else e :: replaceSaved x c b t

/-- Replace the bank at a place. -/
def State.setBankIn (s : State) (p : BankPlace) (x c : Nat) (b : Bank) : State :=
  match p with
  | .active => s.setCell c { s.cellAt c with active := b }
  | .shadow => s.setCell c { s.cellAt c with shadow := b }
  | .saved => { s with saved := replaceSaved x c b s.saved }
  | .none => s

/-- The bank of context `x` on cell `c`, wherever it is held. -/
def State.bankOf (s : State) (x c : Nat) : Option Bank := s.bankIn (s.bankPlace x c) x c

/-- Replace the bank of context `x` on cell `c`, wherever it is held. -/
def State.setBankOf (s : State) (x c : Nat) (b : Bank) : State := s.setBankIn (s.bankPlace x c) x c b

/-- The banks of a cell with the contexts that own them: active, shadow, and those in save slots. -/
def State.places (s : State) (c : Nat) : List (BankPlace × Nat) :=
  let one := fun (p : BankPlace) (b : Bank) => match b.ctl.owner with
    | some x => [(p, x)]
    | none => []
  one .active (s.cellAt c).active ++ one .shadow (s.cellAt c).shadow ++
    (s.saved.filter (·.cell == c)).map fun e => (.saved, e.ctx)

/-- The line of an offset of context `x`'s image on cell `c` is held there (R209, R334). -/
def State.imageHeld (s : State) (x c off : Nat) : Bool :=
  s.bankPlace x c != .saved &&
    match vget (s.cellAt c).lineTags (off / 65536) none with
    | some y => y == x
    | none => true

/-- The first line of a cell that holds another context's image (R334). -/
def State.foreignLine (s : State) (x c : Nat) : Option Nat :=
  (List.range 96).find? fun l =>
    match vget (s.cellAt c).lineTags l none with
    | some y => y != x
    | none => false

/-- A queue entry is reserved and waits for its data (R82). -/
def QEntry.waits : QEntry → Bool
  | .pending _ _ => true
  | _ => false

/-- a[r]; a0 reads 0 (R34). -/
def Bank.readA (b : Bank) (r : Nat) : Word := if r = 0 then 0#64 else vget b.af.a r 0#64

/-- a[r] := v; a write to a0 is discarded (R34). -/
def Bank.writeA (b : Bank) (r : Nat) (v : Word) : Bank :=
  if r = 0 then b else { b with af := { b.af with a := vset b.af.a r v } }

/-- x[r]; x0 reads 0 (R35). -/
def Bank.readX (b : Bank) (r : Nat) : Word := if r = 0 then 0#64 else vget b.xf.x r 0#64

/-- x[r] := v; a write to x0 is discarded (R35). -/
def Bank.writeX (b : Bank) (r : Nat) (v : Word) : Bank :=
  if r = 0 then b else { b with xf := { b.xf with x := vset b.xf.x r v } }

/-- p[r]; p0 reads all-true (R35). -/
def Bank.readP (b : Bank) (r : Nat) : BitVec 256 := if r = 0 then BitVec.allOnes 256 else vget b.xf.p r 0

/-- p[r] := v; a write to p0 is discarded (R35). -/
def Bank.writeP (b : Bank) (r : Nat) (v : BitVec 256) : Bank :=
  if r = 0 then b else { b with xf := { b.xf with p := vset b.xf.p r v } }

/-- lc[r] (R34). -/
def Bank.readLc (b : Bank) (r : Nat) : BitVec 32 := vget b.af.lc r 0

/-- lc[r] := v. -/
def Bank.writeLc (b : Bank) (r : Nat) (v : BitVec 32) : Bank := { b with af := { b.af with lc := vset b.af.lc r v } }

/-- sd[r] (R34). -/
def Bank.readSd (b : Bank) (r : Nat) : BitVec 256 := vget b.af.sd r 0

/-- sd[r] := v. -/
def Bank.writeSd (b : Bank) (r : Nat) (v : BitVec 256) : Bank := { b with af := { b.af with sd := vset b.af.sd r v } }

/-- Row `r` of a sparse list of rows. -/
def rowGet : List (Nat × Row) → Nat → Row
  | [], _ => 0
  | (k, v) :: t, r => if r = k then v else if r < k then 0 else rowGet t r

/-- Set row `r`, keeping rows ascending and listing no zero row. -/
def rowPut : List (Nat × Row) → Nat → Row → List (Nat × Row)
  | [], r, x => if x = 0 then [] else [(r, x)]
  | (k, v) :: t, r, x =>
    if r < k then (if x = 0 then (k, v) :: t else (r, x) :: (k, v) :: t)
    else if r = k then (if x = 0 then t else (r, x) :: t)
    else (k, v) :: rowPut t r x

/-- Row `r` of the accumulator array (R35). -/
def Bank.readRow (b : Bank) (r : Nat) : Row := rowGet b.xf.acc r

/-- Write row `r` of the accumulator array. -/
def Bank.writeRow (b : Bank) (r : Nat) (v : Row) : Bank := { b with xf := { b.xf with acc := rowPut b.xf.acc r v } }

/-- The poisoned words of a row of the accumulator array (R25). -/
def Bank.badWords (b : Bank) (r : Nat) : List Nat := (b.xf.bad.filter fun w => w / 64 == r).map (· % 64)

/-- The first poisoned word among bytes `lo` to `lo + n - 1` of a row of the accumulator array (R25). -/
def Bank.rowPoison (b : Bank) (lo n r : Nat) : Option Nat :=
  ((b.badWords r).find? fun w => decide (lo < 8 * w + 8) && decide (8 * w < lo + n)).map (64 * r + ·)

/-- Whole words of a row are written: they are poisoned no longer (R25). -/
def Bank.cleanWords (b : Bank) (r : Nat) (ws : List Nat) : Bank :=
  { b with xf := { b.xf with bad := b.xf.bad.filter fun w => !(w / 64 == r && ws.contains (w % 64)) } }

/-- v[n] is row sr.vwin + n (R35). -/
def Bank.readV (b : Bank) (n : Nat) : Row := b.readRow (b.sr.vwin.toNat + n)

/-- Write v[n]. -/
def Bank.writeV (b : Bank) (n : Nat) (v : Row) : Bank := b.writeRow (b.sr.vwin.toNat + n) v

/-- The tag of the tile that the window lies in (R153). -/
def Bank.tag (b : Bank) : TileTag := vget b.xf.tags (b.sr.vwin.toNat / 128) .f32

/-- The element type of a tag. -/
def TileTag.ty : TileTag → ElemTy
  | .f32 => .f32 | .i32 => .i32 | .bf16 => .bf16 | .f16 => .f16

/-- The lane count of a tag (R153). -/
def TileTag.lanes : TileTag → Nat
  | .f32 | .i32 => 128
  | .bf16 | .f16 => 256

/-- Handle `h`. -/
def Bank.handle (b : Bank) (h : Nat) : Handle := vget b.sync.handles h ⟨.free, 0, 0, 0⟩

/-- Replace handle `h`. -/
def Bank.setHandle (b : Bank) (h : Nat) (v : Handle) : Bank :=
  { b with sync := { b.sync with handles := vset b.sync.handles h v } }

/-- Barrier `n`. -/
def Bank.barrier (b : Bank) (n : Nat) : Barrier := vget b.sync.barriers n .reset

/-- Replace barrier `n`. -/
def Bank.setBarrier (b : Bank) (n : Nat) (v : Barrier) : Bank :=
  { b with sync := { b.sync with barriers := vset b.sync.barriers n v } }

/-- Ring `k`. -/
def Bank.ring (b : Bank) (k : Nat) : Ring := vget b.sync.rings k .reset

/-- Replace ring `k`. -/
def Bank.setRing (b : Bank) (k : Nat) (v : Ring) : Bank :=
  { b with sync := { b.sync with rings := vset b.sync.rings k v } }

/-- Channel `c`'s copies. -/
def Bank.channel (b : Bank) (c : Nat) : List CopyOp := vget b.eng.channels c []

/-- Replace channel `c`'s copies. -/
def Bank.setChannel (b : Bank) (c : Nat) (l : List CopyOp) : Bank :=
  { b with eng := { b.eng with channels := vset b.eng.channels c l } }

/-- Set the control part of a bank. -/
def Bank.mapCtl (b : Bank) (f : Control → Control) : Bank := { b with ctl := f b.ctl }

/-- Set the system registers of a bank. -/
def Bank.mapSr (b : Bank) (f : SysRegs → SysRegs) : Bank := { b with sr := f b.sr }

/-- Change the counters of the moving cell (R86). -/
def State.count (s : State) (f : CellCounters → CellCounters) : State :=
  s.withCell { s.cell with counters := f s.cell.counters }

/-- Add with saturation at 64 bits (R24, R86). -/
def satInc (n k : Nat) : Nat := min (n + k) (2 ^ 64 - 1)

/-- The group of an id. -/
def State.groupAt (s : State) (id : Nat) : Option Group := s.sched.groups.find? (·.id == id)

/-- Replace a group. -/
def State.setGroup (s : State) (g : Group) : State :=
  { s with sched := { s.sched with groups := s.sched.groups.map fun h => if h.id == g.id then g else h } }

/-- The graph of an id. -/
def State.graphAt (s : State) (id : Nat) : Option Graph := s.sched.graphs.find? (·.id == id)

/-- Replace a graph. -/
def State.setGraph (s : State) (g : Graph) : State :=
  { s with sched := { s.sched with graphs := s.sched.graphs.map fun h => if h.id == g.id then g else h } }

/-- The group whose shard the moving cell's active bank runs. -/
def State.curGroup (s : State) : Option Group := s.bank.ctl.group.bind s.groupAt

/-- The die of a cell number (R16). -/
def dieOf (c : Nat) : Nat := c / 64

/-- The cells of a partition, ascending (R330, PART). -/
def partCells (p : BitVec 256) : List Nat := (List.range 256).filter fun i => p.getLsbD i

/-- Send something out. -/
def State.send (s : State) (o : Out) : State := { s with outbox := s.outbox ++ [o] }

end Sys2Proof.Machine
end

