-- ==== Sys2Proof/Machine/Flags.lean ====
section
/-! DEFINITION. sr.fflags: the flags of X instructions and of tile-engine operations (R41, R155, R198). -/

namespace Sys2Proof.Machine

/-- OR flags into sr.fflags (R155). -/
def Bank.orFlags (b : Bank) (f : Flags) : Bank :=
  b.mapSr fun r => { r with fflags := r.fflags ||| f.setWidth 64 }

/-- The flags of completed tile-engine operations whose walk count lies below `w` (R198). -/
def Bank.tileFlagsBelow (b : Bank) (w : Int) : Flags :=
  (b.eng.tileFlags.filter fun e => decide (e.1 < w)).foldl (fun a e => a ||| e.2) 0

/-- sr.fflags as a read at walk count `w` sees it (R198). -/
def Bank.readFflags (b : Bank) (w : Int) : Word := b.sr.fflags ||| (b.tileFlagsBelow w).setWidth 64

/-- SWR to sr.fflags: writing 1 clears a bit, in the operations below `w` too (R41, R198, R351). -/
def Bank.clearFflags (b : Bank) (w : Int) (v : Word) : Bank :=
  let keep : Flags := ~~~(v.setWidth 6)
  let b1 := b.mapSr fun r => { r with fflags := r.fflags &&& keep.setWidth 64 }
  { b1 with eng := { b1.eng with
    tileFlags := b1.eng.tileFlags.map fun e => if e.1 < w then (e.1, e.2 &&& keep) else e } }

/-- sr.mstat.QUEUED and NARROW (R42). -/
def Bank.mstat (b : Bank) : Word :=
  wordOfNat (2 * min b.eng.tileQ.length 2 + if b.eng.narrow then 1 else 0)

/-- The controls of the A stream at issue (R134). `rnd` 0 is dynamic. -/
def Bank.controlsA (b : Bank) (rnd : Nat) : Controls :=
  { rm := if rnd = 0 then field b.sr.fpcA 0 3 else rnd, daz := field b.sr.fpcA 4 1 == 1,
    ftz := field b.sr.fpcA 3 1 == 1, key := field b.sr.seed 0 32, ctr := field b.sr.seedCtr 0 32 }

/-- The controls of the X stream at issue (R134, R156). -/
def Bank.controlsX (b : Bank) (rnd : Nat) : Controls :=
  { rm := if rnd = 0 then field b.sr.fpcX 0 3 else rnd, daz := field b.sr.fpcX 4 1 == 1,
    ftz := field b.sr.fpcX 3 1 == 1, key := field b.sr.seed 0 32, ctr := field b.sr.seedCtr 0 32 }

/-- Advance sr.seed_ctr by `n` draws modulo 2^32 (R156). -/
def Bank.advanceCtr (b : Bank) (n : Nat) : Bank :=
  b.mapSr fun r => { r with seedCtr := wordOfNat ((field r.seedCtr 0 32 + n) % 2 ^ 32) }

end Sys2Proof.Machine
end

