-- ==== Sys2Proof/Machine/Hash.lean ====
section
/-! DEFINITION. SHA3-256 (FIPS 202) and the CRC-32 of IEEE 802.3, which the spec names and does not restate. -/

namespace Sys2Proof.Machine

/-- Rotation offsets of Keccak, lane x + 5y. -/
def keccakRot : List Nat :=
  [0, 1, 62, 28, 27, 36, 44, 6, 55, 20, 3, 10, 43, 25, 39, 41, 45, 15, 21, 8, 18, 2, 61, 56, 14]

/-- The round constants of Keccak-f[1600]. -/
def keccakRc : List (BitVec 64) :=
  [0x0000000000000001, 0x0000000000008082, 0x800000000000808A, 0x8000000080008000, 0x000000000000808B,
   0x0000000080000001, 0x8000000080008081, 0x8000000000008009, 0x000000000000008A, 0x0000000000000088,
   0x0000000080008009, 0x000000008000000A] ++
  [0x000000008000808B, 0x800000000000008B, 0x8000000000008089, 0x8000000000008003, 0x8000000000008002,
   0x8000000000000080, 0x000000000000800A, 0x800000008000000A, 0x8000000080008081, 0x8000000000008080,
   0x0000000080000001, 0x8000000080008008]

/-- Lane `i` of a Keccak state. -/
def lane64 (l : List (BitVec 64)) (i : Nat) : BitVec 64 := l.getD i 0

/-- One round of Keccak-f[1600]: theta, rho and pi, chi, iota. -/
def keccakRound (st : List (BitVec 64)) (rc : BitVec 64) : List (BitVec 64) :=
  let c := (List.range 5).map fun x =>
    lane64 st x ^^^ lane64 st (x + 5) ^^^ lane64 st (x + 10) ^^^ lane64 st (x + 15) ^^^ lane64 st (x + 20)
  let d := (List.range 5).map fun x => lane64 c ((x + 4) % 5) ^^^ (lane64 c ((x + 1) % 5)).rotateLeft 1
  let t := (List.range 25).map fun i => lane64 st i ^^^ lane64 d (i % 5)
  -- B[y, 2x + 3y] := rot(A[x, y]); position (X, Y) comes from x = (X + 3Y) mod 5, y = X
  let b := (List.range 25).map fun i =>
    let xx := i % 5
    let src := (xx + 3 * (i / 5)) % 5 + 5 * xx
    (lane64 t src).rotateLeft (keccakRot.getD src 0)
  (List.range 25).map fun i =>
    let y := 5 * (i / 5)
    let v := lane64 b i ^^^ (~~~(lane64 b (y + (i + 1) % 5)) &&& lane64 b (y + (i + 2) % 5))
    if i = 0 then v ^^^ rc else v

/-- The Keccak-f[1600] permutation. -/
def keccakF (st : List (BitVec 64)) : List (BitVec 64) := keccakRc.foldl keccakRound st

/-- Absorb one block of 136 bytes. -/
def keccakAbsorb (st : List (BitVec 64)) (blk : List Byte) : List (BitVec 64) :=
  keccakF ((List.range 25).map fun i =>
    if i < 17 then lane64 st i ^^^ BitVec.ofNat 64 (leAt blk (8 * i) 8) else lane64 st i)

/-- Cut a byte list into blocks of 136, `fuel` of them at most. -/
def keccakBlocks : Nat → List Byte → List (List Byte)
  | 0, _ => []
  | k + 1, bs => if bs.isEmpty then [] else bs.take 136 :: keccakBlocks k (bs.drop 136)

/-- The SHA-3 padding of a message: 0x06, zeros, and the high bit of the last byte. -/
def sha3Pad (bs : List Byte) : List Byte :=
  let r := 136 - bs.length % 136
  if r = 1 then bs ++ [0x86#8] else bs ++ [0x06#8] ++ List.replicate (r - 2) 0#8 ++ [0x80#8]

/-- SHA3-256; byte 0 of the digest is its lowest byte. -/
def sha3 (bs : List Byte) : Digest :=
  let p := sha3Pad bs
  let st := (keccakBlocks (p.length / 136) p).foldl keccakAbsorb (List.replicate 25 0#64)
  BitVec.ofNat 256 (natOfDigits 64 ((st.take 4).map BitVec.toNat))

/-- The 32 bytes of a digest. -/
def digestBytes (d : Digest) : List Byte := bytesOfNat 32 d.toNat

/-- One bit of the reflected CRC-32. -/
def crcBit (c : BitVec 32) : BitVec 32 :=
  if c.getLsbD 0 then (c >>> 1) ^^^ 0xEDB88320#32 else c >>> 1

/-- One byte of the CRC-32. -/
def crcByte (c : BitVec 32) (b : Byte) : BitVec 32 :=
  (List.range 8).foldl (fun c _ => crcBit c) (c ^^^ b.setWidth 32)

/-- The CRC-32 of IEEE 802.3. -/
def crc32 (bs : List Byte) : BitVec 32 := ~~~(bs.foldl crcByte 0xFFFFFFFF#32)

end Sys2Proof.Machine
end

