-- ==== Sys2Proof/Machine/Page.lean ====
section
/-! DEFINITION. Address spaces, page walks and the checks of R106 on an access (R208 to R219). -/

namespace Sys2Proof.Machine

open Sys2Proof

/-- How an instruction, an engine step or a device agent stops short of its effect. -/
inductive Stop where
  /-- a fault with its sr.fva (R11, R49) -/
  | fault (c : Cause) (fva : Word)
  /-- a stall in wait_until (R12) -/
  | wait
  /-- a stall on the cell's other stream, which ends a cut (R89) -/
  | waitPeer
  /-- a stall on a scratchpad line tagged with another context (R334) -/
  | waitLine (line : Nat)
  /-- a read of a poisoned word: the context is LOST (R25) -/
  | lost (phys : Nat)
  deriving DecidableEq, Repr

/-- What an access needs of a page (R213). -/
structure Access where
  rd : Bool
  wr : Bool
  ex : Bool
  /-- an atomic, a compare-and-swap, or annotated acquire, release or acq_rel -/
  annotated : Bool
  level : Level
  /-- the source of a CPYF -/
  farSrc : Bool
  deriving DecidableEq, Repr

/-- A plain load at a level. -/
def Access.load (l : Level) : Access := ⟨true, false, false, false, l, false⟩

/-- A plain store at a level. -/
def Access.store (l : Level) : Access := ⟨false, true, false, false, l, false⟩

/-- An annotated read and write at a level. -/
def Access.atomic (l : Level) : Access := ⟨true, true, false, true, l, false⟩

/-- How a page walk ends (R213). -/
inductive WalkEnd where
  | notPresent
  | malformed
  /-- an entry that the walk reads is poisoned (R25) -/
  | lost (phys : Nat)
  | leaf (x : Xlat)
  deriving DecidableEq, Repr

/-- The levels of the radix tree: lowest index bit, index bits, and the size code of a leaf there (R211). -/
def walkLevels : List (Nat × Nat × Option Nat) :=
  [(39, 17, none), (30, 9, some 2), (21, 9, some 1), (16, 5, some 0)]

/-- What a walk reads: memory, its poisoned words, and the TEXT pages that the loader has mapped, by G page and frame. -/
structure Tables where
  mem : Memory
  bad : List Nat
  text : List (Nat × Nat)
  deriving DecidableEq, Repr

/-- A leaf entry at a level whose pages have `pbits` offset bits (R212, R213).  A frame of the device structures is
malformed but in the leaf of a TEXT page that the loader has mapped there (R210). -/
def leafEnd (text : List (Nat × Nat)) (e g pbits size : Nat) : WalkEnd :=
  let frame := bitsAt e 8 44 * 256
  let ord := bitsAt e 62 2
  let t := tierOf frame
  let far := t == .far
  let okFar := !far || (bitsAt e 2 1 == 1 && bitsAt e 3 1 == 0 && bitsAt e 4 1 == 0 && ord == 2)
  if bitsAt e 52 10 ≠ 0 ∨ bitsAt e 6 1 ≠ 0 ∨ frame % 2 ^ pbits ≠ 0 ∨ t = .hole ∨
      (t = .device ∧ (size ≠ 0 ∨ text.contains (g / 65536, frame) = false)) ∨ okFar = false then
    .malformed
  else
    .leaf { ord := ord, pin := bitsAt e 5 1 == 1, ex := bitsAt e 4 1 == 1, wr := bitsAt e 3 1 == 1,
            rd := bitsAt e 2 1 == 1, task := bitsAt e 1 1 == 1, far := far, size := size,
            key := frame + (g % 2 ^ pbits) / 65536 * 65536 }

/-- The table that a table entry names, when the entry is well formed (R211, R213): `rest` are the levels below. -/
def nextTable (e : Nat) (rest : List (Nat × Nat × Option Nat)) : Option Nat :=
  let next := bitsAt e 8 44 * 256
  let t := tierOf next
  let tsize := match rest with
    | [] => 1
    | (_, k, _) :: _ => 8 * 2 ^ k
  if rest.isEmpty ∨ bitsAt e 52 12 ≠ 0 ∨ bitsAt e 1 6 ≠ 0 ∨ next % tsize ≠ 0 ∨ (t ≠ .near ∧ t ≠ .mid) then none else some next

/-- Walk from a table at `base` (R213). -/
def walkFrom (t : Tables) (g : Nat) : Nat → List (Nat × Nat × Option Nat) → WalkEnd
  | _, [] => .malformed
  | base, (lo, n, size) :: rest =>
    let a := base + 8 * bitsAt g lo n
    if t.bad.contains a then .lost a
    else
      let e := natOfBytes (memRead t.mem a 8)
      if bitsAt e 0 1 = 0 then .notPresent
      else if bitsAt e 7 1 = 1 then
        match size with
        | none => .malformed
        | some k => leafEnd t.text e g lo k
      else
        match nextTable e rest with
        | none => .malformed
        | some next => walkFrom t g next rest

/-- What a walk of a context's table reads. -/
def State.tables (s : State) (x : Nat) : Tables :=
  ⟨s.mem, s.dev.poisoned, (s.ctxAt x).placed.map fun p => (p.page, p.frame)⟩

/-- The decision of a walk of G address `g` for a context (R213). -/
def State.walk (s : State) (x g : Nat) : WalkEnd := walkFrom (s.tables x) g (s.ctxAt x).ptroot walkLevels

/-- The translation that an agent of a cell uses: the one it holds, else a walk (R217). -/
def State.lookup (s : State) (cell : Option Nat) (x g : Nat) : WalkEnd :=
  match cell with
  | none => s.walk x g
  | some c =>
    match (s.cellAt c).tlb.find? fun e => e.asid == (s.ctxAt x).asid && e.page == g / 65536 with
    | some e => .leaf e.x
    | none => s.walk x g

/-- Check 3 of R106 on one part (R213). -/
def check3 (a : Access) : WalkEnd → Option Cause
  | .notPresent => some .pageNotPresent
  | .malformed => some .pageNotPresent
  | .lost _ => none
  | .leaf x =>
    if (a.rd && !x.rd) || (a.wr && !x.wr) || (a.ex && !x.ex) || (a.level == .task && !x.task) || (x.far != a.farSrc) then
      some .pagePerm
    else none

/-- Check 4 of R106 on one part (R213). -/
def check4 (a : Access) : WalkEnd → Option Cause
  | .leaf x => if x.ord == 3 || (x.ord == 2 && a.annotated) then some .pageOrd else none
  | _ => none

/-- Cut `n` bytes at `g` at 64 KiB boundaries: (address, length), ascending (R216). -/
def splitParts : Nat → Nat → Nat → List (Nat × Nat)
  | 0, _, _ => []
  | k + 1, g, n =>
    if n = 0 then []
    else
      let m := min n (65536 - g % 65536)
      (g, m) :: splitParts k (g + m) (n - m)

/-- The parts of an access (R216). -/
def partsOf (g n : Nat) : List (Nat × Nat) := splitParts (n / 65536 + 2) g n

/-- The first part that fails a check, as its cause and address. -/
def firstFail (chk : WalkEnd → Option Cause) : List (Nat × Nat × WalkEnd) → Option (Cause × Nat)
  | [] => none
  | (g, _, w) :: t =>
    match chk w with
    | some c => some (c, g)
    | none => firstFail chk t

/-- The key of byte `g` under a walk's leaf. -/
def keyIn (g : Nat) : WalkEnd → Nat
  | .leaf x => x.key + g % 65536
  | _ => 0

/-- A part of `n` bytes at `g` under a walk's end. -/
def partIn (g n : Nat) (w : WalkEnd) : RowPart :=
  ⟨some g, keyIn g w, n, match w with
    | .leaf x => x.size
    | _ => 0⟩

/-- The poisoned entry that the walk of a part reads (R25). -/
def firstLost : List (Nat × Nat × WalkEnd) → Option Nat
  | [] => none
  | (_, _, .lost k) :: _ => some k
  | _ :: t => firstLost t

/-- Checks 3 and 4 of R106 on a G range of a context: the parts' keys, or the fault. -/
def State.resolveG (s : State) (cell : Option Nat) (x : Nat) (a : Access) (g n : Nat) : Except Stop (List RowPart) :=
  let ps := (partsOf g n).map fun gn => (gn.1, gn.2, s.lookup cell x gn.1)
  match firstLost ps with
  | some k => .error (.lost k)
  | none =>
    match firstFail (check3 a) ps with
    | some (c, f) => .error (.fault c (wordOfNat f))
    | none =>
      match firstFail (check4 a) ps with
      | some (c, f) => .error (.fault c (wordOfNat f))
      | none => .ok (ps.map fun p => partIn p.1 p.2.1 p.2.2)

/-- The G window (R208). -/
def inG (g n : Nat) : Bool := decide (0x10000 ≤ g) && decide (g + n ≤ 0xFFFF0000000000)

/-- The S window (R208). -/
def inS (g n : Nat) : Bool := decide (g + n ≤ spadBytes)

/-- An S-space access of a context on a cell: its window, then the line's tag (R208, R334). -/
def State.resolveS (s : State) (x cell g n : Nat) : Except Stop (List RowPart) :=
  if inS g n = false then .error (.fault .accessRange (wordOfNat g))
  else
    let bad := (List.range ((g + n - 1) / 65536 - g / 65536 + 1)).find? fun i =>
      match vget (s.cellAt cell).lineTags (g / 65536 + i) none with
      | some y => y != x
      | none => false
    match bad with
    | some i => .error (.waitLine (g / 65536 + i))
    | none => .ok [⟨none, spadKey x cell g, n, 0⟩]

/-- The cell that a C-space target number names, in the cluster of `cell` (R209). -/
def peerCell (cell target : Nat) : Nat := cell / 8 * 8 + target % 8

/-- A C-space access: the target belongs to the partition and its image is held (R208, R209). -/
def State.resolveC (s : State) (x cell g n : Nat) : Except Stop (List RowPart) :=
  let t := peerCell cell (bitsAt g 23 3)
  let off := g % 2 ^ 23
  if g ≥ 2 ^ 26 ∨ inS off n = false ∨ (s.ctxAt x).part.getLsbD t = false then .error (.fault .accessRange (wordOfNat g))
  else if t = cell then s.resolveS x cell off n
  else if s.imageHeld x t off = false ∨ s.imageHeld x t (off + n - 1) = false then .error .wait
  else .ok [⟨none, spadKey x t off, n, 0⟩]

/-- Read the bytes of resolved parts; a poisoned word loses the context (R25). -/
def State.readParts (s : State) : List RowPart → Except Stop (List Byte)
  | [] => .ok []
  | p :: ps =>
    match firstPoison s.dev.poisoned p.key p.len with
    | some w => .error (.lost w)
    | none =>
      match s.readParts ps with
      | .ok bs => .ok (memRead s.mem p.key p.len ++ bs)
      | .error e => .error e

/-- The bytes of resolved parts, poison apart. -/
def State.peekParts (s : State) (ps : List RowPart) : List Byte := ps.flatMap fun p => memRead s.mem p.key p.len

/-- The first poisoned word that a store of resolved parts touches in part (R25). -/
def State.storePoison (s : State) : List RowPart → Option Nat
  | [] => none
  | p :: ps =>
    match partialPoison s.dev.poisoned p.key p.len with
    | some w => some w
    | none => s.storePoison ps

/-- Write bytes over resolved parts, in ascending order. -/
def State.putParts (s : State) : List RowPart → List Byte → State
  | [], _ => s
  | p :: ps, bs =>
    let s1 := { s with
      mem := memWrite s.mem p.key (bs.take p.len)
      dev := { s.dev with poisoned := clearPoison s.dev.poisoned p.key p.len } }
    s1.putParts ps (bs.drop p.len)

/-- Store bytes over resolved parts; a partial store to a poisoned word loses the context (R25). -/
def State.writeParts (s : State) (ps : List RowPart) (bs : List Byte) : Except Stop State :=
  match s.storePoison ps with
  | some w => .error (.lost w)
  | none => .ok (s.putParts ps bs)

/-- A device agent's read of a context's structure, at supervisor level (R397). -/
def State.agentRead (s : State) (x g n : Nat) (annotated : Bool) : Except Stop (List Byte) :=
  match s.resolveG none x { Access.load .supervisor with annotated := annotated } g n with
  | .ok ps => s.readParts ps
  | .error e => .error e

/-- A device agent's write of a context's structure, at supervisor level (R397). -/
def State.agentWrite (s : State) (x g : Nat) (bs : List Byte) (annotated : Bool) : Except Stop State :=
  match s.resolveG none x { Access.store .supervisor with annotated := annotated } g bs.length with
  | .ok ps => s.writeParts ps bs
  | .error e => .error e

/-- The word of PROBE (R224) for a walk's end. -/
def probeWord (level : Level) (conf : Bool) (frame : Nat) : WalkEnd → Word
  | .notPresent => wordOfNat (1 <<< 8)
  | .malformed | .lost _ => wordOfNat (2 <<< 8)
  | .leaf x =>
    let st := if x.ord = 3 then 3 else 0
    let fr := if level = .task ∨ conf then 0 else frame / 65536 % 2 ^ 36
    let bit := fun (b : Bool) (k : Nat) => if b then 2 ^ k else 0
    wordOfNat (x.ord * 2 ^ 62 + fr * 2 ^ 16 + st * 2 ^ 8 + x.size * 2 ^ 6 + bit x.pin 5 + bit x.ex 4 + bit x.wr 3 +
      bit x.rd 2 + bit x.task 1 + bit x.far 0)

/-- The bytes of a page by its size code (R212). -/
def pageBytes : Nat → Nat
  | 0 => 65536
  | 1 => 0x200000
  | _ => 0x40000000

/-- The first G address and the length of the whole page that a 64 KiB piece belongs to. -/
def wholePage (page size : Nat) : Nat × Nat := (page * 65536 / pageBytes size * pageBytes size, pageBytes size)

/-- The translations of resolved G parts, for an operation that holds them (R202, R219). -/
def framesOf (ps : List RowPart) : List HeldFrame :=
  (ps.filterMap fun p =>
    match p.gva with
    | some g => some ⟨g / 65536, p.key - g % 65536, p.size⟩
    | none => none).eraseDups

end Sys2Proof.Machine
end

