-- ==== Sys2Proof/Machine/Ops.lean ====
section
/-! DEFINITION. Retiring, stalling and faulting; taking an exception and returning from one.

`raise` records a stream's fault and stops the stream precisely (R88, R89).  `enterHandler` is the one operation that
takes an exception: it writes the frame, freezes and records where the kind asks for it, and starts the handler
(R337, R342, R344, R346).  `returnFrom` is the return (R350).  `loseCtx` is the entry to LOST (R332, R398). -/

namespace Sys2Proof.Machine

open Sys2Proof

/-- What a meaning answers. -/
abbrev Result := Host.Outcome State Fault Refusal

/-- The code of a cause (R340). -/
def Cause.code : Cause → Nat
  | .fetchMalformed => 0x01 | .opcodeUndef => 0x02 | .operandIllegal => 0x03 | .priv => 0x04
  | .accessRange => 0x10 | .pageNotPresent => 0x11 | .pagePerm => 0x12 | .pageOrd => 0x13 | .farFault => 0x14
  | .align => 0x20 | .operandFormat => 0x30 | .rescale => 0x31
  | .futDouble => 0x40 | .taskState => 0x41
  | .handleState => 0x50 | .barrierOver => 0x51
  | .translate => 0x60 | .watchdog => 0x70 | .saveArea => 0x71 | .link => 0x80 | .queuePacket => 0x81

/-- The sr.cause word of a fault (R43); a TRAP or BRK has cause 0 (R349). -/
def FaultInfo.word (f : FaultInfo) : Word :=
  if f.kind = 3 ∨ f.kind = 4 then 0#64 else wordOfNat (f.stream * 256 + f.cause.code)

/-! ## Retiring -/

/-- Clear a stream's stall. -/
def Control.moved (c : Control) (st : Stream) : Control :=
  match st with
  | .a => { c with waitA := false, wdog := 0, wantLine := none, spawning := false }
  | .x => { c with waitX := false, wdog := 0, wantLine := none }

/-- A stream's PC. -/
def Bank.pc (b : Bank) : Stream → Word
  | .a => b.sr.pca
  | .x => b.sr.pcx

/-- Set a stream's PC. -/
def Bank.setPc (b : Bank) (st : Stream) (p : Word) : Bank :=
  match st with
  | .a => b.mapSr fun r => { r with pca := p }
  | .x => b.mapSr fun r => { r with pcx := p }

/-- A stream's walk count (R80). -/
def Bank.w (b : Bank) : Stream → Int
  | .a => b.walk.wa
  | .x => b.walk.wx

/-- Set a walk count, raising its maximum (R80). -/
def Bank.setW (b : Bank) (st : Stream) (v : Int) : Bank :=
  match st with
  | .a => { b with walk := { b.walk with wa := v, wmaxa := max b.walk.wmaxa v } }
  | .x => { b with walk := { b.walk with wx := v, wmaxx := max b.walk.wmaxx v } }

/-- Advance past an instruction of `len` words: PC and walk count (R28, R80). -/
def Bank.advance (b : Bank) (st : Stream) (len : Nat) : Bank :=
  ((b.setPc st (b.pc st + wordOfNat (4 * len))).setW st (b.w st + len)).mapCtl (·.moved st)

/-- Count a retired instruction (R87). -/
def Bank.countSeq (b : Bank) (st : Stream) : Bank :=
  match st with
  | .a => b.mapSr fun r => { r with seqa := r.seqa + 1 }
  | .x => b.mapSr fun r => { r with seqx := r.seqx + 1 }

/-- Retire an instruction of `len` words (R28, R80, R87). -/
def Bank.retire (b : Bank) (st : Stream) (len : Nat) : Bank := (b.advance st len).countSeq st

/-- Retire in the moving cell. -/
def State.retire (s : State) (st : Stream) (len : Nat) : State := s.setBank (s.bank.retire st len)

/-- The quotient of a difference of addresses by 4, toward minus infinity (R80, R117). -/
def wordsBetween (target next : Word) : Int := Int.fdiv ((target.toNat : Int) - next.toNat) 4

/-- A galley entry of a die is dead or has left its galley (R72, R73). -/
def State.entryDead (s : State) (die gen : Nat) : Bool :=
  !((vget s.sched.galleys die ⟨[], 0⟩).entries.any fun e => e.gen == gen && !e.dead)

/-- A stream whose entry is dead leaves it at a transfer of control (R73). -/
def Control.leaveEntry (c : Control) (st : Stream) (dead : Nat → Bool) : Control :=
  match st with
  | .a => { c with galA := c.galA.filter fun e => !(dead e.gen) }
  | .x => { c with galX := c.galX.filter fun e => !(dead e.gen) }

/-- Retire a taken private transfer to `target`: the walk count at which the stream then stands enters its maximum (R80, R115
to R118). -/
def State.retireTo (s : State) (len : Nat) (target : Word) : State :=
  let next := s.bank.sr.pca + wordOfNat (4 * len)
  let b := (s.bank.setPc .a target).setW .a (s.bank.walk.wa + len + wordsBetween target next)
  s.setBank ((b.mapCtl fun c => (c.moved .a).leaveEntry .a (s.entryDead (dieOf s.cellNo))).countSeq .a)

/-- Retire a taken shared transfer to `target`: the walk count moves by the instruction's words only (R80). -/
def State.retireShared (s : State) (st : Stream) (len : Nat) (target : Word) : State :=
  s.setBank (((s.bank.retire st len).setPc st target).mapCtl (·.leaveEntry st (s.entryDead (dieOf s.cellNo))))

/-- Do `f` as a step of cell `c`; the moving cell and stream stay. -/
def State.onCell (s : State) (c : Nat) (f : State → State) : Result :=
  if h : c < 256 then .next { f { s with cur := ⟨c, h⟩ } with cur := s.cur } else .fault .noSuchObject

/-! ## Frames, records and LOST -/

/-- The place of a cell in its partition, ascending (R335). -/
def saveIndex (part : BitVec 256) (cell : Nat) : Nat := ((List.range cell).filter fun i => part.getLsbD i).length

/-- G address of a cell's save slot, where its frame lies (R335). -/
def slotAddr (c : Ctx) (cell : Nat) : Nat := c.saveBase + saveIndex c.part cell * 0x820000

/-- System register `n` of a bank as the frame holds it (R337, R38). -/
def Bank.sysReg (b : Bank) (cell : Cell) (cellNo n : Nat) : Word :=
  match n with
  | 0x00 => b.sr.fpcA | 0x01 => b.readFflags b.walk.wa | 0x02 => b.sr.windowA | 0x03 => b.sr.vwin
  | 0x04 => b.mstat | 0x05 => b.sr.seed | 0x06 => b.sr.seedCtr | 0x07 => cell.cyc
  | 0x08 => wordOfNat cellNo | 0x09 => b.sr.task | 0x0A => b.sr.ctx | 0x0B => b.sr.asid
  | 0x20 => b.sr.pca | 0x21 => b.sr.pcx | 0x22 => b.sr.seqa | 0x23 => b.sr.seqx | 0x24 => b.sr.cause
  | 0x25 => b.sr.fva
  | k => if 0x10 ≤ k ∧ k ≤ 0x15 then vget b.sr.shard (k - 0x10) 0 else 0

/-- A word's 8 bytes. -/
def w8 (w : Word) : List Byte := bytesOfNat 8 w.toNat

/-- The 64-bit pattern of a walk count (R80). -/
def w8i (v : Int) : List Byte := w8 (wordOfInt v)

/-- A latch entry in the frame's layout (R338). -/
def latchBytes (l : Latch) : List Byte :=
  let k := match l.kind with
    | .aReg => 0 | .xReg => 1 | .accRow => 2 | .pred => 3
  w8 l.seq ++ w8 l.pc ++ bytesOfNat 1 k ++ bytesOfNat 1 l.flags.toNat ++ bytesOfNat 2 l.dest ++ bytesOfNat 2 l.remain ++
    bytesOfNat 2 l.ctrAdv ++ List.replicate 8 0#8 ++ bytesOfRow l.value

/-- Bytes 0x100 to 0x97F of a frame: the registers (R337). -/
def frameRegs (b : Bank) (cell : Cell) (cellNo : Nat) : List Byte :=
  (List.range 64).flatMap (fun i => w8 (b.readA i)) ++
  (List.range 32).flatMap (fun i => w8 (b.readX i)) ++
  (List.range 16).flatMap (fun i => bytesOfNat 32 (b.readP i).toNat) ++
  (List.range 8).flatMap (fun i => bytesOfNat 4 (b.readLc i).toNat) ++ List.replicate 32 0#8 ++
  (List.range 16).flatMap (fun i => bytesOfNat 32 (b.readSd i).toNat) ++
  (List.range 0x26).flatMap (fun n => w8 (b.sysReg cell cellNo n)) ++
  w8 b.sr.fpcX ++ w8 b.sr.windowX

/-- The SHA3-256 of a galley entry's key on a die (R337). -/
def GalleyKey.digest (k : GalleyKey) (die : Nat) : Digest :=
  sha3 (Config.galleyKeyBytes die (match k.st with | .a => 0 | .x => 1) k.leaf k.offset k.leaf2 k.ctx)

/-- The galley entry that a stream has entered. -/
def Control.entered (c : Control) : Stream → Option InEntry
  | .a => c.galA
  | .x => c.galX

/-- The latch entries of a stream. -/
def Control.latches (c : Control) : Stream → List Latch
  | .a => c.latA
  | .x => c.latX

/-- The galley generation that a frame records (R76): that of the entry of the stream that holds latch entries, the A
stream's when both or neither do. -/
def Bank.frameGen (b : Bank) : Nat :=
  let st := if b.ctl.latA.isEmpty && !b.ctl.latX.isEmpty then Stream.x else Stream.a
  match b.ctl.entered st with
  | some e => e.gen
  | none => 0

/-- A trap frame (R337). -/
def frameBytes (b : Bank) (cell : Cell) (cellNo kind : Nat) (cause fva code : Word) : List Byte :=
  let regs := frameRegs b cell cellNo
  let fl := (if b.ctl.pend.isSome then 1 else 0) + (if b.ctl.wdogCut then 2 else 0) + (if b.ctl.lkeep then 4 else 0)
  let (pc, pf) := match b.ctl.pend with
    | some f => (f.word, f.fva)
    | none => (0, 0)
  let key := fun (st : Stream) => match b.ctl.entered st with
    | some e => digestBytes (e.key.digest (dieOf cellNo))
    | none => List.replicate 32 0#8
  bytesOfNat 1 kind ++ [0#8] ++ bytesOfNat 1 b.ctl.latA.length ++ bytesOfNat 1 b.ctl.latX.length ++ bytesOfNat 4 fl ++
  w8 cause ++ w8 fva ++ w8 code ++ w8 b.sr.pca ++ w8 b.sr.pcx ++ w8 b.sr.seqa ++ w8 b.sr.seqx ++
  w8i b.walk.wa ++ w8i b.walk.wx ++ w8i b.walk.wmaxa ++ w8i b.walk.wmaxx ++ w8 pc ++ w8 pf ++
  bytesOfNat 1 (dieOf cellNo) ++ List.replicate 7 0#8 ++ bytesOfNat 8 b.frameGen ++ key .a ++ key .x ++
  digestBytes (sha3 regs) ++ List.replicate 32 0#8 ++ regs ++ List.replicate 1664 0#8 ++
  b.ctl.latA.flatMap latchBytes ++ b.ctl.latX.flatMap latchBytes

/-- The cell's cycle count as it stands now (R17): the cycles that have passed since it was last looked at are added. -/
def State.passTime (s : State) (cell : Nat) : State :=
  let c := s.cellAt cell
  s.setCell cell { c with cyc := c.cyc + Config.elapsed s.freeCtr }

/-- The parts of a save-area range, or the first address whose leaf is not present, writable and pinned (R336). -/
def State.saveParts (s : State) (x g n : Nat) : Except Nat (List RowPart) :=
  let ps := (partsOf g n).map fun gn => (gn.1, gn.2, s.walk x gn.1)
  let bad := ps.find? fun p => match p.2.2 with
    | .leaf l => !(l.wr && l.pin)
    | _ => true
  match bad with
  | some p => .error p.1
  | none => .ok (ps.map fun p => partIn p.1 p.2.1 p.2.2)

/-- A read of the save area, or the address of the first part that fails: an uncorrectable error there ends it too (R336). -/
def State.saveRead (s : State) (x g n : Nat) : Except Nat (List Byte) :=
  match s.saveParts x g n with
  | .error f => .error f
  | .ok ps =>
    match ps.find? fun p => (firstPoison s.dev.poisoned p.key p.len).isSome with
    | some p => .error (p.gva.getD g)
    | none => .ok (s.peekParts ps)

/-- A store into the save area, the record or the event ring, or the address of the first part that fails: a poisoned word
that the store covers in part is an uncorrectable error (R25, R336). -/
def State.saveWrite (s : State) (x g : Nat) (bs : List Byte) : Except Nat State :=
  match s.saveParts x g bs.length with
  | .error f => .error f
  | .ok ps =>
    match ps.find? fun p => (partialPoison s.dev.poisoned p.key p.len).isSome with
    | some p => .error (p.gva.getD g)
    | none => .ok (s.putParts ps bs)

/-- The BANK field of a record part (R345). -/
def bankField (p : BankPlace) (b : Option Bank) : Nat :=
  match p, b with
  | .saved, _ => 4
  | _, some b =>
    match b.ctl.status with
    | .idle => 0 | .running => 1 | .halted => 2 | .handler => 3
  | _, none => 0

/-- The active bank of a cell runs a handler of context `x` (R346). -/
def State.handlerOn (s : State) (x c : Nat) : Bool :=
  (s.cellAt c).active.ctl.owner == some x && (s.cellAt c).active.ctl.status == .handler

/-- A cell's part of the composite record (R345); a TRAP or BRK is no fault of the cell (R349). -/
def State.recordPart (s : State) (x c : Nat) : List Byte :=
  let b := s.bankOf x c
  let f := b.bind (·.ctl.fault)
  let word := fun (f : Option FaultInfo) => match f with
    | some f => f.word.toNat
    | none => 0
  let sec := word (b.bind (·.ctl.second.head?)) % 256
  let b7 := fun (n : Nat) => bytesOfNat 7 n
  let status := c * 2 ^ 56 + sec * 2 ^ 48 + (if s.handlerOn x c then 3 else bankField (s.bankPlace x c) b) * 2 ^ 40 +
    word f
  bytesOfNat 8 status ++
    (match b with
     | some b => b7 b.sr.seqa.toNat ++ b7 b.sr.seqx.toNat ++ b7 b.eng.engSeq ++
        (List.range 4).flatMap (fun i => b7 (vget b.eng.chSeq i 0)) ++ b7 b.eng.collSeq
     | none => List.replicate 56 0#8)

/-- The composite fault record (R344, R398). -/
def State.recordBytes (s : State) (x : Nat) (cause fva : Word) (fcell kind reason : Nat) (fseq tcb frame : Word) : List Byte :=
  let c := s.ctxAt x
  let cells := partCells c.part
  bytesOfNat 4 0x52434642 ++ bytesOfNat 1 x ++ [0#8] ++ bytesOfNat 2 cells.length ++ w8 cause ++ w8 fva ++
    bytesOfNat 2 fcell ++ bytesOfNat 1 kind ++ bytesOfNat 1 reason ++ List.replicate 4 0#8 ++ w8 fseq ++ w8 tcb ++
    w8 frame ++ bytesOfNat 8 c.faults ++ cells.flatMap (s.recordPart x)

/-- Free every cell a context holds: its banks, queue entries and scratchpad lines' streams (R332). -/
def Cell.release (c : Cell) (x : Nat) : Cell :=
  { c with
    active := if c.active.ctl.owner = some x then .reset else c.active
    shadow := if c.shadow.ctl.owner = some x then .reset else c.shadow
    ready := c.ready.map fun l => l.filter fun t => t.ctx != x
    held := none }

/-- The stall arrays of a plate are discarded (R324, R327). -/
def Plate.clearStalls (p : Plate) : Plate :=
  { p with sections := p.sections.map fun t => { t with lanes := t.lanes.map fun l =>
      (l.1, l.2.map fun e => { e with wstall := 0, sstall := 0 }) } }

/-- The plates of a context's graphs when the context freezes or ends (R327): one that is being recorded is discarded, one
that is run keeps its state and loses its stall arrays. -/
def State.leavePlates (s : State) (x : Nat) (ends : Bool) : State :=
  let mine := fun (p : Plate) => p.run.any fun g => s.sched.graphs.any fun h => h.id == g && h.ctx == x
  let next := fun (p : Plate) =>
    if mine p then
      if p.state = .recording then none
      else if ends then some { p.clearStalls with run := none, heads := [], handback := false }
      else some p.clearStalls
    else some p
  { s with sched := { s.sched with
      plates := s.sched.plates.filterMap next
      graphs := s.sched.graphs.map fun h => if h.ctx == x then { h with recording := false } else h } }

/-- Release the cells of a context. -/
def State.releaseCells (s : State) (x : Nat) : State :=
  let ids := (s.sched.groups.filter (·.ctx == x)).map (·.id)
  { s with
    cells := s.cells.map fun c =>
      if c.active.ctl.owner = some x ∨ c.shadow.ctl.owner = some x ∨ (c.held.any ids.contains) ∨ c.ready.any (·.any (·.ctx == x)) then
        { c.release x with held := if c.held.any ids.contains then none else c.held }
      else c
    saved := s.saved.filter fun b => b.ctx != x
    sched := { s.sched with groups := s.sched.groups.filter fun g => g.ctx != x,
                            graphs := s.sched.graphs.filter fun g => g.ctx != x} }

/-- A context enters LOST: the header and parts are written, its streams stop and its cells are released (R398).  A context
that is FREE or RETIRED does not (R332). -/
def State.loseCtx (s : State) (x reason : Nat) (cause fva : Word) (fcell kind : Nat) (fseq tcb frame : Word) : State :=
  let c := s.ctxAt x
  if c.state = .free ∨ c.state = .retired then s else
  let s1 := s.setCtx x { c with state := .lost, reason := reason, faults := c.faults + 1, swapping := false }
  let bs := s1.recordBytes x cause fva fcell kind reason fseq tcb frame
  let s2 := match s1.saveWrite x c.recBase bs with
    | .ok t => t
    | .error _ => s1
  (s2.leavePlates x true).releaseCells x

/-- The sr.cell value of a device fault in a record (R344). -/
def noCell : Nat := 0xFFFF

/-! ## Stalling and faulting -/

/-- The hang watchdog counts while both streams wait; the stopped stream of a cut counts as waiting (R341). -/
def Control.tick (c : Control) : Control :=
  { c with wdog := if (c.waitA && c.waitX) || (c.fault.isSome && !c.atCut) then c.wdog + 1 else c.wdog }

/-- Mark a stream's stall (R12, R341). -/
def Control.stalled (c : Control) (st : Stream) : Control :=
  match st with
  | .a => ({ c with waitA := true } : Control).tick
  | .x => ({ c with waitX := true } : Control).tick

/-- A stream stalls: its instruction has not retired and nothing has changed (R12). -/
def State.stall (s : State) (st : Stream) : State := s.setBank (s.bank.mapCtl (·.stalled st))

/-- A stream stalls on its partner; while a cut is run this is the cut (R89). -/
def State.stallPeer (s : State) (st : Stream) : State :=
  s.setBank (s.bank.mapCtl fun c => { c.stalled st with atCut := c.fault.isSome || c.atCut })

/-- A stream stalls on a scratchpad line (R334). -/
def State.stallLine (s : State) (st : Stream) (l : Nat) : State :=
  s.setBank (s.bank.mapCtl fun c => { c.stalled st with wantLine := some l })

/-- sr.cause.STREAM of a stream (R43). -/
def streamCode : Stream → Nat
  | .a => 0
  | .x => 1

/-- A fault in a handler (R346): LOST with REASON 3. -/
def State.handlerFault (s : State) (f : FaultInfo) : State :=
  s.loseCtx s.ctxNo 3 f.word f.fva s.cellNo (if f.kind = 2 then 2 else 1) 0 s.bank.sr.task s.bank.ctl.frame

/-- Record a fault of the moving cell: the first one stops its stream; a fault of the partner is its cut (R88, R89). -/
def State.record (s : State) (f : FaultInfo) : State :=
  match s.bank.ctl.fault with
  | some _ => s.setBank (s.bank.mapCtl fun c => { c with atCut := true })
  | none => s.setBank (s.bank.mapCtl fun c => { c with fault := some f, atCut := false })

/-- A stream faults at its precise point (R11, R88). -/
def State.raise (s : State) (st : Stream) (c : Cause) (fva : Word) : State :=
  s.record ⟨streamCode st, c, fva, 1, 0, none⟩

/-- The physical address of a word by its memory key; the spec gives SRAM none (R25, R398). -/
def physOf (k : Nat) : Nat := if k < 2 ^ 52 then k else Config.sramAddress k

/-- A foreground read of a poisoned word by the moving cell's stream (R25, R398). -/
def State.losePoison (s : State) (key : Nat) : State :=
  s.loseCtx s.ctxNo 2 0 (wordOfNat (physOf key)) s.cellNo 0 0 s.bank.sr.task 0

/-- What a stop does to the machine. -/
def State.stop (s : State) (st : Stream) : Stop → State
  | .fault c f => s.raise st c f
  | .wait => s.stall st
  | .waitPeer => s.stallPeer st
  | .waitLine l => s.stallLine st l
  | .lost k => s.losePoison k

/-- The answer of a meaning of stream `st` that ended in `r`. -/
def finish (s : State) (st : Stream) (r : Except Stop State) : Result :=
  match r with
  | .ok t => .next t
  | .error e => .next (s.stop st e)

/-- The first-word address of the stream's instruction, which checks 4 to 8 of R49 put in sr.fva. -/
def State.pcFault (s : State) (st : Stream) (c : Cause) : Result := .next (s.raise st c (s.bank.pc st))

/-- An idle bank held for a context (R332). -/
def idleBank (x : Nat) : Bank := Bank.reset.mapCtl fun c => { c with owner := some x }

/-- A bank whose shard has halted, held for a context until the cell's next shard starts (R37, R249). -/
def Bank.idle (b : Bank) (x : Nat) : Bank := { b with ctl := { Control.reset with owner := some x } }

/-- An engine fault of the bank of context `x` on cell `c` (R260, R342): its streams stop where they are.  While a fault
is recorded there or the context is FROZEN it follows as a second fault of the cell, behind those that came before it.  An
access that an agent makes again and that fails again is the same fault (R397). -/
def State.raiseEngine (s : State) (x c : Nat) (f : FaultInfo) : State :=
  match s.bankOf x c with
  | none => { s with saved := s.saved ++ [⟨x, c, (idleBank x).mapCtl fun k => { k with fault := some f, atCut := true }⟩] }
  | some b =>
    if b.ctl.fault = some f ∨ b.ctl.second.contains f = true then s
    else if b.ctl.fault.isSome ∨ (s.ctxAt x).state = .frozen then
      s.setBankOf x c (b.mapCtl fun k => { k with second := k.second ++ [f] })
    else s.setBankOf x c (b.mapCtl fun k => { k with fault := some f, atCut := true })

/-- An engine fault of the bank held at a place: a handler's own is a fault in the handler (R346). -/
def State.raiseEngineIn (s : State) (p : BankPlace) (x c : Nat) (f : FaultInfo) : State :=
  match s.bankIn p x c with
  | some b => if b.ctl.status = .handler then s.loseCtx x 3 f.word f.fva c 2 0 b.sr.task b.ctl.frame else s.raiseEngine x c f
  | none => s

/-- A port in service (R359). -/
def PortState.inService : PortState → Bool
  | .up | .degraded | .locked => true
  | _ => false

/-- A route to a device is in service; a confidential context uses LOCKED links only (R347, R358). -/
def State.routeUp (s : State) (conf : Bool) (dev : Nat) : Bool :=
  s.net.routes.any fun r =>
    r.1 == dev && (if conf then (vget s.net.ports r.2 .reset).state == .locked else (vget s.net.ports r.2 .reset).state.inService)

/-- The lowest device of a gang context's gang that no route in service reaches (R360). -/
def State.unreachable (s : State) (x : Nat) : Option Nat :=
  if (s.ctxAt x).gang then
    (List.range s.dev.gangSize).find? fun d => d != s.dev.devIndex && !(s.routeUp (s.ctxAt x).conf d)
  else none

/-- A gang transfer of the moving cell that needs every device of the gang: LINK where one is out of reach (R360), with CODE
the count before the instruction (R344). -/
def State.gangTransfer (s : State) (code : Word) : State :=
  match s.unreachable s.ctxNo with
  | some d => s.raiseEngineIn .active s.ctxNo s.cellNo ⟨2, .link, wordOfNat d, 2, code, none⟩
  | none => s

/-- An engine operation's release at GANG scope is a gang transfer (R360). -/
def State.gangRelease (s : State) (gang : Bool) (p : BankPlace) (x c : Nat) (seqa : Word) : State :=
  match if gang then s.unreachable x else none with
  | some d => s.raiseEngineIn p x c ⟨2, .link, wordOfNat d, 2, seqa, none⟩
  | none => s

/-- An A instruction's release or acquire at GANG scope is a gang transfer, made when the instruction retires (R360). -/
def gangAfter (gang : Bool) (s : State) (r : Result) : Result :=
  match r with
  | .next t =>
    if gang && t.bank.sr.seqa != s.bank.sr.seqa && t.bank.ctl.owner == s.bank.ctl.owner then
      .next (t.gangTransfer s.bank.sr.seqa)
    else .next t
  | r => r

/-- A fault that the device itself raises goes to the lowest cell of PART (R342, R397). -/
def State.raiseDevice (s : State) (x : Nat) (c : Cause) (fva tcb : Word) : State :=
  match (partCells (s.ctxAt x).part).head? with
  | some cell => s.raiseEngine x cell ⟨2, c, fva, 2, 0, some tcb⟩
  | none => s

/-! ## Taking an exception -/

/-- An engine entry of a bank has begun, has not ended and is not stopped by a wait (R342, step 2). -/
def Bank.engineBusy (b : Bank) : Bool :=
  b.eng.tileQ.any (·.started) ||
    (b.eng.channels.any fun l => match l with
      | o :: _ => o.phase == .running
      | [] => false) ||
    b.eng.collQ.any fun o =>
      let r := vget b.sync.barriers o.bx .reset
      o.done && !(r.phase != o.par && decide (15 ≤ r.held.length))

/-- The kernel in a slot that may run (R279, R346). -/
def Ctx.runnable (c : Ctx) (slot : Nat) : Option Kernel :=
  c.kernels.find? fun k => k.slot == slot && (k.state == .resident || k.state == .translated)

/-- The handler's bank (R346). -/
def handlerBank (x : Nat) (c : Ctx) (k : Kernel) (frame : Word) (froze : Bool) (f : FaultInfo) (tcb : Word) : Bank :=
  let pc := k.textG + wordOfNat k.entry
  let b := Bank.reset
  let b := (b.writeA 1 frame).writeA 2 (wordOfNat f.kind)
  let b := b.mapSr fun r => { r with cause := f.word, fva := f.fva, task := tcb, ctx := wordOfNat x,
                                     asid := wordOfNat c.asid, pca := pc, pcx := pc }
  b.mapCtl fun t => { t with owner := some x, status := .handler, level := .supervisor, kslot := c.svslot,
                             frame := frame, froze := froze, entry := some f }

/-- Set a shadow bank of another context aside in its save slot before an entry uses the shadow bank (R346). -/
def State.evictShadow (s : State) (cell : Nat) : State :=
  let c := s.cellAt cell
  match c.shadow.ctl.owner with
  | none => s
  | some y =>
    let s1 := s.setCell cell { c with shadow := .reset }
    let s2 := { s1 with saved := ⟨y, cell, c.shadow⟩ :: s1.saved }
    let cy := s2.ctxAt y
    if cy.state = .shadow then s2.setCtx y { cy with state := .spilling } else s2

/-- Taking an exception on a cell (R342, R346): the frame goes to the save slot, the record is written when the entry
freezes the context, the trapped bank moves to the shadow bank and the handler starts in the active one. -/
def State.enterHandler (s : State) (x cell : Nat) (f : FaultInfo) : State :=
  let s := s.passTime cell
  let c := s.ctxAt x
  let b := (s.cellAt cell).active.mapCtl fun t => { t with lkeep := true, latA := [], latX := [] }
  let frame := slotAddr c cell
  let freezes := f.kind = 1 ∨ f.kind = 2
  let tcb := f.device.getD b.sr.task
  let bytes := frameBytes b (s.cellAt cell) cell f.kind f.word f.fva f.code
  match s.saveWrite x frame bytes with
  | .error g => s.loseCtx x 1 (wordOfNat 0x271) (wordOfNat g) noCell 0 0 0 0
  | .ok s1 =>
    let c1 := if freezes then { c with state := .frozen, faults := c.faults + 1 } else c
    let s2 := (s1.setCtx x c1).setCell cell { s1.cellAt cell with active := b }
    let fseq := if f.kind = 2 then f.code else if f.stream = 1 then b.sr.seqx else b.sr.seqa
    let fcell := if f.device.isSome then noCell else cell
    let rec? := if freezes then
        s2.saveWrite x c.recBase (s2.recordBytes x f.word f.fva fcell f.kind 0 fseq tcb (wordOfNat frame))
      else .ok s2
    match rec? with
    | .error g => s2.loseCtx x 1 (wordOfNat 0x271) (wordOfNat g) noCell 0 0 0 0
    | .ok s3 =>
      match c.runnable c.svslot with
      | none => s3.loseCtx x 4 f.word f.fva cell f.kind fseq tcb (wordOfNat frame)
      | some k =>
        let s4 := s3.evictShadow cell
        let cl := s4.cellAt cell
        s4.setCell cell { cl with shadow := b, active := handlerBank x c k (wordOfNat frame) freezes f tcb }

/-- A handler that froze the context has not ended (R342). -/
def State.frozenByHandler (s : State) (x : Nat) : Bool :=
  (partCells (s.ctxAt x).part).any fun c => s.handlerOn x c && (s.cellAt c).active.ctl.froze

/-- The bank of a cell whose recorded fault is due: its partner stream has reached its cut, or both stopped (R89). -/
def State.faultPlace (s : State) (cell : Nat) : Option (BankPlace × Nat × FaultInfo) :=
  (s.places cell).findSome? fun q =>
    (s.bankIn q.1 q.2 cell).bind fun b =>
      match b.ctl.fault with
      | some f => if f.stream ≥ 2 ∨ b.ctl.atCut = true then some (q.1, q.2, f) else none
      | none => none

/-- A STALE kernel of a context that freezes becomes UNLOADING (R69). -/
def Kernel.onFreeze (k : Kernel) : Kernel := if k.state = .stale then { k with state := .unloading } else k

/-- The context is frozen, so that its schedule stops (R342, step 1).  A spill, a restore or a swap in progress completes
first (R332, R343). -/
def State.freeze (s : State) (x : Nat) : State :=
  let c := s.ctxAt x
  match c.state with
  | .active | .shadow | .spilled => if c.swapping then s else 
    (s.leavePlates x false).setCtx x { c with state := .frozen, kernels := c.kernels.map Kernel.onFreeze }
  | _ => s

/-- A tile-engine operation of lower walk count than the A stream's has not completed: a frame's sr.fflags waits for it
(R198). -/
def Bank.tileBelow (b : Bank) : Bool := b.eng.tileQ.any fun o => decide (o.walk < b.walk.wa)

/-- The cell's fault is taken (R89, R342): the schedule freezes first, and the entry follows once every engine of the
context stands at an entry boundary and the cell holds the bank.  A TRAP or BRK freezes nothing, and its frame waits for
the flags of the tile-engine operations before it (R198, R349).  A fault of a handler
is taken at its partner's cut as any other, and loses the context (R346); a fault of a bank that a handler stands in for
waits for the handler to end. -/
def State.takeFault (s : State) (cell : Nat) : State :=
  match s.faultPlace cell with
  | none => s
  | some (p, x, f) =>
    if p = .active ∧ s.handlerOn x cell = true then s.handlerFault f
    else if f.kind = 3 ∨ f.kind = 4 then
      if p = .active ∧ (s.ctxAt x).state = .active ∧ (s.ctxAt x).swapping = false ∧
          (s.cellAt cell).active.tileBelow = false then s.enterHandler x cell f else s
    else if s.frozenByHandler x ∨ s.handlerOn x cell then s
    else
      let s1 := s.freeze x
      if (s1.ctxAt x).state = .frozen ∧ (s1.ctxAt x).swapping = false ∧ p = .active ∧
          (partCells (s.ctxAt x).part).all (fun c => !((s.bankOf x c).any Bank.engineBusy)) then s1.enterHandler x cell f
      else s1

/-! ## Returning -/

/-- A value of the frame breaks its register's range (R350). -/
def frameBreaks (fr : List Byte) : Bool :=
  let fpcBad := fun (v : Nat) => v ≥ 32 || v % 8 == 0 || v % 8 == 7
  let winBad := fun (v : Nat) => v == 0 || v > 4096
  let vwin := leAt fr (0x840 + 8 * 3) 8
  fpcBad (leAt fr 0x840 8) || fpcBad (leAt fr 0x970 8) || winBad (leAt fr (0x840 + 16) 8) || winBad (leAt fr 0x978 8) ||
    vwin % 64 != 0 || decide (vwin > 4032) || decide (leAt fr (0x840 + 8) 8 ≥ 64)

/-- A walk count from its 64-bit pattern. -/
def intAt (bs : List Byte) (o : Nat) : Int := sextNat (leAt bs o 8) 64

/-- A vector of `n` elements from a frame. -/
def vecAt {w : Nat} (n : Nat) (bs : List Byte) (o sz : Nat) : Vector (BitVec w) n :=
  Vector.ofFn fun i => BitVec.ofNat w (leAt bs (o + sz * i.val) sz)

/-- A latch entry from its bytes in a frame (R338). -/
def latchOf (bs : List Byte) : Latch :=
  { seq := wordAt bs 0, pc := wordAt bs 8,
    kind := match byteAt bs 0x10 with | 0 => .aReg | 1 => .xReg | 2 => .accRow | _ => .pred
    flags := BitVec.ofNat 6 (byteAt bs 0x11), dest := leAt bs 0x12 2, remain := leAt bs 0x14 2, ctrAdv := leAt bs 0x16 2,
    value := rowOfBytes (bs.drop 0x20) }

/-- The latch entries of a stream in a frame (R337): the A stream's first, at most 16 of each. -/
def frameLatches (fr : List Byte) (st : Stream) : List Latch :=
  let na := min (byteAt fr 2) 16
  let nx := min (byteAt fr 3) 16
  let one := fun i => latchOf ((fr.drop (0x1000 + 544 * i)).take 544)
  match st with
  | .a => (List.range na).map one
  | .x => (List.range nx).map fun i => one (na + i)

/-- A system register as a restore takes it: a value outside its range leaves the register as it is (R350). -/
def restored (ok : Bool) (new old : Word) : Word := if ok then new else old

/-- The registers of a bank restored from a frame (R337, R350): the launch-set registers, sr.cyc and sr.cell keep their
own values, and reserved bits are taken as zero (R7).  `live` tells of each stream whether the galley entry that the frame
names still lives: latch entries are kept only where R339 holds. -/
def restoreRegs (b : Bank) (fr : List Byte) (die : Nat) (live : Stream → Bool) : Bank :=
  let sys := fun n => wordAt fr (0x840 + 8 * n)
  let low := fun (w : Word) => w &&& 0xFFFFFFFF#64
  let fpc := fun (v old : Word) => restored (field v 0 3 != 0 && field v 0 3 != 7) (v &&& 0x1F#64) old
  let window := fun (v old : Word) => restored (v != 0 && decide (v.toNat ≤ 4096)) v old
  let regsOk := BitVec.ofNat 256 (leAt fr 0xC0 32) == sha3 ((fr.drop 0x100).take 0x880)
  let keep := fun (st : Stream) => bitsAt (leAt fr 4 4) 2 1 == 1 && regsOk && byteAt fr 0x70 == die && live st &&
    !(b.ctl.pend.any fun f => f.stream == streamCode st)
  { b with
    af := { a := vecAt 64 fr 0x100 8, lc := vecAt 8 fr 0x600 4, sd := vecAt 16 fr 0x640 32 }
    xf := { b.xf with x := vecAt 32 fr 0x300 8, p := vecAt 16 fr 0x400 32 }
    sr := { b.sr with fpcA := fpc (sys 0) b.sr.fpcA, fpcX := fpc (wordAt fr 0x970) b.sr.fpcX
                      windowA := window (sys 2) b.sr.windowA, windowX := window (wordAt fr 0x978) b.sr.windowX
                      fflags := sys 1 &&& 0x3F#64
                      vwin := restored (decide ((sys 3).toNat % 64 = 0) && decide ((sys 3).toNat ≤ 4032)) (sys 3) b.sr.vwin
                      seed := low (sys 5), seedCtr := low (sys 6),
                      pca := wordAt fr 0x20, pcx := wordAt fr 0x28, seqa := wordAt fr 0x30, seqx := wordAt fr 0x38,
                      cause := sys 0x24 &&& 0x3FF#64, fva := sys 0x25 }
    walk := ⟨intAt fr 0x40, intAt fr 0x48, intAt fr 0x50, intAt fr 0x58⟩
    eng := { b.eng with tileFlags := b.eng.tileFlags.filter fun e => decide (intAt fr 0x40 ≤ e.1) }
    ctl := { b.ctl with latA := if keep .a then frameLatches fr .a else []
                        latX := if keep .x then frameLatches fr .x else []
                        lkeep := false, invWait := none, invAck := false, galA := none, galX := none } }

/-- A pending fault is delivered at its precise point before the stream issues anything; that stream's latch entries go
(R343). -/
def Bank.deliverPend (b : Bank) : Bank :=
  match b.ctl.pend with
  | some f => b.mapCtl fun k => { k with fault := some f, pend := none, atCut := false
                                         latA := if f.stream = 0 then [] else k.latA
                                         latX := if f.stream = 1 then [] else k.latX }
  | none => b

/-- The second fault of a bank becomes its first, and those behind it wait on (R342): a stream's own has its cut to run (R89). -/
def Bank.promoteSecond (b : Bank) : Bank :=
  match b.ctl.fault, b.ctl.second with
  | none, f :: rest => b.mapCtl fun k => { k with fault := some f, second := rest, atCut := decide (2 ≤ f.stream) }
  | _, _ => b

/-- A trapped bank restored at ERET (R350): its fault is done, and a pending fault or a second one follows. -/
def restoreBank (b : Bank) (fr : List Byte) (die : Nat) (live : Stream → Bool) : Bank :=
  let r := (restoreRegs b fr die live).mapCtl fun k =>
    { k with waitA := false, waitX := false, wdogCut := false, wdog := 0, fault := none, atCut := false }
  match r.ctl.pend with
  | some _ => r.deliverPend
  | none => r.promoteSecond

/-- A frozen context resumes (R342, R350). -/
def State.unfreeze (s : State) (x : Nat) : State :=
  let s1 := s.setCtx x { s.ctxAt x with state := .active }
  (partCells (s.ctxAt x).part).foldl (fun t c =>
    match t.bankOf x c with
    | some b => t.setBankOf x c b.promoteSecond
    | none => t) s1

/-- The chunk that holds word `i` of a kernel (R60, R62). -/
def Kernel.leafAt (k : Kernel) (i : Nat) : Digest := k.leaves.getD (i / 1024) 0

/-- The galley entry that a frame names for a stream is live with the frame's generation on a die (R76, R339). -/
def State.frameEntryLive (s : State) (die : Nat) (fr : List Byte) (st : Stream) : Bool :=
  let key : Digest := BitVec.ofNat 256 (leAt fr (match st with | .a => 0x80 | .x => 0xA0) 32)
  (vget s.sched.galleys die ⟨[], 0⟩).entries.any fun e =>
    e.key.st == st && !e.dead && e.gen == leAt fr 0x78 8 && e.key.digest die == key

/-- The galley entry that a stream of a bank had entered is still live on a die (R76, R339). -/
def State.entryStands (s : State) (b : Bank) (die : Nat) (st : Stream) : Bool :=
  match b.ctl.entered st with
  | some e => !(s.entryDead die e.gen)
  | none => false

/-- Take the first bank of a context that is set aside for a cell. -/
def State.popSaved (s : State) (x c : Nat) : Option (Bank × State) :=
  let mine := fun (e : SavedBank) => e.ctx == x && e.cell == c
  match s.saved.find? mine with
  | some e => some (e.bank, { s with saved := s.saved.eraseP mine })
  | none => none

/-- The trapped bank of the moving cell comes back in place of the handler's (R350). -/
def State.returnFrom (s : State) (fr : List Byte) : State :=
  let x := s.ctxNo
  let c := s.cell
  let b := restoreBank c.shadow fr (dieOf s.cellNo) (s.frameEntryLive (dieOf s.cellNo) fr)
  let s1 := match if b.ctl.yielding then s.popSaved x s.cellNo else none with
    | some (y, t) => t.withCell { t.cell with active := b, shadow := y }
    | none => s.withCell { c with active := b, shadow := .reset }
  if c.active.ctl.froze then s1.unfreeze x else s1

end Sys2Proof.Machine
end

