-- ==== Sys2Proof/Machine/Tile.lean ====
section
/-! DEFINITION. Stream descriptors and where their elements lie (R188, R190, R191), and the bytes that a write-back is to
write (R186, R203). -/

namespace Sys2Proof.Machine

open Sys2Proof

/-- BASE of R188. -/
def sdBase (d : BitVec 256) : Nat := field d 0 56
/-- SPACE of R188: 1 is G. -/
def sdInG (d : BitVec 256) : Bool := d.getLsbD 63
/-- PITCH. -/
def sdPitch (d : BitVec 256) : Nat := field d 64 32
/-- TPITCH. -/
def sdTpitch (d : BitVec 256) : Nat := field d 96 32
/-- SCALE. -/
def sdScale (d : BitVec 256) : Nat := field d 128 32
/-- SSTRIDE. -/
def sdSstride (d : BitVec 256) : Nat := field d 160 16
/-- ETS, signed. -/
def sdEts (d : BitVec 256) : Int := sextNat (field d 176 8) 8
/-- TYPE. -/
def sdCode (d : BitVec 256) : Nat := field d 184 4
/-- The element type; TYPE 15 is refused before it is used (R189). -/
def sdTy (d : BitVec 256) : ElemTy := (ElemTy.ofCode (sdCode d)).getD .f32
/-- ORDER. -/
def sdOrder (d : BitVec 256) : Bool := d.getLsbD 188
/-- SWZ. -/
def sdSwz (d : BitVec 256) : Nat := field d 189 2
/-- VER. -/
def sdVer (d : BitVec 256) : Bool := d.getLsbD 191
/-- TIDX. -/
def sdTidx (d : BitVec 256) : Nat := field d 192 16
/-- BGEOM. -/
def sdBgeom (d : BitVec 256) : Nat := field d 208 2
/-- TV. -/
def sdTv (d : BitVec 256) : Bool := d.getLsbD 210
/-- EXPVER. -/
def sdExpver (d : BitVec 256) : Nat := field d 224 32

/-- A place in a stream: a byte offset from BASE and the nibble of a 4-bit element (R190). -/
structure ElemPlace where
  o : Int
  high : Bool
  deriving DecidableEq, Repr

/-- Where element (i, j) with tile origin `t` lies (R190). -/
def elemPlace (d : BitVec 256) (t : Int) (i j : Nat) : ElemPlace :=
  let w := (sdTy d).width
  let bit : Int := if sdOrder d then 8 * (t + j * sdPitch d) + i * w else 8 * (t + i * sdPitch d) + j * w
  ⟨Int.fdiv bit 8, Int.fmod bit 8 ≥ 4⟩

/-- Stored row and column of an offset (R190). -/
def storedRow (d : BitVec 256) (o : Int) : Int := if sdPitch d = 0 then 0 else Int.fdiv o (sdPitch d)
/-- Stored column. -/
def storedCol (d : BitVec 256) (o : Int) : Int := if sdPitch d = 0 then o else Int.fmod o (sdPitch d)

/-- The physical offset of a logical one under SWZ (R190). -/
def swizzle (d : BitVec 256) (o : Int) : Int :=
  if sdSwz d = 1 then
    let r := (Int.fmod o 512).toNat
    let s := (Int.fmod (storedRow d o) 8).toNat
    o - r + (natXor (r / 64) s * 64 + r % 64 : Nat)
  else o

/-- The S address of the byte with an element's shift nibble, and whether it is the high nibble (R191). -/
def shiftPlace (d : BitVec 256) (o : Int) (high : Bool) : Int × Bool :=
  let w := (sdTy d).width
  let s := storedRow d o
  let e : Int := Int.fdiv (storedCol d o * 8) w + (if w = 4 ∧ high then 1 else 0)
  if sdBgeom d = 1 then
    ((sdScale d : Int) + s * sdSstride d + Int.fdiv e 64, Int.fmod (Int.fdiv e 32) 2 == 1)
  else
    ((sdScale d : Int) + Int.fdiv s 32 * sdSstride d + Int.fdiv e 2, Int.fmod e 2 == 1)

/-- The memory key of a G address under captured translations. -/
def frameKey (frames : List HeldFrame) (g : Nat) : Nat :=
  match frames.find? fun f => f.page == g / 65536 with
  | some f => f.key + g % 65536
  | none => 0

/-- The memory key of offset `o` of a write-back's destination, for the bank of context `x` on cell `c`. -/
def MwbOp.key (w : MwbOp) (x c : Nat) (o : Int) : Nat :=
  let a := ((sdBase w.sd : Int) + swizzle w.sd o).toNat
  if sdInG w.sd then frameKey w.frames a else spadKey x c a

/-- The stored rows of a destination, their element count and their bytes (R202). -/
def storedRows (sd : BitVec 256) (m n : Nat) : Nat × Nat := if sdOrder sd then (n, m) else (m, n)

/-- Bytes of a stored row. -/
def rowBytes (sd : BitVec 256) (m n : Nat) : Nat := (storedRows sd m n).2 * (sdTy sd).width / 8

/-- The memory keys that a write-back writes. -/
def MwbOp.keys (w : MwbOp) (x c : Nat) : List Nat :=
  (List.range (storedRows w.sd w.m w.n).1).flatMap fun r =>
    (List.range (rowBytes w.sd w.m w.n)).map fun b => w.key x c ((r * sdPitch w.sd + b : Nat) : Int)

/-- The memory keys that a tile-engine operation writes. -/
def TileWork.keys (x c : Nat) : TileWork → List Nat
  | .mwb w => w.keys x c
  | .writes l => l.map (·.key)
  | _ => []

/-- A tile-engine operation of the bank is still to write a byte of the parts (R186). -/
def Bank.pendingWrite (b : Bank) (x c : Nat) (ps : List RowPart) : Bool :=
  b.eng.tileQ.any fun o => (o.work.keys x c).any fun k => ps.any fun p => decide (p.key ≤ k) && decide (k < p.key + p.len)

/-- Set bytes of memory, and clear the poison of words that the bytes cover: a word covered in part loses the context
(R25). -/
def State.putBytes (s : State) (l : List (Nat × Byte)) : Except Nat State :=
  let ks := l.map (·.1)
  let hit := s.dev.poisoned.filter fun w => (List.range 8).any fun i => ks.contains (w + i)
  match hit.find? fun w => !((List.range 8).all fun i => ks.contains (w + i)) with
  | some w => .error w
  | none => .ok { s with mem := memWriteAll s.mem l
                         dev := { s.dev with poisoned := s.dev.poisoned.filter fun w => !(hit.contains w) } }

end Sys2Proof.Machine
end

