-- ==== Sys2Proof/Machine/Operands.lean ====
section
/-! DEFINITION. Operand forms: the immediates, effective addresses, scopes and orders of R31, and the checks of R106 in
each space. -/

namespace Sys2Proof.Machine

open Sys2Proof

/-- The privilege level of the moving cell's active bank. -/
def State.level (s : State) : Level := s.bank.ctl.level

/-- ea of a short M form: the offset counts units (R31, R104). -/
def Bank.eaShort (b : Bank) (base : BitVec 6) (off : BitVec 8) (unit : Nat) : Word :=
  b.readA base.toNat + wordOfNat (off.toNat * unit)

/-- ea of a long M form: a signed byte offset (R31). -/
def Bank.eaLong (b : Bank) (base : BitVec 6) (off : BitVec 25) : Word := b.readA base.toNat + off.signExtend 64

/-- The access widths of the size field (R31): b, h, w, d. -/
def sizeBytes (sz : BitVec 2) : Nat := 2 ^ sz.toNat

/-- Orders an instruction accepts (R104). -/
inductive OrderSet where
  | acquire | release | all
  deriving DecidableEq, Repr

/-- A scope of 5 to 7, or an order that the instruction does not accept, is OPERAND_ILLEGAL (R31, R104). -/
def orderOk (o : OrderSet) (sc : BitVec 3) (od : BitVec 2) : Bool :=
  decide (sc.toNat < 5) &&
    match o with
    | .acquire => od == 0#2 || od == 1#2
    | .release => od == 0#2 || od == 2#2
    | .all => true

/-- The address spaces of R208. -/
inductive Space where
  | s | c | g
  deriving DecidableEq, Repr

/-- Checks 2 to 4 of R106 for the moving cell's stream on `n` bytes at `ea`. -/
def State.locate (s : State) (sp : Space) (a : Access) (ea : Word) (n : Nat) : Except Stop (List RowPart) :=
  match sp with
  | .s => s.resolveS s.ctxNo s.cellNo ea.toNat n
  | .c => s.resolveC s.ctxNo s.cellNo ea.toNat n
  | .g =>
    if inG ea.toNat n then s.resolveG (some s.cellNo) s.ctxNo a ea.toNat n
    else .error (.fault .accessRange ea)

/-- `locate`, and for the A stream the wait for an MWB that it issued and that writes some of these bytes (R186). -/
def State.resolve (s : State) (sp : Space) (a : Access) (ea : Word) (n : Nat) : Except Stop (List RowPart) :=
  match s.locate sp a ea n with
  | .ok ps => if s.turn = .a ∧ s.bank.pendingWrite s.ctxNo s.cellNo ps = true then .error .wait else .ok ps
  | .error e => .error e

/-- `rd` of R9: checks 2 to 4, then the bytes. -/
def State.rd (s : State) (sp : Space) (annotated : Bool) (ea : Word) (n : Nat) : Except Stop (List Byte) :=
  match s.resolve sp { Access.load s.level with annotated := annotated } ea n with
  | .ok ps => s.readParts ps
  | .error e => .error e

/-- `wr` of R9: checks 2 to 4, then the bytes. -/
def State.wr (s : State) (sp : Space) (annotated : Bool) (ea : Word) (bs : List Byte) : Except Stop State :=
  match s.resolve sp { Access.store s.level with annotated := annotated } ea bs.length with
  | .ok ps => s.writeParts ps bs
  | .error e => .error e

/-- a[d] := v, and the instruction of `len` words retires. -/
def State.setA (s : State) (len : Nat) (d : Nat) (v : Word) : State := (s.setBank (s.bank.writeA d v)).retire .a len

/-- x[d] := v, and the instruction of `len` words retires. -/
def State.setX (s : State) (len : Nat) (d : Nat) (v : Word) : State := (s.setBank (s.bank.writeX d v)).retire .x len

/-- The answer of an A instruction that writes one a register. -/
def answerA (s : State) (len : Nat) (d : BitVec 6) (v : Word) : Result := .next (s.setA len d.toNat v)

end Sys2Proof.Machine
end

