-- ==== Sys2Proof/Machine/Fetch.lean ====
section
/-! DEFINITION. Which stream may move, what it fetches, and when it skips, waits or enters translated code (R28, R29,
R39, R49, R50, R70, R73, R81, R89, R214). -/

namespace Sys2Proof.Machine

open Sys2Proof

/-- The context that owns the moving cell's active bank. -/
def State.owner (s : State) : Option Nat := s.bank.ctl.owner

/-- The kernel that the active bank runs. -/
def State.kernel (s : State) : Option Kernel :=
  match s.owner with
  | none => none
  | some x => (s.ctxAt x).kernels.find? fun k => k.slot == s.bank.ctl.kslot

/-- A stream is the one that faulted, or both stopped (R89, R342). -/
def faultStops (f : FaultInfo) (st : Stream) : Bool :=
  match st with
  | .a => f.stream != 1
  | .x => f.stream != 0

/-- A stream may move: its context holds its cells, its shard runs, and no fault or cut stops it (R89, R332).  A handler runs
to its end before a swap. -/
def State.canRun (s : State) (st : Stream) : Bool :=
  let c := s.bank.ctl
  (match c.owner with
   | none => false
   | some x =>
     match c.status with
     | .running => (s.ctxAt x).state == .active && !(s.ctxAt x).swapping
     | .handler => c.froze || (s.ctxAt x).state == .active
     | _ => false) &&
  (match c.fault with
   | none => true
   | some f => !(faultStops f st) && !c.atCut)

/-- The text word index of an address, when it lies in TEXT at a multiple of 4 (R29). -/
def textIndex (k : Kernel) (pc : Word) : Option Nat :=
  let off := pc.toNat - k.textG.toNat
  if k.textG.toNat ≤ pc.toNat ∧ off % 4 = 0 ∧ off / 4 < k.text.length then some (off / 4) else none

/-- The window of a stream (R81). -/
def Bank.window (b : Bank) : Stream → Nat
  | .a => b.sr.windowA.toNat
  | .x => b.sr.windowX.toNat

/-- The lead that a slip stall tests: against the partner's w, or against its wmax while a cut is run (R81, R89). -/
def Bank.lead (b : Bank) (st : Stream) : Int :=
  let cut := b.ctl.fault.isSome
  match st with
  | .a => b.walk.wa - (if cut then b.walk.wmaxx else b.walk.wx)
  | .x => b.walk.wx - (if cut then b.walk.wmaxa else b.walk.wa)

/-- A slip stall (R81); at a cut it is the slip bound (R89). -/
def State.slipStall (s : State) (st : Stream) : State :=
  (s.count fun c => match st with
    | .a => { c with slipA := satInc c.slipA (Config.stallCycles s.freeCtr) }
    | .x => { c with slipX := satInc c.slipX (Config.stallCycles s.freeCtr) }).stallPeer st

/-- The words at a stream's PC in the galley entry that it has entered: the instruction's and the one after it (R70, R73). -/
def Bank.entryWord (b : Bank) (st : Stream) : Option (IWord × Option IWord) :=
  match b.ctl.entered st with
  | none => none
  | some e =>
    let off := (b.pc st).toNat - e.base
    if e.base ≤ (b.pc st).toNat ∧ off % 4 = 0 then
      match e.code[off / 4]? with
      | some w => some (w, e.code[off / 4 + 1]?)
      | none => none
    else none

/-- The entered galley entry covers a stream's PC. -/
def Bank.inRegion (b : Bank) (st : Stream) : Bool := (b.entryWord st).isSome

/-- An instruction ends the region that holds it: an unconditional B, RET, JI or HALT (R70). -/
def endsRegion (w : IWord) : Bool :=
  (tagOf w == 0#2 && (majorOf w == 0x30 || majorOf w == 0x33 || majorOf w == 0x34)) || (tagOf w == 2#2 && majorOf w == 0x06)

/-- The words that a region from index `start` covers from index `i` on, of at most `left` words: it ends after an
instruction of `endsRegion`, at the end of TEXT, and where the 64 KiB page ends (R70, R214).  An instruction that crosses
into the next page begins a region of its own. -/
def regionFrom (text : List IWord) (base start : Nat) : Nat → Nat → Nat → Nat
  | 0, _, _ => 0
  | fuel + 1, i, left =>
    match text[i]? with
    | none => 0
    | some w =>
      let n := if longOf w && decide (i + 1 < text.length) then 2 else 1
      let crosses := decide ((base + 4 * i) % 65536 + 4 * n > 65536)
      if left < n ∨ (crosses = true ∧ i ≠ start) then 0
      else if endsRegion w = true ∨ (base + 4 * i) % 65536 + 4 * n ≥ 65536 then n
      else n + regionFrom text base start fuel (i + n) (left - n)

/-- The words of the region that begins at index `i` (R70). -/
def regionLen (text : List IWord) (base i : Nat) : Nat := regionFrom text base i 256 i 256

/-- The EX and TASK check of a text word (R214): how the fetch of it stops. -/
def State.textStop (s : State) (pc : Word) : Option Stop :=
  match s.lookup (some s.cellNo) s.ctxNo pc.toNat with
  | .lost k => some (.lost k)
  | w => (check3 ⟨false, false, true, false, s.level, false⟩ w).map fun c => .fault c pc

/-- The checks at the first word of a region, and at an extension word that lies in the next page (R214). -/
def State.textCheck (s : State) (k : Kernel) (i : Nat) (pc : Word) : Option Stop :=
  match s.textStop pc with
  | some e => some e
  | none => if longOf (k.text.getD i 0) && (pc + 4).toNat % 65536 == 0 && decide (i + 1 < k.text.length) then s.textStop (pc + 4) else none

/-- The context part of a chunk's or galley entry's key: a confidential context's own (R61, R70). -/
def State.keyCtx (s : State) (x : Nat) : Option Nat := if (s.ctxAt x).conf then some x else none

/-- The key of the region of `n` words from index `i` of a kernel (R70). -/
def State.regionKey (s : State) (x : Nat) (st : Stream) (k : Kernel) (i n : Nat) : GalleyKey :=
  { st := st, leaf := k.leafAt i, offset := i % 1024
    leaf2 := if (i + n - 1) / 1024 = i / 1024 then none else some (k.leafAt (i + n - 1)), ctx := s.keyCtx x }

/-- The live entry of a key on a die. -/
def State.galleyHit (s : State) (die : Nat) (key : GalleyKey) : Option GalleyEntry :=
  (vget s.sched.galleys die ⟨[], 0⟩).entries.find? fun e => e.key == key && !e.dead

/-- Some stream of a cell of the die has entered an entry (R73). -/
def State.entryHeld (s : State) (die gen : Nat) : Bool :=
  (List.range 64).any fun i =>
    (s.places (64 * die + i)).any fun q =>
      match s.bankIn q.1 q.2 (64 * die + i) with
      | none => false
      | some b => b.ctl.galA.any (·.gen == gen) || b.ctl.galX.any (·.gen == gen)

/-- The least recently used of the entries that no stream holds. -/
def leastUsed (held : Nat → Bool) (l : List GalleyEntry) : Option GalleyEntry :=
  l.foldl (fun o e =>
    if held e.gen then o
    else match o with
      | none => some e
      | some m => if e.used < m.used then some e else o) none

/-- The galley gives up `n` whole entries, least recently used first (R72). -/
def evictEntries (held : Nat → Bool) : Nat → List GalleyEntry → List GalleyEntry
  | 0, l => l
  | n + 1, l =>
    match leastUsed held l with
    | none => l
    | some m => evictEntries held n (l.filter fun e => e.gen != m.gen)

/-- The dies whose galleys hold live entries for a kernel (R69). -/
def State.dieSet (s : State) (x : Nat) (k : Kernel) : BitVec 4 :=
  (List.range 4).foldl (fun d i =>
    if (vget s.sched.galleys i ⟨[], 0⟩).entries.any fun e => !e.dead && e.key.ctx == s.keyCtx x && k.leaves.contains e.key.leaf then
      d ||| BitVec.ofNat 4 (2 ^ i)
    else d) 0

/-- A kernel's die set follows the galleys: RESIDENT while it is empty, else TRANSLATED (R69). -/
def State.settleKernel (s : State) (x : Nat) (k : Kernel) : Kernel :=
  let d := s.dieSet x k
  if k.state = .resident ∨ k.state = .translated then { k with dies := d, state := if d = 0 then .resident else .translated } else k

/-- Every kernel's die set follows the galleys (R69). -/
def State.settleKernels (s : State) : State :=
  { s with ctxs := Vector.ofFn fun i => { s.ctxAt i.val with kernels := (s.ctxAt i.val).kernels.map (s.settleKernel i.val) } }

/-- A region is found in a die's galley, or translated and written there (R70, R72, R76): the entry's generation. -/
def State.enterGalley (s : State) (die : Nat) (key : GalleyKey) (words : Nat) : State × Nat :=
  let g := vget s.sched.galleys die ⟨[], 0⟩
  let put := fun (g : Galley) => { s with sched := { s.sched with galleys := vset s.sched.galleys die g } }
  match s.galleyHit die key with
  | some e =>
    (put { g with entries := g.entries.map fun h => if h.gen == e.gen then { h with used := s.freeCtr } else h }, e.gen)
  | none =>
    let kept := evictEntries (s.entryHeld die) (Config.galleyEvicts s.freeCtr) g.entries
    ((put ⟨kept ++ [⟨key, g.gen + 1, false, words, s.freeCtr⟩], g.gen + 1⟩).settleKernels, g.gen + 1)

/-- A chunk of the region no longer hashes to its leaf (R62). -/
def State.chunkBad (s : State) (key : GalleyKey) : Bool :=
  s.sched.chunks.any fun c => c.bad && c.ctx == key.ctx && (c.leaf == key.leaf || key.leaf2 == some c.leaf)

/-- The kernel in a slot that a failed verification finds (R62, R69). -/
def State.staleKernel (s : State) (x slot : Nat) : State :=
  let c := s.ctxAt x
  s.setCtx x { c with kernels := c.kernels.map fun h =>
    if h.slot == slot && (h.state == .resident || h.state == .translated) then { h with state := .stale } else h }

/-- A stream that needs code its galley lacks: the mapping is checked, the chunks are verified where the region must be
translated, and the region is entered (R62, R70, R214). -/
def State.enterRegion (s : State) (st : Stream) (x : Nat) (k : Kernel) (i : Nat) : State :=
  let pc := s.bank.pc st
  match s.textCheck k i pc with
  | some e => s.stop st e
  | none =>
    let n := regionLen k.text k.textG.toNat i
    let key := s.regionKey x st k i n
    if (s.galleyHit (dieOf s.cellNo) key).isNone ∧ s.chunkBad key = true then (s.staleKernel x k.slot).raise st .translate pc
    else
      let r := s.enterGalley (dieOf s.cellNo) key n
      let e : InEntry := ⟨pc.toNat, (k.text.drop i).take n, key, r.2⟩
      r.1.setBank (r.1.bank.mapCtl fun c => match st with
        | .a => { c with galA := some e, triesA := (0, 0) }
        | .x => { c with galX := some e, triesX := (0, 0) })

/-- A word is tagged for a stream (R27). -/
def taggedFor (w : IWord) (st : Stream) : Bool :=
  match st with
  | .a => tagOf w == 0#2 || tagOf w == 2#2
  | .x => tagOf w == 1#2 || tagOf w == 2#2

/-- System registers owned by the X stream (R38). -/
def xOwned (n : Nat) : Bool := n == 0x01 || n == 0x03 || n == 0x05 || n == 0x06 || n == 0x21 || n == 0x23

/-- The word is an SRD or SWR of an X-owned register (R39). -/
def meetsX (w : IWord) : Bool :=
  tagOf w == 0#2 && (majorOf w == 0x72 || majorOf w == 0x73) && !(longOf w) && xOwned (field w 8 8)

/-- Skip an instruction of `len` words (R28, R80). -/
def State.skip (s : State) (st : Stream) (len : Nat) : State := s.setBank (s.bank.advance st len)

/-- The fault of an S word that fails a decoding check: once, when both streams have reached it (R50). -/
def State.sharedFault (s : State) (c : Cause) (fva : Word) : State :=
  let st := s.turn
  if s.bank.pc st = s.bank.pc st.other then s.record ⟨3, c, fva, 1, 0, none⟩ else s.stallPeer st

/-- The cause of a decoding failure (R49). -/
def causeOf : DecodeErr → Cause
  | .badFirst | .badExt => .fetchMalformed
  | .undef => .opcodeUndef
  | .illegal => .operandIllegal


/-- A decoding failure of the word at the moving stream's PC (R49, R50): sr.fva is the offending word for checks 1 to
3, which for check 3 is the next one, and the first word otherwise. -/
def State.decodeFault (s : State) (w : IWord) (e : DecodeErr) : State :=
  let st := s.turn
  let pc := s.bank.pc st
  let fva := if e = .badExt then pc + 4 else pc
  if tagOf w = 2#2 then s.sharedFault (causeOf e) fva else s.raise st (causeOf e) fva

/-- What a stream finds at its PC: its turn is over, or it decodes a word and the word after it. -/
inductive Fetched where
  | done (s : State)
  | word (w : IWord) (next : Option IWord)
  deriving DecidableEq, Repr

/-- A word of the entered region: TAG and the skip, or the word to decode (R28, R39). -/
def State.fetchWord (s : State) (st : Stream) (w : IWord) (next : Option IWord) : Fetched :=
  if tagOf w = 3#2 then .done (s.raise st .fetchMalformed (s.bank.pc st))
  else if taggedFor w st then .word w next
  else if st = .x ∧ meetsX w = true ∧ s.bank.walk.wmaxa ≤ s.bank.walk.wx then .done (s.stallPeer .x)
  else .done (s.skip st (if longOf w then 2 else 1))

/-- A stream needs code outside the entry that it has entered: it enters a region of TEXT, or faults (R29, R70, R214).
TEXT of a kernel that has been unloaded is not mapped (R69). -/
def State.fetchEntry (s : State) (st : Stream) (x : Nat) : State :=
  let pc := s.bank.pc st
  match s.kernel with
  | some k =>
    match textIndex k pc with
    | none => s.raise st .fetchMalformed pc
    | some i => s.enterRegion st x k i
  | none => s.stop st ((s.textStop pc).getD (.fault .fetchMalformed pc))

/-- The fetch of a stream's turn: the slip stall, the galley entry, TAG and the skip (R28, R29, R39, R73, R81). -/
def State.fetch (s : State) (st : Stream) : Fetched :=
  if s.canRun st = false then .done s
  else
    match s.owner with
    | none => .done s
    | some x =>
      if s.bank.lead st ≥ s.bank.window st then .done (s.slipStall st)
      else
        match s.bank.entryWord st with
        | some p => s.fetchWord st p.1 p.2
        | none => .done (s.fetchEntry st x)

/-- TEXT of the kernel that `placeWords` puts in slot 0. -/
def placedKernel (w0 w1 : IWord) : Kernel :=
  { slot := 0, state := .resident, root := 0, leaves := [], text := [w0, w1], entry := 0, textG := 0x10000,
    rodataG := 0, argsG := 0, rodata := [], args := [], textLen := 4096, alignOk := true, relocCode := 0, relocAt := none, launch := [], shapeArgs := [], eager := false, eagerDone := 0,
    dies := 0, packet := none }

/-- The entry that holds the two placed words. -/
def placedEntry (w0 w1 : IWord) (st : Stream) : InEntry := ⟨0x10000, [w0, w1], ⟨st, 0, 0, none, none⟩, 0⟩

/-- The moving cell's bank at the first of two words, both streams there, with the stream of the word's TAG next. -/
def State.placeWords (s : State) (w0 w1 : IWord) : State :=
  let c := { s.ctxAt 0 with state := .active, swapping := false, kernels := [placedKernel w0 w1],
                            part := (s.ctxAt 0).part ||| BitVec.ofNat 256 (2 ^ s.cellNo) }
  let b := s.bank.mapSr fun r => { r with pca := 0x10000, pcx := 0x10000, ctx := 0, windowA := windowReset, windowX := windowReset }
  let b := { b with walk := ⟨0, 0, 0, 0⟩ }
  let b := b.mapCtl fun t => { t with owner := some 0, status := .running, kslot := 0, fault := none, atCut := false,
                                      galA := some (placedEntry w0 w1 .a), galX := some (placedEntry w0 w1 .x) }
  let s1 := (s.setCtx 0 c).setBank b
  { s1 with agenda := [], engine := false, turn := if tagOf w0 = 1#2 then .x else .a }

end Sys2Proof.Machine
end

