-- ==== Sys2Proof/Machine/Loads.lean ====
section
/-! DEFINITION. Queue push and pop and the memory instructions of the A stream (R102 to R114); LDGV stands with the
tensors. -/

namespace Sys2Proof.Machine

open Sys2Proof

/-! ## Queues -/

/-- Capacity of a qx queue (R82). -/
def qxSize : Nat := 8

/-- Capacity of a qa queue (R82). -/
def qaSize : Nat := 16

/-- Entries of qx[q]. -/
def Bank.qx (b : Bank) (q : Nat) : List QEntry := vget b.q.qx q []

/-- Replace the entries of qx[q]. -/
def Bank.setQx (b : Bank) (q : Nat) (l : List QEntry) : Bank := { b with q := { b.q with qx := vset b.q.qx q l } }

/-- Entries of qa[q]. -/
def Bank.qa (b : Bank) (q : Nat) : List Word := vget b.q.qa q []

/-- Replace the entries of qa[q]. -/
def Bank.setQa (b : Bank) (q : Nat) (l : List Word) : Bank := { b with q := { b.q with qa := vset b.q.qa q l } }

/-- Count a loss of decoupling of the A stream (R85, R86). -/
def State.countLoss (s : State) : State := s.count fun c => { c with ldEvents := satInc c.ldEvents 1 }

/-- Count the cycles of a wait in a loss of decoupling (R86). -/
def State.countLossWait (s : State) : State :=
  s.count fun c => { c with ldCycles := satInc c.ldCycles (Config.stallCycles s.freeCtr) }

/-- Count a wait on a full qx queue (R86). -/
def State.countFull (s : State) : State :=
  s.count fun c => { c with qxFull := satInc c.qxFull (Config.stallCycles s.freeCtr) }

/-- Count a wait on an empty qx queue (R86). -/
def State.countEmpty (s : State) : State :=
  s.count fun c => { c with qxEmpty := satInc c.qxEmpty (Config.stallCycles s.freeCtr) }

/-- QPUSH (R102): a code above 3 is OPERAND_ILLEGAL; a full queue waits. -/
def execQpush (d a : BitVec 6) (s : State) : Result :=
  if d.toNat < 4 then
    if (s.bank.qx d.toNat).length < qxSize then
      .next ((s.setBank (s.bank.setQx d.toNat (s.bank.qx d.toNat ++ [.scalar (s.bank.readA a.toNat)]))).retire .a 1)
    else .next (s.countFull.stallPeer .a)
  else s.pcFault .a .operandIllegal

/-- QPOPA (R103): a loss of decoupling. -/
def execQpopa (d a : BitVec 6) (s : State) : Result :=
  if a.toNat < 2 then
    match s.bank.qa a.toNat with
    | v :: rest => .next ((s.setBank (s.bank.setQa a.toNat rest)).countLoss.setA 1 d.toNat v)
    | [] => .next (s.countLossWait.stallPeer .a)
  else s.pcFault .a .operandIllegal

/-! ## Scalar loads and stores -/

/-- A scalar load (R107): zero-extended into a[t]. -/
def loadOp (sp : Space) (len : Nat) (t : BitVec 6) (ea : Word) (n : Nat) (acq : Bool) (s : State) : Result :=
  finish s .a do
    let bs ← s.rd sp acq ea n
    .ok (s.setA len t.toNat (wordOfNat (natOfBytes bs)))

/-- A scalar store (R107): the n low bytes of a[t]. -/
def storeOp (sp : Space) (len : Nat) (t : BitVec 6) (ea : Word) (n : Nat) (rel : Bool) (s : State) : Result :=
  finish s .a do
    let s1 ← s.wr sp rel ea (bytesOfWord64 (s.bank.readA t.toNat) n)
    .ok (s1.retire .a len)

/-- A long form whose scope and order are checked first (R31, R104). -/
def ordered (o : OrderSet) (sc : BitVec 3) (od : BitVec 2) (s : State) (r : Result) : Result :=
  if orderOk o sc od then gangAfter (sc == 4#3 && od != 0#2) s r else s.pcFault .a .operandIllegal

/-- A short load. -/
def loadShort (sp : Space) (t b : BitVec 6) (sz : BitVec 2) (o : BitVec 8) (s : State) : Result :=
  loadOp sp 1 t (s.bank.eaShort b o (sizeBytes sz)) (sizeBytes sz) false s

/-- A long load. -/
def loadLong (sp : Space) (t b : BitVec 6) (sz : BitVec 2) (sc : BitVec 3) (od : BitVec 2) (off : BitVec 25) (s : State) : Result :=
  ordered .acquire sc od s (loadOp sp 2 t (s.bank.eaLong b off) (sizeBytes sz) (od != 0#2) s)

/-- A short store. -/
def storeShort (sp : Space) (t b : BitVec 6) (sz : BitVec 2) (o : BitVec 8) (s : State) : Result :=
  storeOp sp 1 t (s.bank.eaShort b o (sizeBytes sz)) (sizeBytes sz) false s

/-- A long store. -/
def storeLong (sp : Space) (t b : BitVec 6) (sz : BitVec 2) (sc : BitVec 3) (od : BitVec 2) (off : BitVec 25) (s : State) : Result :=
  ordered .release sc od s (storeOp sp 2 t (s.bank.eaLong b off) (sizeBytes sz) (od != 0#2) s)

/-- LDS (R107). -/
def execLds (t b : BitVec 6) (sz : BitVec 2) (o : BitVec 8) (s : State) : Result := loadShort .s t b sz o s
/-- LDS, long form (R107). -/
def execLdsL (t b : BitVec 6) (sz : BitVec 2) (sc : BitVec 3) (od : BitVec 2) (off : BitVec 25) (s : State) : Result :=
  loadLong .s t b sz sc od off s
/-- STS (R107). -/
def execSts (t b : BitVec 6) (sz : BitVec 2) (o : BitVec 8) (s : State) : Result := storeShort .s t b sz o s
/-- STS, long form (R107). -/
def execStsL (t b : BitVec 6) (sz : BitVec 2) (sc : BitVec 3) (od : BitVec 2) (off : BitVec 25) (s : State) : Result :=
  storeLong .s t b sz sc od off s
/-- LDC (R107). -/
def execLdc (t b : BitVec 6) (sz : BitVec 2) (o : BitVec 8) (s : State) : Result := loadShort .c t b sz o s
/-- LDC, long form (R107). -/
def execLdcL (t b : BitVec 6) (sz : BitVec 2) (sc : BitVec 3) (od : BitVec 2) (off : BitVec 25) (s : State) : Result :=
  loadLong .c t b sz sc od off s
/-- STC (R107). -/
def execStc (t b : BitVec 6) (sz : BitVec 2) (o : BitVec 8) (s : State) : Result := storeShort .c t b sz o s
/-- STC, long form (R107). -/
def execStcL (t b : BitVec 6) (sz : BitVec 2) (sc : BitVec 3) (od : BitVec 2) (off : BitVec 25) (s : State) : Result :=
  storeLong .c t b sz sc od off s
/-- LDG (R107). -/
def execLdg (t b : BitVec 6) (sz : BitVec 2) (o : BitVec 8) (s : State) : Result := loadShort .g t b sz o s
/-- LDG, long form (R107). -/
def execLdgL (t b : BitVec 6) (sz : BitVec 2) (sc : BitVec 3) (od : BitVec 2) (off : BitVec 25) (s : State) : Result :=
  loadLong .g t b sz sc od off s
/-- STG (R107). -/
def execStg (t b : BitVec 6) (sz : BitVec 2) (o : BitVec 8) (s : State) : Result := storeShort .g t b sz o s
/-- STG, long form (R107). -/
def execStgL (t b : BitVec 6) (sz : BitVec 2) (sc : BitVec 3) (od : BitVec 2) (off : BitVec 25) (s : State) : Result :=
  storeLong .g t b sz sc od off s

/-! ## Ring regions -/

/-- The producer's stage pointer (R246). -/
def Ring.prodStage (r : Ring) : Nat := r.rp % r.n

/-- The consumer's stage pointer (R246): n − 1 while RC is 0. -/
def Ring.consStage (r : Ring) : Nat := if r.rc = 0 then r.n - 1 else (r.rc - 1) % r.n

/-- The S address of an R-space access of `n` bytes at a slot offset, or its ACCESS_RANGE fault (R108). -/
def ringAddr (r : Ring) (stage : Nat) (off : Word) (n : Nat) : Except Stop Word :=
  if r.isSet = false then .error (.fault .accessRange 0)
  else
    let ea := wordOfNat (r.base + stage * r.slot) + off
    if off.toNat + n ≤ r.slot then .ok ea else .error (.fault .accessRange ea)

/-- LDR (R108): the consumer's slot, as an S-space load. -/
def ldrOp (len : Nat) (t k : BitVec 6) (off : Word) (n : Nat) (acq : Bool) (s : State) : Result :=
  if k.toNat < 8 then
    match ringAddr (s.bank.ring k.toNat) (s.bank.ring k.toNat).consStage off n with
    | .ok ea => loadOp .s len t ea n acq s
    | .error e => .next (s.stop .a e)
  else s.pcFault .a .operandIllegal

/-- STR (R108): the producer's slot, as an S-space store. -/
def strOp (len : Nat) (t k : BitVec 6) (off : Word) (n : Nat) (rel : Bool) (s : State) : Result :=
  if k.toNat < 8 then
    match ringAddr (s.bank.ring k.toNat) (s.bank.ring k.toNat).prodStage off n with
    | .ok ea => storeOp .s len t ea n rel s
    | .error e => .next (s.stop .a e)
  else s.pcFault .a .operandIllegal

/-- LDR (R108). -/
def execLdr (t b : BitVec 6) (sz : BitVec 2) (o : BitVec 8) (s : State) : Result :=
  ldrOp 1 t b (wordOfNat (o.toNat * sizeBytes sz)) (sizeBytes sz) false s
/-- LDR, long form (R108). -/
def execLdrL (t b : BitVec 6) (sz : BitVec 2) (sc : BitVec 3) (od : BitVec 2) (off : BitVec 25) (s : State) : Result :=
  ordered .acquire sc od s (ldrOp 2 t b (off.signExtend 64) (sizeBytes sz) (od != 0#2) s)
/-- STR (R108). -/
def execStr (t b : BitVec 6) (sz : BitVec 2) (o : BitVec 8) (s : State) : Result :=
  strOp 1 t b (wordOfNat (o.toNat * sizeBytes sz)) (sizeBytes sz) false s
/-- STR, long form (R108). -/
def execStrL (t b : BitVec 6) (sz : BitVec 2) (sc : BitVec 3) (od : BitVec 2) (off : BitVec 25) (s : State) : Result :=
  ordered .release sc od s (strOp 2 t b (off.signExtend 64) (sizeBytes sz) (od != 0#2) s)

/-! ## Rows -/

/-- The first part after the first one that would raise PAGE_NOT_PRESENT or PAGE_PERM (R110): the bytes before it. -/
def firstShort (s : State) (a : Access) (ea : Nat) : List (Nat × Nat) → Nat → Except Stop Nat
  | [], n => .ok n
  | (g, m) :: rest, n =>
    match check3 a (s.lookup (some s.cellNo) s.ctxNo g) with
    | some c => if n = 0 then .error (.fault c (wordOfNat g)) else .ok n
    | none => firstShort s a ea rest (n + m)

/-- The bytes that an LDVQ reads (R110): 512, or up to the first failing page of a first-fault form. -/
def rowLength (s : State) (sz : BitVec 2) (a : Access) (ea : Word) : Except Stop Nat :=
  if sz = 3#2 then firstShort s a ea.toNat (partsOf ea.toNat 512) 0 else .ok 512

/-- A filled row: the bytes that arrived and zeros after them (R110). -/
def filledRow (bs : List Byte) : Row := rowOfBytes bs

/-- The first poisoned word among resolved parts (R25). -/
def State.partsPoison (s : State) (ps : List RowPart) : Option Nat :=
  ps.findSome? fun p => firstPoison s.dev.poisoned p.key p.len

/-- Check 2 of R106 on the whole row of an LDVQ (R110): its window. -/
def rowInWindow (sz : BitVec 2) (ea : Word) : Bool := if sz.toNat ≥ 2 then inG ea.toNat 512 else inS ea.toNat 512

/-- LDVQ (R110): the row is reserved here and its bytes arrive with the fill.  The wait for a free entry comes before the
checks of the read, but those of a first-fault form's pages. -/
def ldvqOp (len : Nat) (t b : BitVec 6) (sz : BitVec 2) (ea : Word) (acq : Bool) (s : State) : Result :=
  if t.toNat < 4 then
    if aligned ea 64 then
      finish s .a do
        let a : Access := { Access.load s.level with annotated := acq }
        if rowInWindow sz ea = false then .error (.fault .accessRange ea)
        else
          let m ← rowLength s sz a ea
          if (s.bank.qx t.toNat).length < qxSize then
            let ps ← s.resolve (if sz.toNat ≥ 2 then .g else .s) a ea m
            let b1 := s.bank.setQx t.toNat (s.bank.qx t.toNat ++ [.pending ps (filledRow (s.peekParts ps))])
            let b2 := if sz = 3#2 then b1.writeA b.toNat (ea + wordOfNat m) else b1
            .ok ((s.setBank b2).retire .a len)
          else .ok (s.countFull.stallPeer .a)
    else .next (s.raise .a .align ea)
  else s.pcFault .a .operandIllegal

/-- LDVQ (R110). -/
def execLdvq (t b : BitVec 6) (sz : BitVec 2) (o : BitVec 8) (s : State) : Result :=
  ldvqOp 1 t b sz (s.bank.eaShort b o 64) false s
/-- LDVQ, long form (R110). -/
def execLdvqL (t b : BitVec 6) (sz : BitVec 2) (sc : BitVec 3) (od : BitVec 2) (off : BitVec 25) (s : State) : Result :=
  ordered .acquire sc od s (ldvqOp 2 t b sz (s.bank.eaLong b off) (od != 0#2) s)

/-- Fill the first reserved entry of qx[q] that waits for its data (R82); a poisoned word loses the context (R25). -/
def fillFirst (s : State) : List QEntry → Except Stop (List QEntry)
  | [] => .ok []
  | .pending ps r :: t =>
    match s.partsPoison ps with
    | some w => .error (.lost w)
    | none => .ok (.row r :: t)
  | e :: t =>
    match fillFirst s t with
    | .ok l => .ok (e :: l)
    | .error e => .error e

/-- Fill an entry of a cell's bank at a place (R82, R334). -/
def State.fillQueue (s : State) (p : BankPlace) (x c q : Nat) : State :=
  match s.bankIn p x c with
  | none => s
  | some b =>
    match fillFirst s (b.qx q) with
    | .ok l => s.setBankIn p x c (b.setQx q l)
    | .error (.lost k) => s.loseCtx x 2 0 (wordOfNat (physOf k)) c 0 0 b.sr.task 0
    | .error _ => s

/-- LDVQ_FILL (R82, R334): data arrives for the queue of the first of the cell's banks that waits for it, in whichever place
the bank is held. -/
def execLdvqFill (cell q : Nat) (s : State) : Result :=
  if cell < 256 ∧ q < 4 then
    match (s.places cell).find? fun p => (s.bankIn p.1 p.2 cell).any fun b => (b.qx q).any QEntry.waits with
    | some p => .next (s.fillQueue p.1 p.2 cell q)
    | none => .next s
  else .fault .noSuchObject

/-- STVQ (R111): a[t] at every 8-byte offset of the row. -/
def stvqOp (len : Nat) (t : BitVec 6) (sz : BitVec 2) (ea : Word) (rel : Bool) (s : State) : Result :=
  if aligned ea 64 then
    finish s .a do
      let s1 ← s.wr (if sz.toNat ≥ 2 then .g else .s) rel ea ((List.range 64).flatMap fun _ => bytesOfWord64 (s.bank.readA t.toNat) 8)
      .ok (s1.retire .a len)
  else .next (s.raise .a .align ea)

/-- STVQ (R111). -/
def execStvq (t b : BitVec 6) (sz : BitVec 2) (o : BitVec 8) (s : State) : Result :=
  stvqOp 1 t sz (s.bank.eaShort b o 64) false s
/-- STVQ, long form (R111). -/
def execStvqL (t b : BitVec 6) (sz : BitVec 2) (sc : BitVec 3) (od : BitVec 2) (off : BitVec 25) (s : State) : Result :=
  ordered .release sc od s (stvqOp 2 t sz (s.bank.eaLong b off) (od != 0#2) s)

/-- CPRE (R112): its only effect is on time. -/
def execCpre (_b : BitVec 6) (_o : BitVec 8) (s : State) : Result := .next (s.retire .a 1)
/-- CPRE, long form (R112): a nonzero scope or order is OPERAND_ILLEGAL. -/
def execCpreL (_b : BitVec 6) (sc : BitVec 3) (od : BitVec 2) (_off : BitVec 25) (s : State) : Result :=
  if sc = 0#3 ∧ od = 0#2 then .next (s.retire .a 2) else s.pcFault .a .operandIllegal

/-! ## Atomics -/

/-- The operations of AMOG and AMOS (R113). -/
def amoFn (op : BitVec 2) (old v : Word) : Word :=
  match op.toNat with
  | 0 => old + v
  | 1 => old &&& v
  | 2 => old ||| v
  | _ => if old.ult v then v else old

/-- Fetch-and-op (R113): one indivisible read and write. -/
def amoOp (sp : Space) (len : Nat) (t : BitVec 6) (op : BitVec 2) (ea : Word) (s : State) : Result :=
  if aligned ea 8 then
    finish s .a do
      let ps ← s.resolve sp (Access.atomic s.level) ea 8
      let bs ← s.readParts ps
      let old := wordOfNat (natOfBytes bs)
      let s1 ← s.writeParts ps (bytesOfWord64 (amoFn op old (s.bank.readA t.toNat)) 8)
      .ok (s1.setA len t.toNat old)
  else .next (s.raise .a .align ea)

/-- Compare-and-swap (R114): t is even, the width is 4 or 8 bytes. -/
def casOp (sp : Space) (len : Nat) (t : BitVec 6) (sz : BitVec 2) (ea : Word) (s : State) : Result :=
  let n := sizeBytes sz
  if sz.toNat < 2 ∨ t.toNat % 2 = 1 then s.pcFault .a .operandIllegal
  else if aligned ea n then
    finish s .a do
      let ps ← s.resolve sp (Access.atomic s.level) ea n
      let bs ← s.readParts ps
      let old := natOfBytes bs
      if old = (s.bank.readA t.toNat).toNat % 2 ^ (8 * n) then
        let s1 ← s.writeParts ps (bytesOfWord64 (s.bank.readA (t.toNat + 1)) n)
        .ok (s1.setA len t.toNat (wordOfNat old))
      else .ok (s.setA len t.toNat (wordOfNat old))
  else .next (s.raise .a .align ea)

/-- AMOG (R113). -/
def execAmog (t b : BitVec 6) (sz : BitVec 2) (o : BitVec 8) (s : State) : Result :=
  amoOp .g 1 t sz (s.bank.eaShort b o 8) s
/-- AMOG, long form (R113). -/
def execAmogL (t b : BitVec 6) (sz : BitVec 2) (sc : BitVec 3) (od : BitVec 2) (off : BitVec 25) (s : State) : Result :=
  ordered .all sc od s (amoOp .g 2 t sz (s.bank.eaLong b off) s)
/-- CASG (R114). -/
def execCasg (t b : BitVec 6) (sz : BitVec 2) (o : BitVec 8) (s : State) : Result :=
  casOp .g 1 t sz (s.bank.eaShort b o (sizeBytes sz)) s
/-- CASG, long form (R114). -/
def execCasgL (t b : BitVec 6) (sz : BitVec 2) (sc : BitVec 3) (od : BitVec 2) (off : BitVec 25) (s : State) : Result :=
  ordered .all sc od s (casOp .g 2 t sz (s.bank.eaLong b off) s)
/-- AMOS (R113). -/
def execAmos (t b : BitVec 6) (sz : BitVec 2) (o : BitVec 8) (s : State) : Result :=
  amoOp .s 1 t sz (s.bank.eaShort b o 8) s
/-- AMOS, long form (R113). -/
def execAmosL (t b : BitVec 6) (sz : BitVec 2) (sc : BitVec 3) (od : BitVec 2) (off : BitVec 25) (s : State) : Result :=
  ordered .all sc od s (amoOp .s 2 t sz (s.bank.eaLong b off) s)
/-- CASS (R114). -/
def execCass (t b : BitVec 6) (sz : BitVec 2) (o : BitVec 8) (s : State) : Result :=
  casOp .s 1 t sz (s.bank.eaShort b o (sizeBytes sz)) s
/-- CASS, long form (R114). -/
def execCassL (t b : BitVec 6) (sz : BitVec 2) (sc : BitVec 3) (od : BitVec 2) (off : BitVec 25) (s : State) : Result :=
  ordered .all sc od s (casOp .s 2 t sz (s.bank.eaLong b off) s)

end Sys2Proof.Machine
end

