-- ==== Sys2Proof/Machine/Order.lean ====
section
/-! DEFINITION. The order between X instructions and tile-engine operations on a tile (R157).

The order is by walk count, so a stream that is ahead must wait for what the other stream will still reach below its own
count.  Here stands what the X stream may still reach, read off the text from where it stands with every shared transfer
taken both ways; what the A stream is still to issue is Sys2Proof.Machine.State.aIssues. -/

namespace Sys2Proof.Machine

open Sys2Proof

/-- A word that a stream is to reach: its text index, its walk count and the window's tile there. -/
structure Reach where
  i : Nat
  w : Int
  tile : Nat
  deriving DecidableEq, Repr

/-- The words of an instruction that starts with `w` (R30). -/
def wordsOf (w : IWord) : Nat := if longOf w then 2 else 1

/-- A shift of a text index by a signed number of words. -/
def shiftIndex (i : Nat) (d : Int) : Option Nat := if 0 ≤ (i : Int) + d then some ((i : Int) + d).toNat else none

/-- The word offset of a BC-format transfer (R31). -/
def bcOffset (w : IWord) (next : Option IWord) : Int :=
  if longOf w then
    match next with
    | some e => (e.extractLsb' 0 30).toInt
    | none => 0
  else (w.extractLsb' 0 6).toInt

/-- A tile-engine instruction (R157). -/
def tileWord (w : IWord) : Bool :=
  tagOf w == 0#2 && (majorOf w == 0x3B || majorOf w == 0x3C || majorOf w == 0x3D)

/-- The indices of the tile-engine words of a text. -/
def tileWordsOf : Nat → List IWord → List Nat
  | _, [] => []
  | i, w :: t => if tileWord w then i :: tileWordsOf (i + 1) t else tileWordsOf (i + 1) t

/-- Where a taken shared transfer leads: the walk count counts its words only (R80). -/
def sharedTo (r : Reach) (len : Nat) (d : Int) : List Reach :=
  match shiftIndex r.i d with
  | some j => [⟨j, r.w + len, r.tile⟩]
  | none => []

/-- The words that the X stream may reach next from a word. -/
def nextOf (w : IWord) (next : Option IWord) (r : Reach) : List Reach :=
  let n := wordsOf w
  let on : List Reach := [⟨r.i + n, r.w + n, r.tile⟩]
  let m := majorOf w
  match (tagOf w).toNat with
  | 1 => if m == 0x60 then [⟨r.i + n, r.w + n, field w 0 16 / 128⟩] else on
  | 2 =>
    if m == 0x00 then sharedTo r n (bcOffset w next) ++ on
    else if m == 0x01 then sharedTo r n ((field w 0 16 : Nat) + 1) ++ on
    else if m == 0x02 then sharedTo r n (1 - (field w 0 16 : Nat)) ++ on
    else if m == 0x06 then []
    else on
  | 3 => []
  | _ => on

/-- From the words of the list X may reach, below the walk count `lim`, a word that `hit` marks.  Out of fuel it may. -/
def mayReach (text : List IWord) (hit : IWord → Nat → Bool) (lim : Int) : Nat → List Reach → List Reach → Bool
  | 0, _, _ => true
  | _ + 1, [], _ => false
  | k + 1, r :: rest, seen =>
    if seen.contains r ∨ lim + text.length ≤ r.w then mayReach text hit lim k rest seen
    else
      match text[r.i]? with
      | none => mayReach text hit lim k rest seen
      | some w =>
        if decide (r.w < lim) && hit w r.tile then true
        else mayReach text hit lim k (nextOf w text[r.i + 1]? r ++ rest) (r :: seen)

/-- Steps of a search before it gives up. -/
def reachFuel (text : List IWord) : Nat := 8 * text.length + 32768

/-- The X stream of the moving bank may still reach a marked word below a walk count. -/
def State.xReaches (s : State) (hit : IWord → Nat → Bool) (lim : Int) : Bool :=
  match s.kernel with
  | none => false
  | some k =>
    match textIndex k (s.bank.pc .x) with
    | none => false
    | some i => mayReach k.text hit lim (reachFuel k.text) [⟨i, s.bank.w .x, s.bank.sr.vwin.toNat / 128⟩] []

/-- X majors whose instructions read or write rows of the window (R157). -/
def rowMajor (m : Nat) : Bool :=
  (decide (0x10 ≤ m) && decide (m ≤ 0x28)) || (decide (0x30 ≤ m) && decide (m ≤ 0x43))

/-- An X word reads or writes rows of a tile of the list, or retags it. -/
def touchesTiles (tiles : List Nat) (w : IWord) (tile : Nat) : Bool :=
  tagOf w == 1#2 &&
    (if majorOf w == 0x60 then field w 16 3 != 0 && tiles.contains (field w 0 16 / 128)
     else rowMajor (majorOf w) && tiles.contains tile)

/-- The values Σ stride × index over captured levels. -/
def offsetsOf (f : NestLevel → Int) (levels : List NestLevel) : List Int :=
  levels.foldl (fun acc l =>
    (acc.flatMap fun v =>
      (List.range (if f l = 0 then min l.trip 1 else l.trip)).map fun (k : Nat) => v + f l * (k : Int)).eraseDups) [0]

/-- The tiles that rows `first + off` to `first + off + m − 1` lie in. -/
def tilesOfRows (first m : Nat) (offs : List Int) : List Nat :=
  (offs.flatMap fun o =>
    let lo := ((first : Int) + o).toNat / 128
    let hi := ((first : Int) + o + m - 1).toNat / 128
    (List.range (hi - lo + 1)).map (lo + ·)).eraseDups

/-- CROW, AROW, CLANE, KX and the modes of a nest's placement (R194). -/
def placeCrow (w : Word) : Nat := field w 0 12
/-- CLANE of R194 and R201. -/
def placeClane (w : Word) : Nat := field w 12 7
/-- AVEC of R194. -/
def placeAvec (w : Word) : Bool := w.getLsbD 19
/-- INT of R194 and R201. -/
def placeInt (w : Word) : Bool := w.getLsbD 20
/-- AROW of R194. -/
def placeArow (w : Word) : Nat := field w 24 12
/-- KX of R194. -/
def placeKx (w : Word) : Nat := field w 40 24

/-- The tiles of a nest's result (R195, R196). -/
def resultTiles (place : Word) (m : Nat) (levels : List NestLevel) : List Nat :=
  tilesOfRows (placeCrow place) m (offsetsOf (·.sc) levels)

/-- The tiles of a nest's AVEC operand (R195, R196). -/
def avecTiles (place : Word) (m : Nat) (levels : List NestLevel) : List Nat :=
  if placeAvec place then tilesOfRows (placeArow place) m (offsetsOf (·.sa) levels) else []

/-- The tiles whose rows a tile-engine operation reads or writes. -/
def TileWork.tiles : TileWork → List Nat
  | .mma o => (resultTiles o.place o.m o.levels ++ avecTiles o.place o.m o.levels).eraseDups
  | .mzero f c => tilesOfRows f c [0]
  | .mwb o => tilesOfRows (placeCrow o.src) o.m [0]
  | .writes _ => []

/-- The A stream stands at an instruction that only the X stream lets go on: a slip stall, a queue that X must fill or empty,
an outcome or a word that X must reach (R39, R81, R84, R102, R103, R110, R121, R305). -/
def State.aNeedsX (s : State) : Bool :=
  let b := s.bank
  decide (b.window .a ≤ b.lead .a) ||
    match b.entryWord .a with
    | none => false
    | some (w, _) =>
      let m := majorOf w
      let full := decide (qxSize ≤ (b.qx (field w 16 6)).length)
      match (tagOf w).toNat with
      | 0 => (m == 0x19 && (b.qa (field w 10 6)).isEmpty) || ((m == 0x18 || m == 0x29) && full) || meetsX w
      | 2 => m == 0x03 || m == 0x06 || (m == 0x00 && w.getLsbD 21 && !((vget b.q.bq (b.q.kA % 64) none).any (·.k == b.q.kA)))
      | _ => false

/-- A tile-engine operation of walk count `w` on some tiles waits (R157): an X instruction on one of them whose walk count is
no higher has not retired. -/
def State.xPending (s : State) (w : Int) (tiles : List Nat) : Bool :=
  decide (s.bank.walk.wx ≤ w) && s.xReaches (touchesTiles tiles) (w + 1)

end Sys2Proof.Machine
end

