-- ==== Sys2Proof/Machine/Kernels.lean ====
section
/-! DEFINITION. Kernel objects and the loader's checks, the chunk store, unloading, the galley and the compositor (R58 to
R76, R297). -/

namespace Sys2Proof.Machine

open Sys2Proof

/-! ## The object -/

/-- A section table entry (R59). -/
structure SectEntry where
  ty : Nat
  flags : Nat
  off : Nat
  size : Nat
  align : Nat
  entsize : Nat
  /-- the reserved bytes are zero -/
  clean : Bool
  deriving DecidableEq, Repr

/-- Section `i` of the table at `o` (R59). -/
def sectAt (bs : List Byte) (o i : Nat) : SectEntry :=
  let e := o + 32 * i
  ⟨leAt bs e 2, leAt bs (e + 2) 2, leAt bs (e + 8) 8, leAt bs (e + 0x10) 8, leAt bs (e + 0x18) 4, leAt bs (e + 0x1C) 4,
    leAt bs (e + 4) 4 == 0⟩

/-- The bytes of a section. -/
def sectBytes (bs : List Byte) (e : SectEntry) : List Byte := (bs.drop e.off).take e.size

/-- The sections of an object. -/
def sectsOf (bs : List Byte) : List SectEntry := (List.range (leAt bs 0x18 2)).map (sectAt bs (leAt bs 0x1C 4))

/-- The section of a type. -/
def sectOf (bs : List Byte) (ty : Nat) : Option SectEntry := (sectsOf bs).find? (·.ty == ty)

/-- Check 1 of R67: the header (R58). -/
def objHeaderOk (bs : List Byte) : Bool :=
  decide (0x80 ≤ bs.length) && leAt bs 0 4 == 0x314F4B42 && leAt bs 4 2 == 1 && leAt bs 8 4 == 0 && leAt bs 0xC 4 == 0x80 &&
    leAt bs 0x10 8 == bs.length && decide (2 ≤ leAt bs 0x18 2) && decide (leAt bs 0x18 2 ≤ 64) && decide (leAt bs 0x1A 2 ≤ 8) &&
    leAt bs 0x1C 4 % 8 == 0 && decide (1 ≤ leAt bs 0x20 4) && decide (leAt bs 0x20 4 ≤ 4096) && leAt bs 0x24 4 % 8 == 0 &&
    leAt bs 0x28 4 % 4 == 0 && decide (4 ≤ leAt bs 0x28 4) && decide (leAt bs 0x28 4 ≤ 4096 * leAt bs 0x20 4) &&
    leAt bs 0x2C 4 % 4 == 0 && decide (leAt bs 0x2C 4 < leAt bs 0x28 4) &&
    allZero ((bs.drop (0x30 + 2 * leAt bs 0x1A 2)).take (16 - 2 * leAt bs 0x1A 2))

/-- Nodes of the tree over `n` chunks: the leaves and one node for each pairing (R60). -/
def treeNodes (n : Nat) : Nat := 2 * n - 1

/-- Ranges (offset, size), the empty ones left out, that do not overlap. -/
def disjointRanges : List (Nat × Nat) → Bool
  | [] => true
  | (o, n) :: t => t.all (fun r => n == 0 || r.2 == 0 || decide (o + n ≤ r.1) || decide (r.1 + r.2 ≤ o)) && disjointRanges t

/-- An alignment of R59. -/
def alignValid (a : Nat) : Bool := decide (1 ≤ a) && decide (a ≤ 2 ^ 30) && 2 ^ Nat.log2 a == a

/-- One section table entry (R59): a section that is no table has ENTSIZE 0.  LAUNCH's size and ENTSIZE are check 8's (R297).
DESIGN CHOICE (log 157): a RELOC section whose SIZE is no multiple of its 24-byte entries fails here. -/
def sectOk (bs : List Byte) (e : SectEntry) : Bool :=
  e.clean && decide (e.flags < 2) && alignValid e.align && decide (e.off + e.size ≤ bs.length) &&
    (match e.ty with
     | 1 => e.entsize == 0 && e.off % 4096 == 0 && e.size == 4096 * leAt bs 0x20 4 &&
        allZero ((bs.drop (e.off + leAt bs 0x28 4)).take (e.size - leAt bs 0x28 4))
     | 2 | 3 | 7 => e.entsize == 0
     | 6 => e.entsize == 24 && e.size % 24 == 0
     | _ => true)

/-- Check 2 of R67: the section table. -/
def objSectsOk (bs : List Byte) : Bool :=
  let n := leAt bs 0x18 2
  let o := leAt bs 0x1C 4
  let tree := leAt bs 0x24 4
  let tlen := 32 * treeNodes (leAt bs 0x20 4)
  let ss := sectsOf bs
  let count := fun (t : Nat) => (ss.filter (·.ty == t)).length
  decide (o + 32 * n ≤ bs.length) && decide (tree + tlen ≤ bs.length) && ss.all (sectOk bs) &&
    disjointRanges ((0, 0x80) :: (o, 32 * n) :: (tree, tlen) :: ss.map fun e => (e.off, e.size)) &&
    count 1 == 1 && count 4 == 1 && [2, 3, 5, 6, 7, 8, 9].all fun t => decide (count t ≤ 1)

/-- Check 3 of R67: META is the hash of the object without TEXT, ROOT and META taken as zero (R58). -/
def objMetaOk (bs : List Byte) : Bool :=
  match sectOf bs 1 with
  | none => false
  | some t =>
    let z := bs.take 0x40 ++ List.replicate 0x40 0#8 ++ bs.drop 0x80
    sha3 (z.take t.off ++ z.drop (t.off + t.size)) == BitVec.ofNat 256 (leAt bs 0x60 32)

/-- Check 4 of R67: no unknown section without OPTIONAL. -/
def objKnown (bs : List Byte) : Bool := (sectsOf bs).all fun e => (decide (1 ≤ e.ty) && decide (e.ty ≤ 9)) || e.flags % 2 == 1

/-- A note (R63). -/
structure Note where
  id : Nat
  flags : Nat
  value : List Byte
  deriving DecidableEq, Repr

/-- The records of a NOTES section, or none where they do not fill it exactly with zero padding. -/
def notesOf : Nat → List Byte → Option (List Note)
  | _, [] => some []
  | 0, _ => none
  | fuel + 1, bs =>
    let n := leAt bs 4 4
    let pad := (8 - n % 8) % 8
    if bs.length < 8 + n + pad ∨ n > 65536 ∨ allZero ((bs.drop (8 + n)).take pad) = false then none
    else
      match notesOf fuel (bs.drop (8 + n + pad)) with
      | some l => some (⟨leAt bs 0 2, leAt bs 2 2, (bs.drop 8).take n⟩ :: l)
      | none => none

/-- Argument indices of a SHAPE_ARGS note. -/
def shapeArgsOf (v : List Byte) : List Nat := (List.range (v.length / 2)).map fun i => leAt v (2 * i) 2

/-- A strictly rising list. -/
def rising : List Nat → Bool
  | a :: b :: t => decide (a < b) && rising (b :: t)
  | _ => true

/-- A note's value keeps its row (R63). -/
def Note.ok (n : Note) : Bool :=
  decide (n.flags < 2) &&
    match n.id with
    | 1 => n.value.isEmpty
    | 2 => decide (n.value.length ≤ 256)
    | 3 => n.value.length % 2 == 0 && rising (shapeArgsOf n.value)
    | _ => true

/-- The notes of an object. -/
def objNotes (bs : List Byte) : Option (List Note) :=
  match sectOf bs 7 with
  | some e => notesOf (e.size + 1) (sectBytes bs e)
  | none => some []

/-- Check 5 of R67: LOAD_FORMAT or LOAD_NOTE.  DESIGN CHOICE (log 155): a note that breaks its row gives LOAD_FORMAT even where
an earlier unknown note gives LOAD_NOTE (R63). -/
def objNotesCode (bs : List Byte) : Nat :=
  match objNotes bs with
  | none => 0x01
  | some l =>
    let twice := [1, 2, 3].any fun i => decide (1 < (l.filter (·.id == i)).length)
    if twice ∨ l.all Note.ok = false then 0x01
    else if l.any fun n => (n.id == 0 || decide (3 < n.id)) && n.flags % 2 == 1 then 0x04
    else 0

/-- Check 6 of R67: the profiles (R66).  DESIGN CHOICE (log 156): LOAD_FORMAT of any entry goes before LOAD_PROFILE of another. -/
def objProfilesCode (bs : List Byte) : Nat :=
  let ps := (List.range (leAt bs 0x1A 2)).map fun i => (byteAt bs (0x30 + 2 * i), byteAt bs (0x31 + 2 * i))
  if ps.any (·.2 == 0) ∨ (ps.map (·.1)).eraseDups.length ≠ ps.length then 0x01
  else if ps.any fun p => decide (3 < p.1) || decide (1 < p.2) then 0x05
  else 0

/-- The leaf of chunk `i` (R60). -/
def leafOf (text : List Byte) (i : Nat) : Digest := sha3 (0#8 :: (text.drop (4096 * i)).take 4096)

/-- One level of the tree: the next level and the nodes that its pairings create (R60). -/
def merkleLevel : List Digest → List Digest × List Digest
  | a :: b :: t =>
    let h := sha3 (1#8 :: (digestBytes a ++ digestBytes b))
    let r := merkleLevel t
    (h :: r.1, h :: r.2)
  | l => (l, [])

/-- The nodes of the tree above a level, in order (R60). -/
def treeAbove : Nat → List Digest → List Digest
  | 0, _ => []
  | fuel + 1, l =>
    if l.length ≤ 1 then []
    else
      let r := merkleLevel l
      r.2 ++ treeAbove fuel r.1

/-- Every stored node of the tree over the leaves. -/
def treeOf (leaves : List Digest) : List Digest := leaves ++ treeAbove leaves.length leaves

/-- The leaves of an object's text. -/
def objLeaves (bs : List Byte) : List Digest :=
  match sectOf bs 1 with
  | some t => (List.range (leAt bs 0x20 4)).map (leafOf (sectBytes bs t))
  | none => []

/-- Check 7 of R67: the chunk table and ROOT. -/
def objTreeOk (bs : List Byte) : Bool :=
  let t := treeOf (objLeaves bs)
  t == (List.range t.length).map (fun i => BitVec.ofNat 256 (leAt bs (leAt bs 0x24 4 + 32 * i) 32)) &&
    t.getLast? == some (BitVec.ofNat 256 (leAt bs 0x40 32))

/-- The kind of a launch level (R296). -/
def LevelKind.ofCode : Nat → Option LevelKind
  | 0 => some .temporal
  | 1 => some .cells
  | 2 => some .dies
  | _ => none

/-- The levels of a LAUNCH section with their MAXEXT (R297). -/
def launchOf (l : List Byte) : List (LevelKind × Nat) :=
  (List.range (byteAt l 0)).map fun i => ((LevelKind.ofCode (bitsAt (leAt l 2 2) (2 * i) 2)).getD .temporal, leAt l (8 + 4 * i) 4)

/-- The product of the MAXEXT of one kind. -/
def launchProduct (l : List (LevelKind × Nat)) (k : LevelKind) : Nat := l.foldl (fun n e => if e.1 = k then n * e.2 else n) 1

/-- Check 8 of R67: the LAUNCH section (R297). -/
def launchOk (l : List Byte) : Bool :=
  let n := byteAt l 0
  let kinds := leAt l 2 2
  let lv := launchOf l
  decide (1 ≤ n) && decide (n ≤ 6) && byteAt l 1 == 0 && leAt l 4 4 == 0 && kinds / 2 ^ (2 * n) == 0 &&
    ((List.range n).all fun i => bitsAt kinds (2 * i) 2 != 3) &&
    (lv.all fun e => decide (1 ≤ e.2) && (match e.1 with
      | .temporal => true
      | .cells => decide (e.2 ≤ 64)
      | .dies => decide (e.2 ≤ 4))) &&
    ((List.range 6).all fun i => decide (i < n) || leAt l (8 + 4 * i) 4 == 0) &&
    decide (launchProduct lv .cells ≤ 64) && decide (launchProduct lv .dies ≤ 4)

/-- The bytes of an object's LAUNCH section. -/
def objLaunch (bs : List Byte) : List Byte :=
  match sectOf bs 4 with
  | some e => sectBytes bs e
  | none => []

/-- LAUNCH's table entry (R297): 32 bytes, and no table. -/
def launchSectOk (bs : List Byte) : Bool :=
  match sectOf bs 4 with
  | some e => e.entsize == 0 && e.size == 32
  | none => false

/-- The status of checks 1 to 8 of R67; 0 passes. -/
def objCode (bs : List Byte) : Nat :=
  if objHeaderOk bs = false then 0x01
  else if objSectsOk bs = false then 0x01
  else if objMetaOk bs = false then 0x02
  else if objKnown bs = false then 0x03
  else if objNotesCode bs ≠ 0 then objNotesCode bs
  else if objProfilesCode bs ≠ 0 then objProfilesCode bs
  else if objTreeOk bs = false then 0x02
  else if launchSectOk bs = false ∨ launchOk (objLaunch bs) = false then 0x01
  else 0

/-! ## Relocations -/

/-- The placed sections while relocations are applied: G address and contents by section code (R64). -/
structure Reloc where
  textG : Nat
  rodata : Option (Nat × List Byte)
  args : Option (Nat × List Byte)
  deriving DecidableEq, Repr

/-- The G address of a section code, when the section is present. -/
def Reloc.addr (r : Reloc) (code : Nat) : Option Nat :=
  match code with
  | 1 => some r.textG
  | 2 => r.rodata.map (·.1)
  | 3 => r.args.map (·.1)
  | _ => none

/-- The contents of a site section. -/
def Reloc.site (r : Reloc) (code : Nat) : Option (Nat × List Byte) :=
  match code with
  | 2 => r.rodata
  | 3 => r.args
  | _ => none

/-- Overwrite bytes of a list. -/
def overlay (bs : List Byte) (o : Nat) (v : List Byte) : List Byte := bs.take o ++ v ++ bs.drop (o + v.length)

/-- One relocation entry (R65), or the status of its rejection.  DESIGN CHOICE (log 157): reserved bytes are tested first, then
KIND and SSECT, then TSECT, then the range of SITE and the value. -/
def applyReloc (r : Reloc) (e : List Byte) : Except Nat Reloc :=
  let site := leAt e 0 8
  let kind := byteAt e 0x10
  let ss := byteAt e 0x11
  if kind = 0 ∨ 3 < kind ∨ (ss ≠ 2 ∧ ss ≠ 3) ∨ leAt e 0x13 5 ≠ 0 then .error (if leAt e 0x13 5 ≠ 0 then 0x01 else 0x06)
  else
    match r.site ss with
    | none => .error 0x06
    | some (g, bs) =>
      let w := if kind = 1 then 8 else 4
      match r.addr (byteAt e 0x12) with
      | none => .error 0x01
      | some t =>
        if bs.length < site + w then .error 0x06
        else
          let v : Int := (t : Int) + sextNat (leAt e 8 8) 64 - (if kind = 3 then ((g + site : Nat) : Int) else 0)
          let fits := match kind with
            | 1 => decide (0 ≤ v) && decide (v < 2 ^ 64)
            | 2 => decide (0 ≤ v) && decide (v < 2 ^ 32)
            | _ => decide (-(2 ^ 31 : Int) ≤ v) && decide (v < 2 ^ 31)
          if fits = false then .error 0x06
          else
            let bs1 := overlay bs site (bytesOfWord64 (wordOfInt v) w)
            .ok (if ss = 2 then { r with rodata := some (g, bs1) } else { r with args := some (g, bs1) })

/-- The entries in table order from index `n` (R65): the first that fails ends them, with its index, SITE and status. -/
def applyRelocs (r : Reloc) (n : Nat) : List (List Byte) → Except (Nat × Nat × Nat) Reloc
  | [] => .ok r
  | e :: t =>
    match applyReloc r e with
    | .ok r1 => applyRelocs r1 (n + 1) t
    | .error c => .error (n, leAt e 0 8, c)

/-- The relocation entries of an object. -/
def objRelocs (bs : List Byte) : List (List Byte) :=
  match sectOf bs 6 with
  | some e => (List.range (e.size / 24)).map fun i => (bs.drop (e.off + 24 * i)).take 24
  | none => []

/-- The words of TEXT up to TEXTSIZE. -/
def objText (bs : List Byte) : List IWord :=
  match sectOf bs 1 with
  | some t => (List.range (leAt bs 0x28 4 / 4)).map fun i => BitVec.ofNat 32 (leAt bs (t.off + 4 * i) 4)
  | none => []

/-- A kernel that has passed checks 1 to 8 (R69), with what checks 9 and 10 will find of the object alone. -/
def kernelOf (bs : List Byte) (slot : Nat) (tG rG aG : Nat) (packet : Option (Nat × Word × Word)) : Kernel :=
  let sec := fun (ty g : Nat) => (sectOf bs ty).map fun e => (g, sectBytes bs e)
  let alignOf := fun (ty g : Nat) => match sectOf bs ty with
    | some e => g % e.align == 0
    | none => true
  let r := applyRelocs ⟨tG, sec 2 rG, sec 3 aG⟩ 0 (objRelocs bs)
  let (code, at_, rodata, args) : Nat × Option (Nat × Nat) × List Byte × List Byte := match r with
    | .ok v => (0, none, (v.rodata.map (·.2)).getD [], (v.args.map (·.2)).getD [])
    | .error c => (c.2.2, some (c.1, c.2.1), (sec 2 rG).elim [] (·.2), (sec 3 aG).elim [] (·.2))
  let notes := (objNotes bs).getD []
  { slot := slot, state := .verified, root := BitVec.ofNat 256 (leAt bs 0x40 32), leaves := objLeaves bs, text := objText bs,
    entry := leAt bs 0x2C 4, textG := wordOfNat tG, rodataG := wordOfNat rG, argsG := wordOfNat aG, rodata := rodata,
    args := args, textLen := 4096 * leAt bs 0x20 4, alignOk := tG % 65536 == 0 && alignOf 1 tG && alignOf 2 rG && alignOf 3 aG,
    relocCode := code, relocAt := at_, launch := launchOf (objLaunch bs),
    shapeArgs := match notes.find? (·.id == 3) with
      | some n => shapeArgsOf n.value
      | none => []
    eager := notes.any (·.id == 1), eagerDone := 0, dies := 0, packet := packet }

/-! ## The chunk store -/

/-- The words of chunk `i` of a text (R60). -/
def chunkWords (text : List IWord) (i : Nat) : List IWord :=
  let l := (text.drop (1024 * i)).take 1024
  l ++ List.replicate (1024 - l.length) 0#32

/-- A kernel's chunks, each once: leaf and words (R61). -/
def Kernel.chunks (k : Kernel) : List (Digest × List IWord) :=
  k.leaves.eraseDups.map fun d => (d, chunkWords k.text (k.leaves.idxOf d))

/-- Enter a chunk in the store, or count one more kernel that uses it (R61). -/
def enterChunk (own : Option Nat) (l : List Chunk) (d : Digest × List IWord) : List Chunk :=
  if l.any fun c => c.leaf == d.1 && c.ctx == own then
    l.map fun c => if c.leaf == d.1 && c.ctx == own then { c with count := c.count + 1 } else c
  else l ++ [⟨d.1, own, d.2, 1, false⟩]

/-- Count one kernel less; a chunk whose count falls to zero leaves the store (R61). -/
def leaveChunk (own : Option Nat) (l : List Chunk) (leaf : Digest) : List Chunk :=
  (l.map fun c => if c.leaf == leaf && c.ctx == own then { c with count := c.count - 1 } else c).filter fun c =>
    !(c.leaf == leaf && c.ctx == own && c.count == 0)

/-- Mark the galley entries of chunks that have left the store dead, on all dies (R73). -/
def Galley.bury (l : List Chunk) (g : Galley) : Galley :=
  let stored := fun (own : Option Nat) (leaf : Digest) => l.any fun c => c.leaf == leaf && c.ctx == own
  { g with entries := g.entries.map fun e =>
      if stored e.key.ctx e.key.leaf && (match e.key.leaf2 with | some d => stored e.key.ctx d | none => true) then e
      else { e with dead := true } }

/-- Count a kernel's chunks in. -/
def State.enterChunks (s : State) (x : Nat) (k : Kernel) : State :=
  { s with sched := { s.sched with chunks := k.chunks.foldl (enterChunk (s.keyCtx x)) s.sched.chunks } }

/-- Count a kernel's chunks out (R69, R73). -/
def State.leaveChunks (s : State) (x : Nat) (k : Kernel) : State :=
  let l := k.leaves.eraseDups.foldl (leaveChunk (s.keyCtx x)) s.sched.chunks
  { s with sched := { s.sched with chunks := l, galleys := s.sched.galleys.map (Galley.bury l) } }

/-- The kernel in a slot of a context. -/
def State.kernelIn (s : State) (x slot : Nat) : Option Kernel := (s.ctxAt x).kernels.find? (·.slot == slot)

/-- Replace the kernel in a slot. -/
def State.setKernel (s : State) (x : Nat) (k : Kernel) : State :=
  let c := s.ctxAt x
  s.setCtx x { c with kernels := c.kernels.map fun h => if h.slot == k.slot then k else h }

/-- A shard or handler of the kernel in a slot is running (R69). -/
def State.kernelRuns (s : State) (x slot : Nat) : Bool :=
  (partCells (s.ctxAt x).part).any fun c => (s.places c).any fun q =>
    q.2 == x && (s.bankIn q.1 x c).any fun b =>
      b.ctl.kslot == slot && (b.ctl.status == .running || b.ctl.status == .handler)

/-! ## Placing (R67, orders 9 to 11; R68) -/

/-- The placed sections of a kernel (R68). -/
inductive PlacedKind where
  | text | rodata | args
  deriving DecidableEq, Repr

/-- The ranges that a kernel places: kind, G address and length. -/
def Kernel.ranges (k : Kernel) : List (PlacedKind × Nat × Nat) :=
  [(.text, k.textG.toNat, k.textLen), (.rodata, k.rodataG.toNat, k.rodata.length), (.args, k.argsG.toNat, k.args.length)].filter
    fun r => r.2.2 != 0

/-- The 64 KiB pages that a range overlaps. -/
def pagesOf (g n : Nat) : List Nat := (List.range ((g + n - 1) / 65536 - g / 65536 + 1)).map (g / 65536 + ·)

/-- Check 9 of R67: aligned, no page shared, every page unmapped and in the G window.  DESIGN CHOICE (log 158): a page whose
walk ends malformed counts as mapped. -/
def State.slotOk (s : State) (x : Nat) (k : Kernel) : Bool :=
  let ps := k.ranges.flatMap fun r => pagesOf r.2.1 r.2.2
  k.alignOk && (k.ranges.all fun r => inG r.2.1 r.2.2) && ps.eraseDups.length == ps.length &&
    ps.all fun p => s.walk x (p * 65536) == .notPresent

/-- A page that the loader is to map: its G page number, its leaf and the bytes of its frame (R68). -/
structure PlacedPage where
  kind : PlacedKind
  page : Nat
  frame : Nat
  bytes : List Byte
  deriving DecidableEq, Repr

/-- The leaf of a placed page (R68, R212): TEXT read and execute, RODATA read, ARGS read and write, ORD STRONG.  DESIGN CHOICE
(log 18): ARGS has RD and WR, and every placed page has TASK 1 and PIN 0. -/
def PlacedPage.leaf (p : PlacedPage) : Nat :=
  p.frame + 0x87 + (match p.kind with
    | .text => 0x10
    | .rodata => 0
    | .args => 0x08)

/-- The bytes of TEXT as placed. -/
def Kernel.textBytes (k : Kernel) : List Byte := k.text.flatMap fun w => bytesOfNat 4 w.toNat

/-- The bytes of a placed section. -/
def Kernel.placedBytes (k : Kernel) : PlacedKind → List Byte
  | .text => k.textBytes
  | .rodata => k.rodata
  | .args => k.args

/-- The part of a section's bytes that lies in 64 KiB page `p`: the bytes outside the section are zero (R68). -/
def pageOf (g : Nat) (bs : List Byte) (p : Nat) : List Byte :=
  let lo := p * 65536
  if lo ≤ g then List.replicate (g - lo) 0#8 ++ bs.take (lo + 65536 - g) else (bs.drop (lo - g)).take 65536

/-- Frames of the device structures region for chunk-store pages (R210). -/
def chunkFrames : Nat := 0x200000

/-- A free frame of the chunk store, looked for from a place of the loader's own choosing. -/
def freeChunkFrame (used : List Nat) (start : Nat) : Nat :=
  ((List.range (used.length + 1)).map fun i => 0x1E000000000 + (start + i) % chunkFrames * 65536).find? (fun f => !(used.contains f))
    |>.getD 0x1E000000000

/-- Frames that may hold a context's data or page tables: whole 64 KiB of near or mid tier, each once. -/
def framesGood (frames : List Nat) : Bool :=
  frames.eraseDups.length == frames.length && frames.all fun f => f % 65536 == 0 && (tierOf f == .near || tierOf f == .mid)

/-- Give each page its frame: TEXT a chunk-store frame, RODATA and ARGS the next of the context's frames. -/
def givePages (used : List Nat) (start : Nat) : List PlacedPage → List Nat → Option (List PlacedPage × List Nat)
  | [], frames => some ([], frames)
  | p :: t, frames =>
    match p.kind, frames with
    | .text, _ =>
      let f := freeChunkFrame used start
      (givePages (f :: used) start t frames).map fun r => ({ p with frame := f } :: r.1, r.2)
    | _, f :: rest => (givePages used start t rest).map fun r => ({ p with frame := f } :: r.1, r.2)
    | _, [] => none

/-- Write `n` zero bytes from a key. -/
def memClear (m : Memory) (k n : Nat) : Memory := m.filter fun e => !(decide (k ≤ e.1) && decide (e.1 < k + n))

/-- Write a leaf for G address `g` into the tables below `base`: a table that is missing takes the next frame (R211). -/
def putLeaf (g leaf : Nat) : Memory → Nat → List (Nat × Nat × Option Nat) → List Nat → Option (Memory × List Nat)
  | _, _, [], _ => none
  | m, base, (lo, n, _) :: rest, frames =>
    let a := base + 8 * bitsAt g lo n
    let e := natOfBytes (memRead m a 8)
    if rest.isEmpty then some (memWrite m a (bytesOfNat 8 leaf), frames)
    else if bitsAt e 0 1 = 1 then
      match nextTable e rest with
      | some next => putLeaf g leaf m next rest frames
      | none => none
    else
      match frames with
      | [] => none
      | f :: fs => putLeaf g leaf (memWrite (memClear m f 65536) a (bytesOfNat 8 (f + 1))) f rest fs

/-- Write the frames and the leaves of the pages (R68). -/
def putPages (root : Nat) : List PlacedPage → Memory → List Nat → Option Memory
  | [], m, _ => some m
  | p :: t, m, frames =>
    match putLeaf (p.page * 65536) p.leaf (memWrite (memClear m p.frame 65536) p.frame p.bytes) root walkLevels frames with
    | some (m1, rest) => putPages root t m1 rest
    | none => none

/-- The pages of a kernel, not yet given frames. -/
def Kernel.pages (k : Kernel) : List PlacedPage :=
  k.ranges.flatMap fun r => (pagesOf r.2.1 r.2.2).map fun p => ⟨r.1, p, 0, pageOf r.2.1 (k.placedBytes r.1) p⟩

/-- Every frame of the chunk store that some context's TEXT stands in. -/
def State.textFrames (s : State) : List Nat := (List.range 64).flatMap fun x => (s.ctxAt x).placed.map (·.frame)

/-- The memory and the pages after the loader has mapped and copied the sections, or none where the frames it was given do not
suffice (R67, order 11; R68). -/
def State.placePages (s : State) (x : Nat) (k : Kernel) (frames : List Nat) : Option (Memory × List PlacedPage) :=
  if framesGood frames then
    match givePages s.textFrames (Config.chunkFrame s.freeCtr) k.pages frames with
    | none => none
    | some (ps, rest) => (putPages (s.ctxAt x).ptroot ps s.mem rest).map fun m => (m, ps)
  else none

/-- The status of checks 9 to 11; `room` is the frames for the sections where there is space in the chunk store (R67). -/
def State.placeCode (s : State) (x : Nat) (k : Kernel) (room : Option (List Nat)) : Nat :=
  if s.slotOk x k = false then 0x07
  else if k.relocCode ≠ 0 then k.relocCode
  else if room.any (fun frames => (s.placePages x k frames).isSome) = true then 0
  else 0x08

/-- Map and copy the sections, and enter the kernel (R68). -/
def State.placeKernel (s : State) (x : Nat) (k : Kernel) (frames : List Nat) : State :=
  match s.placePages x k frames with
  | none => s
  | some (m, ps) =>
    let s1 := s.setKernel x { k with state := .resident, packet := none }
    let c := s1.ctxAt x
    { s1.setCtx x { c with placed := c.placed ++ (ps.filter (·.kind == .text)).map fun p => ⟨k.slot, p.page, p.frame⟩
                           loaded := c.loaded ++ [k.root] } with
      mem := m
      dev := { s1.dev with poisoned := ps.foldl (fun bad p => clearPoison bad p.frame 65536) s1.dev.poisoned } }

/-- The address of the leaf entry that a walk of `g` ends at, in a table of the last level (R211). -/
def leafPlace (m : Memory) (g : Nat) : Nat → List (Nat × Nat × Option Nat) → Option Nat
  | _, [] => none
  | base, (lo, n, _) :: rest =>
    let a := base + 8 * bitsAt g lo n
    let e := natOfBytes (memRead m a 8)
    if bitsAt e 0 1 = 0 then none
    else if bitsAt e 7 1 = 1 then (if rest.isEmpty then some a else none)
    else
      match nextTable e rest with
      | some next => leafPlace m g next rest
      | none => none

/-- Unmap a page: its leaf reads V = 0 and no cell holds its translation (R69). -/
def State.unmapPage (s : State) (x page : Nat) : State :=
  let m := match leafPlace s.mem (page * 65536) (s.ctxAt x).ptroot walkLevels with
    | some a => memWrite s.mem a (List.replicate 8 0#8)
    | none => s.mem
  { s with mem := m
           cells := s.cells.map fun c => { c with tlb := c.tlb.filter fun e => !(e.asid == (s.ctxAt x).asid && e.page == page) } }

/-- A slot becomes ABSENT: the counts fall, TEXT and RODATA are unmapped, and TEXT's frames are free (R69).  ARGS stays
mapped. -/
def State.dropKernel (s : State) (x : Nat) (k : Kernel) : State :=
  let s1 := s.leaveChunks x k
  let mapped := k.state != .loading && k.state != .verified
  let s2 := if mapped then (k.pages.filter (·.kind != .args)).foldl (fun t p => t.unmapPage x p.page) s1 else s1
  let c := s2.ctxAt x
  let mine := c.placed.filter (·.slot == k.slot)
  { s2.setCtx x { c with kernels := c.kernels.filter fun h => h.slot != k.slot
                         placed := c.placed.filter (·.slot != k.slot) } with
    mem := mine.foldl (fun m p => memClear m p.frame 65536) s2.mem }

/-! ## The galley and the compositor -/

/-- GALLEY_ENTRY_RECLAIM (R69, R73): a dead entry that no stream remains in is reclaimed, and the die sets follow. -/
def execGalleyEntryReclaim (die entry : Nat) (s : State) : Result :=
  if die < 4 then
    let g := vget s.sched.galleys die ⟨[], 0⟩
    match g.entries[entry]? with
    | none => .next s
    | some e =>
      if e.dead = false ∨ s.entryHeld die e.gen = true then .next s
      else
        let g1 := { g with entries := g.entries.eraseIdx entry }
        .next ({ s with sched := { s.sched with galleys := vset s.sched.galleys die g1 } } : State).settleKernels
  else .fault .noSuchObject

/-- The target of a direct branch or call at word index `i` of TEXT, as a word index (R75): B, BC, CALL, BQP, BQ, LOOP and
ENDL. -/
def branchTarget (text : List IWord) (i : Nat) : Option Nat :=
  match text[i]? with
  | none => none
  | some w =>
    let m := majorOf w
    let off : Option Int := match (tagOf w).toNat with
      | 0 => if m == 0x30 || m == 0x32 then some (w.extractLsb' 0 22).toInt
        else if m == 0x31 || m == 0x35 then some (bcOffset w text[i + 1]?) else none
      | 2 => if m == 0x00 then some (bcOffset w text[i + 1]?)
        else if m == 0x01 then some ((field w 0 16 : Nat) + 1)
        else if m == 0x02 then some (1 - (field w 0 16 : Nat)) else none
      | _ => none
    match off.bind (shiftIndex i) with
    | some j => if j < text.length then some j else none
    | none => none

/-- The words at which eager translation begins regions (R75): ENTRY and every target of a direct branch or call. -/
def eagerStarts (k : Kernel) : List Nat :=
  (k.entry / 4 :: (List.range k.text.length).filterMap (branchTarget k.text)).eraseDups

/-- Eager translation of one region (R75): nothing is written where it has failed or its chunk does not verify. -/
def State.eagerRegion (s : State) (die x : Nat) (k : Kernel) (failed : List (Stream × Nat)) (st : Stream) (i : Nat) : State :=
  let n := regionLen k.text k.textG.toNat i
  let key := s.regionKey x st k i n
  if failed.contains (st, i) ∨ s.chunkBad key = true then s else (s.enterGalley die key n).1

/-- EAGER_TRANSLATION_COMPLETE (R75): the regions are written for both streams, but those that failed under R74, and the die
may dispatch the kernel's tasks. -/
def execEagerTranslationComplete (die ctx : Nat) (slot : EagerLoad) (s : State) : Result :=
  if die < 4 ∧ ctx < 64 then
    match s.kernelIn ctx slot.slot with
    | some k =>
      if k.eager && (k.state == .resident || k.state == .translated) && !(k.eagerDone.getLsbD die) then
        let one := fun (t : State) (i : Nat) => (t.eagerRegion die ctx k slot.failed .a i).eagerRegion die ctx k slot.failed .x i
        let s1 := (eagerStarts k).foldl one s
        match s1.kernelIn ctx slot.slot with
        | some h => .next (s1.setKernel ctx { h with eagerDone := h.eagerDone ||| BitVec.ofNat 4 (2 ^ die) })
        | none => .next s1
      else .next s
    | none => .next s
  else .fault .noSuchObject

/-- The stored bytes of a chunk no longer match its hash (R62). -/
def State.markBad (s : State) (x : Nat) (leaf : Digest) : State :=
  let mark := fun (c : Chunk) => if c.leaf == leaf && c.ctx == s.keyCtx x then { c with bad := true } else c
  { s with sched := { s.sched with chunks := s.sched.chunks.map mark } }

/-- The region that a stream of the moving cell must have translated: its context, kernel, first word's index and key.  None
where the stream cannot move, has entered the region, or finds it in the galley or outside TEXT (R70, R74). -/
def State.needsRegion (s : State) (st : Stream) : Option (Nat × Kernel × Nat × GalleyKey) :=
  match s.owner, s.kernel with
  | some x, some k =>
    match textIndex k (s.bank.pc st) with
    | none => none
    | some i =>
      let key := s.regionKey x st k i (regionLen k.text k.textG.toNat i)
      if s.canRun st = true ∧ s.bank.inRegion st = false ∧ s.galleyHit (dieOf s.cellNo) key = none then some (x, k, i, key)
      else none
  | _, _ => none

/-- REGION_TRANSLATION_COMPLETE (R62, R70): the region that a stream needs is translated; `hashOk` says whether the
chunk of its first word, and whether a second chunk that it enters, still hashes to its leaf. -/
def execRegionTranslationComplete (cell : Nat) (st : Stream) (hashOk : Bool × Bool) (s : State) : Result :=
  s.onCell cell fun t =>
    match t.needsRegion st with
    | none => t
    | some (x, k, i, key) =>
      let t1 := if hashOk.1 then t else t.markBad x key.leaf
      let t2 := match key.leaf2 with
        | some d => if hashOk.2 then t1 else t1.markBad x d
        | none => t1
      t2.enterRegion st x k i

/-- The failed attempts so far at the region that a stream needs now (R74): another region begins at none. -/
def Control.tries (c : Control) (st : Stream) (pc : Nat) : Nat :=
  let t := match st with
    | .a => c.triesA
    | .x => c.triesX
  if t.1 = pc then t.2 else 0

/-- COMPOSITOR_FAILURE (R74): the third failed attempt at a region faults TRANSLATE in the stream that needed it. -/
def execCompositorFailure (cell : Nat) (st : Stream) (s : State) : Result :=
  s.onCell cell fun t =>
    match t.needsRegion st with
    | none => t
    | some (_, k, i, _) =>
      let pc := t.bank.pc st
      match t.textCheck k i pc with
      | some _ => t
      | none =>
        let n := t.bank.ctl.tries st pc.toNat + 1
        let set := fun (v : Nat) => t.setBank (t.bank.mapCtl fun c => match st with
          | .a => { c with triesA := (pc.toNat, v) }
          | .x => { c with triesX := (pc.toNat, v) })
        if n < 3 then set n else (set 0).raise st .translate pc

end Sys2Proof.Machine
end

