-- ==== Sys2Proof/Machine/Launch.lean ====
section
/-! DEFINITION. What a shard's launch sets, and the end of a pass (R37, R296, R300, R303 to R305). -/

namespace Sys2Proof.Machine

open Sys2Proof

/-- The product of the extents of the levels of one kind (R300). -/
def kindProduct (levels : List (LevelKind × Nat)) (kind : LevelKind) : Nat :=
  levels.foldl (fun n l => if l.1 = kind then n * l.2 else n) 1

/-- The levels of a group with the extents of its TCB. -/
def groupLevels (k : Kernel) (exts : List Nat) : List (LevelKind × Nat) :=
  (k.launch.zip exts).map fun p => (p.1.1, p.2)

/-- The index of level `n` in the number `v` formed over the levels of its kind, lowest level fastest (R300, R303). -/
def levelIndex (levels : List (LevelKind × Nat)) (n v : Nat) : Nat :=
  match levels[n]? with
  | some (kind, e) => v / kindProduct (levels.take n) kind % e
  | none => 0

/-- sr.shard0 to sr.shard5 of the shard with cells index `c` and dies index `d` in pass `t` (R304). -/
def shardWords (levels : List (LevelKind × Nat)) (t c d : Nat) : Vector Word 6 :=
  Vector.ofFn fun i =>
    match levels[i.val]? with
    | some (.temporal, e) => wordOfNat (e * 2 ^ 32 + levelIndex levels i.val t)
    | some (.cells, e) => wordOfNat (e * 2 ^ 32 + levelIndex levels i.val c)
    | some (.dies, e) => wordOfNat (e * 2 ^ 32 + levelIndex levels i.val d)
    | none => 0x100000000#64

/-- The bank of a pass: R37, the launch registers of R303 and ENTRY. -/
def launchBank (x : Nat) (c : Ctx) (k : Kernel) (level : Level) (args tcb : Word) (shard : Vector Word 6) : Bank :=
  let pc := k.textG + wordOfNat k.entry
  let b := Bank.reset.writeA 1 args
  let b := b.mapSr fun r => { r with task := tcb, ctx := wordOfNat x, asid := wordOfNat c.asid, shard := shard,
                                     pca := pc, pcx := pc }
  b.mapCtl fun t => { t with owner := some x, status := .running, level := level, kslot := k.slot }

/-- The bank of pass `t` of shard `n` of a group. -/
def shardBank (c : Ctx) (k : Kernel) (g : Group) (n t : Nat) : Bank :=
  let words := shardWords (groupLevels k g.exts) t (n % g.p) (n / g.p)
  (launchBank g.ctx c k .task g.args (wordOfNat g.tcb) words).mapCtl fun q =>
    { q with group := some g.id, shardNo := n, pass := t }

/-- What the next pass keeps of a bank: the engines' sequence numbers and the shard's TFOLD sequence (R149, R187, R305). -/
def nextPass (old new : Bank) : Bank :=
  { new with
    eng := { new.eng with engSeq := old.eng.engSeq, chSeq := old.eng.chSeq, collIssued := old.eng.collIssued,
                          collSeq := old.eng.collSeq }
    ctl := { new.ctl with foldReady := old.ctl.foldReady, foldDone := old.ctl.foldDone,
                          presented := old.ctl.presented.map fun p => (none, p.2), yielding := old.ctl.yielding } }

/-- Every access, copy, tile-engine operation and collective of the bank is performed or completed (R233, R305). -/
def Bank.drained (b : Bank) : Bool :=
  b.eng.tileQ.isEmpty && b.eng.channels.all (·.isEmpty) && b.eng.collQ.isEmpty &&
    b.q.qx.all (fun l => l.all fun e => match e with | .pending _ _ => false | _ => true)

/-- HALT retires in both streams of a drained bank (R305). -/
def Bank.endPass (b : Bank) : Bank :=
  { (b.retire .a 1).retire .x 1 with q := { b.q with qx := Vector.replicate 4 [], qa := Vector.replicate 2 [],
                                                     bq := Vector.replicate 64 none } }

/-- A bank that stands for a yielded shard gives the cell of context `x` back to that shard (R293). -/
def State.unyield (s : State) (x c : Nat) : State :=
  let place := s.bankPlace x c
  if (s.bankIn place x c).any (·.ctl.yielding) then
    match place with
    | .active => s.setCell c { s.cellAt c with active := (s.cellAt c).shadow, shadow := .reset }
    | .shadow =>
      match s.popSaved x c with
      | some (y, t) => t.setCell c { t.cellAt c with shadow := y }
      | none => s
    | .saved =>
      match s.popSaved x c with
      | some (_, t) => t
      | none => s
    | .none => s
  else s

/-- The pass of the moving cell ends (R305): the next pass starts, or the shard's halt line is set. -/
def State.endPass (s : State) : State :=
  let b := s.bank.endPass
  match s.curGroup, (s.ctxAt s.ctxNo).kernels.find? (fun k => k.slot == b.ctl.kslot) with
  | some g, some k =>
    if b.ctl.pass + 1 < kindProduct (groupLevels k g.exts) .temporal then
      s.setBank (nextPass b (shardBank (s.ctxAt s.ctxNo) k g b.ctl.shardNo (b.ctl.pass + 1)))
    else
      let left := b.ctl.presented.map fun p => ((none : Option Int), p.2)
      let h := { g with halted := setAt g.halted b.ctl.shardNo true, gone := g.gone ++ if b.ctl.yielding then left else [] }
      ((s.setBank (b.mapCtl fun c => { c with status := .halted, presented := left })).setGroup h).unyield s.ctxNo s.cellNo
  | _, _ =>
    -- the one-shard supervisor task of R340 has no group: its barriers stand until the cell's next shard (R37, R249)
    (s.setBank (b.idle s.ctxNo)).setCtx s.ctxNo { s.ctxAt s.ctxNo with svTask := false }

end Sys2Proof.Machine
end

