-- ==== Sys2Proof/Machine/ContextOps.lean ====
section
/-! DEFINITION. Contexts: creation, the state table, swap, spill and restore, the scratchpad lines, the end of a context, the
supervisor task and the watchdog (R330 to R343). -/

namespace Sys2Proof.Machine

open Sys2Proof

/-! ## Memory of a context -/

/-- The leaves that a table at `base` reaches: the first key and the length of each page (R211).  A table entry that lists
no byte is not present. -/
def tableLeaves (m : Memory) : List (Nat × Nat × Option Nat) → Nat → Nat → List (Nat × Nat)
  | [], _, _ => []
  | (lo, n, size) :: rest, base, g =>
    let listed := m.filter fun e => decide (base ≤ e.1) && decide (e.1 < base + 8 * 2 ^ n)
    (listed.map fun e => (e.1 - base) / 8).eraseDups.flatMap fun i =>
      let g1 := g + i * 2 ^ lo
      let e := natOfBytes (memRead m (base + 8 * i) 8)
      if bitsAt e 0 1 = 0 then []
      else if bitsAt e 7 1 = 1 then
        match size with
        | none => []
        | some k =>
          match leafEnd [] e g1 lo k with
          | .leaf x => [(x.key, 2 ^ lo)]
          | _ => []
      else
        match nextTable e rest with
        | some next => tableLeaves m rest next g1
        | none => []

/-- The frames that a context's page table maps now. -/
def State.mappedFrames (s : State) (x : Nat) : List (Nat × Nat) := tableLeaves s.mem walkLevels (s.ctxAt x).ptroot 0

/-- Zero frames, by first key and length; the poison of their words goes with them (R25, R332). -/
def State.zeroFrames (s : State) (l : List (Nat × Nat)) : State :=
  { s with mem := l.foldl (fun m f => memClear m f.1 f.2) s.mem
           dev := { s.dev with poisoned := l.foldl (fun bad f => clearPoison bad f.1 f.2) s.dev.poisoned } }

/-- The bytes of a save area: one slot for each cell (R331, R335). -/
def saveAreaLen (part : BitVec 256) : Nat := (partCells part).length * 0x820000

/-! ## Creation -/

/-- The context that a creation request describes (R330); DEBUG of a confidential context is taken as 0 (R347). -/
def ctxOf (bs : List Byte) : Ctx :=
  let conf := bitsAt (byteAt bs 1) 0 1 == 1
  { Ctx.reset with
    state := .loading, conf := conf, debug := bitsAt (byteAt bs 1) 1 1 == 1 && !conf, asid := leAt bs 2 2
    nqueue := byteAt bs 4, wdshift := byteAt bs 5, svslot := leAt bs 6 2, ptroot := leAt bs 8 8, saveBase := leAt bs 0x10 8
    qdesc := leAt bs 0x18 8, tcbBase := leAt bs 0x20 8, tcbCount := leAt bs 0x28 4, spadFirst := leAt bs 0x2C 2
    spadLast := leAt bs 0x2E 2, ttable := leAt bs 0x30 8, recBase := leAt bs 0x38 8, evtBase := leAt bs 0x40 8
    replayBase := leAt bs 0x48 8, part := BitVec.ofNat 256 (leAt bs 0x50 32), request := bs }

/-- The fields of a creation request keep R330 and R211. -/
def requestOk (bs : List Byte) : Bool :=
  let c := ctxOf bs
  let root := tierOf c.ptroot
  bs.length == 128 && decide (byteAt bs 0 < 64) && decide (byteAt bs 1 < 4) && decide (1 ≤ c.nqueue) && decide (c.nqueue ≤ 16) &&
    decide (24 ≤ c.wdshift) && decide (c.wdshift ≤ 40) && decide (c.svslot ≤ 4095) && c.ptroot % 0x100000 == 0 &&
    (root == .near || root == .mid) && c.saveBase % 65536 == 0 && c.qdesc % 64 == 0 && c.tcbBase % 128 == 0 &&
    decide (1 ≤ c.tcbCount) && decide (c.tcbCount ≤ 1048576) && decide (c.spadFirst ≤ 95) && decide (c.spadLast ≤ 95) &&
    c.ttable % 4096 == 0 && c.recBase % 64 == 0 && allZero ((bs.drop 0x70).take 16)

/-- A range is mapped on leaves with RD, WR and PIN set and ORD not UNORDERED (R331). -/
def pinnedRange (t : Tables) (root g n : Nat) : Bool :=
  inG g n && (partsOf g n).all fun p =>
    match walkFrom t p.1 root walkLevels with
    | .leaf x => x.rd && x.wr && x.pin && x.ord != 2
    | _ => false

/-- An established session of a host with the root firmware (R330, R366). -/
def State.hostSession (s : State) (id : Nat) : Bool :=
  s.dev.sessions.any fun e => e.id == id && e.state == .established && (match e.asker with
    | .host _ => true
    | .peer _ => false)

/-- A creation request passes R331; a confidential context's comes through the root firmware, over a session of the host's. -/
def State.createOk (s : State) (bs : List Byte) (fromRoot : Option Nat) : Bool :=
  let c := ctxOf bs
  let cells := partCells c.part
  let mapped := fun (g n : Nat) => pinnedRange ⟨s.mem, s.dev.poisoned, []⟩ c.ptroot g n
  s.dev.state == .ready && requestOk bs && (s.ctxAt (byteAt bs 0)).state == .free &&
    ((List.range 64).all fun i => (s.ctxAt i).state == .free || (s.ctxAt i).asid != c.asid) &&
    !cells.isEmpty && (!c.conf || fromRoot.any s.hostSession) &&
    mapped c.saveBase (saveAreaLen c.part) && mapped c.recBase (64 + 64 * cells.length) && mapped c.evtBase 4096 &&
    mapped c.ttable 0x400000

/-- CONTEXT_CREATE (R330 to R332): the context enters LOADING with its save slots zeroed, or the request is refused. -/
def execContextCreate (request : List Byte) (fromRoot : Option Nat) (s : State) : Result :=
  let x := byteAt request 0
  if s.createOk request fromRoot then
    let c0 := ctxOf request
    let c := { c0 with session := if c0.conf then fromRoot else none }
    let s1 := s.setCtx x c
    let ps := (partsOf c.saveBase (saveAreaLen c.part)).map fun p => (keyIn p.1 (s1.walk x p.1), p.2)
    let s2 : State := { s1 with mem := ps.foldl (fun m p => memClear m p.1 p.2) s1.mem }
    .next (s2.send (.created x true))
  else .next (s.send (.created x false))

/-- G address of a queue descriptor (R269). -/
def Ctx.queueAddr (c : Ctx) (q : Nat) : Nat := c.qdesc + 64 * q

/-- Write the STATE and CAUSE bytes of a queue's descriptor (R272). -/
def State.setQueueState (s : State) (x q st cause : Nat) : Except Stop State :=
  s.agentWrite x ((s.ctxAt x).queueAddr q + 0x0C) (bytesOfNat 1 st ++ bytesOfNat 1 cause) false

/-- A context's queues become ACTIVE with HEAD and TAIL 0 (R272). -/
def State.enableQueues (s : State) (x : Nat) : Except Stop State :=
  (List.range (s.ctxAt x).nqueue).foldlM (fun t q => do
    let t1 ← t.setQueueState x q 1 0
    t1.agentWrite x ((t1.ctxAt x).queueAddr q + 0x10) (List.replicate 16 0#8) false) s

/-- CONTEXT_SETUP_COMPLETE (R332): a context whose descriptors cannot be written stays LOADING. -/
def execContextSetupComplete (ctx : Nat) (s : State) : Result :=
  if ctx < 64 then
    if (s.ctxAt ctx).state = .loading then
      let s1 := if (s.ctxAt ctx).conf then s.zeroFrames (s.mappedFrames ctx) else s
      match s1.enableQueues ctx with
      | .ok t => .next (t.setCtx ctx { t.ctxAt ctx with state := .ready })
      | .error _ => .next s
    else .next s
  else .fault .noSuchObject

/-! ## Holding the cells -/

/-- A bank runs nothing, and nothing waits in it. -/
def Bank.unused (b : Bank) : Bool :=
  b.ctl.status == .idle && b.ctl.fault.isNone && b.ctl.second.isEmpty && b.ctl.pend.isNone && b.drained

/-- The active bank of a cell is free (R302, R332): no shard or handler holds it. -/
def Cell.free (c : Cell) : Bool := c.active.ctl.owner.isNone || c.active.unused

/-- Lines that hold no image are tagged with a context. -/
def Cell.claimLines (c : Cell) (x : Nat) : Cell := { c with lineTags := c.lineTags.map fun t => some (t.getD x) }

/-- A cell's active bank for context `x` as it takes the cell: the one set aside, or an idle one (R37). -/
def State.seatBank (s : State) (x c : Nat) : State :=
  let (b, s1) := match s.popSaved x c with
    | some (b, t) => (b, t)
    | none => (idleBank x, s)
  s1.setCell c ({ s1.cellAt c with active := b }.claimLines x)

/-- CONTEXT_GRANT (R332). -/
def execContextGrant (ctx : Nat) (s : State) : Result :=
  if ctx < 64 then
    let c := s.ctxAt ctx
    let cells := partCells c.part
    if c.state = .ready ∧ cells.all (fun i => (s.cellAt i).free) = true then
      let s1 := cells.foldl (fun t i => t.seatBank ctx i) s
      .next (s1.setCtx ctx { s1.ctxAt ctx with state := .active })
    else .next s
  else .fault .noSuchObject

/-! ## Swap -/

/-- A handler of a context runs on some cell. -/
def State.handled (s : State) (x : Nat) : Bool := (partCells (s.ctxAt x).part).any (s.handlerOn x)

/-- Latch entries that a frame can hold (R337). -/
def latchMax : Nat := 16

/-- A latch entry of a stream of cell `c` is one that a request names. -/
def latchNamed (ins : List LatchIn) (c : Nat) (st : Stream) (l : Latch) : Bool :=
  ins.any fun e => e.cell == c && e.stream == st && e.pc == l.pc && e.seq == l.seq

/-- A bank that a pre-empt request stops keeps the latch entries that the request names (R333, R338). -/
def Bank.keepLatches (b : Bank) (ins : List LatchIn) (c : Nat) : Bank :=
  b.mapCtl fun k => { k with latA := (k.latA.filter (latchNamed ins c .a)).take latchMax
                             latX := (k.latX.filter (latchNamed ins c .x)).take latchMax }

/-- A pre-empt request acts on a context that is ACTIVE and in no swap (R332). -/
def State.mayPreempt (s : State) (x : Nat) : Bool := (s.ctxAt x).state == .active && !(s.ctxAt x).swapping

/-- PREEMPT_REQUEST (R332, R333, R338): the streams stop where they stand, and keep the results that their translations have
latched.  A TRAP's handler runs to its end first. -/
def execPreemptRequest (ctx : Nat) (latches : List LatchIn) (s : State) : Result :=
  if ctx < 64 then
    if s.mayPreempt ctx then
      let stop := fun (t : State) (i : Nat) =>
        match t.bankIn .active ctx i with
        | some b => if b.shardOf ctx then t.setBankIn .active ctx i (b.keepLatches latches i) else t
        | none => t
      let c := s.ctxAt ctx
      .next (((partCells c.part).foldl stop s).setCtx ctx { c with swapping := true })
    else .next s
  else .fault .noSuchObject

/-- The shadow bank of a cell can take the active bank of a context: it is free, or holds the context's yielded shard. -/
def State.shadowFree (s : State) (x c : Nat) : Bool :=
  match (s.cellAt c).shadow.ctl.owner with
  | none => true
  | some y => y == x

/-- A cell's bank goes into the shadow bank (R333); a shard that has yielded is set aside with it (R293). -/
def State.swapOut (s : State) (x c : Nat) : State :=
  let cl := s.cellAt c
  if cl.active.ctl.owner = some x then
    let s1 := s.setCell c { cl with active := .reset, shadow := cl.active }
    if cl.shadow.ctl.owner = some x then { s1 with saved := ⟨x, c, cl.shadow⟩ :: s1.saved } else s1
  else s

/-- The latch entries of a bank on a die whose galley entries still live (R339). -/
def State.liveLatches (s : State) (b : Bank) (die : Nat) : Bank :=
  b.mapCtl fun k => { k with latA := if s.entryStands b die .a then k.latA else []
                             latX := if s.entryStands b die .x then k.latX else [] }

/-- A cell's bank comes back from the shadow bank (R333, R339, R343). -/
def State.swapIn (s : State) (x c : Nat) : State :=
  let cl := s.cellAt c
  if cl.shadow.ctl.owner = some x then
    let b := (s.liveLatches cl.shadow (dieOf c)).deliverPend
    let (y, s1) := match if b.ctl.yielding then s.popSaved x c else none with
      | some (y, t) => (y, t)
      | none => (Bank.reset, s)
    s1.setCell c ({ cl with active := b, shadow := y }.claimLines x)
  else if cl.active.ctl.owner = some x then s
  else s.seatBank x c

/-- SHADOW_SWAP_COMPLETE (R332, R333): a swap out waits for the shadow banks and a swap in for the active ones.  DESIGN CHOICE
(log 159): a swap out waits for the end of a handler, which holds the shadow bank for the trapped one. -/
def execShadowSwapComplete (ctx : Nat) (s : State) : Result :=
  if ctx < 64 then
    let c := s.ctxAt ctx
    let cells := partCells c.part
    if c.swapping = false then .next s
    else if c.state = .active then
      if s.handled ctx = false ∧ cells.all (s.shadowFree ctx) = true then
        let s1 := cells.foldl (fun t i => t.swapOut ctx i) s
        .next (s1.setCtx ctx { s1.ctxAt ctx with state := .shadow, swapping := false })
      else .next s
    else if cells.all fun i => (s.cellAt i).free then
      let s1 := cells.foldl (fun t i => t.swapIn ctx i) s
      let c1 := s1.ctxAt ctx
      .next (s1.setCtx ctx { c1 with state := if c1.state = .shadow then .active else c1.state, swapping := false })
    else .next s
  else .fault .noSuchObject

/-- Some bank of a context stands in a shadow bank. -/
def State.inShadow (s : State) (x : Nat) : Bool := (partCells (s.ctxAt x).part).any fun c => s.bankPlace x c == .shadow

/-- RESUME_REQUEST (R332): a FROZEN context that does not hold its cells is brought back for its handler. -/
def execResumeRequest (ctx : Nat) (s : State) : Result :=
  if ctx < 64 then
    let c := s.ctxAt ctx
    if c.swapping then .next s
    else if c.state = .shadow ∨ (c.state = .frozen ∧ s.handled ctx = false ∧ s.inShadow ctx = true) then
      .next (s.setCtx ctx { c with swapping := true })
    else if c.state = .spilled then .next (s.setCtx ctx { c with state := .restoring })
    else .next s
  else .fault .noSuchObject

/-! ## Spill and restore -/

/-- SPILL_START (R332, R336). -/
def execSpillStart (ctx : Nat) (s : State) : Result :=
  if ctx < 64 then
    let c := s.ctxAt ctx
    if c.state = .shadow ∧ c.swapping = false then .next (s.setCtx ctx { c with state := .spilling }) else .next s
  else .fault .noSuchObject

/-- The accumulator array's bytes (R335). -/
def accBytes (b : Bank) : List Byte := (List.range 4096).flatMap fun r => bytesOfRow (b.readRow r)

/-- The accumulator array from its bytes. -/
def accOf (bs : List Byte) : List (Nat × Row) :=
  (List.range 4096).filterMap fun r =>
    let v := rowOfBytes (bs.drop (512 * r))
    if v = 0 then none else some (r, v)

/-- A bank is written to its slot (R335 to R337), or the first address that cannot be written: a poisoned word of the
accumulator array is an uncorrectable error of its store (R25, R336). -/
def State.spillBank (s : State) (x c : Nat) (b : Bank) : Except Nat State :=
  let s := s.passTime c
  let slot := slotAddr (s.ctxAt x) c
  let b1 := b.mapCtl fun k => { k with lkeep := true }
  let dev := (List.range 0x18000).map (Config.deviceFormat s.freeCtr)
  match s.saveWrite x slot (frameBytes b1 (s.cellAt c) c 5 0 0 0) with
  | .error g => .error g
  | .ok s1 =>
    match s1.saveWrite x (slot + 0x8000) dev with
    | .error g => .error g
    | .ok s2 =>
      match b.xf.bad.head?, s2.saveWrite x (slot + 0x20000) (accBytes b) with
      | some w, _ => .error (slot + 0x20000 + 8 * w)
      | none, .error g => .error g
      | none, .ok s3 =>
        let k := s3.ctxAt x
        .ok (s3.setCtx x { k with saveDigests := (c, sha3 dev) :: k.saveDigests.filter (·.1 != c) })

/-- A bank that has left the cell stands in the save slots. -/
def State.parkBank (s : State) (x c : Nat) : State :=
  let cl := s.cellAt c
  if cl.shadow.ctl.owner = some x then
    let s1 := s.setCell c { cl with shadow := .reset }
    { s1 with saved := ⟨x, c, cl.shadow⟩ :: s1.saved }
  else s

/-- The banks of a context that wait to be spilled hold no reserved queue entry (R334). -/
def State.spillReady (s : State) (x : Nat) : Bool :=
  (partCells (s.ctxAt x).part).all fun c =>
    (s.places c).all fun q => q.2 != x || !((s.bankIn q.1 x c).any fun b => b.q.qx.any (·.any QEntry.waits))

/-- The banks of a context on a cell in the order of their spill: those set aside for a shard that yielded first, so that the
slot keeps the image of the shard that runs (R293, R336). -/
def State.spillBanks (s : State) (x c : Nat) : List Bank :=
  let aside := (s.saved.filter fun e => e.ctx == x && e.cell == c).map (·.bank)
  if (s.cellAt c).shadow.ctl.owner = some x then aside ++ [(s.cellAt c).shadow] else aside.drop 1 ++ aside.take 1

/-- A spill or restore access fails: the context is LOST with SAVE_AREA (R336, R398). -/
def State.loseSave (s : State) (x g : Nat) : State := s.loseCtx x 1 (wordOfNat 0x271) (wordOfNat g) noCell 0 0 0 0

/-- The banks of a context on one cell are written and leave the cell (R336), or the first address that fails. -/
def State.spillCell (s : State) (x c : Nat) : Except Nat State :=
  match (s.spillBanks x c).foldlM (fun t b => t.spillBank x c b) s with
  | .ok t => .ok (t.parkBank x c)
  | .error g => .error g

/-- SPILL_COMPLETE (R332, R336). -/
def execSpillComplete (ctx : Nat) (s : State) : Result :=
  if ctx < 64 then
    let c := s.ctxAt ctx
    if c.state = .spilling ∧ s.spillReady ctx = true then
      match (partCells c.part).foldlM (fun t i => t.spillCell ctx i) s with
      | .ok t => .next (t.setCtx ctx { t.ctxAt ctx with state := .spilled })
      | .error g => .next (s.loseSave ctx g)
    else .next s
  else .fault .noSuchObject

/-- The bank of a context comes back to a cell from its save slot (R335, R337, R339, R343), or the address that ends the
restore: 0 for a device-format region that has changed (R398). -/
def State.restoreSlot (s : State) (x c : Nat) : Except Nat State :=
  let k := s.ctxAt x
  let slot := slotAddr k c
  match k.saveDigests.find? (·.1 == c), s.popSaved x c with
  | some d, some (b, s1) =>
    match s.saveRead x slot 0x220000 with
    | .error g => .error g
    | .ok bs =>
      if sha3 ((bs.drop 0x8000).take 0x18000) ≠ d.2 then .error 0
      else
        let fr := bs.take 0x8000
        let r := restoreRegs b fr (dieOf c) (s.frameEntryLive (dieOf c) fr)
        let r1 := { r with xf := { r.xf with acc := accOf (bs.drop 0x20000), bad := [] } }.deliverPend
        let (y, s2) := match if r1.ctl.yielding then s1.popSaved x c else none with
          | some (y, t) => (y, t)
          | none => (Bank.reset, s1)
        let s3 := s2.setCtx x { k with saveDigests := k.saveDigests.filter (·.1 != c) }
        .ok (s3.setCell c ({ s3.cellAt c with active := r1, shadow := if r1.ctl.yielding then y else (s3.cellAt c).shadow }.claimLines x))
  | _, _ => if (s.cellAt c).active.ctl.owner = some x then .ok s else .ok (s.seatBank x c)

/-- RESTORE_COMPLETE (R332): each stream continues from its own point; a FROZEN context whose banks stand in their slots is
restored for its handler. -/
def execRestoreComplete (ctx : Nat) (s : State) : Result :=
  if ctx < 64 then
    let c := s.ctxAt ctx
    let cells := partCells c.part
    let due := c.state = .restoring ∨
      (c.state = .frozen ∧ s.handled ctx = false ∧ cells.any (fun i => s.bankPlace ctx i == .saved) = true)
    if due ∧ c.swapping = false ∧ cells.all (fun i => (s.cellAt i).free || (s.cellAt i).active.ctl.owner == some ctx) = true then
      let one := fun (r : Except Nat State) (i : Nat) =>
        match r with
        | .ok t => t.restoreSlot ctx i
        | .error g => .error g
      match cells.foldl one (.ok s) with
      | .ok t =>
        let c1 := t.ctxAt ctx
        .next (t.setCtx ctx { c1 with state := if c1.state = .restoring then .active else c1.state })
      | .error g => .next (s.loseSave ctx g)
    else .next s
  else .fault .noSuchObject

/-- Bytes of a scratchpad line (R334). -/
def lineBytes : Nat := 65536

/-- The place of a line's image in a context's slot (R335). -/
def lineSlot (c : Ctx) (cell line : Nat) : Nat := slotAddr c cell + 0x220000 + line * lineBytes

/-- SCRATCHPAD_LINE_EXCHANGE (R334): the line goes to its owner's slot and the accessing context's comes from its own.  A
poisoned word of the line is an uncorrectable error of the store (R25, R336). -/
def execScratchpadLineExchange (cell line ctx : Nat) (s : State) : Result :=
  if cell < 256 ∧ line < 96 ∧ ctx < 64 then
    let cl := s.cellAt cell
    match vget cl.lineTags line none with
    | none => .next s
    | some y =>
      if y = ctx ∨ cl.active.ctl.owner ≠ some ctx then .next s
      else
        let g0 := lineSlot (s.ctxAt y) cell line
        let key := spadKey y cell (line * lineBytes)
        match firstPoison s.dev.poisoned key lineBytes, s.saveWrite y g0 (memRead s.mem key lineBytes) with
        | some w, _ => .next (s.loseSave y (g0 + (w - key)))
        | none, .error g => .next (s.loseSave y g)
        | none, .ok s1 =>
          match s1.saveRead ctx (lineSlot (s1.ctxAt ctx) cell line) lineBytes with
          | .error g => .next (s1.loseSave ctx g)
          | .ok bs =>
            let s2 := s1.setCell cell { cl with lineTags := vset cl.lineTags line (some ctx) }
            let dest := spadKey ctx cell (line * lineBytes)
            .next { s2 with mem := memWrite s2.mem dest bs
                            dev := { s2.dev with poisoned := clearPoison s2.dev.poisoned dest lineBytes } }
  else .fault .noSuchObject

/-! ## The end of a context -/

/-- A bank whose streams have stopped for good: the engine entries that have begun finish, and no other begins (R332,
R342).  A nest that a swap has stopped stays stopped (R333). -/
def Bank.ended (b : Bank) (x : Nat) (active : Bool) : Bank :=
  { b.mapCtl fun _ => { Control.reset with owner := some x } with
    eng := { b.eng with tileQ := b.eng.tileQ.filter fun o => o.started && active
                        channels := b.eng.channels.map fun l => (l.take 1).filter fun o => o.phase == .running
                        collQ := [] } }

/-- STATE of the descriptors in the tensor table: LIVE becomes RETIRED (R137, R332). -/
def State.retireTable (s : State) (x : Nat) : State :=
  let ps := (partsOf (s.ctxAt x).ttable 0x400000).map fun p => (keyIn p.1 (s.walk x p.1), p.2)
  let hits := fun (k : Nat) => ps.any fun p => decide (0 < p.1) && decide (p.1 ≤ k) && decide (k < p.1 + p.2) && k % 64 == 0x3A
  let retire := fun (v : Byte) => if field v 5 2 = 1 then BitVec.ofNat 8 (v.toNat + 32) else v
  { s with mem := s.mem.map fun e => if hits e.1 then (e.1, retire e.2) else e }

/-- Disable a context's queues, as far as their descriptors can be written (R272). -/
def State.disableQueues (s : State) (x : Nat) : State :=
  (List.range (s.ctxAt x).nqueue).foldl (fun t q =>
    match t.setQueueState x q 0 0 with
    | .ok t1 => t1
    | .error _ => t) s

/-- A context becomes RETIRED (R332, R350): engines stop at entry boundaries, queues are disabled, kernels are unloaded and
descriptors are retired.  The frames mapped now are those that the way to FREE zeroes. -/
def State.endCtx (s : State) (x : Nat) : State :=
  let frames := if (s.ctxAt x).conf then s.mappedFrames x else []
  let s1 := s.leavePlates x true
  let bank := fun (active : Bool) (b : Bank) => if b.ctl.owner = some x then b.ended x active else b
  let ids := (s1.sched.groups.filter (·.ctx == x)).map (·.id)
  let s2 : State := { s1 with
    cells := s1.cells.map fun c =>
      { c with active := bank true c.active, shadow := bank false c.shadow,
               ready := c.ready.map fun l => l.filter fun t => t.ctx != x,
               held := if c.held.any ids.contains then none else c.held }
    saved := s1.saved.map fun e => { e with bank := bank false e.bank }
    sched := { s1.sched with groups := s1.sched.groups.filter (·.ctx != x), graphs := s1.sched.graphs.filter (·.ctx != x)} }
  let s3 := (s2.disableQueues x).retireTable x
  let s4 := (s3.ctxAt x).kernels.foldl (fun t k => t.dropKernel x k) s3
  s4.setCtx x { s4.ctxAt x with state := .retired, swapping := false, tailOrder := [], svTask := false, replays := [],
                                retirePending := [], ending := frames }

/-- CONTEXT_END_REQUEST (R332). -/
def execContextEndRequest (ctx : Nat) (s : State) : Result :=
  if ctx < 64 then
    match (s.ctxAt ctx).state with
    | .free | .retired => .next s
    | _ => .next (s.endCtx ctx)
  else .fault .noSuchObject

/-- Every engine of a context has stopped (R332). -/
def State.enginesStopped (s : State) (x : Nat) : Bool :=
  (List.range 256).all fun c => (s.places c).all fun q => q.2 != x || !((s.bankIn q.1 x c).any Bank.engineBusy)

/-- A confidential context uses the LOCKED links until it is FREE (R359). -/
def State.lockedInUse (s : State) (but : Nat) : Bool :=
  (List.range 64).any fun y => y != but && (s.ctxAt y).conf && (s.ctxAt y).state != .free

/-- A LOCKED port whose key is destroyed while the link stays in service (R359). -/
def Port.unlock (p : Port) : Port :=
  if p.state = .locked then { p with state := if p.lanes < 8 then .degraded else .up } else p

/-- The network when a context becomes FREE: its queue pairs go, and the links that the last confidential context used are
unlocked (R354, R359). -/
def State.freeNet (s : State) (x : Nat) : Net :=
  { s.net with
    qps := s.net.qps.filter fun q => q.ctx != x
    ports := if (s.ctxAt x).conf && !(s.lockedInUse x) then s.net.ports.map Port.unlock else s.net.ports }

/-- What belonged to a context leaves the device: its cells, translations, line tags and images, and a confidential context's galley entries, plates and memory (R332). -/
def State.freeCtx (s : State) (x : Nat) : State :=
  let k := s.ctxAt x
  let s1 := if k.conf then s.zeroFrames k.ending else s
  let s2 := s1.releaseCells x
  let img := memClear s2.mem (spadKey x 0 0) (256 * 2 ^ 23)
  let s3 : State := { s2 with
    mem := img
    net := s2.freeNet x
    cells := s2.cells.map fun c =>
      { c with tlb := c.tlb.filter fun e => e.asid != k.asid
               lineTags := c.lineTags.map fun t => if t = some x then none else t }
    sched := { s2.sched with
      galleys := s2.sched.galleys.map fun g => { g with entries := g.entries.filter fun e => e.key.ctx != some x }
      plates := s2.sched.plates.filter fun p => !(p.conf && p.ctx == x) } }
  s3.setCtx x .reset

/-- CONTEXT_RETIRE_COMPLETE (R332). -/
def execContextRetireComplete (ctx : Nat) (s : State) : Result :=
  if ctx < 64 then
    if (s.ctxAt ctx).state = .retired ∧ s.enginesStopped ctx = true then .next (s.freeCtx ctx) else .next s
  else .fault .noSuchObject

/-! ## The supervisor task and the watchdog -/

/-- SUPERVISOR_TASK_START (R340, R346). -/
def execSupervisorTaskStart (ctx : Nat) (s : State) : Result :=
  if ctx < 64 then
    let c := s.ctxAt ctx
    match (partCells c.part).head?, c.runnable c.svslot with
    | some i, some k =>
      let cl := s.cellAt i
      if c.state = .active ∧ c.swapping = false ∧ c.evtTaken < c.evtPosted ∧ c.svTask = false ∧ cl.free = true ∧ cl.held = none then
        let b := launchBank ctx c k .supervisor 0 0 (Vector.replicate 6 0x100000000#64)
        .next ((s.setCell i ({ cl with active := b }.claimLines ctx)).setCtx ctx { c with svTask := true, evtTaken := c.evtPosted })
      else .next s
    | _, _ => .next s
  else .fault .noSuchObject

/-- Both streams of a bank wait (R341): the stopped stream of a cut counts as waiting. -/
def Bank.watched (b : Bank) : Bool :=
  (b.ctl.status == .running || b.ctl.status == .handler) &&
    match b.ctl.fault with
    | none => b.ctl.waitA && b.ctl.waitX
    | some f => f.stream == 0 && b.ctl.waitX && !b.ctl.atCut || f.stream == 1 && b.ctl.waitA && !b.ctl.atCut

/-- The bank's watchdog expires (R341): a cut ends, or WATCHDOG is raised in the stream that waits. -/
def Bank.expire (b : Bank) (spilling : Bool) : Bank :=
  b.mapCtl fun k =>
    match k.fault with
    | some _ => { k with atCut := true, wdogCut := true, wdog := 0 }
    | none => { k with fault := some ⟨0, .watchdog, 0, 1, 0, none⟩, atCut := true, wdogCut := k.wdogCut || spilling, wdog := 0 }

/-- Where a bank's hang watchdog counts (R341): where its context runs, in the shadow bank, and set aside until it is SPILLED. -/
def State.watchCounts (s : State) (p : BankPlace) (x : Nat) : Bool :=
  match p with
  | .active | .shadow => (s.ctxAt x).state != .lost
  | .saved => (s.ctxAt x).state == .spilling
  | .none => false

/-- A bank of a cell whose hang watchdog has reached 2^WDSHIFT (R341): its place and context. -/
def State.watchDue (s : State) (cell : Nat) : Option (BankPlace × Nat) :=
  (s.places cell).find? fun q =>
    s.watchCounts q.1 q.2 && (s.bankIn q.1 q.2 cell).any fun b => b.watched && decide (2 ^ (s.ctxAt q.2).wdshift ≤ b.ctl.wdog)

/-- WATCHDOG_EXPIRY (R341, R346): the count of a bank of the cell has reached its limit; an expiry in a handler loses the
context. -/
def execWatchdogExpiry (cell : Nat) (s : State) : Result :=
  s.onCell cell fun t =>
    match t.watchDue cell with
    | none => t
    | some (p, x) =>
      match t.bankIn p x cell with
      | none => t
      | some b =>
        if b.ctl.status = .handler then t.handlerFault (b.ctl.fault.getD ⟨0, .watchdog, 0, 1, 0, none⟩)
        else t.setBankIn p x cell (b.expire ((t.ctxAt x).state == .spilling))

/-- The hang watchdogs of a cell's banks that no stream of their own moves, those in the shadow bank and those that a spill
writes, count a turn (R341). -/
def State.tickAside (s : State) (cell : Nat) : State :=
  (s.places cell).foldl (fun t q =>
    match t.bankIn q.1 q.2 cell with
    | some b =>
      if q.1 ≠ .active ∧ t.watchCounts q.1 q.2 = true ∧ b.watched = true then
        t.setBankIn q.1 q.2 cell (b.mapCtl fun k => { k with wdog := k.wdog + 1 })
      else t
    | none => t) s

end Sys2Proof.Machine
end

