-- ==== Sys2Proof/Machine/Records.lean ====
section
/-! DEFINITION. Tensor descriptors, statistics records, snapshots and scales (R133, R135 to R147). -/

namespace Sys2Proof.Machine

open Sys2Proof

/-! ## Descriptors -/

/-- A tensor descriptor (R135). -/
structure Desc where
  base : Nat
  ext : List Nat
  /-- strides, that of dimension 0 first -/
  str : List Nat
  version : Nat
  shifts : Nat
  tcode : Nat
  ndim : Nat
  ieee : Bool
  record : Nat
  qaxis : Nat
  policy : Nat
  state : Nat
  escale : Int
  hbase : Int
  rescth : Nat
  clipth : Nat
  deriving DecidableEq, Repr

/-- The fields of a 64-byte descriptor (R135). -/
def descOf (bs : List Byte) : Desc :=
  { base := leAt bs 0 8
    ext := (List.range 5).map fun j => leAt bs (8 + 4 * j) 4
    str := 1 :: (List.range 4).map fun j => leAt bs (0x1C + 4 * j) 4
    version := leAt bs 0x2C 4
    shifts := leAt bs 0x30 7
    tcode := bitsAt (byteAt bs 0x37) 0 4
    ndim := bitsAt (byteAt bs 0x37) 4 3
    ieee := bitsAt (byteAt bs 0x37) 7 1 == 1
    record := leAt bs 0x38 2
    qaxis := bitsAt (byteAt bs 0x3A) 0 3
    policy := bitsAt (byteAt bs 0x3A) 3 2
    state := bitsAt (byteAt bs 0x3A) 5 2
    escale := sextNat (byteAt bs 0x3B) 8
    hbase := sextNat (byteAt bs 0x3C) 8
    rescth := byteAt bs 0x3D
    clipth := leAt bs 0x3E 2 }

/-- The element type of a descriptor that a bind accepted (R136). -/
def Desc.ty (d : Desc) : ElemTy := (ElemTy.ofCode d.tcode).getD .f32

/-- LIVE (R137). -/
def Desc.live (d : Desc) : Bool := d.state == 1

/-- Extent of dimension `j`. -/
def Desc.extAt (d : Desc) (j : Nat) : Nat := d.ext.getD j 0

/-- Stride of dimension `j`. -/
def Desc.strAt (d : Desc) (j : Nat) : Nat := d.str.getD j 0

/-- Element offset of an index tuple (R135). -/
def Desc.elemOffset (d : Desc) (i : List Nat) : Nat :=
  ((i.zip d.str).map fun p => p.1 * p.2).foldl (· + ·) 0

/-- The byte that holds element `e`. -/
def Desc.byteOf (d : Desc) (e : Nat) : Nat := d.base + e * d.ty.width / 8

/-- The extent of dimension `j` in blocks along the quantisation axis (R133). -/
def Desc.blockExt (d : Desc) (j : Nat) : Nat := if j = d.qaxis then ceilDiv (d.extAt j) 32 else d.extAt j

/-- The block number of an index tuple: row-major, dimension NDIM − 1 outermost (R133). -/
def Desc.blockOf (d : Desc) (i : List Nat) : Nat :=
  (List.range d.ndim).reverse.foldl
    (fun acc j => acc * d.blockExt j + (if j = d.qaxis then i.getD j 0 / 32 else i.getD j 0)) 0

/-- A binding (R274): index, W, S, C, V. -/
structure BindFlags where
  bound : Bool
  w : Bool
  s : Bool
  c : Bool
  v : Bool
  deriving DecidableEq, Repr

/-- The flags with which a binding list names an index (R138). -/
def bindingOf (l : List (BitVec 32)) (idx : Nat) : BindFlags :=
  let m := l.filter fun b => field b 0 16 == idx
  ⟨!m.isEmpty, m.any (·.getLsbD 16), m.any (·.getLsbD 17), m.any (·.getLsbD 18), m.any (·.getLsbD 19)⟩

/-- What a use of a descriptor needs of its binding (R138). -/
inductive BindUse where
  | any | w | s | ws | c | v
  deriving DecidableEq, Repr

/-- The binding carries what the use needs. -/
def BindFlags.allows (b : BindFlags) : BindUse → Bool
  | .any => b.bound
  | .w => b.w
  | .s => b.s
  | .ws => b.w && b.s
  | .c => b.c
  | .v => b.v

/-- G address of a descriptor (R135). -/
def Ctx.descAddr (c : Ctx) (idx : Nat) : Nat := c.ttable + 64 * idx

/-- Read a descriptor through the context's page table (R135, R397). -/
def State.readDesc (s : State) (x idx : Nat) (annotated : Bool) : Except Stop Desc :=
  match s.agentRead x ((s.ctxAt x).descAddr idx) 64 annotated with
  | .ok bs => .ok (descOf bs)
  | .error e => .error e

/-- The bindings of the task that a bank's shard runs. -/
def State.bindingsOf (s : State) (b : Bank) : List (BitVec 32) :=
  match b.ctl.group.bind s.groupAt with
  | some g => g.bindings
  | none => []

/-- The operand check on a tensor index (R137, R138): LIVE, and bound with the flags that the use needs. -/
def State.useDesc (s : State) (idx : Nat) (u : BindUse) (annotated : Bool) : Except Stop Desc :=
  match s.readDesc s.ctxNo idx annotated with
  | .error e => .error e
  | .ok d =>
    if d.live && (bindingOf (s.bindingsOf s.bank) idx).allows u then .ok d
    else .error (.fault .operandFormat 0)

/-- A register that names a tensor index (chapter 6, Instructions). -/
def indexIn (v : Word) : Except Stop Nat :=
  if v.toNat < 65536 then .ok v.toNat else .error (.fault .operandFormat 0)

/-- A register that names a version. -/
def versionIn (v : Word) : Except Stop Nat :=
  if v.toNat < 2 ^ 32 then .ok v.toNat else .error (.fault .operandFormat 0)

/-! ## Statistics records -/

/-- A record of zeros. -/
def StatRecord.blank : StatRecord := ⟨0, false, false, 0, 0, 0, 0, List.replicate 48 0⟩

/-- A cleared record (R139, R143). -/
def StatRecord.cleared (r : StatRecord) : StatRecord := { StatRecord.blank with gen := r.gen + 1 }

/-- The largest count (R140). -/
def countMax : Nat := 2 ^ 32 - 1

/-- Bin of a presented value (R140). -/
def histBin (hbase : Int) (v : Num) : Nat :=
  match v with
  | .fin _ m e _ =>
    let i := magLog2 m e - hbase
    if i < 0 then 0 else if i > 47 then 47 else i.toNat
  | _ => 47

/-- Present one element (R140): `hbase` is the descriptor's, `sat` tells that the element counted as saturated. -/
def StatRecord.present (r : StatRecord) (hbase : Int) (v : Num) (sat : Bool) : StatRecord :=
  let cap := fun (n : Nat) => decide (countMax ≤ n)
  let r1 :=
    if v.isNan then { r with nan := min (r.nan + 1) countMax, capped := r.capped || cap r.nan }
    else
      let r0 := { r with maxmag := max r.maxmag (roundElem .f32 true false .rup v.abs).bits, inf := r.inf || v.isInf }
      if v.isZero then { r0 with zero := min (r0.zero + 1) countMax, capped := r0.capped || cap r0.zero }
      else
        let i := histBin hbase v
        { r0 with hist := modifyAt r0.hist i fun n => min (n + 1) countMax
                  capped := r0.capped || cap (r0.hist.getD i 0) }
  if sat then { r1 with sat := min (r1.sat + 1) countMax, capped := r1.capped || cap r1.sat } else r1

/-- The record of a list of presented elements. -/
def recordOf (hbase : Int) (l : List (Num × Bool)) : StatRecord :=
  l.foldl (fun r p => r.present hbase p.1 p.2) .blank

/-- The fold of a record and a partial (R141). -/
def StatRecord.fold (r p : StatRecord) : StatRecord :=
  let past := fun (a b : Nat) => decide (countMax < a + b)
  { gen := r.gen
    inf := r.inf || p.inf
    capped := r.capped || p.capped || past r.nan p.nan || past r.zero p.zero || past r.sat p.sat ||
      (r.hist.zip p.hist).any fun q => past q.1 q.2
    maxmag := max r.maxmag p.maxmag
    nan := min (r.nan + p.nan) countMax
    zero := min (r.zero + p.zero) countMax
    sat := min (r.sat + p.sat) countMax
    hist := (r.hist.zip p.hist).map fun q => min (q.1 + q.2) countMax }

/-- The 256 bytes of a snapshot copy (R139, R148). -/
def snapshotBytes (r : StatRecord) : List Byte :=
  bytesOfNat 8 r.gen ++
  bytesOfNat 4 (1 + (if r.inf then 2 else 0) + (if r.capped then 4 else 0)) ++
  bytesOfNat 4 r.maxmag ++ bytesOfNat 4 r.nan ++ bytesOfNat 4 r.zero ++ bytesOfNat 4 r.sat ++ bytesOfNat 4 0 ++
  r.hist.flatMap (bytesOfNat 4) ++ List.replicate 32 0#8

/-- The record of an index in a list, zeros when it was never updated. -/
def recordAt (l : List (Nat × StatRecord)) (i : Nat) : StatRecord :=
  match l.find? (·.1 == i) with
  | some p => p.2
  | none => .blank

/-- Replace the record of an index in a list. -/
def recordSet (l : List (Nat × StatRecord)) (i : Nat) (r : StatRecord) : List (Nat × StatRecord) :=
  if l.any (·.1 == i) then l.map fun p => if p.1 == i then (i, r) else p else l ++ [(i, r)]

/-- TCB index of a G address in the TCB area (R274). -/
def Ctx.tcbIndex (c : Ctx) (g : Nat) : Nat := (g - c.tcbBase) / 128

/-- Add an update to the partial of a task on a die (R141). -/
def addPartial (l : List Partial) (graph tcb die idx : Nat) (r : StatRecord) : List Partial :=
  let mine := fun (p : Partial) => p.graph == graph && p.tcb == tcb && p.die == die && p.idx == idx
  if l.any mine then l.map fun p => if mine p then { p with record := p.record.fold r } else p
  else l ++ [⟨graph, tcb, die, idx, StatRecord.blank.fold r⟩]

/-- The update of a shard of group `g` on cell `c` enters its task's partial (R141). -/
def State.presentTo (s : State) (g : Group) (c : Nat) (idx : Nat) (r : StatRecord) : State :=
  match s.graphAt g.graph with
  | none => s
  | some h => s.setGraph { h with partials := addPartial h.partials h.id ((s.ctxAt g.ctx).tcbIndex g.tcb) (dieOf c) idx r }

/-- Present elements to record `idx` in a bank's name (R140, R141): `walk` is the walk count of an X instruction.  The
bank comes back with the update listed for its next TFOLD. -/
def State.present (s : State) (b : Bank) (c : Nat) (walk : Option Int) (idx : Nat) (hbase : Int) (l : List (Num × Bool)) :
    State × Bank :=
  match b.ctl.group.bind s.groupAt with
  | none => (s, b)
  | some g =>
    let r := recordOf hbase l
    (s.presentTo g c idx r, b.mapCtl fun k => { k with presented := k.presented ++ [(walk, idx, r)] })

/-- Present elements in the moving bank's name. -/
def State.presentHere (s : State) (walk : Option Int) (d : Desc) (l : List (Num × Bool)) : State :=
  let p := s.present s.bank s.cellNo walk d.record d.hbase l
  p.1.setBank p.2

/-- The task's snapshot of a record (R142). -/
def State.snapshotOf (s : State) (idx : Nat) : StatRecord :=
  match s.curGroup with
  | some g => recordAt g.snapshot idx
  | none => .blank

/-! ## Snapshots and clears -/

/-- One step of the transitive closure of predecessors. -/
def predStep (edges : List (Nat × Nat)) (l : List Nat) : List Nat :=
  (l ++ (edges.filter fun e => l.contains e.2).map (·.1)).eraseDups

/-- The transitive predecessors of a task, itself among them. -/
def predsOf (edges : List (Nat × Nat)) (t : Nat) : List Nat :=
  edges.foldl (fun l _ => predStep edges l) [t]

/-- The snapshot of every record that a graph has seen, for one of its tasks at dispatch (R142). -/
def Graph.snapshotFor (g : Graph) (t : Nat) : List (Nat × StatRecord) :=
  let done := (predsOf g.edges t).filter fun i => i != t && (g.ended.any (·.1 == i))
  (g.partials.filter fun p => done.contains p.tcb).foldl
    (fun l p => recordSet l p.idx ((recordAt l p.idx).fold p.record)) g.atAdmission

/-- A clear of a record by a task of a graph (R143): the record, the graph's view of it, and the partials of the task
and of its predecessors. -/
def State.clearRecord (s : State) (g : Group) (idx : Nat) : State :=
  let c := s.ctxAt g.ctx
  let r := (recordAt c.records idx).cleared
  let t := c.tcbIndex g.tcb
  let s1 := s.setCtx g.ctx { c with records := recordSet c.records idx r }
  let s2 := match s1.graphAt g.graph with
    | none => s1
    | some h =>
      let ps := predsOf h.edges t
      s1.setGraph { h with atAdmission := recordSet h.atAdmission idx r
                           partials := h.partials.filter fun p => !(p.idx == idx && ps.contains p.tcb) }
  let s3 := s2.setGroup { g with snapshot := recordSet g.snapshot idx r, gone := g.gone.filter fun p => p.2.1 != idx }
  g.cells.foldl (fun t c =>
    match t.bankOf g.ctx c with
    | some b =>
      if b.ctl.group = some g.id then
        t.setBankOf g.ctx c (b.mapCtl fun k => { k with presented := k.presented.filter fun p => p.2.1 != idx })
      else t
    | none => t) s3

/-! ## Scales -/

/-- The block bound B of R144. -/
def blockBound : ElemTy → Nat
  | .e4m3 => 448 | .e5m2 => 57344 | .i8 => 127 | .i4 => 7 | .o4 => 7
  | _ => 1

/-- emax of R144. -/
def blockEmax (t : ElemTy) : Int := Nat.log2 (blockBound t)

/-- ceil(log2 v) of a positive finite number. -/
def ceilLog2 (m : Nat) (e : Int) : Int := magLog2 m e + (if m = 2 ^ Nat.log2 m then 0 else 1)

/-- The smallest bin whose cumulated count reaches `need`. -/
def clipBin (need : Nat) : List Nat → Nat → Nat → Nat
  | [], _, i => i
  | h :: t, sum, i => if need ≤ sum + h then i else clipBin need t (sum + h) (i + 1)

/-- E_t of a quantising instruction (R144). -/
def scaleExp (d : Desc) (r : StatRecord) : Int :=
  let em := blockEmax d.ty
  let e : Int :=
    match d.policy with
    | 0 =>
      match decodeElem .f32 false r.maxmag with
      | .inf _ => 127
      | .fin _ m e _ => if m = 0 then 0 else ceilLog2 m e - em
      | .nan => 0
    | 1 =>
      let n := r.hist.foldl (· + ·) 0
      if n = 0 then 0 else d.hbase + clipBin (ceilDiv (d.clipth * n) 65536) r.hist 0 0 + 1 - em
    | _ => d.escale
  min (max e (-128)) 127

/-- The largest magnitude of a block, NaNs excluded. -/
def blockMax (l : List Num) : Num :=
  l.foldl (fun m v => if v.isNan then m else if Num.cmp v.abs m == .gt then v.abs else m) .zero

/-- The block shift k of R145. -/
def blockShift (t : ElemTy) (et : Int) (l : List Num) : Nat :=
  match blockMax l with
  | .fin _ m e _ =>
    let fits := fun (k : Nat) => cmpFin false m (e + (k : Int) - et) false (blockBound t) 0 != .gt
    (((List.range 16).reverse).find? fits).getD 0
  | _ => 0

/-- A count of saturated elements passes RESCTH (R146). -/
def Desc.rescaleOk (d : Desc) (n : Nat) : Bool := d.rescth == 255 || decide (n ≤ d.rescth)

/-- Byte `blk / 2` of the shift array with the nibble of block `blk` set (R133). -/
def putNibble (old : Nat) (blk k : Nat) : Nat := if blk % 2 = 0 then old / 16 * 16 + k else old % 16 + 16 * k

end Sys2Proof.Machine
end

