-- ==== Sys2Proof/Machine/Tensor.lean ====
section
/-! DEFINITION. TREC, TFOLD, TVER, TVWAIT and LDGV (R109, R148 to R151). -/

namespace Sys2Proof.Machine

open Sys2Proof

/-- Every engine operation that the shard has issued has completed. -/
def Bank.enginesDone (b : Bank) : Bool :=
  b.eng.tileQ.isEmpty && b.eng.channels.all (·.isEmpty) && b.eng.collQ.isEmpty

/-- TREC with a destination (R148): the task's snapshot goes to S space. -/
def execTrec (b im : BitVec 6) (s : State) : Result :=
  finish s .a do
    let idx ← indexIn (s.bank.readA im.toNat)
    let d ← s.useDesc idx .s false
    let ea := s.bank.readA b.toNat
    if aligned ea 64 then
      let s1 ← s.wr .s false ea (snapshotBytes (s.snapshotOf d.record))
      .ok (s1.retire .a 1)
    else .error (.fault .align ea)

/-- TREC CLR (R148): the record is cleared once the shard's engine operations have completed. -/
def execTrecClr (im : BitVec 6) (s : State) : Result :=
  finish s .a do
    let idx ← indexIn (s.bank.readA im.toNat)
    let d ← s.useDesc idx .c false
    if s.bank.enginesDone then
      match s.curGroup with
      | some g => .ok ((s.clearRecord g d.record).retire .a 1)
      | none => .error (.fault .operandFormat 0)
    else .error .wait

/-- A shard stands at its `j`-th TFOLD or has passed it. -/
def Bank.foldReached (b : Bank) (j : Nat) : Bool := decide (j ≤ b.ctl.foldReady)

/-- The X stream and the engines of a shard have reached its pending TFOLD (R149). -/
def Bank.foldDrained (b : Bank) : Bool := decide (b.ctl.foldWalk ≤ b.walk.wx) && b.enginesDone

/-- The banks of a group's shards that have not halted, lowest shard first. -/
def State.foldBanks (s : State) (g : Group) : List (Nat × Option Bank) :=
  (g.cells.zip g.halted).filterMap fun p => if p.2 then none else some (p.1, s.bankOf g.ctx p.1)

/-- Updates that a TFOLD takes from a bank: those on the record, and of X instructions those before it (R149). -/
def foldTakes (walk : Int) (idx : Nat) (p : Option Int × Nat × StatRecord) : Bool :=
  p.2.1 == idx && match p.1 with
    | none => true
    | some w => decide (w < walk)

/-- Fold what a bank of the group presented into the group's snapshot, and take it off the bank's list. -/
def foldBank (idx id : Nat) (acc : State × StatRecord) (x c : Nat) : State × StatRecord :=
  match (acc.1.bankOf x c).filter (·.ctl.group == some id) with
  | none => acc
  | some b =>
    let takes := foldTakes b.ctl.foldWalk idx
    let b1 := b.mapCtl fun k => { k with presented := k.presented.filter fun p => !(takes p) }
    (acc.1.setBankOf x c b1, (b.ctl.presented.filter takes).foldl (fun r p => r.fold p.2.2) acc.2)

/-- The fold of paired TFOLDs (R149): the shards that have halted give what they presented too. -/
def State.foldGroup (s : State) (g : Group) (idx : Nat) : State :=
  let (s1, r) := g.cells.foldl (fun acc c => foldBank idx g.id acc g.ctx c) (s, recordAt g.snapshot idx)
  let r1 := (g.gone.filter fun p => p.2.1 == idx).foldl (fun r p => r.fold p.2.2) r
  s1.setGroup { g with snapshot := recordSet g.snapshot idx r1, folds := g.folds + 1, gone := g.gone.filter fun p => p.2.1 != idx }

/-- TFOLD retires (R85, R149). -/
def State.passFold (s : State) : State :=
  ((s.setBank (s.bank.mapCtl fun k => { k with foldDone := k.foldDone + 1 })).countLoss).retire .a 1

/-- TFOLD (R149): a loss of decoupling. -/
def execTfold (im : BitVec 6) (s : State) : Result :=
  finish s .a do
    let idx ← indexIn (s.bank.readA im.toNat)
    let d ← s.useDesc idx .s false
    match s.curGroup with
    | none => .error (.fault .operandFormat 0)
    | some g =>
      let j := s.bank.ctl.foldDone + 1
      if j ≤ g.folds then .ok s.passFold
      else
        let s1 := s.setBank (s.bank.mapCtl fun k => { k with foldReady := j, foldIdx := idx, foldWalk := s.bank.walk.wa })
        let bs := s1.foldBanks g
        let held := if s.bank.walk.wx < s.bank.walk.wa then s1.countLossWait.stallPeer .a else s1.countLossWait.stall .a
        let first := match bs.head? with
          | some (_, some b) => b.ctl.foldIdx
          | _ => idx
        if bs.all (fun p => p.2.any fun b => b.foldReached j) = false then .ok held
        else if first ≠ idx then .ok (s1.raise .a .operandFormat 0)
        else if bs.all fun p => p.2.any fun b => b.ctl.foldIdx == idx && b.foldDrained then .ok (s1.foldGroup g d.record).passFold
        else .ok held

/-- The scope codes of TVER and TVWAIT (R150). -/
def versionScopeOk (sz : BitVec 3) : Bool := sz == 3#3 || sz == 4#3

/-- TVER (R150): a larger version, once the shard's engine operations have completed. -/
def execTver (im v : BitVec 6) (sz : BitVec 3) (s : State) : Result :=
  if versionScopeOk sz then
    gangAfter (sz == 4#3) s <| finish s .a do
      let idx ← indexIn (s.bank.readA im.toNat)
      let w ← versionIn (s.bank.readA v.toNat)
      let d ← s.useDesc idx .v true
      if w ≤ d.version then .error (.fault .operandFormat 0)
      else if s.bank.enginesDone then
        let s1 ← s.agentWrite s.ctxNo ((s.ctxAt s.ctxNo).descAddr idx + 0x2C) (bytesOfNat 4 w) true
        .ok (s1.retire .a 1)
      else .error .wait
  else s.pcFault .a .operandIllegal

/-- TVWAIT (R151). -/
def execTvwait (im v : BitVec 6) (sz : BitVec 3) (s : State) : Result :=
  if versionScopeOk sz then
    gangAfter (sz == 4#3) s <| finish s .a do
      let idx ← indexIn (s.bank.readA im.toNat)
      let w ← versionIn (s.bank.readA v.toNat)
      let d ← s.useDesc idx .any true
      if w ≤ d.version then .ok (s.retire .a 1) else .error .wait
  else s.pcFault .a .operandIllegal

/-- LDGV (R109): the load of a versioned tensor waits for its version. -/
def ldgvOp (len : Nat) (t : BitVec 6) (ea : Word) (n : Nat) (acq : Bool) (s : State) : Result :=
  finish s .a do
    let v := s.bank.readA t.toNat
    if field v 48 16 ≠ 0 then .error (.fault .operandFormat 0)
    else
      let d ← s.useDesc (field v 32 16) .any true
      if field v 0 32 ≤ d.version then
        let bs ← s.rd .g acq ea n
        .ok (s.setA len t.toNat (wordOfNat (natOfBytes bs)))
      else .error .wait

/-- LDGV (R109). -/
def execLdgv (t b : BitVec 6) (sz : BitVec 2) (o : BitVec 8) (s : State) : Result :=
  ldgvOp 1 t (s.bank.eaShort b o (sizeBytes sz)) (sizeBytes sz) false s
/-- LDGV, long form (R109): it acquires at GANG scope when that is encoded, whatever the order (R360). -/
def execLdgvL (t b : BitVec 6) (sz : BitVec 2) (sc : BitVec 3) (od : BitVec 2) (off : BitVec 25) (s : State) : Result :=
  if orderOk .acquire sc od then
    gangAfter (sc == 4#3) s (ldgvOp 2 t (s.bank.eaLong b off) (sizeBytes sz) (od != 0#2) s)
  else s.pcFault .a .operandIllegal

end Sys2Proof.Machine
end

