-- ==== Sys2Proof/Machine/Barrier.lean ====
section
/-! DEFINITION. Hardware barriers, ring regions, FENCE and PROMOTE (R236 to R249).

Every access of this model is performed when its instruction retires, so that a fence orders what is ordered already; its
ENG form waits (R237). -/

namespace Sys2Proof.Machine

open Sys2Proof

/-! ## Barriers -/

/-- The largest count of held items (R240). -/
def heldMax : Nat := 15

/-- Arrivals and bytes of the items held. -/
def heldSum (l : List HeldItem) : Nat × Int := l.foldl (fun a h => (a.1 + h.cnt, a.2 + h.bytes)) (0, 0)

/-- A pending byte count in its range (R238). -/
def pendingOk (v : Int) : Bool := decide (-(2 ^ 36 : Int) ≤ v) && decide (v ≤ 2 ^ 36 - 1)

/-- The open phase's counts are met (R240). -/
def Barrier.met (b : Barrier) : Bool := b.arrived == b.expect && b.pending == 0

/-- The phase flips and the held items join the new one (R240, R249). -/
def Barrier.flip (b : Barrier) : Barrier :=
  let h := heldSum b.held
  { b with phase := !b.phase, arrived := h.1, pending := h.2, held := [], phases := b.phases + 1 }

/-- Complete the phases that are met: the held items can complete the new phase at once, and nothing is held then. -/
def Barrier.settle (b : Barrier) : Barrier :=
  if b.met then (if b.flip.met then b.flip.flip else b.flip) else b

/-- What an arrival or byte adjustment meets (R240). -/
inductive ItemEnd where
  | applied (b : Barrier)
  /-- BARRIER_OVER: nothing applied and nothing held -/
  | beyond
  /-- HELD would rise above 15 -/
  | full
  deriving DecidableEq, Repr

/-- Apply or hold one item at a LIVE barrier (R240). -/
def Barrier.item (b : Barrier) (cnt : Nat) (bytes : Int) (par : Bool) : ItemEnd :=
  if par = b.phase then
    if b.arrived + cnt ≤ b.expect ∧ pendingOk (b.pending + bytes) = true then
      .applied ({ b with arrived := b.arrived + cnt, pending := b.pending + bytes } : Barrier).settle
    else .beyond
  else if heldMax ≤ b.held.length then .full
  else
    let h := heldSum b.held
    if h.1 + cnt ≤ b.expect ∧ pendingOk (h.2 + bytes) = true then .applied { b with held := b.held ++ [⟨cnt, bytes⟩] }
    else .beyond

/-- A barrier that BXINIT or RINGSET has set up (R240, R245). -/
def barrierSet (ring : Bool) (scope expect : Nat) : Barrier := ⟨true, ring, false, scope, 0, expect, 0, [], 0⟩

/-- Nothing has arrived, is pending or is held. -/
def Barrier.quiet (b : Barrier) : Bool := b.arrived == 0 && b.pending == 0 && b.held.isEmpty

/-- The word of BXTEST (R238). -/
def Barrier.word (b : Barrier) : Word :=
  let bit := fun (v : Bool) (k : Nat) => if v then 2 ^ k else 0
  wordOfNat (bit b.phase 63 + b.scope * 2 ^ 60 + bit b.live 59 + bit b.ring 58 + b.arrived * 2 ^ 47 + b.expect * 2 ^ 36 +
    b.held.length * 2 ^ 32 + (BitVec.ofInt 32 b.pending).toNat)

/-! ## Rings -/

/-- The full barrier of stage `j` mod n has completed lap j / n (R246). -/
def Bank.fullDone (b : Bank) (r : Ring) (j : Nat) : Bool := decide (j / r.n < (b.barrier (r.fb + j % r.n)).phases)

/-- The empty barrier of stage `j` mod n has completed `laps` laps. -/
def Bank.emptyDone (b : Bank) (r : Ring) (j laps : Nat) : Bool := decide (laps ≤ (b.barrier (r.eb + j % r.n)).phases)

/-- RC rotates (R246). -/
def Bank.rcMoves (b : Bank) (r : Ring) : Bool :=
  b.fullDone r r.rc && (r.rc == 0 || b.emptyDone r (r.rc - 1) ((r.rc - 1) / r.n + 1))

/-- RP rotates (R246). -/
def Bank.rpMoves (b : Bank) (r : Ring) : Bool :=
  b.fullDone r r.rp && (decide (r.rp + 1 < r.n) || b.emptyDone r (r.rp + 1) ((r.rp + 1) / r.n)) && decide (r.rp + 3 ≤ r.rc + r.n)

/-- Rotate a ring's counts while their conditions hold (R246). -/
def Bank.rotate (b : Bank) (r : Ring) : Nat → Ring
  | 0 => r
  | fuel + 1 =>
    if b.rcMoves r then b.rotate { r with rc := r.rc + 1 } fuel
    else if b.rpMoves r then b.rotate { r with rp := r.rp + 1 } fuel
    else r

/-- Rotate every ring that is set up. -/
def Bank.rotateRings (b : Bank) : Bank :=
  { b with sync := { b.sync with rings := b.sync.rings.map fun r => if r.isSet then b.rotate r 64 else r } }

/-- Store a barrier that an item has changed; the rings follow (R246, R249). -/
def Bank.putBarrier (b : Bank) (n : Nat) (v : Barrier) : Bank := (b.setBarrier n v).rotateRings

/-- SPACE and DRING of a copy's destination (R252, R253). -/
def CopyOp.destRing (o : CopyOp) : Option Nat :=
  if bitsAt (leAt o.desc 0x78 2) 2 2 = 2 then some (byteAt o.desc 0x7A % 8) else none

/-- A copy in flight of the bank names barrier `n` of cell `c`. -/
def Bank.copyNames (b : Bank) (c n : Nat) : Bool :=
  b.eng.channels.any fun l => l.any fun o => o.bar.any fun r => r.cell == c && r.bx == n

/-- A copy in flight names barrier `n` of the moving bank (R240): one of its own, or one of a bank of the context on another
cell of the cluster, which names a shard's barrier and no handler's. -/
def State.copyNames (s : State) (n : Nat) : Bool :=
  s.bank.copyNames s.cellNo n ||
    (s.bank.ctl.status != .handler && ((List.range 8).map (peerCell s.cellNo)).any fun c =>
      c != s.cellNo && (s.places c).any fun q => q.2 == s.ctxNo && (s.bankIn q.1 q.2 c).any (·.copyNames s.cellNo n))

/-- A copy in flight of the bank names ring `k`. -/
def Bank.copyNamesRing (b : Bank) (k : Nat) : Bool := b.eng.channels.any fun l => l.any fun o => o.destRing == some k

/-! ## Instructions -/

/-- A scope of 5 to 7 is OPERAND_ILLEGAL (R228). -/
def scopeOk (c : BitVec 3) : Bool := decide (c.toNat < 5)

/-- BXINIT (R240, R241). -/
def execBxinit (x : BitVec 5) (sz : BitVec 3) (e : BitVec 6) (s : State) : Result :=
  if scopeOk sz then
    let v := (s.bank.readA e.toNat).toNat
    let b := s.bank.barrier x.toNat
    if v = 0 ∨ 2047 < v then .next (s.raise .a .operandFormat 0)
    else if b.live && (b.ring || !b.quiet || s.copyNames x.toNat) then .next (s.raise .a .operandFormat 0)
    else .next ((s.setBank (s.bank.setBarrier x.toNat (barrierSet false sz.toNat v))).retire .a 1)
  else s.pcFault .a .operandIllegal

/-- The barrier that an arrival reaches: its cell, its number and the parity of the phase. -/
structure ArriveAt where
  cell : Nat
  bx : Nat
  par : Bool
  deriving DecidableEq, Repr

/-- The stage barrier that SEL names, with the parity of the stage's lap (R242, R246). -/
def stageBarrier (r : Ring) (empty : Bool) : Nat × Bool :=
  let q := if empty then r.rc - 1 else r.rp
  ((if empty then r.eb else r.fb) + q % r.n, q / r.n % 2 == 1)

/-- A barrier of a cell of the cluster (R242): in the partition, of a bank that stands, not CELL, no stage barrier and LIVE.  A
form that names its own cell means the moving bank's. -/
def State.peerBarrier (s : State) (x cell n : Nat) : Except Stop Barrier :=
  if (s.ctxAt x).part.getLsbD cell = false then .error (.fault .accessRange 0)
  else if cell ≠ s.cellNo ∧ s.bankPlace x cell = .saved then .error .wait
  else
    match if cell = s.cellNo then some s.bank else s.bankOf x cell with
    | none => .error (.fault .operandFormat 0)
    | some b =>
      let v := b.barrier n
      if v.scope = 0 ∨ v.ring = true ∨ v.live = false then .error (.fault .operandFormat 0) else .ok v

/-- The barrier of BXEXP and BXARR (R242). -/
def State.arriveTarget (s : State) (x : BitVec 5) (g sz p : BitVec 1) (c : BitVec 3) (par : Bool) : Except Stop ArriveAt :=
  if g = 1#1 then
    let r := s.bank.ring x.toNat
    if r.isSet = false ∨ (sz = 1#1 ∧ r.rc = 0) then .error (.fault .operandFormat 0)
    else
      let t := stageBarrier r (sz == 1#1)
      .ok ⟨s.cellNo, t.1, t.2⟩
  else if p = 1#1 then
    let t := peerCell s.cellNo c.toNat
    match s.peerBarrier s.ctxNo t x.toNat with
    | .ok _ => .ok ⟨t, x.toNat, par⟩
    | .error e => .error e
  else .ok ⟨s.cellNo, x.toNat, par⟩

/-- The item of an arrival word reaches its barrier (R240, R242). -/
def State.arrive (s : State) (x : Nat) (t : ArriveAt) (cnt : Nat) (bytes : Int) : Except Stop State :=
  match s.bankOf x t.cell with
  | none => .error (.fault .operandFormat 0)
  | some b =>
    if (b.barrier t.bx).live = false then .error (.fault .operandFormat 0)
    else
      match (b.barrier t.bx).item cnt bytes t.par with
      | .applied v => .ok (s.setBankOf x t.cell (b.putBarrier t.bx v))
      | .beyond => .error (.fault .barrierOver 0)
      | .full => .error .wait

/-- The item of an arrival word reaches a barrier of the moving cell's own bank, or of a peer. -/
def State.arriveHere (s : State) (t : ArriveAt) (cnt : Nat) (bytes : Int) : Except Stop State :=
  if t.cell = s.cellNo then
    if (s.bank.barrier t.bx).live = false then .error (.fault .operandFormat 0)
    else
      match (s.bank.barrier t.bx).item cnt bytes t.par with
      | .applied v => .ok (s.setBank (s.bank.putBarrier t.bx v))
      | .beyond => .error (.fault .barrierOver 0)
      | .full => .error .wait
  else s.arrive s.ctxNo t cnt bytes

/-- SCOPE of the barrier that an arrival reaches. -/
def State.scopeAt (s : State) (t : ArriveAt) : Nat :=
  ((if t.cell = s.cellNo then some s.bank else s.bankOf s.ctxNo t.cell).map fun b => (b.barrier t.bx).scope).getD 0

/-- BXEXP and BXARR (R239, R242): an arrival at a barrier of GANG scope is a release there (R234, R360). -/
def arriveOp (arr : Bool) (x : BitVec 5) (g sz p : BitVec 1) (c : BitVec 3) (a : BitVec 6) (s : State) : Result :=
  if p = 1#1 ∧ g = 1#1 then s.pcFault .a .operandIllegal
  else
    let w := s.bank.readA a.toNat
    let cnt := field w 1 11
    if field w 49 15 ≠ 0 ∨ (cnt != 0) ≠ arr then .next (s.raise .a .operandFormat 0)
    else
      finish s .a do
        let t ← s.arriveTarget x g sz p c (w.getLsbD 0)
        let s1 ← s.arriveHere t cnt (sextNat (field w 12 37) 37)
        let s2 := s1.retire .a 1
        .ok (if arr && s.scopeAt t == 4 then s2.gangTransfer s.bank.sr.seqa else s2)

/-- BXEXP (R242). -/
def execBxexp (x : BitVec 5) (g sz p : BitVec 1) (c : BitVec 3) (a : BitVec 6) (s : State) : Result := arriveOp false x g sz p c a s
/-- BXARR (R242). -/
def execBxarr (x : BitVec 5) (g sz p : BitVec 1) (c : BitVec 3) (a : BitVec 6) (s : State) : Result := arriveOp true x g sz p c a s

/-- The ring forms of BXWAIT (R243): the count of retired waits moves with the retirement. -/
def ringWait (k : Nat) (cons : Bool) (s : State) : Result :=
  let r := s.bank.ring k
  if r.isSet = false then .next (s.raise .a .operandFormat 0)
  else if cons then
    if r.waitCons + 1 ≤ r.rc then
      .next ((s.setBank (s.bank.setRing k { r with waitCons := r.waitCons + 1 })).retire .a 1)
    else .next (s.stall .a)
  else if r.waitProd + 1 ≤ r.rp then
    .next ((s.setBank (s.bank.setRing k { r with waitProd := r.waitProd + 1 })).retire .a 1)
  else .next (s.stall .a)

/-- BXWAIT (R243): an acquire at the SCOPE of the barrier or ring (R234, R360). -/
def execBxwait (x : BitVec 5) (g sz : BitVec 1) (p : BitVec 6) (s : State) : Result :=
  if g = 1#1 then gangAfter ((s.bank.ring x.toNat).scope == 4) s (ringWait x.toNat (sz == 1#1) s)
  else gangAfter ((s.bank.barrier x.toNat).scope == 4) s <|
    let v := s.bank.readA p.toNat
    let b := s.bank.barrier x.toNat
    if field v 1 63 ≠ 0 ∨ b.live = false then .next (s.raise .a .operandFormat 0)
    else if b.phase = v.getLsbD 0 then .next (s.stall .a)
    else .next (s.retire .a 1)

/-- The ring word of BXTEST (R244). -/
def Ring.word (r : Ring) : Word :=
  if r.isSet then wordOfNat (2 ^ 63 + (r.n - 1) * 2 ^ 32 + r.rp % 65536 * 65536 + r.rc % 65536) else 0

/-- BXTEST (R244). -/
def execBxtest (x : BitVec 5) (g : BitVec 1) (d : BitVec 6) (s : State) : Result :=
  answerA s 1 d (if g = 1#1 then (s.bank.ring x.toNat).word else (s.bank.barrier x.toNat).word)

/-- The stage barriers of a ring. -/
def Ring.stages (r : Ring) : List Nat :=
  if r.isSet then (List.range r.n).map (r.fb + ·) ++ (List.range r.n).map (r.eb + ·) else []

/-- Tear a ring down: its stage barriers become not LIVE (R245). -/
def Bank.dropRing (b : Bank) (k : Nat) : Bank :=
  ((b.ring k).stages.foldl (fun t n => t.setBarrier n .reset) b).setRing k .reset

/-- A barrier may be a stage barrier of ring `k` (R245): no other ring's, quiet, and no copy in flight names it. -/
def State.stageFree (s : State) (k n : Nat) : Bool :=
  let v := s.bank.barrier n
  (!v.ring || (s.bank.ring k).stages.contains n) && v.quiet && !(s.copyNames n)

/-- The ring that RINGSET's registers describe (R245), with EXPECT of its full and empty barriers. -/
def ringOf (w : Word) : Ring :=
  { isSet := true, scope := field w 48 3, base := 64 * field w 0 17, slot := 64 * field w 17 17, n := field w 34 4 + 1,
    fb := field w 38 5, eb := field w 43 5, rp := 0, rc := 0, waitProd := 0, waitCons := 0 }

/-- Set a ring up (R245). -/
def Bank.setUpRing (b : Bank) (k : Nat) (r : Ring) (fexp eexp : Nat) : Bank :=
  (List.range r.n).foldl
    (fun t i => (t.setBarrier (r.fb + i) (barrierSet true r.scope fexp)).setBarrier (r.eb + i) (barrierSet true r.scope eexp))
    ((b.dropRing k).setRing k r)

/-- RINGSET (R245). -/
def execRingset (k : BitVec 3) (c : BitVec 6) (s : State) : Result :=
  if c.toNat % 2 = 1 then s.pcFault .a .operandIllegal
  else
    let w := s.bank.readA c.toNat
    let v := s.bank.readA (c.toNat + 1)
    let r := ringOf w
    if w = 0 ∧ v = 0 then .next ((s.setBank (s.bank.dropRing k.toNat)).retire .a 1)
    else if field w 51 13 ≠ 0 ∨ field v 22 42 ≠ 0 ∨ field w 34 4 = 0 ∨ r.slot = 0 ∨ r.scope > 4 ∨ field v 0 11 = 0 ∨
        field v 11 11 = 0 then .next (s.raise .a .operandFormat 0)
    else if r.base + r.n * r.slot > spadBytes then .next (s.raise .a .accessRange (wordOfNat spadBytes))
    else if r.fb + r.n > 32 ∨ r.eb + r.n > 32 ∨ (r.fb < r.eb + r.n ∧ r.eb < r.fb + r.n) ∨
        r.stages.all (s.stageFree k.toNat) = false ∨
        (s.bank.ring k.toNat).stages.all (fun n => (s.bank.barrier n).quiet) = false ∨ s.bank.copyNamesRing k.toNat = true then
      .next (s.raise .a .operandFormat 0)
    else .next ((s.setBank (s.bank.setUpRing k.toNat r (field v 0 11) (field v 11 11))).retire .a 1)

/-- FENCE (R237). -/
def execFence (sz : BitVec 3) (_k : BitVec 2) (e : BitVec 1) (s : State) : Result :=
  if scopeOk sz then
    gangAfter (sz == 4#3) s (if e = 1#1 ∧ s.bank.enginesDone = false then .next (s.stall .a) else .next (s.retire .a 1))
  else s.pcFault .a .operandIllegal

/-- The moving task runs on its home cell, which HOME of its TCB names (R236, R274). -/
def State.atHome (s : State) : Bool :=
  s.curGroup.any fun g =>
    match s.agentRead g.ctx (g.tcb + 2) 1 true with
    | .ok b => byteAt b 0 == s.cellNo
    | .error _ => false

/-- PROMOTE (R236): a CELL acquire in a task that runs on its home cell. -/
def execPromote (sz : BitVec 3) (s : State) : Result :=
  if scopeOk sz && sz != 0#3 then gangAfter (sz == 4#3 && !s.atHome) s (.next (s.retire .a 1)) else s.pcFault .a .operandIllegal

end Sys2Proof.Machine
end

