-- ==== Sys2Proof/Machine/Copy.lean ====
section
/-! DEFINITION. The copy descriptor, its box and its checks, and CPY, CPYF, GATH, SCAT, HWAIT, HWAITP, HREL and HSTAT
(R251 to R266). -/

namespace Sys2Proof.Machine

open Sys2Proof

/-! ## Descriptors and boxes -/

/-- A copy descriptor (R252, R253). `sstr` and `dstr` begin with the stride 1 of dimension 0. -/
structure CopyDesc where
  src : Nat
  dst : Nat
  ext : List Nat
  sstr : List Int
  dstr : List Int
  idx : Nat
  expver : Nat
  tidx : Nat
  didx : Nat
  dring : Nat
  bcell : Nat
  bpeer : Bool
  pres : Bool
  ver : Bool
  dswz : Bool
  sswz : Bool
  ndim : Nat
  dspace : Nat
  sspace : Nat
  /-- every reserved byte and bit is zero -/
  clean : Bool
  deriving DecidableEq, Repr

/-- The fields of a 128-byte descriptor (R252, R253). -/
def copyDescOf (bs : List Byte) : CopyDesc :=
  let ctl := leAt bs 0x78 2
  let bit := fun (k : Nat) => bitsAt ctl k 1 == 1
  { src := leAt bs 0 8, dst := leAt bs 8 8
    ext := (List.range 5).map fun j => leAt bs (0x10 + 4 * j) 4
    sstr := 1 :: (List.range 4).map fun j => sextNat (leAt bs (0x28 + 8 * j) 8) 64
    dstr := 1 :: (List.range 4).map fun j => sextNat (leAt bs (0x48 + 8 * j) 8) 64
    idx := leAt bs 0x68 8, expver := leAt bs 0x70 4, tidx := leAt bs 0x74 2, didx := leAt bs 0x76 2
    dring := byteAt bs 0x7A
    bcell := bitsAt ctl 13 3, bpeer := bit 12, pres := bit 11, ver := bit 10, dswz := bit 9, sswz := bit 8
    ndim := bitsAt ctl 4 3, dspace := bitsAt ctl 2 2, sspace := bitsAt ctl 0 2
    clean := leAt bs 0x24 4 == 0 && leAt bs 0x7B 5 == 0 && !(bit 7) }

/-- Extents of the box's dimensions. -/
def CopyDesc.dims (d : CopyDesc) : List Nat := d.ext.take d.ndim

/-- T (R256). -/
def CopyDesc.total (d : CopyDesc) : Nat := d.dims.foldl (· * ·) 1

/-- The digits of a position in box order, i0 fastest (R254). -/
def boxDigits : List Nat → Nat → List Nat
  | [], _ => []
  | e :: es, i => (i % e) :: boxDigits es (i / e)

/-- The digits with i1 replaced by its index (R254). -/
def indexed (idx : List Nat) : List Nat → List Nat
  | i0 :: i1 :: rest => i0 :: idx.getD i1 0 :: rest
  | l => l

/-- The sum of digits times strides. -/
def strideSum (l : List Nat) (str : List Int) : Int := ((l.zip str).map fun p => (p.1 : Int) * p.2).foldl (· + ·) 0

/-- The swizzled offset of a logical offset, an address less SRC or DST (R190, R254). -/
def boxSwizzle (str1 o : Int) : Int :=
  let r := (Int.fmod o 512).toNat
  let row := if str1 = 0 then 0 else (Int.fmod (Int.fdiv o str1) 8).toNat
  o - r + (natXor (r / 64) row * 64 + r % 64 : Nat)

/-- An address modulo 2^64. -/
def wrap64 (v : Int) : Nat := (BitVec.ofInt 64 v).toNat

/-- The source address of box byte `i` (R254). -/
def CopyDesc.srcAddr (d : CopyDesc) (k : CopyKind) (idx : List Nat) (i : Nat) : Nat :=
  let l := boxDigits d.dims i
  let l := if k = .gath then indexed idx l else l
  let a := wrap64 (d.src + strideSum l d.sstr)
  if d.sswz then wrap64 (d.src + boxSwizzle (d.sstr.getD 1 0) ((a : Int) - d.src)) else a

/-- The destination address of box byte `i`; `base` is the slot's S address for R space (R254, R256). -/
def CopyDesc.dstAddr (d : CopyDesc) (k : CopyKind) (idx : List Nat) (base i : Nat) : Nat :=
  let l := boxDigits d.dims i
  let l := if k = .scat then indexed idx l else l
  let a := wrap64 (base + d.dst + strideSum l d.dstr)
  if d.dswz then wrap64 (base + d.dst + boxSwizzle (d.dstr.getD 1 0) ((a : Int) - (base + d.dst))) else a

/-! ## The checks of R256 -/

/-- A copy that gathers or scatters. -/
def CopyKind.isIndexed : CopyKind → Bool
  | .gath | .scat => true
  | _ => false

/-- Check 2 of R256. -/
def CopyDesc.formOk (d : CopyDesc) (k : CopyKind) (ch : Nat) (bar rf : Bool) : Bool :=
  let hasG := d.sspace == 3 || d.dspace == 3
  let swzOk := fun (on : Bool) (sp base : Nat) (str1 : Int) =>
    !on || (decide (sp < 2) && base % 512 == 0 && str1 % 512 == 0 && decide (2 ≤ d.ndim))
  d.clean && decide ((if k.isIndexed then 2 else 1) ≤ d.ndim) && decide (d.ndim ≤ 5) &&
    d.sspace != 2 && (k != .cpyf || d.sspace == 3) && (k != .scat || d.dspace != 2) &&
    (if k = .cpyf then true else if ch < 2 then hasG else !hasG) &&
    (d.ext.drop d.ndim).all (· == 0) &&
    decide (d.total ≤ (if bar || rf then 2 ^ 36 - 1 else 2 ^ 40 - 1)) &&
    swzOk d.sswz d.sspace d.src (d.sstr.getD 1 0) && swzOk d.dswz d.dspace d.dst (d.dstr.getD 1 0) &&
    (!rf || d.dspace == 2) && (if d.dspace = 2 then decide (d.dring < 8) else d.dring == 0) && (d.bpeer || d.bcell == 0) &&
    (if k.isIndexed then d.idx % 4 == 0 && decide (d.ext.getD 1 0 ≤ 4096) else d.idx == 0)

/-- PRES of check 3 (R256): EXT0, every DSTRj and the destination's offset are whole elements of a type that is not
block-scaled. -/
def CopyDesc.presOk (d : CopyDesc) (t : Desc) : Bool :=
  let w := t.ty.width / 8
  !t.ty.blockScaled && d.ext.getD 0 0 % w == 0 && (d.dstr.drop 1).all (· % (w : Int) == 0) &&
    Int.fmod ((d.dst : Int) - t.base) w == 0

/-- A window of addresses, from `lo` to below `hi`. -/
structure Window where
  lo : Nat
  hi : Nat
  deriving DecidableEq, Repr

/-- An address lies in a window. -/
def Window.has (w : Window) (a : Nat) : Bool := decide (w.lo ≤ a) && decide (a < w.hi)

/-- The ends of a box from `base` lie in the window (R256: every address is affine in the position). -/
def spanIn (w : Window) (base : Nat) (dims : List Nat) (str : List Int) : Bool :=
  let ends := (dims.zip str).map fun p => ((p.1 : Int) - 1) * p.2
  let lo := ends.foldl (fun a e => a + min e 0) (base : Int)
  let hi := ends.foldl (fun a e => a + max e 0) (base : Int)
  decide ((w.lo : Int) ≤ lo) && decide (hi < w.hi)

/-- Where the boxes of the unindexed dimensions begin, with those dimensions. -/
def CopyDesc.spans (d : CopyDesc) (ind : Bool) (idx : List Nat) (base : Nat) (str : List Int) : List Nat × List Nat × List Int :=
  if ind then
    (idx.map fun (v : Nat) => wrap64 ((base : Int) + str.getD 1 0 * (v : Int)), d.dims.take 1 ++ d.dims.drop 2, str.take 1 ++ str.drop 2)
  else ([base], d.dims, str)

/-- The lowest of the `n` addresses outside the window, when the box does not lie in it (R256). -/
def boxFault (w : Window) (sp : List Nat × List Nat × List Int) (n : Nat) (addr : Nat → Nat) : Option Nat :=
  if sp.1.all fun b => spanIn w b sp.2.1 sp.2.2 then none
  else
    match ((List.range n).map addr).filter fun a => !(w.has a) with
    | [] => none
    | l => some (leastOf 0 l)

/-- The window of the space that a box lies in (R208): for C that of the first byte's target cell, and none outside the
partition. -/
def State.boxWindow (s : State) (x cell sp first : Nat) : Window :=
  match sp with
  | 0 => ⟨0, spadBytes⟩
  | 1 =>
    if first < 2 ^ 26 ∧ (s.ctxAt x).part.getLsbD (peerCell cell (first / 2 ^ 23)) = true then
      ⟨first / 2 ^ 23 * 2 ^ 23, first / 2 ^ 23 * 2 ^ 23 + spadBytes⟩
    else ⟨0, 0⟩
  | _ => ⟨0x10000, 0xFFFF0000000000⟩

/-- The index array that is outside S: its lowest failing address (R256). -/
def CopyDesc.idxFault (d : CopyDesc) : Option Nat :=
  let n := 4 * d.ext.getD 1 0
  boxFault ⟨0, spadBytes⟩ ([d.idx], [n], [1]) n fun i => wrap64 ((d.idx + i : Nat) : Int)

/-- The window of a copy's destination: the slot of a ring, or its space's (R256). -/
def State.dstWindow (s : State) (x cell : Nat) (d : CopyDesc) (slot : Option (Nat × Nat)) (first : Nat) : Window :=
  match slot with
  | some (b, size) => ⟨b, b + size⟩
  | none => s.boxWindow x cell d.dspace first

/-- Source bytes outside their window (R256, check 5). -/
def State.srcFault (s : State) (x cell : Nat) (d : CopyDesc) (k : CopyKind) (idx : List Nat) : Option Nat :=
  boxFault (s.boxWindow x cell d.sspace (d.srcAddr k idx 0)) (d.spans (k == .gath) idx d.src d.sstr) d.total (d.srcAddr k idx)

/-- Destination bytes outside their window (R256, check 5). -/
def State.dstFault (s : State) (x cell : Nat) (d : CopyDesc) (k : CopyKind) (idx : List Nat) (slot : Option (Nat × Nat)) : Option Nat :=
  let base := (slot.map (·.1)).getD 0
  boxFault (s.dstWindow x cell d slot (d.dstAddr k idx base 0))
    (d.spans (k == .scat) idx (wrap64 ((base + d.dst : Nat) : Int)) d.dstr) d.total (d.dstAddr k idx base)

/-- An ACCESS_RANGE fault at an address, when there is one. -/
def rangeFault : Option Nat → Except Stop Unit
  | some a => .error (.fault .accessRange (wordOfNat a))
  | none => .ok ()

/-- The barrier that a copy reports to (R256, check 4; R259). -/
def State.copyBarrier (s : State) (d : CopyDesc) (b rf : Bool) (bx : Nat) (par : Bool) : Except Stop (Option BarRef) :=
  if b then
    if d.bpeer then
      let t := peerCell s.cellNo d.bcell
      match s.peerBarrier s.ctxNo t bx with
      | .ok _ => .ok (some ⟨t, bx, par⟩)
      | .error e => .error e
    else if (s.bank.barrier bx).live then .ok (some ⟨s.cellNo, bx, par⟩)
    else .error (.fault .operandFormat 0)
  else if rf then
    let r := s.bank.ring d.dring
    if r.isSet then
      let t := stageBarrier r false
      .ok (some ⟨s.cellNo, t.1, t.2⟩)
    else .error (.fault .operandFormat 0)
  else .ok none

/-- Check 5 of R256, with the captured indices and the slot's S address. -/
def State.copyPlace (s : State) (d : CopyDesc) (k : CopyKind) : Except Stop (List Nat × Nat) := do
  if d.total = 0 then .ok ([], 0)
  else
    let idx ←
      if k.isIndexed then
        match d.idxFault with
        | some a => .error (.fault .accessRange (wordOfNat a))
        | none =>
          match s.rd .s false (wordOfNat d.idx) (4 * d.ext.getD 1 0) with
          | .ok bs => .ok ((List.range (d.ext.getD 1 0)).map fun q => leAt bs (4 * q) 4)
          | .error e => .error e
      else .ok []
    rangeFault (s.srcFault s.ctxNo s.cellNo d k idx)
    let r := s.bank.ring d.dring
    if d.dspace = 2 ∧ r.isSet = false then .error (.fault .accessRange 0)
    else
      let slot := if d.dspace = 2 then some (r.base + r.prodStage * r.slot, r.slot) else none
      rangeFault (s.dstFault s.ctxNo s.cellNo d k idx slot)
      .ok (idx, (slot.map (·.1)).getD 0)

/-- A channel holds at most 16 copies (R251). -/
def channelSize : Nat := 16

/-- A copy instruction (R255 to R257). -/
def copyOp (k : CopyKind) (h a : BitVec 6) (x : BitVec 5) (e : BitVec 1) (ch : Nat) (p f : BitVec 1) (s : State) : Result :=
  if (e = 1#1 ∧ f = 1#1) ∨ (k ≠ .cpyf ∧ ch = 2) then s.pcFault .a .operandIllegal
  else
    let at_ := s.bank.readA a.toNat
    if aligned at_ 128 = false then .next (s.raise .a .align at_)
    else
      finish s .a do
        let bs ← s.rd .s false at_ 128
        let d := copyDescOf bs
        if d.formOk k ch (e == 1#1) (f == 1#1) = false then .error (.fault .operandFormat 0)
        else
          let _ ← if d.ver then (s.useDesc d.tidx .any false).map some else .ok none
          let shown ← if d.pres then
              match s.useDesc d.didx .w false with
              | .ok t => if d.presOk t then .ok (some (t.record, t.hbase, t.ty)) else .error (.fault .operandFormat 0)
              | .error er => .error er
            else .ok none
          let bar ← s.copyBarrier d (e == 1#1) (f == 1#1) x.toNat (p == 1#1)
          let (idx, base) ← s.copyPlace d k
          let v := s.bank.handle h.toNat
          if v.state = .filling ∨ v.state = .full then .error (.fault .handleState 0)
          else if v.state = .draining ∨ channelSize ≤ (s.bank.channel ch).length then .error .wait
          else
            let o : CopyOp :=
              { kind := k, handle := h.toNat, ch := ch, desc := bs, idx := idx, bar := bar, slotBase := base,
                total := d.total, wp := 0, phase := .queued, srcHeld := [], dstHeld := [], shown := shown, written := [],
                seqa := s.bank.sr.seqa }
            let b := (s.bank.setHandle h.toNat ⟨.filling, ch, 0, d.total⟩).setChannel ch (s.bank.channel ch ++ [o])
            .ok ((s.setBank b).retire .a 1)

/-- CPY (R255). -/
def execCpy (h a : BitVec 6) (x : BitVec 5) (e : BitVec 1) (c : BitVec 2) (p f : BitVec 1) (s : State) : Result :=
  copyOp .cpy h a x e c.toNat p f s
/-- CPYF (R255, R261). -/
def execCpyf (h a : BitVec 6) (x : BitVec 5) (e p f : BitVec 1) (s : State) : Result := copyOp .cpyf h a x e 2 p f s
/-- GATH (R255). -/
def execGath (h a : BitVec 6) (x : BitVec 5) (e : BitVec 1) (c : BitVec 2) (p f : BitVec 1) (s : State) : Result :=
  copyOp .gath h a x e c.toNat p f s
/-- SCAT (R255). -/
def execScat (h a : BitVec 6) (x : BitVec 5) (e : BitVec 1) (c : BitVec 2) (p f : BitVec 1) (s : State) : Result :=
  copyOp .scat h a x e c.toNat p f s

/-! ## Handles -/

/-- A handle that is FREE or DRAINING is HANDLE_STATE at HWAIT, HWAITP and HREL (R263). -/
def Handle.idle (v : Handle) : Bool := v.state == .free || v.state == .draining

/-- HWAIT (R264). -/
def execHwait (h : BitVec 6) (s : State) : Result :=
  let v := s.bank.handle h.toNat
  if v.idle then .next (s.raise .a .handleState 0)
  else if v.state = .full then .next (s.retire .a 1)
  else .next (s.stall .a)

/-- HWAITP (R264). -/
def execHwaitp (h b : BitVec 6) (s : State) : Result :=
  let v := s.bank.handle h.toNat
  let n := (s.bank.readA b.toNat).toNat
  if v.idle then .next (s.raise .a .handleState 0)
  else if v.total < n then .next (s.raise .a .operandFormat 0)
  else if n ≤ v.wp then .next (s.retire .a 1)
  else .next (s.stall .a)

/-- HREL (R263, R265). -/
def execHrel (h : BitVec 6) (s : State) : Result :=
  let v := s.bank.handle h.toNat
  if v.idle then .next (s.raise .a .handleState 0)
  else
    let n : HState := if v.state = .full then .free else .draining
    .next ((s.setBank (s.bank.setHandle h.toNat { v with state := n })).retire .a 1)

/-- The code of a handle state (R266). -/
def HState.code : HState → Nat
  | .free => 0 | .filling => 1 | .full => 2 | .draining => 3

/-- HSTAT (R266): d is even. -/
def execHstat (h d : BitVec 6) (s : State) : Result :=
  if d.toNat % 2 = 1 then s.pcFault .a .operandIllegal
  else
    let v := s.bank.handle h.toNat
    let w := wordOfNat (v.state.code * 2 ^ 62 + v.ch * 2 ^ 60 + v.wp)
    .next ((s.setBank ((s.bank.writeA d.toNat w).writeA (d.toNat + 1) (wordOfNat v.total))).retire .a 1)

end Sys2Proof.Machine
end

