-- ==== Sys2Proof/Machine/CopyRun.lean ====
section
/-! DEFINITION. The copy channels at work: start, delivery and completion, far replay and the event ring (R220, R257 to
R261, R267, R340, R387). -/

namespace Sys2Proof.Machine

open Sys2Proof

/-! ## Where banks are held -/

/-- The first bank of a cell that meets a test. -/
def State.placeWhere (s : State) (c : Nat) (f : BankPlace × Nat → Bank → Bool) : Option (BankPlace × Nat) :=
  (s.places c).find? fun q => (s.bankIn q.1 q.2 c).any (f q)

/-- An engine entry of a bank may begin: its context is not frozen, or it is the handler's (R267, R342). -/
def State.mayBegin (s : State) (q : BankPlace × Nat) (b : Bank) : Bool :=
  b.ctl.froze ||
    match (s.ctxAt q.2).state with
    | .frozen | .lost | .retired | .free => false
    | _ => true

/-! ## Bytes -/

/-- The agent that moves the bytes of a copy: its context, the cell whose channel or front end it is, the cells whose
scratchpads an S destination means, and its level. -/
structure Mover where
  ctx : Nat
  cell : Nat
  onCell : Bool
  dstCells : List Nat
  level : Level
  deriving DecidableEq, Repr

/-- Why a run of bytes ends early. -/
inductive ByteEnd where
  | ran
  | fault (c : Cause) (fva : Nat)
  /-- a far source part that can be replayed (R220) -/
  | replay (c : Cause) (fva : Nat)
  | lost (key : Nat)
  | wait
  deriving DecidableEq, Repr

/-- The page that a leaf maps, as a copy holds it (R387). -/
def heldOf (g : Nat) (x : Xlat) : HeldPage :=
  let len := match x.size with
    | 0 => 65536
    | 1 => 0x200000
    | _ => 0x40000000
  ⟨g / len * len, len, x.key - (g / 65536 * 65536 - g / len * len)⟩

/-- The held page that covers `g`. -/
def heldAt (l : List HeldPage) (g : Nat) : Option HeldPage := l.find? fun h => decide (h.base ≤ g) && decide (g < h.base + h.len)

/-- A page that is held already is used again (R387); else the part is translated and held. -/
def State.copyG (s : State) (m : Mover) (a : Access) (held : List HeldPage) (g : Nat) : Except (Cause × Nat) (Nat × List HeldPage) :=
  match heldAt held g with
  | some h => .ok (h.key + (g - h.base), held)
  | none =>
    let w := s.lookup (if m.onCell then some m.cell else none) m.ctx g
    match check3 a w with
    | some c => .error (c, g)
    | none =>
      match check4 a w with
      | some c => .error (c, g)
      | none =>
        match w with
        | .leaf x => .ok (x.key + g % 65536, held ++ [heldOf g x])
        | _ => .error (.pageNotPresent, g)

/-- The keys of an S or C address: an image in its save slot waits (R209, R267). -/
def State.copyS (s : State) (m : Mover) (sp : Nat) (cells : List Nat) (a : Nat) : Option (List Nat) :=
  if sp = 1 then
    let t := peerCell m.cell (a / 2 ^ 23)
    if s.imageHeld m.ctx t (a % 2 ^ 23) then some [spadKey m.ctx t (a % 2 ^ 23)] else none
  else if cells.all fun c => s.imageHeld m.ctx c a then some (cells.map fun c => spadKey m.ctx c a)
  else none

/-- One byte of a copy: its destination keys and value. -/
structure MovedByte where
  keys : List Nat
  val : Byte
  deriving DecidableEq, Repr

/-- What a run of bytes gathers. -/
structure Gathered where
  bytes : List MovedByte
  srcHeld : List HeldPage
  dstHeld : List HeldPage
  stop : ByteEnd
  deriving DecidableEq, Repr

/-- The walk of a far source page ends at an entry that is not present (R213, R220): a malformed one is no such end. -/
def State.farAbsent (s : State) (m : Mover) (g : Nat) : Bool :=
  match s.lookup (if m.onCell then some m.cell else none) m.ctx g with
  | .notPresent => true
  | _ => false

/-- The source key of an address. -/
def State.copySrc (s : State) (m : Mover) (d : CopyDesc) (far : Bool) (held : List HeldPage) (a : Nat) :
    Except ByteEnd (Nat × List HeldPage) :=
  if d.sspace = 3 then
    match s.copyG m { Access.load m.level with farSrc := far } held a with
    | .ok r => .ok r
    | .error (c, g) => .error (if far ∧ s.farAbsent m g = true then .replay c g else .fault c g)
  else
    match s.copyS m d.sspace [m.cell] a with
    | some (k :: _) => .ok (k, held)
    | _ => .error .wait

/-- The destination keys of an address. -/
def State.copyDst (s : State) (m : Mover) (d : CopyDesc) (held : List HeldPage) (a : Nat) : Except ByteEnd (List Nat × List HeldPage) :=
  if d.dspace = 3 then
    match s.copyG m (Access.store m.level) held a with
    | .ok (k, h) => .ok ([k], h)
    | .error (c, g) => .error (.fault c g)
  else
    match s.copyS m d.dspace m.dstCells a with
    | some ks => .ok (ks, held)
    | none => .error .wait

/-- Gather up to `n` bytes from position `i` (R257, R260): the source part of a byte is reached before its destination part. -/
def State.gather (s : State) (m : Mover) (d : CopyDesc) (k : CopyKind) (idx : List Nat) (base : Nat) :
    Nat → Nat → Gathered → Gathered
  | 0, _, g => g
  | n + 1, i, g =>
    match s.copySrc m d (k == .cpyf) g.srcHeld (d.srcAddr k idx i) with
    | .error e => { g with stop := e }
    | .ok (sk, sh) =>
      match s.copyDst m d g.dstHeld (d.dstAddr k idx base i) with
      | .error e => { g with srcHeld := sh, stop := e }
      | .ok (dk, dh) =>
        match firstPoison s.dev.poisoned sk 1 with
        | some w => { g with srcHeld := sh, dstHeld := dh, stop := .lost w }
        | none =>
          s.gather m d k idx base n (i + 1)
            { g with bytes := g.bytes ++ [⟨dk, memGet s.mem sk⟩], srcHeld := sh, dstHeld := dh }

/-- How many of `n` delivered bytes a barrier takes (R240, R259), one decrement after another within a phase; bytes that
arrive together for the other phase are one held item. -/
def takeBytes (par : Bool) : Nat → Barrier → Nat → Barrier × Nat × Option ItemEnd
  | 0, b, _ => (b, 0, none)
  | _ + 1, b, 0 => (b, 0, none)
  | fuel + 1, b, n + 1 =>
    let room := if par = b.phase then b.pending + 2 ^ 36 else (heldSum b.held).2 + 2 ^ 36
    let k0 := min (n + 1) room.toNat
    let k := if par = b.phase ∧ b.arrived = b.expect ∧ 0 < b.pending ∧ b.pending.toNat < k0 then b.pending.toNat else k0
    if k = 0 then (b, 0, some .beyond)
    else
      match b.item 0 (-(k : Int)) par with
      | .applied v =>
        let r := takeBytes par fuel v (n + 1 - k)
        (r.1, k + r.2.1, r.2.2)
      | e => (b, 0, some e)

/-- The bank that holds a copy's barrier; none while it stands in a save slot (R209, R242, R259).  A barrier that is no longer
LIVE takes nothing (R240). -/
def State.copyBar (s : State) (p : BankPlace) (x c : Nat) (r : BarRef) : Option (BankPlace × Bank) :=
  let q := if r.cell = c then p else s.bankPlace x r.cell
  if q = .saved then none
  else
    match s.bankIn q x r.cell with
    | some b => some (q, b)
    | none => none

/-- Replace a copy of a channel. -/
def Bank.setCopy (b : Bank) (ch i : Nat) (o : CopyOp) : Bank := b.setChannel ch (setAt (b.channel ch) i o)

/-- The write pointer of a copy's handle follows its bytes (R263). -/
def Bank.moveWp (b : Bank) (h n : Nat) : Bank := b.setHandle h { b.handle h with wp := n }

/-- Change the bank at a place. -/
def State.mapBankIn (s : State) (p : BankPlace) (x c : Nat) (f : Bank → Bank) : State :=
  match s.bankIn p x c with
  | some b => s.setBankIn p x c (f b)
  | none => s

/-- The mover of a copy of a bank. -/
def moverOf (b : Bank) (x c : Nat) : Mover := ⟨x, c, true, [c], b.ctl.level⟩

/-! ## The event ring and the replay queue -/

/-- Post an event entry (R340): the cause in byte 0, a queue or replay slot in byte 1. -/
def State.postEvent (s : State) (x : Nat) (c : Cause) (slot : Nat) : State :=
  let k := s.ctxAt x
  let bs := bytesOfNat 1 c.code ++ bytesOfNat 1 slot ++ List.replicate 62 0#8
  match s.saveWrite x (k.evtBase + 64 * (k.evtPosted % 64)) bs with
  | .ok t => t.setCtx x { t.ctxAt x with evtPosted := k.evtPosted + 1 }
  | .error g => s.loseCtx x 1 (wordOfNat 0x271) (wordOfNat g) noCell 0 0 0 0

/-- The first replay slot that is not outstanding (R220). -/
def Ctx.freeReplay (c : Ctx) : Option Nat := (List.range 64).find? fun i => !(c.replays.any fun e => e.token % 64 == i)

/-- The bytes of a replay entry (R220). -/
def replayBytes (fva chSeq token : Nat) (c : Cause) (handle cell : Nat) : List Byte :=
  bytesOfNat 8 fva ++ bytesOfNat 8 chSeq ++ bytesOfNat 4 token ++ bytesOfNat 1 c.code ++ bytesOfNat 1 handle ++
    bytesOfNat 1 cell ++ List.replicate 9 0#8

/-- The sequence number of copy `i` of a channel: each that completes before it counts (R251). -/
def Bank.copySeq (b : Bank) (ch i : Nat) : Nat := vget b.eng.chSeq ch 0 + i

/-- A copy stops for replay (R220, R225, R261): an entry is written and posted, and the failing part is no longer held; or the
copy waits for a slot. -/
def State.stopReplay (s : State) (p : BankPlace) (x c ch i : Nat) (o : CopyOp) (cause : Cause) (fva : Nat) : State :=
  let k := s.ctxAt x
  match k.freeReplay with
  | none => s
  | some slot =>
    let count := k.replayCount.getD slot 0 + 1
    let token := (count * 64 + slot) % 2 ^ 32
    let chSeq := match s.bankIn p x c with
      | some b => b.copySeq ch i
      | none => 0
    let held := o.srcHeld.filter fun h => (heldAt [h] fva).isNone
    match s.agentWrite x (k.replayBase + 32 * slot) (replayBytes fva chSeq token cause o.handle c) false with
    | .error (.lost w) => s.loseCtx x 2 0 (wordOfNat w) noCell 0 0 0 0
    | .error (.fault e f) => s.raiseDevice x e f 0
    | .error _ => s
    | .ok s1 =>
      let k1 := s1.ctxAt x
      let s2 := s1.setCtx x { k1 with replays := k1.replays ++ [⟨token, c, cause, wordOfNat fva⟩]
                                      replayCount := setAt k1.replayCount slot count }
      (s2.mapBankIn p x c fun b => b.setCopy ch i { o with phase := .replay token, srcHeld := held }).postEvent x cause slot

/-! ## Start, delivery, completion -/

/-- The first copy of a channel that has not begun, when every earlier one has (R251, R257). -/
def nextStart (l : List CopyOp) : Option Nat := l.findIdx? (·.phase == .queued)

/-- The copy that moves: the first with bytes to deliver or an arrival to make, when it runs or waits. -/
def movingCopy (l : List CopyOp) : Option (Nat × CopyOp) :=
  match l.findIdx? fun o => decide (o.wp < o.total) || o.phase != .running with
  | some i =>
    match l[i]? with
    | some o => if o.phase = .running ∨ o.phase = .waiting then some (i, o) else none
    | none => none
  | none => none

/-- A copy stops with a fault of its context (R260). -/
def State.copyFault (s : State) (p : BankPlace) (x c ch i : Nat) (o : CopyOp) (cause : Cause) (fva : Nat) : State :=
  (s.mapBankIn p x c fun b => b.setCopy ch i { o with phase := .faulted }).raiseEngineIn p x c
    ⟨2, cause, wordOfNat fva, 2, o.seqa, none⟩

/-- A copy begins once its version is reached (R257, R258); a VERSION that cannot be read is a fault that no stream issued, and
it is read again (R397). -/
def State.startCopy (s : State) (p : BankPlace) (x c ch : Nat) : State :=
  match s.bankIn p x c with
  | none => s
  | some b =>
    match nextStart (b.channel ch) with
    | none => s
    | some i =>
      match (b.channel ch)[i]? with
      | none => s
      | some o =>
        let d := copyDescOf o.desc
        let go := s.setBankIn p x c (b.setCopy ch i { o with phase := .running })
        if d.ver ∧ o.total ≠ 0 then
          match s.readDesc x d.tidx true with
          | .ok t => if d.expver ≤ t.version then go else s
          | .error (.fault e f) => s.raiseDevice x e f b.sr.task
          | .error (.lost w) => s.loseCtx x 2 0 (wordOfNat w) c 0 0 b.sr.task 0
          | .error _ => s
        else go

/-- Up to `n` bytes of the moving copy are delivered (R257, R259, R260); `pool` tells that the far pool reports an error
for the next source byte. -/
def State.deliver (s : State) (p : BankPlace) (x c ch n : Nat) (pool : Bool) : State :=
  match s.bankIn p x c with
  | none => s
  | some b =>
    match movingCopy (b.channel ch) with
    | none => s
    | some (i, o) =>
      let d := copyDescOf o.desc
      if pool = true ∧ o.kind = .cpyf ∧ o.wp < o.total then
        s.stopReplay p x c ch i o .farFault (d.srcAddr o.kind o.idx o.wp)
      else
        let g := s.gather (moverOf b x c) d o.kind o.idx o.slotBase (min n (o.total - o.wp)) o.wp ⟨[], o.srcHeld, o.dstHeld, .ran⟩
        let bar : Option (Option (BarRef × BankPlace × Bank)) := match o.bar with
          | none => some none
          | some r => (s.copyBar p x c r).map fun q => if (q.2.barrier r.bx).live then some (r, q) else none
        match bar with
        | none => s
        | some bar =>
          let (s1, k, stop) : State × Nat × Option ItemEnd := match bar with
            | none => (s, g.bytes.length, none)
            | some (r, q, rb) =>
              let t := takeBytes r.par 64 (rb.barrier r.bx) g.bytes.length
              (s.setBankIn q x r.cell (rb.putBarrier r.bx t.1), t.2.1, t.2.2)
          let moved := g.bytes.take k
          match s1.putBytes (moved.flatMap fun m => m.keys.map fun a => (a, m.val)) with
          | .error w => s1.loseCtx x 2 0 (wordOfNat w) c 0 0 b.sr.task 0
          | .ok s2 =>
            let o1 := { o with wp := o.wp + k, srcHeld := g.srcHeld, dstHeld := g.dstHeld, phase := .running
                               written := if o.shown.isSome then o.written ++ moved.map (·.val) else [] }
            let s3 := s2.mapBankIn p x c fun b => (b.setCopy ch i o1).moveWp o.handle o1.wp
            match stop with
            | some .beyond => s3.copyFault p x c ch i o1 .barrierOver (d.dstAddr o.kind o.idx o.slotBase o1.wp)
            | some _ => s3.mapBankIn p x c fun b => b.setCopy ch i { o1 with phase := .waiting }
            | none =>
              match g.stop with
              | .fault e f => s3.copyFault p x c ch i o1 e f
              | .replay e f => s3.stopReplay p x c ch i o1 e f
              | .lost w => s3.loseCtx x 2 0 (wordOfNat w) c 0 0 b.sr.task 0
              | _ => s3

/-- The elements that a copy under PRES has written (R257). -/
def writtenElems (t : ElemTy) (bs : List Byte) : List (Num × Bool) :=
  (List.range (8 * bs.length / t.width)).map fun i => (decodeElem t false (leAt bs (i * (t.width / 8)) (t.width / 8)), false)

/-- A handle whose copy completes (R263). -/
def Handle.completed (h : Handle) : Handle :=
  if h.state = .draining then { h with state := .free } else { h with state := .full, wp := h.total }

/-- The head copy of a channel leaves it: the handle and the sequence number follow (R251, R263). -/
def Bank.dropCopy (b : Bank) (ch : Nat) (o : CopyOp) : Bank :=
  let b1 := (b.setHandle o.handle (b.handle o.handle).completed).setChannel ch (b.channel ch).tail
  { b1 with eng := { b1.eng with chSeq := vset b1.eng.chSeq ch (vget b1.eng.chSeq ch 0 + 1) } }

/-- The head copy of a channel has written all its bytes: under PRES it presents the elements once (R141, R257). -/
def State.presentCopy (s : State) (p : BankPlace) (x c ch : Nat) (o : CopyOp) : State :=
  match s.bankIn p x c, o.shown with
  | some b, some (i, h, t) =>
    let r := s.present (b.setCopy ch 0 { o with shown := none, written := [] }) c none i h (writtenElems t o.written)
    r.1.setBankIn p x c r.2
  | _, _ => s

/-- The head copy's arrival at its barrier, then its completion (R240, R251, R259): one of GANG scope is a release there (R234,
R360). -/
def State.arriveCopy (s : State) (p : BankPlace) (x c ch : Nat) (o : CopyOp) : State :=
  let drop := fun (t : State) => t.mapBankIn p x c fun b => b.dropCopy ch o
  match o.bar with
  | none => drop s
  | some r =>
    match s.copyBar p x c r with
    | none => s
    | some (q, rb) =>
      let v := rb.barrier r.bx
      if v.live = false then drop s
      else
        match v.item 1 0 r.par with
        | .applied w => (drop (s.setBankIn q x r.cell (rb.putBarrier r.bx w))).gangRelease (v.scope == 4) p x c o.seqa
        | .full => s.mapBankIn p x c fun b => b.setCopy ch 0 { o with phase := .waiting }
        | .beyond =>
          let d := copyDescOf o.desc
          let fva := if o.total = 0 then o.slotBase + d.dst else d.dstAddr o.kind o.idx o.slotBase (o.total - 1)
          s.copyFault p x c ch 0 o .barrierOver fva

/-- The head copy of a channel completes when all its bytes are delivered and its barrier takes its arrival (R251, R257 to
R260): the elements of PRES are presented first. -/
def State.finishCopy (s : State) (p : BankPlace) (x c ch : Nat) : State :=
  match s.bankIn p x c with
  | none => s
  | some b =>
    match b.channel ch with
    | [] => s
    | o :: _ =>
      if (o.phase ≠ .running ∧ o.phase ≠ .waiting) ∨ o.wp < o.total then s
      else (s.presentCopy p x c ch o).arriveCopy p x c ch { o with shown := none, written := [] }

/-- A device step on the channel of a cell, in the first bank that meets a test. -/
def copyEvent (cell ch : Nat) (test : BankPlace × Nat → Bank → Bool) (f : BankPlace → Nat → State → State) (s : State) : Result :=
  if cell < 256 ∧ ch < 4 then
    match s.placeWhere cell test with
    | some q => .next (f q.1 q.2 s)
    | none => .next s
  else .fault .noSuchObject

/-- A bank has a copy that may begin. -/
def State.canStartCopy (s : State) (ch : Nat) (q : BankPlace × Nat) (b : Bank) : Bool :=
  s.mayBegin q b && (nextStart (b.channel ch)).isSome

/-- A bank has a copy that moves. -/
def canMoveCopy (ch : Nat) (b : Bank) : Bool := (movingCopy (b.channel ch)).isSome

/-- A bank's head copy has delivered its bytes. -/
def canFinishCopy (ch : Nat) (b : Bank) : Bool :=
  match b.channel ch with
  | o :: _ => (o.phase == .running || o.phase == .waiting) && decide (o.total ≤ o.wp)
  | [] => false

/-- COPY_START (R251, R257). -/
def execCopyStart (cell ch : Nat) (s : State) : Result :=
  copyEvent cell ch (s.canStartCopy ch) (fun p x t => t.startCopy p x cell ch) s

/-- COPY_BYTES_DELIVERED (R257, R259, R260, R261). -/
def execCopyBytesDelivered (cell ch n : Nat) (poolError : Bool) (s : State) : Result :=
  copyEvent cell ch (fun _ b => canMoveCopy ch b) (fun p x t => t.deliver p x cell ch n poolError) s

/-- COPY_COMPLETE (R251, R258, R263). -/
def execCopyComplete (cell ch : Nat) (s : State) : Result :=
  copyEvent cell ch (fun _ b => canFinishCopy ch b) (fun p x t => t.finishCopy p x cell ch) s

end Sys2Proof.Machine
end

