-- ==== Sys2Proof/Machine/Tcb.lean ====
section
/-! DEFINITION. Task control blocks, task readiness and home cells, futures (R274 to R278, R283, R284), and what a device
agent does with an access that stops (R397). -/

namespace Sys2Proof.Machine

open Sys2Proof

/-! ## Agents -/

/-- A fault of the context that the device itself raises: cause, sr.fva and the TCB it names. -/
structure AgentFault where
  cause : Cause
  fva : Nat
  tcb : Nat
  deriving DecidableEq, Repr

/-- A device agent at work: the state so far, and the faults that stop nothing of its own work. -/
structure Work where
  s : State
  faults : List AgentFault
  deriving DecidableEq, Repr

/-- An agent's access stops (R25, R397): the state is as before the agent's step, and the fault is the context's. -/
def State.agentStop (s : State) (x tcb : Nat) : Stop → State
  | .fault c f => s.raiseDevice x c f (wordOfNat tcb)
  | .lost k => s.loseCtx x 2 0 (wordOfNat k) noCell 0 0 (wordOfNat tcb) 0
  | _ => s

/-- The end of an agent's step in the name of a task: its effects, then the faults that it met. -/
def State.agentDo (s : State) (x tcb : Nat) (r : Except Stop Work) : State :=
  match r with
  | .ok w => w.faults.foldl (fun t f => t.raiseDevice x f.cause (wordOfNat f.fva) (wordOfNat f.tcb)) w.s
  | .error e => s.agentStop x tcb e

/-- An agent's step without faults of its own. -/
def State.agentDo' (s : State) (x tcb : Nat) (r : Except Stop State) : State :=
  match r with
  | .ok t => t
  | .error e => s.agentStop x tcb e

/-! ## Control blocks (R274, R275) -/

/-- G address of a TCB. -/
def Ctx.tcbAddr (c : Ctx) (i : Nat) : Nat := c.tcbBase + 128 * i

/-- STATE. -/
def tcbState (b : List Byte) : Nat := bitsAt (byteAt b 0) 0 4
/-- CXL. -/
def tcbCxl (b : List Byte) : Bool := bitsAt (byteAt b 0) 4 1 == 1
/-- CPRIO. -/
def tcbCprio (b : List Byte) : Nat := bitsAt (byteAt b 1) 0 2
/-- HOME. -/
def tcbHome (b : List Byte) : Nat := byteAt b 2
/-- PRED. -/
def tcbPred (b : List Byte) : Nat := leAt b 8 4
/-- KSLOT. -/
def tcbKslot (b : List Byte) : Nat := leAt b 0xC 2
/-- PRIO. -/
def tcbPrio (b : List Byte) : Nat := bitsAt (byteAt b 0xE) 0 2
/-- NOSTEAL. -/
def tcbNosteal (b : List Byte) : Bool := bitsAt (byteAt b 0xF) 0 1 == 1
/-- ARGS. -/
def tcbArgs (b : List Byte) : Nat := leAt b 0x10 8
/-- BINDS. -/
def tcbBinds (b : List Byte) : Nat := leAt b 0x18 8
/-- NBIND. -/
def tcbNbind (b : List Byte) : Nat := leAt b 0x20 2
/-- NSUCC. -/
def tcbNsucc (b : List Byte) : Nat := leAt b 0x22 2
/-- SUCCCAP. -/
def tcbSuccCap (b : List Byte) : Nat := leAt b 0x24 2
/-- EXT0 to EXT5. -/
def tcbExts (b : List Byte) : List Nat := (List.range 6).map fun j => leAt b (0x28 + 4 * j) 4
/-- SUCCPTR. -/
def tcbSuccPtr (b : List Byte) : Nat := leAt b 0x40 8
/-- FUT. -/
def tcbFut (b : List Byte) : Nat := leAt b 0x68 8

/-- The bytes of STATEW. -/
def statewBytes (state cprio home : Nat) (cxl : Bool) : List Byte :=
  bytesOfNat 8 (state + (if cxl then 16 else 0) + cprio * 256 + home * 65536)

/-- STATEW with another STATE. -/
def withState (b : List Byte) (state : Nat) (cxl : Bool) : List Byte := statewBytes state (tcbCprio b) (tcbHome b) cxl

/-- A terminal STATE (R275). -/
def terminal (st : Nat) : Bool := decide (6 ≤ st) && decide (st ≤ 8)

/-- An image keeps R274; the device's own fields are ignored. -/
def imageOk (b : List Byte) : Bool :=
  decide (tcbKslot b ≤ 4095) && decide (byteAt b 0xE < 4) && decide (byteAt b 0xF < 2) && decide (tcbNbind b ≤ 1024) &&
    tcbBinds b % 4 == 0 && (tcbNbind b != 0 || tcbBinds b == 0) && leAt b 0x26 2 == 0 && tcbSuccPtr b % 4 == 0 &&
    (tcbSuccCap b != 0 || tcbSuccPtr b == 0) && tcbFut b % 16 == 0 && allZero ((b.drop 0x74).take 12)

/-- Read a TCB (R274, R397). -/
def State.readTcb (s : State) (x i : Nat) : Except Stop (List Byte) := s.agentRead x ((s.ctxAt x).tcbAddr i) 128 true

/-- Write bytes of a TCB. -/
def State.writeTcb (s : State) (x i off : Nat) (bs : List Byte) : Except Stop State :=
  s.agentWrite x ((s.ctxAt x).tcbAddr i + off) bs true

/-- The graph in flight that counts a task. -/
def State.graphOf (s : State) (x i : Nat) : Option Graph :=
  s.sched.graphs.find? fun g => g.ctx == x && g.tasks.any (·.1 == i)

/-- A TCB may be written anew (R276): FREE, or terminal with its graph complete. -/
def State.tcbOpen (s : State) (x i : Nat) (b : List Byte) : Bool :=
  tcbState b == 0 || (terminal (tcbState b) && (s.graphOf x i).isNone)

/-- The binding list of a TCB (R274). -/
def State.readBinds (s : State) (x : Nat) (b : List Byte) : Except Stop (List (BitVec 32)) :=
  if tcbNbind b = 0 then .ok []
  else
    match s.agentRead x (tcbBinds b) (4 * tcbNbind b) false with
    | .ok bs => .ok ((List.range (tcbNbind b)).map fun j => BitVec.ofNat 32 (leAt bs (4 * j) 4))
    | .error e => .error e

/-! ## Readiness (R276 to R278, R301) -/

/-- READY tasks on a cell. -/
def Cell.readyCount (c : Cell) : Nat := (c.ready.map List.length).foldl (· + ·) 0

/-- The cell with the fewest READY tasks among the listed ones, the lowest number at a tie. -/
def State.leastBusy (s : State) : List Nat → Option Nat
  | [] => none
  | c :: t => some (t.foldl (fun b d => if (s.cellAt d).readyCount < (s.cellAt b).readyCount then d else b) c)

/-- Shards per die and dies of a task (R300); none while its slot holds no kernel. -/
def State.taskShape (s : State) (x : Nat) (b : List Byte) : Option (Nat × Nat) :=
  (s.kernelIn x (tcbKslot b)).map fun k =>
    (kindProduct (groupLevels k (tcbExts b)) .cells, kindProduct (groupLevels k (tcbExts b)) .dies)

/-- A task whose group is one cell. -/
def State.oneCell (s : State) (x : Nat) (b : List Byte) : Bool :=
  match s.taskShape x b with
  | some (p, q) => p * q == 1
  | none => true

/-- The home cell of a task that an agent on die `die` made READY (R278, R301). -/
def State.homeFor (s : State) (x : Nat) (b : List Byte) (die : Nat) : Nat :=
  let part := partCells (s.ctxAt x).part
  let onDie := fun (l : List Nat) (d : Nat) => l.filter fun c => dieOf c == d
  let pick := fun (l : List Nat) =>
    let here := onDie l die
    if here.isEmpty then onDie l ((l.head?.map dieOf).getD 0) else here
  let zeros := part.filter fun c => c % 8 == 0
  ((s.leastBusy (if s.oneCell x b ∨ zeros.isEmpty then pick part else pick zeros)).getD 0)

/-- Put a task at the tail of a level of a cell's queue (R277). -/
def State.enqueue (s : State) (x i cell level : Nat) : State :=
  let c := s.cellAt cell
  s.setCell cell { c with ready := vset c.ready level (vget c.ready level [] ++ [⟨x, i, 0⟩]) }

/-- Take a task out of every queue. -/
def State.dequeue (s : State) (x i : Nat) : State :=
  { s with cells := s.cells.map fun c => { c with ready := c.ready.map fun l => l.filter fun t => t.ctx != x || t.tcb != i } }

/-! ## Groups that form (R302, R306) -/

/-- A group that forms for a task. -/
def State.forms (s : State) (x i : Nat) (g : Group) : Bool :=
  g.ctx == x && g.tcb == (s.ctxAt x).tcbAddr i && g.state != .running

/-- The group that forms for a task. -/
def State.formingOf (s : State) (x i : Nat) : Option Group := s.sched.groups.find? (s.forms x i)

/-- A group forms no more: its request or its cells go, and a bank that stood for a yielded shard gives its cell back. -/
def State.dropGroup (s : State) (g : Group) : State :=
  let s1 : State := { s with sched := { s.sched with groups := s.sched.groups.filter (·.id != g.id) } }
  (g.home :: g.cells).foldl (fun t c =>
    let u := if (t.cellAt c).held = some g.id then t.setCell c { t.cellAt c with held := none } else t
    if (u.cellAt c).held.isNone && (u.bankOf g.ctx c).any (fun b => b.ctl.status == .idle) then u.unyield g.ctx c else u) s1

/-- The group that forms for a task is dropped. -/
def State.dropForming (s : State) (x i : Nat) : State :=
  match s.formingOf x i with
  | some g => s.dropGroup g
  | none => s

/-- The plate that a graph runs or records (R320, R321). -/
def State.plateOf (s : State) (g : Graph) : Option Plate := s.sched.plates.find? fun p => p.run == some g.id

/-- The imposition row of a local task (R316). -/
def Plate.row (p : Plate) (loc : Nat) : List Byte := p.imposition.getD loc []

/-- A task is one of its graph's admitted tasks, and the graph runs a plate (R321). -/
def Graph.runs (g : Graph) (i : Nat) : Bool := g.running && decide (g.tcb0 ≤ i) && decide (i < g.tcb0 + g.nt)

/-- A task becomes READY (R276, R278, R321): it enters its home cell's queue, or its run holds it. -/
def State.makeReady (s : State) (x i die : Nat) : Except Stop State := do
  let b ← s.readTcb x i
  match s.graphOf x i with
  | some g =>
    if g.runs i then
      let home := match s.plateOf g with
        | some p => byteAt (p.row (i - g.tcb0)) 0
        | none => 0
      let s1 ← s.writeTcb x i 0 (statewBytes 3 (tcbPrio b) home false)
      .ok (s1.setGraph { g with heldReady := g.heldReady ++ [i] })
    else
      let home := s.homeFor x b die
      let s1 ← s.writeTcb x i 0 (statewBytes 3 (tcbPrio b) home false)
      .ok (s1.enqueue x i home (tcbPrio b))
  | none =>
    let home := s.homeFor x b die
    let s1 ← s.writeTcb x i 0 (statewBytes 3 (tcbPrio b) home false)
    .ok (s1.enqueue x i home (tcbPrio b))

/-- What a decrement of PRED meets (R276, R284). -/
inductive DecEnd where
  | done (s : State)
  /-- the task has become CANCELLED and completes -/
  | cancelled (s : State)
  /-- the TCB is not CREATED or WAITING with PRED above 0: TASK_STATE, and nothing is written -/
  | bad
  deriving DecidableEq, Repr

/-- Decrement PRED of a task (R276). -/
def State.decPred (s : State) (x i die : Nat) : Except Stop DecEnd := do
  let b ← s.readTcb x i
  if (tcbState b = 1 ∨ tcbState b = 2) ∧ 0 < tcbPred b then
    let s1 ← s.writeTcb x i 8 (bytesOfNat 4 (tcbPred b - 1))
    if tcbState b = 2 ∧ tcbPred b = 1 then
      if tcbCxl b then
        let s2 ← s1.writeTcb x i 0 (withState b 7 true)
        .ok (.cancelled s2)
      else
        let s2 ← s1.makeReady x i die
        .ok (.done s2)
    else .ok (.done s1)
  else .ok .bad

/-! ## Futures (R283, R284) -/

/-- An action on a future. -/
inductive FutAct where
  | new
  | reg (t : Nat)
  | res (v : Word)
  | fail (code : Nat)
  deriving DecidableEq, Repr

/-- What an action meets: the words to write and the continuation to decrement, or FUT_DOUBLE. -/
inductive FutEnd where
  | write (state value : Word) (dec : Option Nat)
  | double
  deriving DecidableEq, Repr

/-- The state word of a future. -/
def futWord (state : Nat) (reg : Bool) (code cont : Nat) : Word :=
  wordOfNat (state * 2 ^ 62 + (if reg then 2 ^ 61 else 0) + code * 2 ^ 48 + cont)

/-- The table of R284 on a state word and a value. -/
def futStep (w v : Word) (a : FutAct) : FutEnd :=
  let st := field w 62 2
  let reg := w.getLsbD 61
  let cont := field w 0 20
  let settle := fun (state code : Nat) (value : Word) =>
    if st = 0 then FutEnd.write (futWord state false code 0) value none
    else if st = 1 then .write (futWord state true code cont) value (some cont)
    else .double
  match a with
  | .new => if st = 1 then .double else .write 0 0 none
  | .reg t =>
    if reg then .double
    else if st = 0 then .write (futWord 1 true 0 t) v none
    else if st = 1 then .double
    else .write (futWord st true (field w 48 8) t) v (some t)
  | .res x => settle 2 0 x
  | .fail c => settle 3 c v

end Sys2Proof.Machine
end

