-- ==== Sys2Proof/Machine/PlateBase.lean ====
section
/-! DEFINITION. Plates as data: entries, wait sets, their bytes and digest, lane counters, guards and the hand-back (R312,
R315 to R321, R323, R324, R326). -/

namespace Sys2Proof.Machine

open Sys2Proof

/-! ## Allocation bases -/

/-- Two ranges (base, size) share a byte. -/
def overlaps (a b : Nat × Nat) : Bool := decide (0 < a.2) && decide (0 < b.2) && decide (a.1 < b.1 + b.2) && decide (b.1 < a.1 + a.2)

/-- The lowest multiple of 4,096 whose allocation is clear of the used ones and ends in the scratchpad (R312). -/
def lowestBase (used : List (Nat × Nat)) (size : Nat) : Option Nat :=
  ((List.range (spadBytes / 4096 + 1)).map (· * 4096)).find? fun b =>
    decide (b + size ≤ spadBytes) && used.all fun u => !(overlaps (b, size) u)

/-! ## Entries and wait sets (R318 to R320) -/

/-- A wait element of a lane. -/
def waitLane (lane count : Nat) : BitVec 32 := BitVec.ofNat 32 (2 ^ 31 + lane * 2 ^ 20 + count)

/-- The wait element of the entry's own PRED. -/
def waitPred : BitVec 32 := 0xC0000000#32

/-- LANE of an element. -/
def elemLane (w : BitVec 32) : Nat := field w 20 8

/-- COUNT of an element. -/
def elemCount (w : BitVec 32) : Nat := field w 0 20

/-- K of an element. -/
def elemK (w : BitVec 32) : Bool := w.getLsbD 30

/-- The lanes and positions that hold a task. -/
def placesOf (lanes : List (Nat × List PlateEntry)) (loc : Nat) : List (Nat × Nat) :=
  lanes.flatMap fun l =>
    match l.2.findIdx? fun e => e.loc == some loc with
    | some i => [(l.1, i)]
    | none => []

/-- The elements that a task's predecessors give in a lane (R320): of every other lane that holds one of them, unless it lies on
the task's own lane too, the largest count, lanes ascending. -/
def laneElems (lanes : List (Nat × List PlateEntry)) (edges : List (Nat × Nat)) (lane loc : Nat) : List (BitVec 32) :=
  let preds := (edges.filter fun e => e.2 == loc).map (·.1)
  let raw := preds.flatMap fun x =>
    let ps := placesOf lanes x
    if ps.any (·.1 == lane) then [] else ps
  let used := (List.range 256).filter fun l => raw.any (·.1 == l)
  used.map fun l => waitLane l ((raw.filter (·.1 == l)).foldl (fun m p => max m (p.2 + 1)) 0)

/-- Cut a list into pieces of four. -/
def quads {α : Type} : Nat → List α → List (List α)
  | 0, _ => []
  | k + 1, l => if l.isEmpty then [] else l.take 4 :: quads k (l.drop 4)

/-- The elements of the JOIN entries before a task, and of the task itself (R320). -/
def splitElems (l : List (BitVec 32)) : List (List (BitVec 32)) × List (BitVec 32) :=
  let n := l.length - 4
  (quads l.length (l.take n), l.drop n)

/-- A JOIN entry (R318). -/
def joinEntry (w : List (BitVec 32)) : PlateEntry :=
  { loc := none, kern := 0xFFFF, spbase := 0, argrel := 0xFFFF, waits := w, guard := 0, hoist := 0, spsize := 0, wstall := 0, sstall := 0 }

/-- The elements of a task's entry in a lane, its K = 1 element last. -/
def entryElems (lanes : List (Nat × List PlateEntry)) (edges : List (Nat × Nat)) (lane : Nat) (e : PlateEntry) (own : Bool) :
    List (BitVec 32) := laneElems lanes edges lane (e.loc.getD 0) ++ (if own then [waitPred] else [])

/-- The JOIN entries that a task's entry needs, and the entry, with their wait sets (R320). -/
def joinsAnd (elems : List (BitVec 32)) (e : PlateEntry) : List PlateEntry :=
  let sp := splitElems elems
  sp.1.map joinEntry ++ [{ e with waits := sp.2 }]

/-- One pass of recomputation: every lane's JOIN entries are laid out anew from the positions that the lanes have. -/
def rewaitOnce (lanes : List (Nat × List PlateEntry)) (edges : List (Nat × Nat)) : List (Nat × List PlateEntry) :=
  lanes.map fun l =>
    (l.1, l.2.flatMap fun e => if e.loc.isNone then [] else joinsAnd (entryElems lanes edges l.1 e (e.waits.any elemK)) e)

/-- Every wait set recomputed (R320, R325): the first pass settles where the JOIN entries stand, the second the counts. -/
def rewait (lanes : List (Nat × List PlateEntry)) (edges : List (Nat × Nat)) : List (Nat × List PlateEntry) :=
  rewaitOnce (rewaitOnce lanes edges) edges

/-! ## Bytes and digest (R315 to R318) -/

/-- The 32 bytes of an entry. -/
def PlateEntry.bytes (e : PlateEntry) : List Byte :=
  bytesOfNat 2 (match e.loc with | some l => l | none => 0x1000) ++ bytesOfNat 2 e.kern ++ bytesOfNat 2 e.spbase ++
    bytesOfNat 2 e.argrel ++ ((List.range 4).flatMap fun i => bytesOfNat 4 (e.waits.getD i 0).toNat) ++ bytesOfNat 2 e.guard ++
    bytesOfNat 1 e.hoist ++ List.replicate 5 0#8

/-- A lane of a section. -/
def Section.lane (t : Section) (c : Nat) : List PlateEntry :=
  match t.lanes.find? (·.1 == c) with
  | some l => l.2
  | none => []

/-- The bytes of a section without its stall array: its entries stand in lane order after the directory, whose offsets count
bytes from the section's start. -/
def Section.bytes (t : Section) : List Byte :=
  let dir := (List.range 256).foldl (fun (a : Nat × List Byte) c =>
    let n := (t.lane c).length
    (a.1 + 32 * n, a.2 ++ bytesOfNat 4 (if n = 0 then 0 else a.1) ++ bytesOfNat 4 n)) (64 + 2048, [])
  bytesOfNat 1 t.dev ++ List.replicate 7 0#8 ++ bytesOfNat 40 t.health.toNat ++ List.replicate 16 0#8 ++ dir.2 ++
    (List.range 256).flatMap fun c => (t.lane c).flatMap PlateEntry.bytes

/-- Entries of a section. -/
def Section.count (t : Section) : Nat := t.lanes.foldl (fun n l => n + l.2.length) 0

/-- The stall array of a section. -/
def Section.stalls (t : Section) : List Byte :=
  (List.range 256).flatMap fun c => (t.lane c).flatMap fun e => bytesOfNat 4 e.wstall ++ bytesOfNat 4 e.sstall

/-- STATE of a plate (R315). -/
def PlateState.code : PlateState → Nat
  | .recording => 1
  | .sealed => 2
  | .refined => 3
  | .retired => 4

/-- The tables between header and sections. -/
def Plate.tables (p : Plate) : List Byte :=
  p.kerns.flatMap digestBytes ++
    p.guards.flatMap (fun g => bytesOfNat 2 g.1 ++ bytesOfNat 2 g.2.1 ++ List.replicate 4 0#8 ++ w8 g.2.2) ++
    (List.range p.nt).flatMap (fun l => (p.row l ++ List.replicate 16 0#8).take 16)

/-- SIZE of a plate. -/
def Plate.size (p : Plate) : Nat :=
  0x80 + p.tables.length + p.sections.foldl (fun n t => n + 64 + 2048 + 40 * t.count) 0

/-- Header bytes from 0x40 with given STATE and HBACK. -/
def Plate.header (p : Plate) (state hback : Nat) : List Byte :=
  bytesOfNat 8 p.gen ++ bytesOfNat 1 state ++ bytesOfNat 1 p.ndev ++ bytesOfNat 2 p.kerns.length ++ bytesOfNat 2 p.guards.length ++
    bytesOfNat 2 p.nt ++ bytesOfNat 4 p.size ++ bytesOfNat 1 hback ++ bytesOfNat 1 (if p.conf then 1 else 0) ++
    bytesOfNat 2 (if p.conf then p.ctx else 0) ++ List.replicate 40 0#8

/-- DIGEST of a plate (R315): over bytes 0x40 to SIZE − 1 without the stall arrays. -/
def Plate.digestOf (p : Plate) : Digest := sha3 (p.header p.state.code p.hback ++ p.tables ++ p.sections.flatMap Section.bytes)

/-- A plate whose bytes have changed, its DIGEST written anew (R315). -/
def Plate.redigest (p : Plate) : Plate := { p with digest := p.digestOf }

/-- Largest plate (R326). -/
def plateBytesMax : Nat := 0x1000000

/-- The bytes of a plate. -/
def Plate.image (p : Plate) : List Byte :=
  digestBytes p.key ++ digestBytes p.digest ++ p.header p.state.code p.hback ++ p.tables ++
    p.sections.flatMap fun t => t.bytes ++ t.stalls

/-! ## Runs (R319, R321, R323, R324) -/

/-- Replace the plate of a key. -/
def State.setPlate (s : State) (p : Plate) : State :=
  { s with sched := { s.sched with plates := s.sched.plates.map fun q => if q.key == p.key then p else q } }

/-- The section that this device runs. -/
def State.ownSection (s : State) (p : Plate) : Option Section := p.sections.find? (·.dev == s.dev.devIndex)

/-- The health vector of a context (R315): its cells, the dies in service and the ports in service (R359). -/
def State.health (s : State) (x : Nat) : BitVec 320 :=
  let ports := (List.range 18).foldl (fun n i => if (vget s.net.ports i .reset).state.inService then n + 2 ^ i else n) 0
  BitVec.ofNat 320 ((s.ctxAt x).part.toNat + 15 * 2 ^ 256 + ports * 2 ^ 260)

/-- An admitted task of a graph has ended. -/
def Graph.endedLocal (g : Graph) (loc : Nat) : Bool := g.ended.any (·.1 == g.tcb0 + loc)

/-- Count on over the leading entries whose task has ended. -/
def countEnded (g : Graph) : List PlateEntry → Nat
  | [] => 0
  | e :: t =>
    match e.loc with
    | some l => if g.endedLocal l then countEnded g t + 1 else 0
    | none => 0

/-- Entries that a lane has noted as finished. -/
def Plate.head (p : Plate) (c : Nat) : Nat :=
  match p.heads.find? (·.1 == c) with
  | some h => h.2
  | none => 0

/-- The lane counter (R319). -/
def laneCounter (p : Plate) (g : Graph) (t : Section) (c : Nat) : Nat := p.head c + countEnded g ((t.lane c).drop (p.head c))

/-- Note a lane's finished entries. -/
def Plate.setHead (p : Plate) (c n : Nat) : Plate := { p with heads := (c, n) :: p.heads.filter (·.1 != c) }

/-- The BRANCH guard of a task (R323): the guard words that it wrote are its guard rows. -/
def branchOk (p : Plate) (g : Graph) (loc : Nat) : Bool :=
  let rows := (p.guards.filter (·.1 == loc)).map (·.2)
  let wrote := (g.guards.filter fun w => w.2.1 == g.tcb0 + loc).map fun w => (w.1, w.2.2)
  rows.length == wrote.length && wrote.all rows.contains

/-- Items 4's 42 bytes of a descriptor (R314), with STATE read as 0. -/
def shapeBytes (b : List Byte) : List Byte :=
  let v := bytesOfNat 1 (byteAt b 0x3A - bitsAt (byteAt b 0x3A) 5 2 * 32)
  (b.drop 8).take 36 ++ (b.drop 0x37).take 1 ++ v ++ (b.drop 0x3B).take 4

/-- The groups that a run has staged ahead of their issue (R322). -/
def State.stagedAhead (s : State) (g : Graph) : List Group :=
  s.sched.groups.filter fun h =>
    h.graph == g.id && h.plateBase.isSome && !(g.issued.contains ((s.ctxAt g.ctx).tcbIndex h.tcb - g.tcb0))

/-- A run hands back (R324): its lanes issue no more, a task that is staged but has not issued forms its group no more, and the
READY tasks that it held are enqueued, local index ascending. -/
def State.handBack (s : State) (p : Plate) (g : Graph) : Except Stop State :=
  let n := p.hback + 1
  let p1 := Plate.redigest { p.clearStalls with handback := true, hback := n, state := if 3 ≤ n then .retired else p.state }
  let s0 := (s.stagedAhead g).foldl State.dropGroup s
  let s1 := (s0.setPlate p1).setGraph { g with running := false, heldReady := [] }
  let held := (List.range g.nt).filter fun l => g.heldReady.contains (g.tcb0 + l)
  held.foldlM (fun t l => t.makeReady g.ctx (g.tcb0 + l) g.die) s1

end Sys2Proof.Machine
end

