-- ==== Sys2Proof/Machine/Complete.lean ====
section
/-! DEFINITION. The completion of a task, the counter tree, the completion of a graph and the cancel step (R270, R280, R284,
R285, R308, R309, R323, R327). -/

namespace Sys2Proof.Machine

open Sys2Proof

/-! ## Completion records -/

/-- Write a packet's completion record (R270), unless COMPL is 0. -/
def State.writeCompletion (s : State) (x : Nat) (compl seq : Word) (status ty : Nat) : Except Stop State :=
  if compl = 0 then .ok s
  else s.agentWrite x compl.toNat (w8 seq ++ bytesOfNat 1 status ++ bytesOfNat 1 ty ++ List.replicate 6 0#8) true

/-! ## The counter tree (R308) -/

/-- The parent of a node; none is the root. -/
def counterParent : CounterNode → Option CounterNode
  | .cell n => some (.cluster (n / 8))
  | .cluster n => some (.die (n / 8))
  | .die _ => none

/-- A node has registered with its parent. -/
def Graph.registered (g : Graph) (n : CounterNode) : Bool := g.counters.any (·.1 == n)

/-- Add to a node's counter, or to the root. -/
def Graph.addCount (g : Graph) (n : Option CounterNode) (d : Int) : Graph :=
  match n with
  | none => { g with root := ((g.root : Int) + d).toNat }
  | some n => { g with counters := g.counters.map fun c => if c.1 == n then (c.1, ((c.2 : Int) + d).toNat) else c }

/-- A node registers: it adds 1 to its parent, which has registered itself or is the root. -/
def Graph.register (g : Graph) (n : CounterNode) : Graph :=
  if g.registered n || !(match (counterParent n) with | some p => g.registered p | none => true) then g
  else
    let h := g.addCount (counterParent n) 1
    { h with counters := h.counters ++ [(n, 0)] }

/-- A node stands above a cell, or is its counter. -/
def nodeAbove (n : CounterNode) (c : Nat) : Bool :=
  match n with
  | .cell d => c == d
  | .cluster k => c / 8 == k
  | .die d => dieOf c == d

/-- A cell's shard of a graph stands at a TSPAWN whose addition waits for registrations (R308). -/
def State.addsOn (s : State) (g : Graph) (c : Nat) : Bool :=
  (s.bankOf g.ctx c).any fun b => b.ctl.spawning && (b.ctl.group.bind s.groupAt).any (·.graph == g.id)

/-- An addition is about to take effect below a node, or on it (R308). -/
def State.addsBelow (s : State) (g : Graph) (n : CounterNode) : Bool :=
  (List.range 256).any fun c => nodeAbove n c && s.addsOn g c

/-- A node at 0 combines upward: it subtracts 1 from its parent. -/
def Graph.combine (g : Graph) (n : CounterNode) : Graph :=
  if g.counters.any fun c => c.1 == n && c.2 == 0 then
    let h := g.addCount (counterParent n) (-1)
    { h with counters := h.counters.filter (·.1 != n) }
  else g

/-- A cell's counter counts one more task (R308, TSPAWN). -/
def Graph.countTask (g : Graph) (c : Nat) : Graph := g.addCount (some (.cell c)) 1

/-! ## The completion of a graph (R309, R320, R327) -/

/-- STATUS of a GRAPH packet (R271). -/
def Graph.status (g : Graph) : Nat :=
  if g.ended.any (·.2 == 8) then 0x21 else if g.ended.any (·.2 == 7) then 0x20 else 0

/-- Guard rows in order of LOCAL and then WORD (R315). -/
def sortRows (l : List (Nat × Nat × Word)) : List (Nat × Nat × Word) :=
  let le := fun (a b : Nat × Nat × Word) => decide (a.1 < b.1) || (a.1 == b.1 && decide (a.2.1 ≤ b.2.1))
  l.mergeSort le

/-- GUARD of the entries of a sealed plate (R318). -/
def withGuards (rows : List (Nat × Nat × Word)) (e : PlateEntry) : PlateEntry :=
  match e.loc with
  | none => e
  | some l =>
    match rows.findIdx? (·.1 == l) with
    | some i => { e with guard := i + 1 }
    | none => e

/-- A recorded plate is sealed (R315, R327). -/
def Plate.seal (p : Plate) : Plate :=
  let rows := sortRows p.guards
  let lanes := fun (t : Section) => { t with lanes := t.lanes.map fun l => (l.1, l.2.map (withGuards rows)) }
  let q := { p with state := PlateState.sealed, gen := 0, guards := rows, run := none, sections := p.sections.map lanes }
  q.redigest

/-- Send a plate to the gang's other devices that a route reaches (R326, R360). -/
def State.distribute (s : State) (p : Plate) : State :=
  ((List.range s.dev.gangSize).filter fun d => d != s.dev.devIndex && s.routeUp p.conf d).foldl
    (fun t d => t.send (.plateSection d p.image)) s

/-- The plate that a graph records is discarded (R327). -/
def State.dropRecording (s : State) (g : Graph) : State :=
  match s.plateOf g with
  | some p =>
    if p.state = .recording then { s with sched := { s.sched with plates := s.sched.plates.filter (·.key != p.key) } } else s
  | none => s

/-- The plate that graph `g` records, as it grows; one that would pass 16 MiB is RETIRED as it was (R327). -/
def State.growPlate (s : State) (g : Graph) (old new : Plate) : State :=
  if plateBytesMax < new.size then
    (s.setPlate (Plate.redigest { old with state := .retired, run := none })).setGraph { g with recording := false }
  else s.setPlate new

/-- A plate when the graph that it records or runs has completed (R324, R325, R327). -/
def State.plateEnds (s : State) (g : Graph) : State :=
  match s.plateOf g with
  | none => s
  | some p =>
    if p.state = .recording then
      if g.recording && g.ended.all (·.2 == 6) then (s.setPlate p.seal).distribute p.seal else s.dropRecording g
    else if p.handback then s.setPlate { p with run := none, heads := [], handback := false }
    else
      let q := { p with run := none, heads := [], hback := 0, due := true }
      s.setPlate (if p.hback = 0 then q else q.redigest)

/-- The root of a graph has reached 0 (R309): partials are folded, the completion record is written and the graph leaves. -/
def State.finishGraph (s : State) (g : Graph) : Except Stop State := do
  let c := s.ctxAt g.ctx
  let recs := g.partials.foldl (fun l p => recordSet l p.idx ((recordAt l p.idx).fold p.record)) c.records
  let s1 ← (s.setCtx g.ctx { c with records := recs }).writeCompletion g.ctx g.compl g.seq g.status 1
  let s2 := s1.plateEnds g
  .ok { s2 with sched := { s2.sched with graphs := s2.sched.graphs.filter (·.id != g.id) } }

/-- Store a graph whose counters have changed; it completes when its root is 0. -/
def State.putGraph (s : State) (g : Graph) : Except Stop State :=
  if g.root = 0 then (s.setGraph g).finishGraph g else .ok (s.setGraph g)

/-- COUNTER_REGISTER (R308): a counter that an addition takes from 0 registers before the addition takes effect; one to which
nothing is added sends nothing. -/
def execCounterRegister (graph : Nat) (node : CounterNode) (s : State) : Result :=
  match s.graphAt graph with
  | some g => if s.addsBelow g node then .next (s.setGraph (g.register node)) else .next s
  | none => .next s

/-- COUNTER_COMBINE (R308, R309): a counter that has returned to 0, with no addition to it under way. -/
def execCounterCombine (graph : Nat) (node : CounterNode) (s : State) : Result :=
  match s.graphAt graph with
  | some g => if s.addsBelow g node then .next s else .next (s.agentDo' g.ctx 0 (s.putGraph (g.combine node)))
  | none => .next s

/-! ## The completion of a task (R280) -/

/-- Tasks that are to complete: TCB index and final STATE. -/
abbrev Ending := List (Nat × Nat)

/-- Decrement a successor or a continuation in an agent's work; a task that it cancels is to complete too. -/
def Work.dec (w : Work) (x t die : Nat) (fault : AgentFault) : Except Stop (Work × Ending) := do
  match ← w.s.decPred x t die with
  | .done s1 => .ok ({ w with s := s1 }, [])
  | .cancelled s1 => .ok ({ w with s := s1 }, [(t, 7)])
  | .bad => .ok ({ w with faults := w.faults ++ [fault] }, [])

/-- Step 1 of R280: the successors, in list order. -/
def Work.decAll (w : Work) (x die tcb : Nat) : List Nat → Except Stop (Work × Ending)
  | [] => .ok (w, [])
  | t :: ts => do
    let (w1, e1) ← w.dec x t die ⟨.taskState, 0, tcb⟩
    let (w2, e2) ← w1.decAll x die tcb ts
    .ok (w2, e1 ++ e2)

/-- The successor list of a TCB: inline entries, then the overflow array (R274). -/
def State.successors (s : State) (x : Nat) (b : List Byte) : Except Stop (List Nat) :=
  let inl := (List.range (min 8 (tcbNsucc b))).map fun j => bitsAt (leAt b (0x48 + 4 * j) 4) 0 20
  if tcbNsucc b ≤ 8 then .ok inl
  else
    match s.agentRead x (tcbSuccPtr b) (4 * (tcbNsucc b - 8)) true with
    | .ok bs => .ok (inl ++ (List.range (tcbNsucc b - 8)).map fun j => bitsAt (leAt bs (4 * j) 4) 0 20)
    | .error e => .error e

/-- Step 2 of R280: the task's future is resolved or failed. -/
def Work.settle (w : Work) (x die tcb fut final : Nat) : Except Stop (Work × Ending) :=
  if fut = 0 then .ok (w, [])
  else do
    let ps ← w.s.resolveG none x (Access.atomic .supervisor) fut 16
    let bs ← w.s.readParts ps
    match futStep (wordAt bs 0) (wordAt bs 8) (if final = 6 then .res 0 else .fail 0xFF) with
    | .double => .ok ({ w with faults := w.faults ++ [⟨.futDouble, fut, tcb⟩] }, [])
    | .write a v d =>
      let s1 ← w.s.writeParts ps (w8 a ++ w8 v)
      match d with
      | none => .ok ({ w with s := s1 }, [])
      | some t =>
        match ← s1.decPred x t die with
        | .done s2 => .ok ({ w with s := s2 }, [])
        | .cancelled s2 => .ok ({ w with s := s2 }, [(t, 7)])
        | .bad => .ok ({ w with faults := w.faults ++ [⟨.taskState, fut, tcb⟩] }, [])

/-- Step 3 of R280: the task is counted complete in its graph; a plate is not recorded of a graph with a task CANCELLED or
FAILED (R327). -/
def State.countEnd (s0 : State) (x i final : Nat) : Except Stop State :=
  match s0.graphOf x i with
  | none => .ok s0
  | some g0 =>
    let s := if final = 6 then s0 else s0.dropRecording g0
    let g := if final = 6 then g0 else { g0 with recording := false }
    let node := match g.tasks.find? (·.1 == i) with
      | some t => t.2
      | none => none
    s.putGraph ({ g with ended := g.ended ++ [(i, final)], heldReady := g.heldReady.filter (· != i) }.addCount node (-1))

/-- The completion of the listed tasks and of those that it cancels (R276, R280). -/
def Work.complete (x die : Nat) : Nat → Ending → Work → Except Stop Work
  | 0, _, w => .ok w
  | _ + 1, [], w => .ok w
  | fuel + 1, (i, final) :: rest, w => do
    let b ← w.s.readTcb x i
    let tcb := (w.s.ctxAt x).tcbAddr i
    let succ ← w.s.successors x b
    let (w1, e1) ← w.decAll x die tcb succ
    let (w2, e2) ← w1.settle x die tcb (tcbFut b) final
    let s3 ← w2.s.countEnd x i final
    Work.complete x die fuel (rest ++ e1 ++ e2) { w2 with s := s3 }

/-- Completions that one completion can bring about: each task ends once. -/
def State.endFuel (s : State) : Nat := s.sched.graphs.foldl (fun n g => n + g.tasks.length) 1 + 1

/-- A task that stands in its final STATE completes (R280): the completing agent is on die `die`. -/
def State.completeTask (s : State) (x i final die : Nat) : Except Stop Work := Work.complete x die s.endFuel [(i, final)] ⟨s, []⟩

/-- A task gets its final STATE and completes. -/
def State.endTask (s : State) (x i final die : Nat) : Except Stop Work := do
  let b ← s.readTcb x i
  let s1 ← s.writeTcb x i 0 (withState b final (tcbCxl b))
  s1.completeTask x i final die

/-! ## The cancel step (R285) -/

/-- The cancel step on a task: the result code and the work done. -/
def State.cancelStep (s : State) (x i die : Nat) : Except Stop (Nat × Work) := do
  let b ← s.readTcb x i
  let st := tcbState b
  if st = 0 then .ok (3, ⟨s, []⟩)
  else if tcbCxl b = true ∨ st = 7 then .ok (2, ⟨s, []⟩)
  else if st = 1 ∨ st = 2 then
    let s1 ← s.writeTcb x i 0 (withState b st true)
    .ok (0, ⟨s1, []⟩)
  else if st = 3 then
    let s1 ← ((s.dequeue x i).dropForming x i).writeTcb x i 0 (withState b 7 true)
    let w ← s1.completeTask x i 7 die
    .ok (0, w)
  else .ok (1, ⟨s, []⟩)

/-- The cancel step on tasks, in order. -/
def cancelAll (x die : Nat) : List Nat → Work → Except Stop Work
  | [], w => .ok w
  | i :: t, w => do
    let r ← w.s.cancelStep x i die
    cancelAll x die t ⟨r.2.s, w.faults ++ r.2.faults⟩

end Sys2Proof.Machine
end

