-- ==== Sys2Proof/Machine/Refine.lean ====
section
/-! DEFINITION. Make-ready (R325). -/

namespace Sys2Proof.Machine

open Sys2Proof

/-- The lanes of a section. -/
abbrev Lanes := List (Nat × List PlateEntry)

/-- An entry's elements are met when the lanes have run their first entries; a K = 1 element orders no entries. -/
def elemsMet (heads : List (Nat × Nat)) (e : PlateEntry) : Bool :=
  e.waits.all fun w => elemK w || heads.any fun h => h.1 == elemLane w && decide (elemCount w ≤ h.2)

/-- Let every lane run on by one entry where it can. -/
def runRound (lanes : Lanes) (heads : List (Nat × Nat)) : List (Nat × Nat) :=
  heads.map fun h =>
    match lanes.find? (·.1 == h.1) with
    | some l =>
      match l.2[h.2]? with
      | some e => if elemsMet heads e then (h.1, h.2 + 1) else h
      | none => h
    | none => h

/-- The entries are acyclic (R325): every lane can run to its end. -/
def acyclic (lanes : Lanes) : Bool :=
  let n := lanes.foldl (fun n l => n + l.2.length) 0
  let ends := (List.range n).foldl (fun h _ => runRound lanes h) (lanes.map fun l => (l.1, 0))
  lanes.all fun l => ends.any fun h => h.1 == l.1 && h.2 == l.2.length

/-- An entry holds a K = 1 element. -/
def PlateEntry.waitsPred (e : PlateEntry) : Bool := e.waits.any elemK

/-- Two neighbours of a lane may change places, the lanes after the change being acyclic (R325). -/
def maySwap (edges : List (Nat × Nat)) (l : List PlateEntry) (j : Nat) : Bool :=
  match l[j]?, l[j + 1]? with
  | some x, some y =>
    match x.loc, y.loc with
    | some a, some b =>
      decide (0 < x.wstall) && y.wstall == 0 && !((l[j + 2]?).any fun e => e.loc.isNone) && !x.waitsPred && !y.waitsPred &&
        !((predsOf edges b).contains a)
    | _, _ => false
  | _, _ => false

/-- A list with two neighbours exchanged. -/
def swapAt {α : Type} (l : List α) (j : Nat) : List α :=
  match l[j]?, l[j + 1]? with
  | some x, some y => setAt (setAt l j y) (j + 1) x
  | _, _ => l

/-- The entries of a lane. -/
def laneOf (lanes : Lanes) (c : Nat) : List PlateEntry :=
  match lanes.find? (·.1 == c) with
  | some l => l.2
  | none => []

/-- One lane's swaps from position `j` on. -/
def refineLane (edges : List (Nat × Nat)) (c : Nat) : Nat → Nat → Lanes → Lanes
  | 0, _, lanes => lanes
  | fuel + 1, j, lanes =>
    let l := laneOf lanes c
    if l.length ≤ j + 1 then lanes
    else
      let next := rewait (lanes.map fun q => if q.1 == c then (c, swapAt l j) else q) edges
      if maySwap edges l j && acyclic next then refineLane edges c fuel (j + 2) next
      else refineLane edges c fuel (j + 1) lanes

/-- The staging leads and bases of a lane (R325): `before` are the entries that precede, last first. -/
def hoistLane : List PlateEntry → List PlateEntry → List PlateEntry
  | _, [] => []
  | before, e :: t =>
    let used := (before.take (e.hoist + 1)).map fun b => (4096 * b.spbase, b.spsize)
    let e1 := match if e.loc.isSome ∧ 0 < e.sstall ∧ e.hoist < 3 then lowestBase used e.spsize else none with
      | some b => { e with hoist := e.hoist + 1, spbase := b / 4096 }
      | none => e
    e1 :: hoistLane (e1 :: before) t

/-- The lanes of a section after make-ready. -/
def refineLanes (edges : List (Nat × Nat)) (lanes : Lanes) : Lanes :=
  let swapped := (lanes.map (·.1)).foldl (fun ls c => refineLane edges c ((laneOf lanes c).length + 1) 0 ls) lanes
  swapped.map fun l => (l.1, hoistLane [] l.2)

/-- Make-ready of a plate on the section of device `dev` (R325, R327). -/
def Plate.refine (p : Plate) (dev : Nat) : Plate × Bool :=
  let lanesOf := fun (t : Section) => if t.dev = dev then { t with lanes := refineLanes p.edges t.lanes } else t
  let ts := p.sections.map lanesOf
  let q := { p with due := false }
  if ts.map Section.bytes = p.sections.map Section.bytes then (q, false)
  else
    let r := { q with sections := ts, gen := p.gen + 1, state := PlateState.refined }
    (r.redigest, true)

/-- Make-ready of a plate that is due. -/
def State.refinePlate (s : State) (p : Plate) : State :=
  if p.due ∧ (p.state = .sealed ∨ p.state = .refined) then
    let r := p.refine s.dev.devIndex
    if r.2 then (s.setPlate r.1).distribute r.1 else s.setPlate r.1
  else s

/-- MAKE_READY (R325). -/
def execMakeReady (plate : Nat) (s : State) : Result :=
  match s.sched.plates[plate]? with
  | some p => if p.run = none then .next (s.refinePlate p) else .next s
  | none => .next s

end Sys2Proof.Machine
end

