-- ==== Sys2Proof/Machine/Queue.lean ====
section
/-! DEFINITION. Host queues and their packets (R269 to R272), the loader's, binding, retiring and cancelling packets (R67 to
R69, R136, R137, R285). -/

namespace Sys2Proof.Machine

open Sys2Proof

/-! ## Queue descriptors and parsing -/

/-- A queue descriptor (R269). -/
structure QueueDesc where
  base : Nat
  size : Nat
  state : Nat
  head : Nat
  tail : Nat
  deriving DecidableEq, Repr

/-- Read a queue's descriptor. -/
def State.readQueue (s : State) (x q : Nat) : Except Stop QueueDesc :=
  match s.agentRead x ((s.ctxAt x).queueAddr q) 64 false with
  | .ok b => .ok ⟨leAt b 0 8, leAt b 8 4, byteAt b 0xC, leAt b 0x10 8, leAt b 0x18 8⟩
  | .error e => .error e

/-- The front ends serve a context's queues (R272, R332, R342): its set-up has completed and its schedule is not frozen. -/
def Ctx.served (c : Ctx) : Bool :=
  match c.state with
  | .ready | .active | .shadow | .spilling | .spilled | .restoring => true
  | _ => false

/-- A packet as parsed (R270). -/
structure Packet where
  ty : Nat
  wait : Bool
  len : Nat
  seq : Word
  compl : Word
  /-- the packet's bytes, header and body -/
  bytes : List Byte
  deriving DecidableEq, Repr

/-- What the front end finds at HEAD (R272). -/
inductive Parsed where
  | idle
  /-- the header's WAIT flag, and the cause -/
  | stop (wait : Bool) (cause : Nat)
  | packet (d : QueueDesc) (p : Packet)
  deriving DecidableEq, Repr

/-- A header keeps R270. -/
def headerOk (h : List Byte) : Bool :=
  decide (byteAt h 1 < 2) && leAt h 2 2 == 0 && decide (1 ≤ leAt h 4 4) && decide (leAt h 4 4 ≤ 16384) && leAt h 0x10 8 % 16 == 0 &&
    leAt h 0x18 8 == 0

/-- Every byte of a body from 0x20 that no listed field (offset, size) covers is zero (R271). -/
def bodyZero (b : List Byte) (fields : List (Nat × Nat)) : Bool :=
  (List.range (b.length - 0x20)).all fun i =>
    byteAt b (0x20 + i) == 0 || fields.any fun f => decide (f.1 ≤ 0x20 + i) && decide (0x20 + i < f.1 + f.2)

/-- The body of a packet other than a GRAPH keeps R271. -/
def bodyOk (p : Packet) : Bool :=
  match p.ty with
  | 2 => p.len == 2 && bodyZero p.bytes [(0x20, 8), (0x28, 8), (0x30, 2), (0x38, 8), (0x40, 8), (0x48, 8)] && decide (leAt p.bytes 0x30 2 ≤ 4095)
  | 3 => p.len == 1 && bodyZero p.bytes [(0x20, 2)] && decide (leAt p.bytes 0x20 2 ≤ 4095)
  | 4 => p.len == 2 && bodyZero p.bytes [(0x20, 2), (0x24, 4), (0x40, 64)]
  | 5 => p.len == 1 && bodyZero p.bytes [(0x20, 2)]
  | 6 => p.len == 1 && bodyZero p.bytes [(0x20, 4)]
  | _ => true

/-- The packet at HEAD, or the first stop that applies (R272). -/
def State.parse (s : State) (x q : Nat) : Except Stop Parsed := do
  let c := s.ctxAt x
  if c.served = false ∨ c.nqueue ≤ q then .ok .idle
  else
    let d ← s.readQueue x q
    if d.state ≠ 1 ∨ d.tail ≤ d.head ∨ d.size = 0 then .ok .idle
    else
      let h ← s.agentRead x (d.base + d.head % d.size) 32 false
      let len := leAt h 4 4
      let wait := bitsAt (byteAt h 1) 0 1 == 1
      if headerOk h = false then .ok (.stop wait 1)
      else if byteAt h 0 = 0 ∨ 7 < byteAt h 0 then .ok (.stop wait 2)
      else if d.size < d.head % d.size + 64 * len ∨ d.tail < d.head + 64 * len then .ok (.stop wait 3)
      else
        let bs ← s.agentRead x (d.base + d.head % d.size) (64 * len) false
        let p : Packet := ⟨byteAt h 0, wait, len, wordAt h 8, wordAt h 0x10, bs⟩
        if bodyOk p then .ok (.packet d p) else .ok (.stop wait 4)

/-- A packet of a queue waits for the loader or for a retire (R269). -/
def Ctx.queueBusy (c : Ctx) (q : Nat) : Bool :=
  c.kernels.any (fun k => k.packet.any (·.1 == q)) || c.retirePending.any fun r => r.2.1 == q

/-- A graph of a queue is in flight. -/
def State.inFlight (s : State) (x q : Nat) : Bool := s.sched.graphs.any fun g => g.ctx == x && g.queue == q

/-! ## Bindings and the conflict rule (R138) -/

/-- Two bindings of one index conflict between unordered tasks. -/
def bindConflict (a b : BitVec 32) : Bool :=
  let f := fun (w : BitVec 32) (k : Nat) => w.getLsbD k
  field a 0 16 == field b 0 16 &&
    (f a 18 || f a 19 || f b 18 || f b 19 || (f a 16 && f b 17) || (f a 17 && f b 16))

/-- Two binding lists conflict. -/
def listsConflict (a b : List (BitVec 32)) : Bool := a.any fun u => b.any fun v => bindConflict u v

/-- The number in parse order of the graph at a queue's HEAD: the one that it was given when it was parsed and held, or the
next (R138). -/
def State.parseNo (s : State) (x q : Nat) : Nat :=
  match (s.ctxAt x).heldGraphs.find? (·.1 == q) with
  | some h => h.2
  | none => s.sched.nextId

/-- A graph of parse number `n` with these bindings is held behind a graph of its context that was parsed earlier and is in
flight (R138). -/
def State.graphHeld (s : State) (x n : Nat) (binds : List (List (BitVec 32))) : Bool :=
  s.sched.graphs.any fun g =>
    g.ctx == x && decide (g.parseNo < n) && g.bindings.any fun b => binds.any fun l => listsConflict b.2 l

/-- The graph at a queue's HEAD has been parsed and is held (R138). -/
def State.holdGraph (s : State) (x q : Nat) : State :=
  let c := s.ctxAt x
  if c.heldGraphs.any (·.1 == q) then s
  else
    let t := s.setCtx x { c with heldGraphs := c.heldGraphs ++ [(q, s.sched.nextId)] }
    { t with sched := { t.sched with nextId := t.sched.nextId + 1 } }

/-- The graph at a queue's HEAD is held no more. -/
def State.dropHold (s : State) (x q : Nat) : State :=
  let c := s.ctxAt x
  s.setCtx x { c with heldGraphs := c.heldGraphs.filter (·.1 != q) }

/-- The packet at HEAD waits for its WAIT flag: an earlier packet of the queue has not completed (R269). -/
def State.waits (s : State) (x q : Nat) (wait : Bool) : Bool := wait && s.inFlight x q

/-- The queue cannot be parsed on: it is stopped or empty, its packet waits, or its graph has been parsed and is held (R138,
R269). -/
def State.queueBlocked (s : State) (x q : Nat) : Bool :=
  (s.ctxAt x).queueBusy q || (s.ctxAt x).heldGraphs.any (·.1 == q) ||
    match s.parse x q with
    | .ok (.packet _ p) => s.waits x q p.wait
    | .ok (.stop w _) => s.waits x q w
    | _ => true

/-- The queue's turn has come (R138): every queue whose tail write arrived earlier cannot be parsed on. -/
def State.queueTurn (s : State) (x q : Nat) : Bool :=
  let l := (s.ctxAt x).tailOrder
  l.any (·.1 == q) && (l.takeWhile (·.1 != q)).all fun e => s.queueBlocked x e.1

/-- Stop a queue and report it (R272, R340). -/
def State.stopQueue (s : State) (x q cause : Nat) : State :=
  match s.setQueueState x q 2 cause with
  | .ok t => (t.dropHold x q).postEvent x .queuePacket q
  | .error e => s.agentStop x 0 e

/-- HEAD moves past an accepted packet of `len` units (R269). -/
def State.advanceHead (s : State) (x q len : Nat) : Except Stop State := do
  let d ← s.readQueue x q
  let head := d.head + 64 * len
  let s1 ← s.agentWrite x ((s.ctxAt x).queueAddr q + 0x10) (bytesOfNat 8 head) false
  let c := s1.ctxAt x
  .ok (s1.setCtx x { c with tailOrder := c.tailOrder.filter fun e => e.1 != q || decide (head < e.2) })

/-- A packet completes with a status and is accepted (R269, R270). -/
def State.acceptPacket (s : State) (x q len ty status : Nat) (compl seq : Word) : Except Stop State := do
  let s1 ← s.writeCompletion x compl seq status ty
  s1.advanceHead x q len

/-- The front end's step on a packet of one type: another type is not this step's. -/
def packetStep (ty x q : Nat) (act : Packet → State → State) (s : State) : Result :=
  if x < 64 ∧ q < 16 then
    if (s.ctxAt x).queueBusy q ∨ s.queueTurn x q = false then .next s
    else
      match s.parse x q with
      | .error e => .next (s.agentStop x 0 e)
      | .ok .idle => .next s
      | .ok (.stop w c) => if s.waits x q w then .next s else .next (s.stopQueue x q c)
      | .ok (.packet _ p) => if p.ty ≠ ty ∨ s.waits x q p.wait = true then .next s else .next (act p s)
  else .fault .noSuchObject

/-- The front end sees a TAIL that the host has written (R269, R272): a bad value stops an ACTIVE queue. -/
def State.tailSeen (s : State) (x q v : Nat) : State :=
  match s.readQueue x q with
  | .error _ => s
  | .ok d =>
    if d.state ≠ 1 then s
    else if v % 64 ≠ 0 ∨ v < d.head ∨ d.head + d.size < v then s.stopQueue x q 6
    else
      let c := s.ctxAt x
      s.setCtx x { c with tailOrder := c.tailOrder ++ [(q, v)] }

/-- A context's queues are set up. -/
def Ctx.queuesUp (c : Ctx) : Bool := c.state != .free && c.state != .loading

/-- TAIL_WRITE (R269, R272). -/
def execTailWrite (ctx q : Nat) (value : Word) (s : State) : Result :=
  if ctx < 64 ∧ q < 16 then
    let c := s.ctxAt ctx
    if c.nqueue ≤ q ∨ c.queuesUp = false then .next s
    else
      match s.agentWrite ctx (c.queueAddr q + 0x18) (w8 value) false with
      | .ok t => .next (t.tailSeen ctx q value.toNat)
      | .error _ => .next s
  else .fault .noSuchObject

/-- A STOPPED queue becomes ACTIVE, with CAUSE and RESUME cleared, and the packet at HEAD is parsed again (R269, R272). -/
def State.resumeQueue (s : State) (x q : Nat) : State :=
  match s.readQueue x q with
  | .error _ => s
  | .ok d =>
    if d.state ≠ 2 then s
    else
      match s.agentWrite x ((s.ctxAt x).queueAddr q + 0x0C) [1#8, 0#8, 0#8, 0#8] false with
      | .error _ => s
      | .ok t =>
        let c := t.ctxAt x
        let again := d.tail % 64 = 0 ∧ d.head < d.tail ∧ d.tail ≤ d.head + d.size
        t.setCtx x { c with
          tailOrder := c.tailOrder ++ (if again ∧ c.tailOrder.all (fun e => e.1 != q || e.2 != d.tail) then [(q, d.tail)] else []) }

/-- QUEUE_RESUME (R269, R272): software writes RESUME. -/
def execQueueResume (ctx q : Nat) (s : State) : Result :=
  if ctx < 64 ∧ q < 16 then
    if (s.ctxAt ctx).nqueue ≤ q then .next s else .next (s.resumeQueue ctx q)
  else .fault .noSuchObject

/-- NOP_PACKET (R271). -/
def execNopPacket (ctx q : Nat) (s : State) : Result :=
  packetStep 7 ctx q (fun p t => t.agentDo' ctx 0 (t.acceptPacket ctx q p.len 7 0 p.compl p.seq)) s

/-! ## Loading and unloading -/

/-- The loader's checks 1 to 8 on a LOAD packet (R67, R68): the kernel is VERIFIED, or the packet completes.  DESIGN CHOICE
(log 160): an object that the loader cannot read raises an engine fault and its packet waits, and the status of a bad object for
a busy slot is that of checks 1 to 8. -/
def State.loadPacket (s : State) (x q : Nat) (p : Packet) : Except Stop State := do
  let b := p.bytes
  let obj ← s.agentRead x (leAt b 0x20 8) (leAt b 0x28 8) false
  let slot := leAt b 0x30 2
  let code := objCode obj
  let taken := (s.kernelIn x slot).isSome
  if code ≠ 0 ∨ taken = true then s.acceptPacket x q p.len 2 (if code ≠ 0 then code else 0x07) p.compl p.seq
  else
    let k := kernelOf obj slot (leAt b 0x38 8) (leAt b 0x40 8) (leAt b 0x48 8) (some (q, p.compl, p.seq))
    let s1 := s.enterChunks x k
    let c := s1.ctxAt x
    .ok (s1.setCtx x { c with kernels := c.kernels ++ [k] })

/-- LOAD_PACKET (R67, R68, R271). -/
def execLoadPacket (ctx q : Nat) (s : State) : Result :=
  packetStep 2 ctx q (fun p t => t.agentDo' ctx 0 (t.loadPacket ctx q p)) s

/-- The loader reports the relocation entry that ends a load (R65). -/
def State.tellReloc (s : State) (x : Nat) (k : Kernel) (code : Nat) : State :=
  match k.relocAt with
  | some e => if code = k.relocCode then { s with outbox := s.outbox ++ [.relocRejected x k.slot e.1 e.2] } else s
  | none => s

/-- The loader finishes a VERIFIED kernel (R67 to R69). -/
def State.finishLoad (s : State) (x : Nat) (k : Kernel) (room : Option (List Nat)) : Except Stop State :=
  match k.packet with
  | none => .ok s
  | some (q, compl, seq) =>
    let code := s.placeCode x k room
    let t := if code = 0 then s.placeKernel x k (room.getD []) else (s.dropKernel x k).tellReloc x k code
    t.acceptPacket x q 2 2 code compl seq

/-- KERNEL_LOAD_COMPLETE (R67, R68). -/
def execKernelLoadComplete (ctx slot : Nat) (room : Option (List Nat)) (s : State) : Result :=
  if ctx < 64 then
    match s.kernelIn ctx slot with
    | some k =>
      if k.state = .verified ∧ (s.ctxAt ctx).served = true then .next (s.agentDo' ctx 0 (s.finishLoad ctx k room)) else .next s
    | none => .next s
  else .fault .noSuchObject

/-- An UNLOAD packet (R69, R271).  DESIGN CHOICE (log 161): one for a slot in LOADING or VERIFIED, or with a packet that is not
yet answered, waits at HEAD. -/
def State.unloadPacket (s : State) (x q : Nat) (p : Packet) : Except Stop State :=
  let slot := leAt p.bytes 0x20 2
  match s.kernelIn x slot with
  | none => s.acceptPacket x q p.len 3 0x07 p.compl p.seq
  | some k =>
    if k.packet.isSome ∨ k.state = .loading ∨ k.state = .verified then .ok s
    else .ok (s.setKernel x { k with state := if s.kernelRuns x slot then .stale else .unloading, packet := some (q, p.compl, p.seq) })

/-- UNLOAD_PACKET (R69, R271). -/
def execUnloadPacket (ctx q : Nat) (s : State) : Result :=
  packetStep 3 ctx q (fun p t => t.agentDo' ctx 0 (t.unloadPacket ctx q p)) s

/-- The unload of a kernel ends (R69): the slot becomes ABSENT. -/
def State.finishUnload (s : State) (x : Nat) (k : Kernel) : Except Stop State :=
  match k.packet with
  | none => .ok (s.dropKernel x k)
  | some (q, compl, seq) => (s.dropKernel x k).acceptPacket x q 1 3 0 compl seq

/-- KERNEL_UNLOAD_COMPLETE (R69): a STALE kernel whose last shard has halted is UNLOADING. -/
def execKernelUnloadComplete (ctx slot : Nat) (s : State) : Result :=
  if ctx < 64 then
    match s.kernelIn ctx slot with
    | some k =>
      let due := k.state = .unloading ∨ (k.state = .stale ∧ s.kernelRuns ctx slot = false)
      if due then .next (s.agentDo' ctx 0 (s.finishUnload ctx k)) else .next s
    | none => .next s
  else .fault .noSuchObject

/-! ## Binding and retiring -/

/-- A descriptor image passes R136. -/
def bindImageOk (b : List Byte) : Bool :=
  let d := descOf b
  match ElemTy.ofCode d.tcode with
  | none => false
  | some t =>
    let odd := fun (v : Nat) => v % 2 == 1
    decide (1 ≤ d.ndim) && decide (d.ndim ≤ 5) &&
      ((List.range 5).all fun j => if j < d.ndim then d.extAt j != 0 else d.extAt j == 0) &&
      d.policy != 3 && byteAt b 7 == 0 && bitsAt (byteAt b 0x3A) 7 1 == 0 &&
      d.base % (max 1 (t.width / 8)) == 0 &&
      (if t.blockScaled then decide (d.qaxis < d.ndim) && d.shifts != 0 && d.shifts % 8 == 0
       else d.qaxis == 7 && d.shifts == 0) &&
      !(t.width == 4 && (odd (d.extAt 0) || (List.range 4).any fun j => decide (j + 1 < d.ndim) && odd (d.strAt (j + 1))))

/-- The image that a bind writes: VERSION and STATE are the device's (R271). -/
def boundImage (img : List Byte) (ver : Nat) : List Byte :=
  let v := byteAt img 0x3A
  overlay (overlay img 0x2C (bytesOfNat 4 ver)) 0x3A (bytesOfNat 1 (v - bitsAt v 5 2 * 32 + 32))

/-- The updates that graphs in flight have presented to a record so far are discarded (R143). -/
def State.dropPartials (s : State) (x r : Nat) : State :=
  let one := fun (g : Graph) => if g.ctx == x then { g with partials := g.partials.filter fun p => p.idx != r } else g
  { s with sched := { s.sched with graphs := s.sched.graphs.map one } }

/-- A BIND packet (R136, R137, R143). -/
def State.bindPacket (s : State) (x q : Nat) (p : Packet) : Except Stop State := do
  let idx := leAt p.bytes 0x20 2
  let img := (p.bytes.drop 0x40).take 64
  let d ← s.readDesc x idx true
  if d.live then s.acceptPacket x q p.len 4 0x11 p.compl p.seq
  else if bindImageOk img = false then s.acceptPacket x q p.len 4 0x10 p.compl p.seq
  else
    let s1 ← s.agentWrite x ((s.ctxAt x).descAddr idx) (boundImage img (leAt p.bytes 0x24 4)) true
    let c := s1.ctxAt x
    let r := (descOf img).record
    let s2 := (s1.setCtx x { c with records := recordSet c.records r (recordAt c.records r).cleared }).dropPartials x r
    s2.acceptPacket x q p.len 4 0 p.compl p.seq

/-- BIND_PACKET (R137, R271). -/
def execBindPacket (ctx q : Nat) (s : State) : Result :=
  packetStep 4 ctx q (fun p t => t.agentDo' ctx 0 (t.bindPacket ctx q p)) s

/-- A dispatched task of a context binds an index (R137). -/
def State.boundNow (s : State) (x idx : Nat) : Bool :=
  s.sched.groups.any fun g => g.ctx == x && g.bindings.any fun b => field b 0 16 == idx

/-- STATE of a descriptor becomes RETIRED (R137). -/
def State.retireDesc (s : State) (x idx : Nat) : Except Stop State := do
  let a := (s.ctxAt x).descAddr idx + 0x3A
  let b ← s.agentRead x a 1 true
  let v := byteAt b 0
  s.agentWrite x a (bytesOfNat 1 (v - bitsAt v 5 2 * 32 + 64)) true

/-- A RETIRE packet (R137): it waits for the dispatched tasks that bind the index. -/
def State.retirePacket (s : State) (x q : Nat) (p : Packet) : Except Stop State := do
  let idx := leAt p.bytes 0x20 2
  let d ← s.readDesc x idx true
  let c := s.ctxAt x
  if c.retirePending.any (·.1 == idx) then .ok s
  else if d.live = false then s.acceptPacket x q p.len 5 0x12 p.compl p.seq
  else if s.boundNow x idx then .ok (s.setCtx x { c with retirePending := c.retirePending ++ [(idx, q, p.compl, p.seq)] })
  else
    let s1 ← s.retireDesc x idx
    s1.acceptPacket x q p.len 5 0 p.compl p.seq

/-- RETIRE_PACKET (R137, R271). -/
def execRetirePacket (ctx q : Nat) (s : State) : Result :=
  packetStep 5 ctx q (fun p t => t.agentDo' ctx 0 (t.retirePacket ctx q p)) s

/-- The retires that wait for no dispatched task any more complete (R137). -/
def State.settleRetires (s : State) (x : Nat) : Except Stop State :=
  (s.ctxAt x).retirePending.foldlM (fun t r =>
    if t.boundNow x r.1 then .ok t
    else do
      let t1 ← t.retireDesc x r.1
      let c := t1.ctxAt x
      (t1.setCtx x { c with retirePending := c.retirePending.filter fun e => e.1 != r.1 }).acceptPacket x r.2.1 1 5 0 r.2.2.1 r.2.2.2) s

/-! ## Cancelling -/

/-- The dies whose front ends serve a context, ascending (R269). -/
def diesOf (part : BitVec 256) : List Nat := (List.range 4).filter fun d => (partCells part).any fun c => dieOf c == d

/-- The die whose front end serves a queue (R269). -/
def queueDie (part : BitVec 256) (q : Nat) : Nat :=
  let ds := diesOf part
  ds.getD (q % max 1 ds.length) 0

/-- The tasks of the graphs that a CANCEL packet names, TCB index ascending (R271). -/
def State.cancelTargets (s : State) (x graphNo : Nat) : List Nat :=
  let le := fun (a b : Nat) => decide (a ≤ b)
  ((s.sched.graphs.filter fun g => g.ctx == x && g.graphNo == graphNo).flatMap fun g => g.tasks.map (·.1)).mergeSort le

/-- A CANCEL packet (R271, R285). -/
def State.cancelPacket (s : State) (x q : Nat) (p : Packet) : Except Stop Work := do
  let no := leAt p.bytes 0x20 4
  if s.sched.graphs.any fun g => g.ctx == x && g.graphNo == no then
    let w ← cancelAll x (queueDie (s.ctxAt x).part q) (s.cancelTargets x no) ⟨s, []⟩
    let s1 ← w.s.acceptPacket x q p.len 6 0 p.compl p.seq
    .ok { w with s := s1 }
  else
    let s1 ← s.acceptPacket x q p.len 6 0x13 p.compl p.seq
    .ok ⟨s1, []⟩

/-- CANCEL_PACKET (R271, R285). -/
def execCancelPacket (ctx q : Nat) (s : State) : Result :=
  packetStep 6 ctx q (fun p t => t.agentDo ctx 0 (t.cancelPacket ctx q p)) s

end Sys2Proof.Machine
end

