-- ==== Sys2Proof/Machine/Admission.lean ====
section
/-! DEFINITION. GRAPH packets: their checks, the hold, the shape and its key, admission, and the start of a recording or a run
(R138, R142, R273, R314, R320, R321, R327). -/

namespace Sys2Proof.Machine

open Sys2Proof

/-! ## The packet -/

/-- A GRAPH packet's fields (R273). -/
structure GraphIn where
  tcb0 : Nat
  nt : Nat
  ne : Nat
  guardBase : Nat
  nguard : Nat
  graphNo : Nat
  images : List (List Byte)
  edges : List (Nat × Nat)
  deriving DecidableEq, Repr

/-- The fields of a GRAPH packet. -/
def graphIn (b : List Byte) : GraphIn :=
  let nt := leAt b 0x24 2
  let ne := leAt b 0x26 2
  let e0 := 0x40 + 128 * nt
  { tcb0 := leAt b 0x20 4, nt := nt, ne := ne, guardBase := leAt b 0x28 8, nguard := leAt b 0x30 2, graphNo := leAt b 0x34 4
    images := (List.range nt).map fun j => (b.drop (0x40 + 128 * j)).take 128
    edges := (List.range ne).map fun j => (leAt b (e0 + 4 * j) 2, leAt b (e0 + 4 * j + 2) 2) }

/-- The parts of a GRAPH body that R273 fixes of itself. -/
def graphBodyOk (p : Packet) (tcbCount : Nat) : Bool :=
  let g := graphIn p.bytes
  decide (1 ≤ g.nt) && decide (g.nt ≤ 4096) && decide (g.ne ≤ 16384) && p.len == 1 + 2 * g.nt + ceilDiv (4 * g.ne) 64 &&
    g.guardBase % 8 == 0 && decide (g.nguard ≤ 256) && (g.guardBase != 0 || g.nguard == 0) && leAt p.bytes 0x32 2 == 0 &&
    leAt p.bytes 0x38 8 == 0 && allZero (p.bytes.drop (0x40 + 128 * g.nt + 4 * g.ne)) && decide (g.tcb0 + g.nt ≤ tcbCount) &&
    (g.edges.all fun e => decide (e.1 < e.2) && decide (e.2 < g.nt)) && g.edges.eraseDups.length == g.edges.length &&
    (g.images.all imageOk) &&
    ((List.range g.nt).all fun j => decide ((g.edges.filter (·.1 == j)).length ≤ 8 + tcbSuccCap (g.images.getD j [])))

/-- Two unordered tasks of a graph have conflicting bindings (R138). -/
def graphConflict (g : GraphIn) (binds : List (List (BitVec 32))) : Bool :=
  (List.range g.nt).any fun i =>
    let after := predsOf g.edges i
    (List.range i).any fun j =>
      !(after.contains j) && listsConflict (binds.getD i []) (binds.getD j [])

/-! ## The shape (R314) -/

/-- The length of an argument block in bytes (R311). -/
def argLength (alen : Nat) : Nat := 64 * (if alen = 0 then 16 else alen)

/-- ROOT and SHAPE_ARGS of the kernel in a task's slot; zeros while the slot is empty. -/
def State.shapeKernel (s : State) (x : Nat) (img : List Byte) : Digest × List Nat :=
  match s.kernelIn x (tcbKslot img) with
  | some k => (k.root, k.shapeArgs)
  | none => (0, [])

/-- Staging descriptors that a header names, as far as one block holds them. -/
def headStages (h : List Byte) : Nat := min 8 (leAt h 4 2)

/-- Items 3 to 5 of a local task: its shape bytes, or none where the argument block breaks R314. -/
def State.taskBytes (s : State) (x : Nat) (img : List Byte) (binds : List (BitVec 32)) : Except Stop (Option (List Byte)) := do
  let (root, args) := s.shapeKernel x img
  let h ← s.agentRead x (tcbArgs img) 16 false
  let alen := leAt h 8 2
  if 1024 < alen ∨ args.any (fun j => decide (argLength alen < 8 * j + 8)) = true then .ok none
  else
    let item4 ← binds.mapM fun b => do
      let d ← s.agentRead x ((s.ctxAt x).descAddr (field b 0 16)) 64 true
      .ok (bytesOfNat 1 (field b 16 4) ++ shapeBytes d)
    let stages ← (List.range (headStages h)).mapM fun j => do
      let d ← s.agentRead x (tcbArgs img + 16 + 128 * j) 128 false
      .ok (List.replicate 16 0#8 ++ (d.drop 0x10).take 0x58 ++ List.replicate 16 0#8 ++ d.drop 0x78)
    let named ← args.mapM fun j => s.agentRead x (tcbArgs img + 8 * j) 8 false
    .ok (some (digestBytes root ++ (img.drop 0x28).take 24 ++ bytesOfNat 1 (byteAt img 0xE) ++ bytesOfNat 1 (byteAt img 0xF) ++
      bytesOfNat 4 (tcbPred img) ++ bytesOfNat 1 (if tcbFut img = 0 then 0 else 1) ++ bytesOfNat 2 (tcbNbind img) ++
      item4.flatten ++ h ++ stages.flatten ++ named.flatten))

/-- The ASCII text of item 1. -/
def shapeTag : List Byte := [0x42, 0x4D, 0x36, 0x34, 0x30, 0x2D, 0x53, 0x48, 0x41, 0x50, 0x45, 0x2D, 0x31]

/-- An access that serves the task of a TCB: the record of a fault there names it (R397). -/
def serving {α : Type} (tcb : Nat) (r : Except Stop α) : Except (Nat × Stop) α :=
  match r with
  | .ok a => .ok a
  | .error e => .error (tcb, e)

/-- G address of the TCB of a graph's local task. -/
def State.localTcb (s : State) (x : Nat) (g : GraphIn) (j : Nat) : Nat := (s.ctxAt x).tcbAddr (g.tcb0 + j)

/-- The key of a graph (R314), or none where an argument block breaks it. -/
def State.shapeKey (s : State) (x : Nat) (g : GraphIn) (binds : List (List (BitVec 32))) : Except (Nat × Stop) (Option Digest) := do
  let tasks ← (List.range g.nt).mapM fun j =>
    serving (s.localTcb x g j) (s.taskBytes x (g.images.getD j []) (binds.getD j []))
  if tasks.any Option.isNone then .ok none
  else
    let head := shapeTag ++ bytesOfNat 1 s.dev.gangSize ++ bytesOfNat 2 g.nt ++ bytesOfNat 2 g.ne
    let edges := g.edges.flatMap fun e => bytesOfNat 2 e.1 ++ bytesOfNat 2 e.2
    .ok (some (sha3 (head ++ tasks.flatMap (fun t => t.getD []) ++ edges)))

/-! ## Plates at admission (R320, R321, R327) -/

/-- Plates that the store holds (R326). -/
def plateMax : Nat := 4096

/-- A place in the plate store: a RETIRED plate is evicted first, then the one that was run least recently and is not in a
run (R327). -/
def evictPlate (l : List Plate) : Option (List Plate) :=
  if l.length < plateMax then some l
  else
    match l.find? (·.state == .retired) with
    | some p => some (l.filter (·.key != p.key))
    | none =>
      match l.filter fun p => (p.state == .sealed || p.state == .refined) && p.run.isNone with
      | [] => none
      | p :: t =>
        let old := t.foldl (fun a b => if b.lastRun < a.lastRun then b else a) p
        some (l.filter (·.key != old.key))

/-- A plate that is to be recorded (R315, R320). -/
def State.newPlate (s : State) (g : Graph) (key : Digest) (roots : List Digest) : Plate :=
  let c := s.ctxAt g.ctx
  { key := key, digest := 0, gen := 0, state := .recording, ndev := s.dev.gangSize, kerns := roots.eraseDups, guards := [],
    imposition := List.replicate g.nt (List.replicate 16 0#8), nt := g.nt, hback := 0, conf := c.conf,
    ctx := if c.conf then g.ctx else 0, edges := g.edges.map fun e => (e.1 - g.tcb0, e.2 - g.tcb0),
    sections := [⟨s.dev.devIndex, s.health g.ctx, (partCells c.part).map fun i => (i, [])⟩], run := some g.id, heads := [],
    handback := false, due := false, lastRun := g.id }

/-- What an admission does with its key's plate (R321, R327): it is run, recorded, or the graph is dynamic. -/
def State.startPlate (s : State) (g : Graph) (key : Digest) (roots : List Digest) : Except Stop State :=
  match s.sched.plates.find? (·.key == key) with
  | some p0 =>
    if (p0.state = .sealed ∨ p0.state = .refined) ∧ p0.run = none ∧ (p0.conf = false ∨ p0.ctx = g.ctx) then
      let s1 := s.refinePlate p0
      match s1.sched.plates.find? (·.key == key) with
      | none => .ok s1
      | some p =>
        match s1.ownSection p with
        | none => .ok s1
        | some t =>
          let p1 := { p.clearStalls with run := some g.id, heads := [], handback := false, lastRun := g.id,
                                         edges := g.edges.map fun e => (e.1 - g.tcb0, e.2 - g.tcb0) }
          let g1 := { g with running := true }
          let s2 := (s1.setPlate p1).setGraph g1
          if t.health = s1.health g.ctx then .ok s2 else s2.handBack p1 g1
    else .ok s
  | none =>
    match evictPlate s.sched.plates with
    | none => .ok s
    | some l =>
      let p := s.newPlate g key roots
      let s1 : State := { s with sched := { s.sched with plates := l ++ [p] } }
      if plateBytesMax < p.size then .ok (s1.setPlate (Plate.redigest { p with state := .retired, run := none }))
      else .ok (s1.setGraph { g with recording := true })

/-! ## Admission (R273) -/

/-- The TCB that admission writes for a local task. -/
def admittedTcb (g : GraphIn) (j : Nat) : List Byte :=
  let img := g.images.getD j []
  let succ := (g.edges.filter (·.1 == j)).map fun e => g.tcb0 + e.2
  let pred := tcbPred img + (g.edges.filter (·.2 == j)).length
  let inl := (succ.take 8).flatMap (bytesOfNat 4)
  let b1 := overlay img 0 (statewBytes (if pred = 0 then 1 else 2) 0 0 false)
  let b2 := overlay b1 8 (bytesOfNat 4 pred)
  let b3 := overlay b2 0x22 (bytesOfNat 2 succ.length)
  let b4 := overlay b3 0x48 (inl ++ List.replicate (32 - inl.length) 0#8)
  overlay b4 0x70 (bytesOfNat 4 g.graphNo)

/-- The successors beyond the eighth go to the overflow array (R274). -/
def State.putOverflow (s : State) (x : Nat) (g : GraphIn) (j : Nat) : Except Stop State :=
  let more := (((g.edges.filter (·.1 == j)).map fun e => g.tcb0 + e.2).drop 8).flatMap (bytesOfNat 4)
  if more.isEmpty then .ok s else s.agentWrite x (tcbSuccPtr (g.images.getD j [])) more true

/-- A PRED that would pass 2^32 − 1 cannot be set (R273, R288). -/
def predsFit (g : GraphIn) : Bool :=
  (List.range g.nt).all fun j => decide (tcbPred (g.images.getD j []) + (g.edges.filter (·.2 == j)).length < 2 ^ 32)

/-- The graph that a packet admits. -/
def State.newGraph (s : State) (x q : Nat) (p : Packet) (g : GraphIn) (binds : List (List (BitVec 32))) (key : Digest)
    (shapes : List (Nat × List Byte)) : Graph :=
  { id := s.sched.nextId, parseNo := s.parseNo x q, ctx := x, queue := q, graphNo := g.graphNo, seq := p.seq, compl := p.compl,
    die := queueDie (s.ctxAt x).part q, tcb0 := g.tcb0, nt := g.nt, edges := g.edges.map fun e => (g.tcb0 + e.1, g.tcb0 + e.2),
    guardBase := wordOfNat g.guardBase, nguard := g.nguard, guards := [],
    tasks := (List.range g.nt).map fun j => (g.tcb0 + j, none),
    bindings := (List.range g.nt).map fun j => (g.tcb0 + j, binds.getD j []),
    atAdmission := (s.ctxAt x).records, partials := [], root := g.nt, counters := [], ended := [], shape := key,
    recording := false, running := false, issued := [], heldReady := [], shapes := shapes,
    imagePreds := ((List.range g.nt).filter fun j => tcbPred (g.images.getD j []) != 0).map (g.tcb0 + ·) }

/-- The descriptors' bytes of item 4 at admission, by tensor index (R323). -/
def State.shapesOf (s : State) (x : Nat) (binds : List (List (BitVec 32))) : Except Stop (List (Nat × List Byte)) :=
  ((binds.flatten.map fun b => field b 0 16).eraseDups).mapM fun i => do
    let d ← s.agentRead x ((s.ctxAt x).descAddr i) 64 true
    .ok (i, shapeBytes d)

/-- Admission of a parsed graph (R273): the TCBs are written, the plate is looked up, tasks with PRED 0 become READY and the
packet is accepted. -/
def State.admitGraph (s : State) (x q : Nat) (p : Packet) (g : GraphIn) (binds : List (List (BitVec 32))) (key : Digest) :
    Except (Nat × Stop) State := do
  let s1 ← (List.range g.nt).foldlM (fun t j => do
    let t1 ← serving (s.localTcb x g j) (t.writeTcb x (g.tcb0 + j) 0 (admittedTcb g j))
    serving (s.localTcb x g j) (t1.putOverflow x g j)) s
  let shapes ← serving 0 (s1.shapesOf x binds)
  let h := s1.newGraph x q p g binds key shapes
  let s2 : State := { s1 with sched := { s1.sched with graphs := s1.sched.graphs ++ [h], nextId := h.id + 1 } }
  let s3 ← serving 0 (s2.startPlate h key (g.images.map fun i => (s.shapeKernel x i).1))
  let s4 ← (List.range g.nt).foldlM (fun t j =>
    if leAt (admittedTcb g j) 8 4 = 0 then serving (s.localTcb x g j) (t.makeReady x (g.tcb0 + j) h.die) else .ok t) s3
  serving 0 ((s4.dropHold x q).advanceHead x q p.len)

/-- How a GRAPH packet is taken (R138, R272, R273). -/
inductive GraphEnd where
  | stop (cause : Nat)
  | held
  | admitted (s : State)
  deriving DecidableEq, Repr

/-- The front end parses a GRAPH packet. -/
def State.graphPacket (s : State) (x q : Nat) (p : Packet) : Except (Nat × Stop) GraphEnd := do
  let c := s.ctxAt x
  if graphBodyOk p c.tcbCount = false ∨ predsFit (graphIn p.bytes) = false then .ok (.stop 4)
  else
    let g := graphIn p.bytes
    let tcbs ← (List.range g.nt).mapM fun j => serving (s.localTcb x g j) (s.readTcb x (g.tcb0 + j))
    if ((List.range g.nt).all fun j => s.tcbOpen x (g.tcb0 + j) (tcbs.getD j [])) = false then .ok (.stop 4)
    else
      let binds ← (List.range g.nt).mapM fun j => serving (s.localTcb x g j) (s.readBinds x (g.images.getD j []))
      match ← s.shapeKey x g binds with
      | none => .ok (.stop 4)
      | some key =>
        if graphConflict g binds then .ok (.stop 5)
        else if s.graphHeld x (s.parseNo x q) binds then .ok .held
        else do
          let t ← s.admitGraph x q p g binds key
          .ok (.admitted t)

/-- GRAPH_PACKET (R138, R272, R273): the packet is admitted, held, or stops its queue. -/
def execGraphPacket (ctx q : Nat) (s : State) : Result :=
  packetStep 1 ctx q (fun p t =>
    match t.graphPacket ctx q p with
    | .error e => t.agentStop ctx e.1 e.2
    | .ok (.stop c) => t.stopQueue ctx q c
    | .ok .held => t.holdGraph ctx q
    | .ok (.admitted u) => u) s

/-- GRAPH_ADMISSION (R138, R273): a graph that nothing holds any more is admitted. -/
def execGraphAdmission (ctx q : Nat) (s : State) : Result :=
  packetStep 1 ctx q (fun p t =>
    match t.graphPacket ctx q p with
    | .error e => t.agentStop ctx e.1 e.2
    | .ok (.admitted u) => u
    | .ok _ => t) s

end Sys2Proof.Machine
end

