-- ==== Sys2Proof/Machine/Collective.lean ====
section
/-! DEFINITION. COLL and the collectives (R360 to R365). -/

namespace Sys2Proof.Machine

open Sys2Proof

/-! ## Descriptors -/

/-- A collective descriptor (R362). -/
structure CollDesc where
  src : Nat
  dst : Nat
  count : Nat
  op : Nat
  red : Nat
  tcode : Nat
  scope : Nat
  root : Nat
  srcG : Bool
  dstG : Bool
  pres : Bool
  didx : Nat
  /-- every reserved byte and bit is zero -/
  clean : Bool
  deriving DecidableEq, Repr

/-- The fields of a 64-byte collective descriptor (R362). -/
def collDescOf (b : List Byte) : CollDesc :=
  let ctl := byteAt b 0x1C
  { src := leAt b 0 8, dst := leAt b 8 8, count := leAt b 0x10 4, op := byteAt b 0x14, red := byteAt b 0x15,
    tcode := byteAt b 0x16, scope := byteAt b 0x17, root := leAt b 0x18 4, srcG := bitsAt ctl 0 1 == 1,
    dstG := bitsAt ctl 1 1 == 1, pres := bitsAt ctl 2 1 == 1, didx := leAt b 0x1E 2,
    clean := bitsAt ctl 3 5 == 0 && byteAt b 0x1D == 0 && allZero ((b.drop 0x20).take 32) }

/-- The element type of a descriptor that obeys R362. -/
def CollDesc.ty (d : CollDesc) : ElemTy := (ElemTy.ofCode d.tcode).getD .f32

/-- A type that a reduction accepts (R362). -/
def reduceTy (t : ElemTy) : Bool :=
  match t with
  | .f32 | .bf16 | .f16 | .i32 | .n32 | .i64 | .n64 => true
  | _ => false

/-- An operation that reduces: ALLREDUCE and REDUCESCATTER. -/
def CollDesc.reduces (d : CollDesc) : Bool := decide (d.op < 2)

/-- Source elements of a participant among `n` (R362). -/
def CollDesc.srcElems (d : CollDesc) (n : Nat) : Nat := if d.op = 1 then n * d.count else d.count

/-- Destination elements of a participant among `n` (R362). -/
def CollDesc.dstElems (d : CollDesc) (n : Nat) : Nat := if d.op = 2 then n * d.count else d.count

/-- Bytes of an element. -/
def CollDesc.elemBytes (d : CollDesc) : Nat := d.ty.width / 8

/-- Source bytes. -/
def CollDesc.srcBytes (d : CollDesc) (n : Nat) : Nat := d.srcElems n * d.elemBytes

/-- Destination bytes. -/
def CollDesc.dstBytes (d : CollDesc) (n : Nat) : Nat := d.dstElems n * d.elemBytes

/-- The fields obey R362 for a participant among `n` (R364, check 2). -/
def CollDesc.ok (d : CollDesc) (n : Nat) (gang : Bool) : Bool :=
  d.clean && decide (1 ≤ d.count) && decide (d.count ≤ 2 ^ 28) && decide (d.op < 4) && decide (d.red < 3) &&
    (d.reduces || d.red == 0) && (ElemTy.ofCode d.tcode).isSome &&
    (if d.reduces then reduceTy d.ty else decide (8 ≤ d.ty.width)) && (d.scope == 2 || d.scope == 3 || (d.scope == 4 && gang)) &&
    (if d.op = 3 then decide (d.root < n) else d.root == 0) && decide (d.srcBytes n ≤ 2 ^ 32) && decide (d.dstBytes n ≤ 2 ^ 32)

/-- The digest that participants compare (R364). -/
def CollDesc.digest (d : CollDesc) : Digest :=
  sha3 (bytesOfNat 1 d.op ++ bytesOfNat 1 d.red ++ bytesOfNat 1 d.tcode ++ bytesOfNat 1 d.scope ++ bytesOfNat 4 d.count ++
    bytesOfNat 4 d.root)

/-! ## Participants (R361) -/

/-- The rank count of a collective of a group (R361). -/
def State.collRanks (s : State) (g : Group) (scope : Nat) : Nat :=
  if scope = 2 then g.p else if scope = 3 then g.p * g.q else g.p * g.q * s.dev.gangSize

/-- The participants on this device that pair with shard `n`, as rank and shard, ranks ascending. -/
def State.collLocals (s : State) (g : Group) (scope n : Nat) : List (Nat × Nat) :=
  if scope = 2 then (List.range g.p).map fun c => (c, g.p * (n / g.p) + c)
  else
    let base := if scope = 4 then s.dev.devIndex * (g.p * g.q) else 0
    (List.range (g.p * g.q)).map fun k => (base + k, k)

/-- The gang context exists on every device of the gang (R361). -/
def State.inGang (s : State) (x : Nat) : Bool := (s.ctxAt x).gang || s.dev.gangSize == 1

/-! ## COLL (R364) -/

/-- Check 5 on one buffer, with its captured translations. -/
def State.collBuffer (s : State) (inG_ : Bool) (a : Access) (addr n : Nat) : Except Stop (List HeldFrame) :=
  if inG_ then
    if inG addr n then
      match s.resolveG (some s.cellNo) s.ctxNo a addr n with
      | .ok ps => .ok (framesOf ps)
      | .error e => .error e
    else .error (.fault .accessRange (wordOfNat addr))
  else if inS addr n then .ok []
  else .error (.fault .accessRange (wordOfNat addr))

/-- The address that check 5 reports of a buffer in S that leaves the window: the windows are tested before any page. -/
def collOutside (g : Bool) (addr n : Nat) : Option Nat := if g || inS addr n then none else some addr

/-- Check 6: equal or disjoint buffers, equal for ALLREDUCE and BROADCAST only. -/
def CollDesc.apart (d : CollDesc) (n : Nat) : Bool :=
  d.srcG != d.dstG || decide (d.src + d.srcBytes n ≤ d.dst) || decide (d.dst + d.dstBytes n ≤ d.src) ||
    (d.src == d.dst && (d.op == 0 || d.op == 3))

/-- Collectives that a cell's queue holds (R364). -/
def collMax : Nat := 4

/-- Check 3 (R364): the record, HBASE and type that PRES presents to. -/
def State.collShown (s : State) (d : CollDesc) : Except Stop (Option (Nat × Int × ElemTy)) :=
  if d.pres then
    match s.useDesc d.didx .w false with
    | .ok t =>
      if t.ty.blockScaled = false ∧ t.ty = d.ty then .ok (some (t.record, t.hbase, t.ty)) else .error (.fault .operandFormat 0)
    | .error e => .error e
  else .ok none

/-- COLL (R364): no participant is a handler's. -/
def execColl (a : BitVec 6) (x : BitVec 5) (p : BitVec 1) (s : State) : Result :=
  let at_ := s.bank.readA a.toNat
  if aligned at_ 64 = false then .next (s.raise .a .align at_)
  else
    finish s .a do
      let bs ← s.rd .s false at_ 64
      let d := collDescOf bs
      match s.curGroup with
      | none => .error (.fault .operandFormat 0)
      | some g =>
        let n := s.collRanks g d.scope
        if d.ok n (s.inGang s.ctxNo) = false then .error (.fault .operandFormat 0)
        else
          let shown ← s.collShown d
          let b := s.bank.barrier x.toNat
          if b.live = false ∨ b.ring = true then .error (.fault .operandFormat 0)
          else
            rangeFault (collOutside d.srcG d.src (d.srcBytes n))
            rangeFault (collOutside d.dstG d.dst (d.dstBytes n))
            let sf ← s.collBuffer d.srcG (Access.load s.level) d.src (d.srcBytes n)
            let df ← s.collBuffer d.dstG (Access.store s.level) d.dst (d.dstBytes n)
            if d.apart n = false then .error (.fault .operandFormat 0)
            else if collMax ≤ s.bank.eng.collQ.length then .error .wait
            else
              let e := s.bank.eng
              let o : CollOp :=
                { desc := bs, bx := x.toNat, par := p == 1#1, ordinal := e.collIssued, digest := d.digest, srcFrames := sf,
                  dstFrames := df, shown := shown, done := false, seqa := s.bank.sr.seqa }
              let b1 := { s.bank with eng := { e with collQ := e.collQ ++ [o], collIssued := e.collIssued + 1 } }
              .ok ((s.setBank b1).retire .a 1)

/-! ## The values (R363) -/

/-- A source or destination buffer as memory parts: the captured translations stand for G pages (R219). -/
def collParts (inG_ : Bool) (x cell : Nat) (frames : List HeldFrame) (addr n : Nat) : List RowPart :=
  if inG_ then (partsOf addr n).map fun p => ⟨some p.1, frameKey frames p.1, p.2, 0⟩
  else [⟨none, spadKey x cell addr, n, 0⟩]

/-- The combination of two integers of a type (R363). -/
def combineInt (signed : Bool) (w red : Nat) (u v : Nat) : Nat :=
  let less := if signed then decide (sextNat u w < sextNat v w) else decide (u < v)
  if red = 0 then (u + v) % 2 ^ w else if red = 1 then (if less then v else u) else if less then u else v

/-- The combination of two floating values (R363). -/
def combineNum (red : Nat) (u v : Num) : Num :=
  if red = 0 then decodeElem .f32 false (roundElem .f32 true false .rne (addNum false u v).v).bits
  else if red = 1 then maxNum u v
  else minNum u v

/-- red(e) over the ranks' patterns, rank 0 first (R363). -/
def reduceElem (t : ElemTy) (red : Nat) (l : List Nat) : Nat :=
  match t.int? with
  | some (sg, w) =>
    match l with
    | [] => 0
    | v :: vs => vs.foldl (combineInt sg w red) v
  | none =>
    match l.map (decodeElem t false) with
    | [] => 0
    | v :: vs => (roundElem t true false .rne (vs.foldl (combineNum red) v)).bits

/-- Element `e` of a rank's source. -/
def elemOf (w : Nat) (src : List Byte) (e : Nat) : Nat := leAt src (w * e) w

/-- The destination bytes of a rank, from every rank's source in rank order (R363). -/
def CollDesc.result (d : CollDesc) (rank : Nat) (srcs : List (List Byte)) : List Byte :=
  let w := d.elemBytes
  let red := fun (e : Nat) => reduceElem d.ty d.red (srcs.map fun x => elemOf w x e)
  match d.op with
  | 0 => (List.range d.count).flatMap fun e => bytesOfNat w (red e)
  | 1 => (List.range d.count).flatMap fun e => bytesOfNat w (red (rank * d.count + e))
  | 2 => srcs.flatMap fun x => x.take (w * d.count)
  | _ => (srcs.getD d.root []).take (w * d.count)

/-! ## Completion (R364, R365) -/

/-- A participant on this device: its rank, cell, bank, place and the collective. -/
structure Part where
  rank : Nat
  cell : Nat
  place : BankPlace
  bank : Bank
  op : CollOp
  deriving DecidableEq, Repr

/-- The shard of a group on a cell and its bank. -/
def State.shardBankOf (s : State) (g : Group) (n : Nat) : Option (Nat × BankPlace × Bank) :=
  match g.cells[n]? with
  | none => none
  | some c =>
    let p := s.bankPlace g.ctx c
    match s.bankIn p g.ctx c with
    | some b => if b.ctl.group = some g.id then some (c, p, b) else none
    | none => none

/-- The participant of a shard: its first collective that is not written has the ordinal. -/
def State.partOf (s : State) (g : Group) (ordinal : Nat) (r : Nat × Nat) : Option Part :=
  match s.shardBankOf g r.2 with
  | none => none
  | some (c, p, b) =>
    match b.eng.collQ.find? fun o => !o.done with
    | some o => if o.ordinal = ordinal then some ⟨r.1, c, p, b, o⟩ else none
    | none => none

/-- Every image that a participant's S buffers lie in is held by its cell (R209, R267). -/
def State.partHeld (s : State) (x n : Nat) (p : Part) : Bool :=
  let d := collDescOf p.op.desc
  let held := fun (addr len : Nat) =>
    (List.range (len / 65536 + 2)).all fun i => s.imageHeld x p.cell (min (addr + 65536 * i) (addr + len - 1))
  (d.srcG || held d.src (d.srcBytes n)) && (d.dstG || held d.dst (d.dstBytes n))

/-- The source bytes of a participant on this device. -/
def State.partSource (s : State) (x n : Nat) (p : Part) : Except Stop (List Byte) :=
  let d := collDescOf p.op.desc
  s.readParts (collParts d.srcG x p.cell p.op.srcFrames d.src (d.srcBytes n))

/-- Change the collective of an ordinal in a bank's queue. -/
def Bank.mapColl (b : Bank) (ordinal : Nat) (f : CollOp → CollOp) : Bank :=
  { b with eng := { b.eng with collQ := b.eng.collQ.map fun o => if o.ordinal = ordinal then f o else o } }

/-- Drop the collective of an ordinal from a bank's queue. -/
def Bank.dropColl (b : Bank) (ordinal : Nat) : Bank :=
  { b with eng := { b.eng with collQ := b.eng.collQ.filter (·.ordinal != ordinal) } }

/-- The elements that a collective under PRES has written (R363). -/
def presentedOf (t : ElemTy) (bs : List Byte) : List (Num × Bool) :=
  (List.range (8 * bs.length / t.width)).map fun i => (decodeElem t false (leAt bs (t.width / 8 * i) (t.width / 8)), false)

/-- A participant's destination is written (R363). -/
def State.writePart (s : State) (x n : Nat) (srcs : List (List Byte)) (p : Part) : Except Stop State := do
  let d := collDescOf p.op.desc
  let bs := d.result p.rank srcs
  let s1 ← s.writeParts (collParts d.dstG x p.cell p.op.dstFrames d.dst (d.dstBytes n)) bs
  match s1.bankIn p.place x p.cell with
  | none => .ok s1
  | some b =>
    let (s2, b2) := match p.op.shown with
      | some (i, h, t) => s1.present b p.cell none i h (presentedOf t bs)
      | none => (s1, b)
    .ok (s2.setBankIn p.place x p.cell (b2.mapColl p.op.ordinal fun o => { o with done := true }))

/-- The collective of paired participants ends without writing, and their context takes a fault at the lowest rank (R360,
R364). -/
def State.abandon (s : State) (x : Nat) (c : Cause) (fva : Nat) (ps : List Part) : State :=
  let s1 := ps.foldl (fun t p => t.mapBankIn p.place x p.cell fun b => b.dropColl p.op.ordinal) s
  match ps with
  | [] => s1
  | p :: _ => s1.raiseEngineIn p.place x p.cell ⟨2, c, wordOfNat fva, 2, p.op.seqa, none⟩

/-- The source bytes of a rank: a participant's on this device, or those that came from another. -/
def State.rankSource (s : State) (x n : Nat) (ps : List Part) (remote : List RemoteSource) (r : Nat) : Except Stop (List Byte) :=
  match ps.find? (·.rank == r) with
  | some p => s.partSource x n p
  | none =>
    match remote.find? (·.rank == r) with
    | some f => .ok f.data
    | none => .ok []

/-- Every participant on this device reads and writes. -/
def State.moveAll (s : State) (x n : Nat) (ps : List Part) (remote : List RemoteSource) : Except Stop State := do
  let srcs ← (List.range n).mapM (s.rankSource x n ps remote)
  ps.foldlM (fun t p => t.writePart x n srcs p) s

/-- The data of a collective move, once every participant has reached it (R361, R363, R364). -/
def State.runCollective (s : State) (g : Group) (d : CollDesc) (ordinal shard : Nat) (remote : List RemoteSource) : State :=
  let x := g.ctx
  let n := s.collRanks g d.scope
  let locals := s.collLocals g d.scope shard
  let ps := locals.filterMap (s.partOf g ordinal)
  if ps.length ≠ locals.length then s
  else
    match if d.scope = 4 then s.unreachable x else none with
    | some k => s.abandon x .link k ps
    | none =>
      if ps.all (fun p => p.op.digest = d.digest) = false then s.abandon x .operandFormat 0 ps
      else
        let far := (List.range n).filter fun r => !(locals.any (·.1 == r))
        let given := far.map fun r => remote.find? (·.rank == r)
        if given.any Option.isNone then s
        else if given.any (fun o => o.any fun r => r.digest ≠ d.digest || r.data.length ≠ d.srcBytes n) then s.abandon x .operandFormat 0 ps
        else if ps.all (s.partHeld x n) = false then s
        else
          match s.moveAll x n ps remote with
          | .ok t => t
          | .error (.lost k) => s.loseCtx x 2 0 (wordOfNat (physOf k)) noCell 0 0 (wordOfNat g.tcb) 0
          | .error _ => s

/-- A written collective arrives at its barrier, where it is LIVE, and completes (R240, R365); an arrival at GANG scope is a
release there (R360). -/
def State.finishColl (s : State) (p : BankPlace) (x c : Nat) : State :=
  match s.bankIn p x c with
  | none => s
  | some b =>
    match b.eng.collQ with
    | [] => s
    | o :: rest =>
      let drop := fun (t : Bank) => { t with eng := { t.eng with collQ := rest, collSeq := t.eng.collSeq + 1 } }
      if o.done then
        let v := b.barrier o.bx
        if v.live = false then s.setBankIn p x c (drop b)
        else
          match v.item 1 0 o.par with
          | .applied w => (s.setBankIn p x c (drop (b.putBarrier o.bx w))).gangRelease (v.scope == 4) p x c o.seqa
          | .full => s
          | .beyond =>
            (s.setBankIn p x c { b with eng := { b.eng with collQ := rest } }).raiseEngineIn p x c ⟨2, .barrierOver, 0, 2, o.seqa, none⟩
      else s

/-- A bank has a collective that may move. -/
def State.canCollect (s : State) (q : BankPlace × Nat) (b : Bank) : Bool :=
  match b.eng.collQ with
  | [] => false
  | o :: _ => o.done || s.mayBegin q b

/-- COLLECTIVE_COMPLETE (R361 to R365). -/
def execCollectiveComplete (cell : Nat) (remote : List RemoteSource) (s : State) : Result :=
  if cell < 256 then
    match s.placeWhere cell s.canCollect with
    | none => .next s
    | some (p, x) =>
      match s.bankIn p x cell with
      | none => .next s
      | some b =>
        match b.eng.collQ, b.ctl.group.bind s.groupAt with
        | o :: _, some g =>
          let s1 := if o.done then s else s.runCollective g (collDescOf o.desc) o.ordinal b.ctl.shardNo remote
          .next (s1.finishColl p x cell)
        | _, _ => .next s
  else .fault .noSuchObject

end Sys2Proof.Machine
end

