-- ==== Sys2Proof/Machine/Control.lean ====
section
/-! DEFINITION. Private transfers and shared control (R115 to R123). -/

namespace Sys2Proof.Machine

open Sys2Proof

/-- The condition of a cond field's low three bits (R93). -/
def condHolds (c : Nat) (x y : Word) : Bool :=
  match c with
  | 0 => x == y
  | 1 => x != y
  | 2 => x.slt y
  | 3 => y.sle x
  | 4 => x.ult y
  | _ => y.ule x

/-- Continue at `target` when `taken`, else past the `len` words of a private transfer. -/
def State.privateTransfer (s : State) (len : Nat) (taken : Bool) (target : Word) : State :=
  if taken then s.retireTo len target else s.retire .a len

/-- B (R115). -/
def execB (o : BitVec 22) (s : State) : Result := .next (s.retireTo 1 (s.bank.sr.pca + (o.signExtend 64 <<< 2)))

/-- CALL (R115): a63 := pc + 4. -/
def execCall (o : BitVec 22) (s : State) : Result :=
  .next ((s.setBank (s.bank.writeA 63 (s.bank.sr.pca + 4))).retireTo 1 (s.bank.sr.pca + (o.signExtend 64 <<< 2)))

/-- BC of R116; `off` is in bytes. -/
def bcOp (len : Nat) (c : BitVec 4) (a b : BitVec 6) (off : Word) (s : State) : Result :=
  .next (s.privateTransfer len (condHolds c.toNat (s.bank.readA a.toNat) (s.bank.readA b.toNat)) (s.bank.sr.pca + off))

/-- BC (R116). -/
def execBc (c : BitVec 4) (a b o : BitVec 6) (s : State) : Result := bcOp 1 c a b (o.signExtend 64 <<< 2) s
/-- BC, long form (R116). -/
def execBcL (c : BitVec 4) (a b : BitVec 6) (o : BitVec 30) (s : State) : Result := bcOp 2 c a b (o.signExtend 64 <<< 2) s

/-- RET (R117). -/
def execRet (a : BitVec 6) (s : State) : Result := .next (s.retireTo 1 (s.bank.readA a.toNat))

/-- JI (R117): the target is read before a[d] is written. -/
def execJi (d a : BitVec 6) (s : State) : Result :=
  .next ((s.setBank (s.bank.writeA d.toNat (s.bank.sr.pca + 4))).retireTo 1 (s.bank.readA a.toNat))

/-- BQP of R118. -/
def bqpOp (len : Nat) (a : BitVec 6) (off : Word) (s : State) : Result :=
  if a.toNat < 8 then
    let v := s.bank.readLc a.toNat
    let s1 := if v = 0 then s else s.setBank (s.bank.writeLc a.toNat (v - 1))
    .next (s1.privateTransfer len (v != 0) (s.bank.sr.pca + off))
  else s.pcFault .a .operandIllegal

/-- BQP (R118). -/
def execBqp (a o : BitVec 6) (s : State) : Result := bqpOp 1 a (o.signExtend 64 <<< 2) s
/-- BQP, long form (R118). -/
def execBqpL (a : BitVec 6) (o : BitVec 30) (s : State) : Result := bqpOp 2 a (o.signExtend 64 <<< 2) s

/-! ## The branch queue -/

/-- The number of shared control instructions a stream has executed (R84). -/
def Bank.sharedCount (b : Bank) : Stream → Nat
  | .a => b.q.kA
  | .x => b.q.kX

/-- Set slot `i` of bq and count one shared control instruction of a stream. -/
def Bank.bqStep (b : Bank) (st : Stream) (i : Nat) (v : Option BqSlot) : Bank :=
  { b with q := { b.q with bq := vset b.q.bq i v
                           kA := if st = .a then b.q.kA + 1 else b.q.kA
                           kX := if st = .x then b.q.kX + 1 else b.q.kX } }

/-- Count a wait on bq (R86); of the A stream's waits, those as consumer are losses of decoupling (R85). -/
def State.countBq (s : State) (loss : Bool) : State :=
  let s1 := s.count fun c => { c with bqWait := satInc c.bqWait (Config.stallCycles s.freeCtr) }
  if loss then s1.countLossWait else s1

/-- The producer's side of a shared control instruction (R84): put the outcome, waiting while the slot is occupied.  That wait
is no cut: a consumer that has stopped ends it at the watchdog (R89, R341). -/
def putOutcome (st : Stream) (len : Nat) (taken : Bool) (target : Word) (s : State) : Result :=
  let k := s.bank.sharedCount st
  let i := k % 64
  match vget s.bank.q.bq i none with
  | some _ => .next ((s.countBq false).stall st)
  | none =>
    let s1 := s.setBank (s.bank.bqStep st i (some ⟨k, s.bank.pc st, taken⟩))
    .next (if taken then s1.retireShared st len target else s1.retire st len)

/-- The outcome of the stream's own shared control instruction `k` in its slot (R84): an earlier one that has not been taken
is another's. -/
def Bank.outcome (b : Bank) (k : Nat) : Option BqSlot := (vget b.q.bq (k % 64) none).filter (·.k == k)

/-- The consumer's side (R84): take the outcome, checking the address. -/
def takeOutcome (st : Stream) (len : Nat) (target : Word) (s : State) : Result :=
  let k := s.bank.sharedCount st
  match s.bank.outcome k with
  | none => .next ((s.countBq (st == .a)).stallPeer st)
  | some e =>
    if e.addr = s.bank.pc st then
      let s1 := s.setBank (s.bank.bqStep st (k % 64) none)
      let s2 := if st = .a then s1.countLoss else s1
      .next (if e.taken then s2.retireShared st len target else s2.retire st len)
    else .next (s.raise st .operandFormat 0)

/-- The fault of an S word whose operands break their limits (R50): once, in both streams. -/
def sharedIllegal (s : State) : Result := .next (s.sharedFault .operandIllegal (s.bank.pc s.turn))

/-- BQ of R119. -/
def bqOp (len : Nat) (c : BitVec 4) (a b : BitVec 6) (off : Word) (s : State) : Result :=
  let st := s.turn
  let byX := c.getLsbD 3
  let target := s.bank.pc st + off
  if byX && (decide (32 ≤ a.toNat) || decide (32 ≤ b.toNat)) then sharedIllegal s
  else if byX = true ∧ st = .x then
    putOutcome st len (condHolds (c.toNat % 8) (s.bank.readX a.toNat) (s.bank.readX b.toNat)) target s
  else if byX = false ∧ st = .a then
    putOutcome st len (condHolds (c.toNat % 8) (s.bank.readA a.toNat) (s.bank.readA b.toNat)) target s
  else takeOutcome st len target s

/-- BQ (R119). -/
def execBq (c : BitVec 4) (a b o : BitVec 6) (s : State) : Result := bqOp 1 c a b (o.signExtend 64 <<< 2) s
/-- BQ, long form (R119). -/
def execBqL (c : BitVec 4) (a b : BitVec 6) (o : BitVec 30) (s : State) : Result := bqOp 2 c a b (o.signExtend 64 <<< 2) s

/-- LOOP (R120): skip the body when lc is 0. -/
def execLoop (c : BitVec 6) (o : BitVec 16) (s : State) : Result :=
  if c.toNat < 8 ∧ o ≠ 0 then
    let target := s.bank.pc s.turn + wordOfNat (4 * o.toNat + 4)
    match s.turn with
    | .a => putOutcome .a 1 (s.bank.readLc c.toNat == 0) target s
    | .x => takeOutcome .x 1 target s
  else sharedIllegal s

/-- ENDL (R120): count lc down, and repeat the body while it is not 0.  A producer that waits changes nothing. -/
def execEndl (c : BitVec 6) (o : BitVec 16) (s : State) : Result :=
  if c.toNat < 8 ∧ o ≠ 0 then
    let target := s.bank.pc s.turn - wordOfNat (4 * o.toNat) + 4
    match s.turn with
    | .a =>
      let v := s.bank.readLc c.toNat
      let n := if v = 0 then v else v - 1
      if (vget s.bank.q.bq (s.bank.q.kA % 64) none).isSome then putOutcome .a 1 (n != 0) target s
      else putOutcome .a 1 (n != 0) target (s.setBank (s.bank.writeLc c.toNat n))
    | .x => takeOutcome .x 1 target s
  else sharedIllegal s

/-! ## Words at which the streams meet -/

/-- A stream stands at the word `w`: it may move, no slip stall holds it, and its region is entered. -/
def State.standsAt (s : State) (st : Stream) (w : IWord) : Bool :=
  s.canRun st && decide (s.bank.lead st < s.bank.window st) && (s.bank.entryWord st).any (·.1 == w)

/-- SYNC's word (R121). -/
def syncWord : IWord := 0x80C00000#32

/-- HALT's word (R305). -/
def haltWord : IWord := 0x81800000#32

/-- SYNC (R121): both streams retire it when each stands at one. -/
def execSync (s : State) : Result :=
  if s.standsAt s.turn.other syncWord then
    .next ((s.setBank ((s.bank.retire .a 1).retire .x 1)).countLoss)
  else .next ((if s.turn = .a then s.countLossWait else s).stallPeer s.turn)

/-- WIN (R122): the executing stream's copy. -/
def execWin (n : BitVec 16) (s : State) : Result :=
  if 1 ≤ n.toNat ∧ n.toNat ≤ 4096 then
    let v := n.setWidth 64
    let b := s.bank.mapSr fun r => match s.turn with
      | .a => { r with windowA := v }
      | .x => { r with windowX := v }
    .next ((s.setBank b).retire s.turn 1)
  else sharedIllegal s

/-- sr.fpc of a stream (R39). -/
def Bank.fpc (b : Bank) : Stream → Word
  | .a => b.sr.fpcA
  | .x => b.sr.fpcX

/-- FPC sets the executing stream's copy (R123). -/
def setFpc (v : Word) (s : State) : Result :=
  let b := s.bank.mapSr fun r => match s.turn with
    | .a => { r with fpcA := v }
    | .x => { r with fpcX := v }
  .next ((s.setBank b).retire s.turn 1)

/-- The RM codes FPC accepts (R40, R123). -/
def rmOk (r : BitVec 3) : Bool := r != 0#3 && r != 7#3

/-- FPC mode 0 (R123): DAZ, FTZ and RM. -/
def execFpcAll (z f : BitVec 1) (r : BitVec 3) (s : State) : Result :=
  if rmOk r then setFpc ((z ++ f ++ r).setWidth 64) s else sharedIllegal s

/-- FPC mode 1 (R123): RM. -/
def execFpcRm (r : BitVec 3) (s : State) : Result :=
  if rmOk r then setFpc (putField (s.bank.fpc s.turn) 0 3 r.toNat) s else sharedIllegal s

/-- FPC mode 2 (R123): DAZ and FTZ. -/
def execFpcDazFtz (z f : BitVec 1) (s : State) : Result :=
  setFpc (putField (s.bank.fpc s.turn) 3 2 (z ++ f).toNat) s

end Sys2Proof.Machine
end

