-- ==== Sys2Proof/Machine/Groups.lean ====
section
/-! DEFINITION. Dispatch, stealing, formation, staging, the start of shards and the completion of a group (R277 to R281, R299
to R302, R306, R307, R311, R312, R320). -/

namespace Sys2Proof.Machine

open Sys2Proof

/-! ## Placement (R299, R301, R316) -/

/-- Blocks of `p` shards of one die: the cells that each asks for. -/
def blockCells (p : Nat) : List Nat := (List.range (ceilDiv p 8)).map fun b => min 8 (p - 8 * b)

/-- The clusters of a die, by number of the device. -/
def clustersOf (die : Nat) : List Nat := (List.range 8).map fun k => 8 * die + k

/-- Cells 0 to n − 1 of a cluster. -/
def clusterCells (cluster n : Nat) : List Nat := (List.range n).map fun k => 8 * cluster + k

/-- Put a number before the first of a list that weighs more. -/
def insertBy (weight : Nat → Nat) (a : Nat) : List Nat → List Nat
  | [] => [a]
  | b :: t => if weight a ≤ weight b then a :: b :: t else b :: insertBy weight a t

/-- Numbers in the order in which a dispatcher prefers them: the lightest first, and as listed at a tie (R278, R301). -/
def byWeight (weight : Nat → Nat) (l : List Nat) : List Nat := l.foldr (insertBy weight) []

/-- The weight of a die: the fewest READY tasks of a cell 0 that may be chosen there. -/
def dieWeight (load : Nat → Nat) (zero : Nat → Bool) (die : Nat) : Nat :=
  match ((clustersOf die).filter fun c => zero (8 * c)).map fun c => load (8 * c) with
  | [] => 0
  | w :: t => t.foldl min w

/-- Choose a cluster for each block, the listed clusters in order. -/
def assignBlocks (ok : Nat → Nat → Bool) : List Nat → List Nat → Option (List Nat)
  | _, [] => some []
  | cl, n :: rest =>
    match cl.find? fun c => ok c n with
    | none => none
    | some c => (assignBlocks ok (cl.filter (· != c)) rest).map (c :: ·)

/-- The cells of the shards of one die, or none where its clusters do not suffice. -/
def dieCells (ok : Nat → Bool) (clusters : List Nat) (p : Nat) : Option (List Nat) :=
  let fits := fun (c n : Nat) => (clusterCells c n).all ok
  (assignBlocks fits clusters (blockCells p)).map fun l => (l.zip (blockCells p)).flatMap fun q => clusterCells q.1 q.2

/-- Choose cells for `q` dies, the listed dies in order; `load` weighs the cells 0. -/
def assignDies (load : Nat → Nat) (ok : Nat → Bool) (p : Nat) : List Nat → Nat → Option (List Nat)
  | _, 0 => some []
  | [], _ + 1 => none
  | d :: ds, n + 1 =>
    match dieCells ok (byWeight (fun c => load (8 * c)) (clustersOf d)) p with
    | some l => (assignDies load ok p ds n).map (l ++ ·)
    | none => assignDies load ok p ds (n + 1)

/-- The cells that formation chooses under R301: the home cell fixes block 0 of the die with d = 0, and the other clusters and
dies are chosen as a home is, by the READY tasks of their cells 0. -/
def chooseCells (load : Nat → Nat) (ok : Nat → Bool) (home p q : Nat) : Option (List Nat) :=
  if p * q = 1 then (if ok home then some [home] else none)
  else
    let d := dieOf home
    let first := home / 8
    let here := first :: byWeight (fun c => load (8 * c)) ((clustersOf d).filter (· != first))
    let others := byWeight (dieWeight load ok) ((List.range 4).filter (· != d))
    if (clusterCells first (min 8 p)).all ok then
      match dieCells ok here p, assignDies load ok p others (q - 1) with
      | some a, some b => some (a ++ b)
      | _, _ => none
    else none

/-- The cells that an imposition row gives (R316). -/
def imposedCells (row : List Byte) (p q : Nat) : List Nat :=
  let bits := leAt row 2 12
  if p * q = 1 then [byteAt row 0]
  else (List.range q).flatMap fun d =>
    let die := bitsAt (byteAt row 1) (2 * d) 2
    (List.range p).map fun c => 64 * die + 8 * bitsAt bits (3 * (8 * d + c / 8)) 3 + c % 8

/-- The imposition row of a group's placement (R316). -/
def rowOf (home p q : Nat) (cells : List Nat) : List Byte :=
  let at0 := fun (n : Nat) => cells.getD n 0
  let dies := (List.range q).foldl (fun a d => a + dieOf (at0 (p * d)) * 2 ^ (2 * d)) 0
  let pairs := (List.range q).flatMap fun d => (List.range (ceilDiv p 8)).map fun b => (8 * d + b, at0 (p * d + 8 * b) / 8 % 8)
  bytesOfNat 1 home ++ bytesOfNat 1 dies ++ bytesOfNat 12 (pairs.foldl (fun a e => a + e.2 * 2 ^ (3 * e.1)) 0) ++ [0#8, 0#8]

/-- The partition can hold the group on distinct dies, busy or not (R299). -/
def partHolds (part : BitVec 256) (p q : Nat) : Bool :=
  if p * q = 1 then !(partCells part).isEmpty else (assignDies (fun _ => 0) (fun c => part.getLsbD c) p (List.range 4) q).isSome

/-! ## The checks of dispatch (R279, R299, R311) -/

/-- An argument header (R311). -/
structure ArgHead where
  spsize : Nat
  nstage : Nat
  baseOff : Nat
  alen : Nat
  clean : Bool
  deriving DecidableEq, Repr

/-- The fields of an argument header. -/
def argHead (h : List Byte) : ArgHead := ⟨leAt h 0 4, leAt h 4 2, leAt h 6 2, leAt h 8 2, leAt h 0xA 6 == 0⟩

/-- A header keeps R311, its staging descriptors apart. -/
def ArgHead.ok (h : ArgHead) : Bool :=
  let len := argLength h.alen
  h.clean && h.spsize % 4096 == 0 && decide (h.spsize ≤ spadBytes) && decide (h.nstage ≤ 8) && (h.spsize != 0 || h.nstage == 0) &&
    decide (h.alen ≤ 1024) && decide (16 + 128 * h.nstage ≤ len) &&
    (h.baseOff == 0xFFFF || (h.baseOff % 8 == 0 && decide (16 + 128 * h.nstage ≤ h.baseOff) && decide (h.baseOff + 8 ≤ len)))

/-- A staging descriptor keeps R252, R253 and R311. -/
def stageOk (spsize : Nat) (b : List Byte) : Bool :=
  let d := copyDescOf b
  d.sspace == 3 && d.dspace == 0 && !d.pres && !d.bpeer && d.bcell == 0 && d.formOk .cpy 0 false false &&
    (d.total == 0 ||
      (boxFault ⟨0, spsize⟩ (d.spans false [] (wrap64 d.dst) d.dstr) d.total (d.dstAddr .cpy [] 0)).isNone)

/-- The launch extents keep R299. -/
def extsOk (part : BitVec 256) (k : Kernel) (exts : List Nat) : Bool :=
  ((List.range 6).all fun j =>
    match k.launch[j]? with
    | some l => decide (1 ≤ exts.getD j 0) && decide (exts.getD j 0 ≤ l.2)
    | none => exts.getD j 0 == 0) &&
    partHolds part (kindProduct (groupLevels k exts) .cells) (kindProduct (groupLevels k exts) .dies)

/-- What a passed dispatch knows of its task. -/
structure Passed where
  kernel : Kernel
  binds : List (BitVec 32)
  head : ArgHead
  stages : List (List Byte)
  deriving DecidableEq, Repr

/-- Every binding names a LIVE descriptor with no retire pending, with reserved bits zero (R279). -/
def State.bindsLive (s : State) (x : Nat) : List (BitVec 32) → Except Stop Bool
  | [] => .ok true
  | b :: t => do
    let d ← s.readDesc x (field b 0 16) true
    if field b 20 12 ≠ 0 ∨ d.live = false ∨ (s.ctxAt x).retirePending.any (·.1 == field b 0 16) = true then .ok false
    else s.bindsLive x t

/-- The checks of dispatch, in order: none is a failure of the task. -/
def State.dispatchChecks (s : State) (x : Nat) (b : List Byte) : Except Stop (Option Passed) :=
  match (s.ctxAt x).runnable (tcbKslot b) with
  | none => .ok none
  | some k => do
    let binds ← s.readBinds x b
    let live ← s.bindsLive x binds
    if live = false ∨ extsOk (s.ctxAt x).part k (tcbExts b) = false then .ok none
    else
      let h ← s.agentRead x (tcbArgs b) 16 false
      let head := argHead h
      if head.ok = false then .ok none
      else
        let stages ← (List.range head.nstage).mapM fun j => s.agentRead x (tcbArgs b + 16 + 128 * j) 128 false
        if stages.all (stageOk head.spsize) then .ok (some ⟨k, binds, head, stages⟩) else .ok none

/-! ## Forming a group (R302, R306) -/

/-- A cell can be held for a group of a context (R302). -/
def State.unheld (s : State) (x c : Nat) : Bool := (s.ctxAt x).part.getLsbD c && (s.cellAt c).held.isNone

/-- The group of a task that has passed dispatch, its cells not chosen (R300, R306). -/
def State.newGroup (s : State) (x i home : Nat) (b : List Byte) (p : Passed) (graph : Nat) (snapshot : List (Nat × StatRecord)) :
    Group :=
  { id := s.sched.nextId, ctx := x, graph := graph, tcb := (s.ctxAt x).tcbAddr i, kslot := p.kernel.slot, home := home,
    state := .requested, exts := tcbExts b, p := kindProduct (groupLevels p.kernel (tcbExts b)) .cells,
    q := kindProduct (groupLevels p.kernel (tcbExts b)) .dies, cells := [], halted := [],
    args := wordOfNat (tcbArgs b), prio := tcbCprio b, spsize := p.head.spsize, baseOff := p.head.baseOff, stages := p.stages,
    base := none, stagesDone := 0, bindings := p.binds, snapshot := snapshot, folds := 0, gone := [], plateBase := none }

/-- A group has its cells: allocation and staging may follow (R302, R312). -/
def Group.on (g : Group) (cells : List Nat) : Group := { g with state := .held, cells := cells, halted := cells.map fun _ => false }

/-- A group enters the schedule in formation (R306); its task stays READY until its shards start (R276, R299). -/
def State.addGroup (s : State) (g : Group) : State :=
  { s with sched := { s.sched with groups := s.sched.groups ++ [g], nextId := g.id + 1 } }

/-- The graph of a task that forms a group, and the task's snapshot (R142). -/
def State.formOrigin (s : State) (x i : Nat) : Nat × List (Nat × StatRecord) :=
  match s.graphOf x i with
  | some h => (h.id, h.snapshotFor i)
  | none => (0, [])

/-- A group's cells are held (R302). -/
def State.holdCells (s : State) (g : Group) : State := g.cells.foldl (fun t c => t.setCell c { t.cellAt c with held := some g.id }) s

/-- A context's schedule runs (R342, R343). -/
def State.scheduled (s : State) (x : Nat) : Bool := (s.ctxAt x).state == .active && !(s.ctxAt x).swapping

/-- The formation arbiter serves the first request, in order of arrival, that a schedule lets it serve (R302): the request
waits where too few cells are unheld. -/
def State.arbitrate (s : State) : State :=
  match s.sched.groups.find? fun g => g.state == .requested && s.scheduled g.ctx with
  | none => s
  | some g =>
    match chooseCells (fun c => (s.cellAt c).readyCount) (s.unheld g.ctx) g.home g.p g.q with
    | some cells => (s.setGroup (g.on cells)).holdCells (g.on cells)
    | none => s

/-- A kernel's tasks may be dispatched on the dies of these cells (R75). -/
def Kernel.eagerReady (k : Kernel) (cells : List Nat) : Bool := !k.eager || cells.all fun c => k.eagerDone.getLsbD (dieOf c)

/-- A task that fails its dispatch becomes FAILED and completes; TASK_STATE follows (R279, R280). -/
def State.failTask (s : State) (x i die : Nat) : Except Stop Work := do
  let w ← ((s.dequeue x i).dropForming x i).endTask x i 8 die
  let tcb := (s.ctxAt x).tcbAddr i
  .ok { w with faults := w.faults ++ [⟨.taskState, tcb, tcb⟩] }

/-- Dispatch of task `i` with home cell `home` (R279, R302, R306): a formation request, or the task fails. -/
def State.dispatch (s : State) (x i home : Nat) : Except Stop Work := do
  let b ← s.readTcb x i
  match ← s.dispatchChecks x b with
  | none => s.failTask x i (dieOf home)
  | some p =>
    let o := s.formOrigin x i
    .ok ⟨s.addGroup (s.newGroup x i home b p o.1 o.2), []⟩

/-! ## Dispatch decisions (R277) -/

/-- The dispatchers issue new tasks: the power controller allows it (R19). -/
def State.mayIssue (s : State) : Bool := !s.dev.inhibit && s.dev.state == .ready

/-- The first task of the highest level of a cell whose context is scheduled. -/
def State.headTask (s : State) (cell : Nat) : Option ReadyTask :=
  (s.cellAt cell).ready.toList.flatten.find? fun t => s.scheduled t.ctx

/-- Decisions that promote a task (R277). -/
def passLimit : Nat := 4096

/-- The tasks that a decision on one task leaves at a level, and those that it promotes. -/
def passLevel (took : ReadyTask → Bool) (level : Nat) (l : List ReadyTask) : List ReadyTask × List ReadyTask :=
  let l1 := l.map fun t => if took t then t else { t with passed := t.passed + 1 }
  let stays := fun (t : ReadyTask) => took t || level == 0 || decide (t.passed < passLimit)
  (l1.filter stays, l1.filter fun t => !(stays t))

/-- A decision passes by every task but the one that it takes on a cell (R277): a task passed by 4,096 times moves up, and
its CPRIO with it. -/
def State.passBy (s : State) (cell x i : Nat) : Except Stop State := do
  let c := s.cellAt cell
  let split := (List.range 4).map fun l => passLevel (fun t => t.ctx == x && t.tcb == i) l (vget c.ready l [])
  let up := (List.range 4).flatMap fun l => ((split.getD l ([], [])).2).map fun t => (l - 1, t)
  let ready : Vector (List ReadyTask) 4 := Vector.ofFn fun l =>
    (split.getD l.val ([], [])).1 ++ (up.filter (·.1 == l.val)).map fun e => { e.2 with passed := 0 }
  up.foldlM (fun t e => do
    let b ← t.readTcb e.2.ctx e.2.tcb
    t.writeTcb e.2.ctx e.2.tcb 0 (statewBytes (tcbState b) e.1 (tcbHome b) (tcbCxl b))) (s.setCell cell { c with ready := ready })

/-- An entry at the head of a cell's lane in a run: its plate, graph, section, position and the entry (R321). -/
structure LaneHead where
  plate : Plate
  graph : Graph
  sect : Section
  pos : Nat
  entry : PlateEntry
  deriving DecidableEq, Repr

/-- The head of a cell's lane in the run of one plate, its context scheduled. -/
def State.headOf (s : State) (cell : Nat) (p : Plate) : Option LaneHead :=
  match p.run.bind s.graphAt, s.ownSection p with
  | some g, some t =>
    let n := laneCounter p g t cell
    if g.running && s.scheduled g.ctx then ((t.lane cell)[n]?).map fun e => ⟨p, g, t, n, e⟩ else none
  | _, _ => none

/-- An entry's wait set is met (R319). -/
def State.waitMet (s : State) (p : Plate) (g : Graph) (t : Section) (e : PlateEntry) : Bool :=
  e.waits.all fun w =>
    if elemK w then
      match s.readTcb g.ctx (g.tcb0 + e.loc.getD 0) with
      | .ok b => tcbPred b == 0
      | .error _ => false
    else decide (elemCount w ≤ laneCounter p g t (elemLane w))

/-- A TASK entry at its lane's head can issue (R321). -/
def State.canIssue (s : State) (h : LaneHead) : Bool :=
  s.waitMet h.plate h.graph h.sect h.entry && h.entry.loc.any fun l => !(h.graph.issued.contains l)

/-- An entry at the head of a cell's lane can issue, and goes before the cell's own queue (R321). -/
def State.laneFirst (s : State) (cell : Nat) : Bool := (s.sched.plates.filterMap (s.headOf cell)).any s.canIssue

/-- A decision's step in the name of a task (R277, R279): those that it passes by are counted. -/
def State.decideTask (s : State) (cell x i : Nat) : Except Stop Work := do
  let w ← s.dispatch x i cell
  let s1 ← w.s.passBy cell x i
  .ok { w with s := s1 }

/-- A decision's result. -/
def State.afterDispatch (s : State) (x i : Nat) (r : Except Stop Work) : State := s.agentDo x ((s.ctxAt x).tcbAddr i) r

/-- A decision can be taken on a cell (R19, R302, R321): it is not held, no request of its own waits at the arbiter, and no
lane entry goes first. -/
def State.mayDecide (s : State) (cell : Nat) : Bool :=
  s.mayIssue && (s.cellAt cell).held.isNone && !(s.laneFirst cell) &&
    !(s.sched.groups.any fun g => g.state == .requested && g.home == cell)

/-- TASK_DISPATCH (R277, R279, R302, R312): a decision does not wait for the cell's bank; the task stays READY in the queue
until its shards start, where it may be cancelled (R285). -/
def execTaskDispatch (cell : Nat) (s : State) : Result :=
  if cell < 256 then
    match if s.mayDecide cell then s.headTask cell else none with
    | some t => .next (s.afterDispatch t.ctx t.tcb (s.decideTask cell t.ctx t.tcb)).arbitrate
    | none => .next s.arbitrate
  else .fault .noSuchObject

/-! ## Stealing (R281) -/

/-- The cells of a range of numbers other than one. -/
def otherCells (lo n c : Nat) : List Nat := ((List.range n).map (lo + ·)).filter (· != c)

/-- A cell may steal: its streams have halted, its queue is empty and its bank is free. -/
def Cell.mayStealNow (c : Cell) : Bool := c.free && c.held.isNone && c.readyCount == 0 && c.steal.victim.isNone && !c.steal.backoff

/-- Change a cell's steal progress. -/
def State.setSteal (s : State) (c : Nat) (v : StealState) : State := s.setCell c { s.cellAt c with steal := v }

/-- STEAL_REQUEST (R281): the first two requests of a round stay in the cluster, the next four in the die. -/
def execStealRequest (cell : Nat) (s : State) : Result :=
  if cell < 256 then
    let c := s.cellAt cell
    if c.mayStealNow = true ∧ c.steal.sent < 6 then
      let v := Config.lfsrNext c.steal.lfsr
      let l := if c.steal.sent < 2 then otherCells (cell / 8 * 8) 8 cell else otherCells (cell / 64 * 64) 64 cell
      let victim := l.getD (Config.stealPick v l.length % l.length) cell
      .next (s.setSteal cell { c.steal with lfsr := v, sent := c.steal.sent + 1, victim := some victim })
    else .next s
  else .fault .noSuchObject

/-- A task that a victim may give away: its group is one cell, NOSTEAL is 0, and the stealer is in its partition. -/
def State.stealable (s : State) (cell : Nat) (t : ReadyTask) : Bool :=
  s.scheduled t.ctx && (s.ctxAt t.ctx).part.getLsbD cell &&
    match s.readTcb t.ctx t.tcb with
    | .ok b => s.oneCell t.ctx b && !(tcbNosteal b)
    | .error _ => false

/-- The last such task of the victim's level of lowest priority that holds one. -/
def State.stealFrom (s : State) (cell victim : Nat) : Option ReadyTask :=
  [3, 2, 1, 0].findSome? fun l => ((vget (s.cellAt victim).ready l []).filter (s.stealable cell)).getLast?

/-- A stolen task leaves its victim, with any request of its own, and stands in the stealer's queue; TCB HOME stays (R281). -/
def State.takeStolen (s : State) (cell level : Nat) (t : ReadyTask) : State :=
  ((s.dropForming t.ctx t.tcb).dequeue t.ctx t.tcb).enqueue t.ctx t.tcb cell level

/-- The level that holds a task of a cell's queue. -/
def State.levelOf (s : State) (cell : Nat) (t : ReadyTask) : Nat :=
  ((List.range 4).find? fun l => (vget (s.cellAt cell).ready l []).contains t).getD 0

/-- STEAL_ANSWER (R281): a held victim answers empty; the stealer dispatches what it gets, once tasks may issue (R19). -/
def execStealAnswer (cell : Nat) (s : State) : Result :=
  if cell < 256 then
    let c := s.cellAt cell
    match c.steal.victim with
    | none => .next s
    | some v =>
      match if (s.cellAt v).held.isSome ∨ c.free = false ∨ c.held.isSome then none else s.stealFrom cell v with
      | none => .next (s.setSteal cell { c.steal with victim := none, backoff := decide (6 ≤ c.steal.sent) })
      | some t =>
        let s1 := (s.setSteal cell { c.steal with victim := none, sent := 0 }).takeStolen cell (s.levelOf v t) t
        if s.mayIssue then .next (s1.afterDispatch t.ctx t.tcb (s1.decideTask cell t.ctx t.tcb)).arbitrate else .next s1
  else .fault .noSuchObject

/-- STEAL_BACKOFF_EXPIRY (R281). -/
def execStealBackoffExpiry (cell : Nat) (s : State) : Result :=
  if cell < 256 then
    let c := s.cellAt cell
    if c.steal.backoff then .next (s.setSteal cell { c.steal with backoff := false, sent := 0 }) else .next s
  else .fault .noSuchObject

/-! ## Staging (R312) -/

/-- The allocations of the tasks that run or are staged on any of the cells (R312). -/
def State.allocations (s : State) (cells : List Nat) : List (Nat × Nat) :=
  s.sched.groups.filterMap fun g =>
    match g.base with
    | some b => if g.cells.any cells.contains then some (b, g.spsize) else none
    | none => none

/-- The base of a group (R312): the entry's in a run, else the lowest; none while no base is clear of the other allocations. -/
def State.baseFor (s : State) (g : Group) : Option Nat :=
  let used := s.allocations g.cells
  match g.plateBase with
  | some b => if used.all fun u => !(overlaps (b, g.spsize) u) then some b else none
  | none => lowestBase used g.spsize

/-- The base is chosen and written at BASEOFF (R312). -/
def State.allocate (s : State) (g : Group) : Except Stop State :=
  match s.baseFor g with
  | none => .ok s
  | some b => do
    let s1 ← if g.baseOff = 0xFFFF then .ok s else s.agentWrite g.ctx (g.args.toNat + g.baseOff) (bytesOfNat 8 b) true
    .ok (s1.setGroup { g with base := some b, state := if g.stages.isEmpty then .ready else .staging })

/-- STAGING_BASE_ALLOCATE (R312). -/
def execStagingBaseAllocate (grp : Nat) (s : State) : Result :=
  match s.groupAt grp with
  | some g => if g.state = .held ∧ s.scheduled g.ctx = true then .next (s.agentDo' g.ctx g.tcb (s.allocate g)) else .next s
  | none => .next s

/-- A staging copy faults (R312): staging begins again from the first copy after the handler. -/
def State.stageFault (s : State) (g : Group) (c : Cause) (fva : Nat) : State :=
  (s.setGroup { g with stagesDone := 0 }).raiseDevice g.ctx c (wordOfNat fva) (wordOfNat g.tcb)

/-- The bytes of a staging copy move (R257, R312). -/
def State.stageCopy (s : State) (g : Group) (d : CopyDesc) : State :=
  let m : Mover := ⟨g.ctx, g.home, false, g.cells, .task⟩
  let r := s.gather m d .cpy [] (g.base.getD 0) d.total 0 ⟨[], [], [], .ran⟩
  let done := s.setGroup { g with stagesDone := g.stagesDone + 1, state := if g.stages.length ≤ g.stagesDone + 1 then .ready else g.state }
  match r.stop with
  | .fault c a | .replay c a => s.stageFault g c a
  | .lost k => s.loseCtx g.ctx 2 0 (wordOfNat k) noCell 0 0 (wordOfNat g.tcb) 0
  | .wait => s
  | .ran =>
    match done.putBytes (r.bytes.flatMap fun b => b.keys.map fun k => (k, b.val)) with
    | .ok t => t
    | .error k => s.loseCtx g.ctx 2 0 (wordOfNat k) noCell 0 0 (wordOfNat g.tcb) 0

/-- The next staging copy of a group: its checks, its version and its bytes (R256, R257, R312). -/
def State.stageNext (s : State) (g : Group) : State :=
  let d := copyDescOf (g.stages.getD g.stagesDone [])
  let range := if d.total = 0 then none else s.srcFault g.ctx g.home d .cpy []
  if d.ver then
    match s.readDesc g.ctx d.tidx true with
    | .error e => s.agentStop g.ctx g.tcb e
    | .ok t =>
      if t.live = false ∨ (bindingOf g.bindings d.tidx).bound = false then s.stageFault g .operandFormat 0
      else
        match range with
        | some a => s.stageFault g .accessRange a
        | none => if d.total ≠ 0 ∧ t.version < d.expver then s else s.stageCopy g d
  else
    match range with
    | some a => s.stageFault g .accessRange a
    | none => s.stageCopy g d

/-- STAGING_COPY_COMPLETE (R312). -/
def execStagingCopyComplete (grp : Nat) (s : State) : Result :=
  match s.groupAt grp with
  | some g => if g.state = .staging ∧ s.scheduled g.ctx = true then .next (s.stageNext g) else .next s
  | none => .next s

/-! ## Recording (R320) -/

/-- The entry that records a task on a lane, with the JOIN entries before it. -/
def recordEntries (p : Plate) (t : Section) (g : Group) (k : Kernel) (lane loc : Nat) (futs : Bool) : List PlateEntry :=
  let e : PlateEntry :=
    { loc := some loc, kern := (p.kerns.findIdx? (· == k.root)).getD 0, spbase := if g.spsize = 0 then 0 else g.base.getD 0 / 4096,
      argrel := g.baseOff, waits := [], guard := 0, hoist := 0, spsize := g.spsize, wstall := 0, sstall := 0 }
  joinsAnd (entryElems t.lanes p.edges lane e futs) e

/-- A group's first shard starts in a graph that is recorded: its entries and its imposition row (R316, R320); a plate that
would pass 16 MiB is RETIRED (R327). -/
def State.recordStart (s : State) (g : Group) (k : Kernel) (futs : Bool) : State :=
  match s.graphAt g.graph with
  | none => s
  | some h =>
    let i := (s.ctxAt g.ctx).tcbIndex g.tcb
    match s.plateOf h with
    | none => s
    | some p =>
      if h.recording = false ∨ i < h.tcb0 ∨ h.tcb0 + h.nt ≤ i then s
      else
        let loc := i - h.tcb0
        let add := fun (t : Section) (c : Nat) =>
          { t with lanes := t.lanes.map fun l => if l.1 == c then (c, l.2 ++ recordEntries p t g k c loc futs) else l }
        let sec := fun (t : Section) => if t.dev = s.dev.devIndex then g.cells.foldl add t else t
        let p1 := { p with sections := p.sections.map sec,
                           imposition := setAt p.imposition loc (rowOf (g.cells.getD 0 g.home) g.p g.q g.cells) }
        s.growPlate h p p1

/-! ## Start and completion (R306, R307) -/

/-- Every lane that holds an entry for the group's task has reached it, and it has issued (R321). -/
def State.lanesReached (s : State) (g : Group) : Bool :=
  match s.graphAt g.graph with
  | none => true
  | some h =>
    let loc := (s.ctxAt g.ctx).tcbIndex g.tcb - h.tcb0
    if h.issued.contains loc then
      match s.plateOf h with
      | none => true
      | some p =>
        match s.ownSection p with
        | none => true
        | some t => p.handback || (placesOf t.lanes loc).all fun q => decide (q.2 ≤ laneCounter p h t q.1)
    else false

/-- A group of a run holds its cells once every lane has reached its entry and no other group holds one of them (R302). -/
def State.holdRun (s : State) (g : Group) : State :=
  if g.plateBase.isSome && g.state != .running && s.lanesReached g && g.cells.all (s.unheld g.ctx) then s.holdCells g else s

/-- Every cell of the group is held for it and free for its shard (R302). -/
def State.cellsFree (s : State) (g : Group) : Bool := g.cells.all fun c => (s.cellAt c).free && (s.cellAt c).held == some g.id

/-- The first pass of shard `n` starts on its cell. -/
def State.startShard (s : State) (g : Group) (k : Kernel) (n c : Nat) : State :=
  let cl := s.cellAt c
  let b := (shardBank (s.ctxAt g.ctx) k g n 0).mapCtl fun t => { t with yielding := cl.active.ctl.yielding }
  s.setCell c ({ cl with active := b, held := none }.claimLines g.ctx)

/-- The shards start (R276, R306, R312): the TCB becomes DISPATCHED and then RUNNING, and the task leaves its queue. -/
def State.startGroup (s : State) (g : Group) (k : Kernel) : Except Stop State := do
  let i := (s.ctxAt g.ctx).tcbIndex g.tcb
  let b ← s.readTcb g.ctx i
  let s1 ← s.writeTcb g.ctx i 0 (withState b 5 false)
  let futs := (s.graphAt g.graph).any fun h => h.imagePreds.contains i
  let s2 := ((List.range g.cells.length).zip g.cells).foldl (fun t q => t.startShard g k q.1 q.2) (s1.dequeue g.ctx i)
  .ok ((s2.setGroup { g with state := .running }).recordStart g k futs)

/-- SHARD_START (R69, R75, R306, R312).  DESIGN CHOICE: a task whose kernel has stopped being one that may be dispatched since
its group began to form fails as it would at dispatch (log 168). -/
def execShardStart (grp : Nat) (s : State) : Result :=
  let s1 := s.arbitrate
  match s1.groupAt grp with
  | none => .next s1
  | some g =>
    let s2 := s1.holdRun g
    if g.state ≠ .ready ∨ s2.scheduled g.ctx = false then .next s2
    else
      match (s2.ctxAt g.ctx).runnable g.kslot with
      | none => .next (s2.agentDo g.ctx g.tcb (s2.failTask g.ctx ((s2.ctxAt g.ctx).tcbIndex g.tcb) (dieOf g.home)))
      | some k =>
        if s2.cellsFree g = true ∧ k.eagerReady g.cells = true then .next (s2.agentDo' g.ctx g.tcb (s2.startGroup g k)) else .next s2

/-- A cell leaves a group (R306): the bank of the group's shard stands idle, its barriers as they are (R242), and the cell of a
shard that has yielded has gone back already (R293). -/
def State.leaveCell (s : State) (g : Group) (c : Nat) : State :=
  let place := s.bankPlace g.ctx c
  match s.bankIn place g.ctx c with
  | some b => if b.ctl.group = some g.id then s.setBankIn place g.ctx c (b.idle g.ctx) else s
  | none => s

/-- The BRANCH guard at a task's completion write (R323, R324). -/
def State.branchGuard (s : State) (g : Group) : Except Stop State :=
  match s.graphAt g.graph with
  | none => .ok s
  | some h =>
    let i := (s.ctxAt g.ctx).tcbIndex g.tcb
    if h.runs i then
      match s.plateOf h with
      | some p => if branchOk p h (i - h.tcb0) then .ok s else s.handBack p h
      | none => .ok s
    else .ok s

/-- The completion write of a group (R280, R306, R307). -/
def State.completeGroup (s : State) (g : Group) : Except Stop Work := do
  let i := (s.ctxAt g.ctx).tcbIndex g.tcb
  let s1 ← s.branchGuard g
  let s2 := g.cells.foldl (fun t c => t.leaveCell g c) s1
  let s3 : State := { s2 with sched := { s2.sched with groups := s2.sched.groups.filter (·.id != g.id) } }
  let w ← s3.endTask g.ctx i 6 (dieOf g.home)
  let s4 ← w.s.settleRetires g.ctx
  .ok { w with s := s4 }

/-- GROUP_COMPLETION (R307). -/
def execGroupCompletion (grp : Nat) (s : State) : Result :=
  match s.groupAt grp with
  | some g =>
    if g.state = .running ∧ g.halted.all id = true then .next (s.agentDo g.ctx g.tcb (s.completeGroup g)) else .next s
  | none => .next s

end Sys2Proof.Machine
end

