-- ==== Sys2Proof/Machine/Plates.lean ====
section
/-! DEFINITION. The runs of plates and the plates that come from gang peers (R318, R321 to R324, R326). -/

namespace Sys2Proof.Machine

open Sys2Proof

/-! ## Stall slots (R318, R322) -/

/-- A 32-bit saturating cycle count takes the cycles that have passed. -/
def satCycles (n k : Nat) : Nat := min (n + k) (2 ^ 32 - 1)

/-- Change entry `n` of a lane of a section. -/
def Section.mapEntry (t : Section) (c n : Nat) (f : PlateEntry → PlateEntry) : Section :=
  { t with lanes := t.lanes.map fun l => if l.1 == c then (c, modifyAt l.2 n f) else l }

/-- Change entry `n` of a lane of the device's own section. -/
def State.mapEntry (s : State) (p : Plate) (c n : Nat) (f : PlateEntry → PlateEntry) : State :=
  s.setPlate { p with sections := p.sections.map fun t => if t.dev == s.dev.devIndex then t.mapEntry c n f else t }

/-- The staging of a run's task has not completed (R322). -/
def State.stagingOpen (s : State) (g : Graph) (loc : Nat) : Bool :=
  !(s.sched.groups.any fun h =>
    h.ctx == g.ctx && h.tcb == (s.ctxAt g.ctx).tcbAddr (g.tcb0 + loc) && (h.state == .ready || h.state == .running))

/-! ## The issue of an entry (R321, R323) -/

/-- The SHAPE guard on a bound index (R323): LIVE, with the bytes of admission. -/
def State.shapeIndexOk (s : State) (g : Graph) (idx : Nat) : Except Stop Bool := do
  let d ← s.agentRead g.ctx ((s.ctxAt g.ctx).descAddr idx) 64 true
  .ok ((descOf d).live && g.shapes.any fun e => e.1 == idx && e.2 == shapeBytes d)

/-- The SHAPE guard of an entry on the TCB's bytes (R323). -/
def State.shapeOk (s : State) (p : Plate) (g : Graph) (e : PlateEntry) (b : List Byte) : Except Stop Bool := do
  let binds ← s.readBinds g.ctx b
  let oks ← binds.mapM fun w => s.shapeIndexOk g (field w 0 16)
  .ok (decide ((s.kernelIn g.ctx (tcbKslot b)).map (·.root) = p.kerns[e.kern]?) && oks.all id)

/-- The group of a run's task forms, on the cells of its imposition row, with the entry's base and ARGREL (R316, R321). -/
def State.formRun (s : State) (h : LaneHead) (n i : Nat) (e : PlateEntry) (row b : List Byte) (d : Passed) (cell : Nat) : State :=
  let x := h.graph.ctx
  let o := s.formOrigin x i
  let dd : Passed := { d with head := { d.head with baseOff := e.argrel } }
  let g := s.newGroup x i (byteAt row 0) b dd o.1 o.2
  let s1 := s.mapEntry h.plate cell n fun q => { q with spsize := d.head.spsize }
  s1.addGroup { (g.on (imposedCells row g.p g.q)) with plateBase := some (4096 * e.spbase) }

/-- A TASK entry issues (R321, R323, R324): the SHAPE guard, then the task's group, unless it is staged already; its lanes hand
back where a guard or a check of dispatch fails. -/
def State.issueEntry (s : State) (h : LaneHead) (cell loc : Nat) : Except Stop State := do
  let g := h.graph
  let i := g.tcb0 + loc
  let b ← s.readTcb g.ctx i
  let ok ← s.shapeOk h.plate g h.entry b
  if ok = false then s.handBack h.plate g
  else
    match ← s.dispatchChecks g.ctx b with
    | none => s.handBack h.plate g
    | some d =>
      let s1 := if (s.formingOf g.ctx i).isSome then s else s.formRun h h.pos i h.entry (h.plate.row loc) b d cell
      let s2 := s1.setGraph { g with issued := g.issued ++ [loc], heldReady := g.heldReady.filter (· != i) }
      match s2.formingOf g.ctx i with
      | some q =>
        let q1 := { q with snapshot := (s2.formOrigin g.ctx i).2 }
        .ok ((s2.setGroup q1).holdRun q1)
      | none => .ok s2

/-- The entry `k` positions before position `n` of a lane has issued, or there is none (R322).  DESIGN CHOICE: a lead that
reaches before the lane's first entry is open from the start of the run (log 169). -/
def leadOpen (h : LaneHead) (cell n k : Nat) : Bool :=
  decide (n < k) || decide (n < laneCounter h.plate h.graph h.sect cell + k) ||
    ((h.sect.lane cell)[n - k]?).any fun e => e.loc.any h.graph.issued.contains

/-- Staging of a task may begin ahead of its issue (R322): it is READY, and in every lane that holds an entry for it the lead is
open and the wait set is met. -/
def State.mayHoist (s : State) (h : LaneHead) (loc : Nat) : Bool :=
  let i := h.graph.tcb0 + loc
  h.graph.heldReady.contains i && (s.formingOf h.graph.ctx i).isNone &&
    (placesOf h.sect.lanes loc).all fun q =>
      ((h.sect.lane q.1)[q.2]?).any fun e =>
        decide (0 < e.hoist) && leadOpen h q.1 q.2 e.hoist && s.waitMet h.plate h.graph h.sect e

/-- The first entry of a lane behind its head whose staging may begin (R322): its group forms and is staged. -/
def State.hoistNext (s : State) (cell : Nat) (h : LaneHead) : State :=
  let due := fun (n : Nat) => ((h.sect.lane cell)[n]?).any fun e => e.loc.any (s.mayHoist h)
  match ((List.range 3).map (h.pos + 1 + ·)).find? due with
  | none => s
  | some n =>
    match (h.sect.lane cell)[n]? with
    | none => s
    | some e =>
      let loc := e.loc.getD 0
      let x := h.graph.ctx
      let i := h.graph.tcb0 + loc
      let staged : Except Stop State := do
        let b ← s.readTcb x i
        match ← s.dispatchChecks x b with
        | none => .ok s
        | some d => .ok (s.formRun h n i e (h.plate.row loc) b d cell)
      s.agentDo' x ((s.ctxAt x).tcbAddr i) staged

/-- The head of a lane issues, is a JOIN that is met, or counts its stall (R319, R321, R322). -/
def State.headStep (s : State) (cell : Nat) (h : LaneHead) : State :=
  let p := h.plate
  let g := h.graph
  let stall := fun (f : PlateEntry → PlateEntry) => s.mapEntry p cell h.pos f
  let k := Config.stallCycles s.freeCtr
  if s.waitMet p g h.sect h.entry = false then stall fun q => { q with wstall := satCycles q.wstall k }
  else
    match h.entry.loc with
    | none => s.setPlate (p.setHead cell (h.pos + 1))
    | some loc =>
      if g.issued.contains loc = false ∧ s.mayIssue = true then
        s.agentDo' g.ctx ((s.ctxAt g.ctx).tcbAddr (g.tcb0 + loc)) (s.issueEntry h cell loc)
      else if s.stagingOpen g loc then stall fun q => { q with sstall := satCycles q.sstall k }
      else s

/-- A cell's lane in the run of the plate of one key. -/
def State.laneStep (cell : Nat) (s : State) (key : Digest) : State :=
  let head := fun (t : State) => (t.sched.plates.find? (·.key == key)).bind (t.headOf cell)
  let s1 := match head s with
    | some h => s.headStep cell h
    | none => s
  match head s1 with
  | some h => s1.hoistNext cell h
  | none => s1

/-- LANE_ENTRY_ISSUE (R319, R321 to R324): the cell's lane moves in every run that has one. -/
def execLaneEntryIssue (cell : Nat) (s : State) : Result :=
  if cell < 256 then .next ((s.sched.plates.map (·.key)).foldl (State.laneStep cell) s).arbitrate
  else .fault .noSuchObject

/-! ## Health (R323) -/

/-- The HEALTH guard of a run whose health vector has changed (R323, R324). -/
def State.checkHealth (s : State) (g : Graph) : State :=
  if g.running then
    match s.plateOf g with
    | none => s
    | some p =>
      match s.ownSection p with
      | none => s
      | some t => if t.health = s.health g.ctx then s else s.agentDo' g.ctx 0 (s.handBack p g)
  else s

/-- Every run tests its HEALTH guard. -/
def State.checkAllHealth (s : State) : State :=
  (s.sched.graphs.map (·.id)).foldl (fun t i =>
    match t.graphAt i with
    | some g => t.checkHealth g
    | none => t) s

/-! ## Plates from peers (R326) -/

/-- A piece of a byte string. -/
def slice (b : List Byte) (o n : Nat) : List Byte := (b.drop o).take n

/-- A plate entry from its 32 bytes and its stall slot; KIND 2 and 3 are refused (R318). -/
def entryOf (b st : List Byte) : Option PlateEntry :=
  let w := leAt b 0 2
  let kind := w / 4096
  let waits := (List.range 4).map fun i => BitVec.ofNat 32 (leAt b (8 + 4 * i) 4)
  if 1 < kind ∨ (kind = 1 ∧ w % 4096 ≠ 0) then none
  else
    some { loc := if kind = 1 then none else some w, kern := leAt b 2 2, spbase := leAt b 4 2, argrel := leAt b 6 2,
           waits := waits.filter fun w => w.getLsbD 31, guard := leAt b 0x18 2, hoist := byteAt b 0x1A, spsize := 0,
           wstall := leAt st 0 4, sstall := leAt st 4 4 }

/-- Entries of a section's bytes, by its directory. -/
def sectionCount (b : List Byte) : Nat := (List.range 256).foldl (fun n c => n + leAt b (64 + 8 * c + 4) 4) 0

/-- A lane of a section's bytes: `before` entries stand before it. -/
def laneFrom (b : List Byte) (total c before : Nat) : Option (List PlateEntry) :=
  let off := leAt b (64 + 8 * c) 4
  (List.range (leAt b (64 + 8 * c + 4) 4)).mapM fun j =>
    entryOf (slice b (off + 32 * j) 32) (slice b (64 + 2048 + 32 * total + 8 * (before + j)) 8)

/-- Lanes from `c` on. -/
def lanesFrom (b : List Byte) (total : Nat) : Nat → Nat → Nat → Option (List (Nat × List PlateEntry))
  | 0, _, _ => some []
  | k + 1, c, before => do
    let l ← laneFrom b total c before
    let rest ← lanesFrom b total k (c + 1) (before + l.length)
    some ((c, l) :: rest)

/-- The sections of the rest of a plate's bytes. -/
def sectionsFrom : Nat → List Byte → Option (List Section)
  | 0, b => if b.isEmpty then some [] else none
  | k + 1, b =>
    if b.isEmpty then some []
    else
      let n := sectionCount b
      if b.length < 64 + 2048 + 40 * n then none
      else do
        let lanes ← lanesFrom b n 256 0 0
        let rest ← sectionsFrom k (b.drop (64 + 2048 + 40 * n))
        some (⟨byteAt b 0, BitVec.ofNat 320 (leAt b 8 40), lanes⟩ :: rest)

/-- STATE of a stored plate. -/
def plateStateOf (n : Nat) : Option PlateState := if n = 2 then some .sealed else if n = 3 then some .refined else if n = 4 then some .retired else none

/-- A plate from its bytes, its DIGEST and sizes checked (R315). -/
def plateFrom (b : List Byte) : Option Plate :=
  let nk := leAt b 0x4A 2
  let ng := leAt b 0x4C 2
  let nt := leAt b 0x4E 2
  let o := 0x80 + 32 * nk + 16 * ng
  if b.length < 0x80 ∨ plateBytesMax < b.length ∨ leAt b 0x50 4 ≠ b.length ∨ 256 < ng ∨ b.length < o + 16 * nt then none
  else do
    let st ← plateStateOf (byteAt b 0x48)
    let secs ← sectionsFrom 64 (b.drop (o + 16 * nt))
    let p : Plate :=
      { key := BitVec.ofNat 256 (leAt b 0 32), digest := BitVec.ofNat 256 (leAt b 0x20 32), gen := leAt b 0x40 8, state := st,
        ndev := byteAt b 0x49, kerns := (List.range nk).map fun j => BitVec.ofNat 256 (leAt b (0x80 + 32 * j) 32),
        guards := (List.range ng).map fun j =>
          let r := slice b (0x80 + 32 * nk + 16 * j) 16
          (leAt r 0 2, leAt r 2 2, wordAt r 8)
        imposition := (List.range nt).map fun j => slice b (o + 16 * j) 16, nt := nt, hback := byteAt b 0x54,
        conf := byteAt b 0x55 == 1, ctx := leAt b 0x56 2, edges := [], sections := secs, run := none, heads := [],
        handback := false, due := false, lastRun := 0 }
    if p.digestOf = p.digest then some p else none

/-- A device's sections, with those of other devices taken from a received plate. -/
def mergeSections (own : Nat) (have_ got : List Section) : List Section :=
  let new := got.filter (·.dev != own)
  (have_.filter fun t => !(new.any (·.dev == t.dev))) ++ new

/-- PLATE_SECTION_RECEIVE (R326): the sections of other devices are stored, and a plate that this device lacks is. -/
def execPlateSectionReceive (image : List Byte) (s : State) : Result :=
  match plateFrom image with
  | none => .next s
  | some p =>
    match s.sched.plates.find? (·.key == p.key) with
    | some q =>
      let r := { q with sections := mergeSections s.dev.devIndex q.sections p.sections }
      if plateBytesMax < r.size then .next s else .next (s.setPlate (if q.state = .recording then r else r.redigest))
    | none =>
      match evictPlate s.sched.plates with
      | some l => .next { s with sched := { s.sched with plates := l ++ [p] } }
      | none => .next s

end Sys2Proof.Machine
end

