-- ==== Sys2Proof/Machine/Link.lean ====
section
/-! DEFINITION. Host ports and queue pairs, gang ports and flits, link states, LSTAT, and the SPDM responder (R354 to R360, R366
to R368). -/

namespace Sys2Proof.Machine

open Sys2Proof

/-! ## Ports -/

/-- A port by number. -/
def State.port (s : State) (p : Nat) : Port := vget s.net.ports p .reset

/-- Replace a port. -/
def State.setPort (s : State) (p : Nat) (v : Port) : State := { s with net := { s.net with ports := vset s.net.ports p v } }

/-- A port changes; the runs test their HEALTH guard where its in-service bit has changed (R323, R359). -/
def State.changePort (s : State) (p : Nat) (v : Port) : State :=
  let t := s.setPort p v
  if (s.port p).state.inService = v.state.inService then t else t.checkAllHealth

/-- The code of a port state (R368). -/
def PortState.code : PortState → Nat
  | .down => 0 | .training => 1 | .up => 2 | .degraded => 3 | .locked => 4

/-- The word of LSTAT (R368). -/
def Port.word (v : Port) (gang : Bool) : Word :=
  let peer := if gang && v.state.inService then v.peer.getD 255 else 255
  wordOfNat (peer % 256 * 2 ^ 56 + v.state.code * 2 ^ 52 + v.lanes % 16 * 2 ^ 48 + v.epoch.toNat * 2 ^ 32 + v.retry % 2 ^ 32)

/-- LSTAT (R368). -/
def execLstat (d p : BitVec 6) (s : State) : Result :=
  let n := (s.bank.readA p.toNat).toNat
  if 17 < n then .next (s.raise .a .operandFormat 0) else answerA s 1 d ((s.port n).word (decide (2 ≤ n)))

/-! ## Host ports (R354 to R356) -/

/-- The management QP of each host port (R354). -/
def managementQp : Nat := 1

/-- The management QP of a host port is there: the port is UP, and it is not in the error state (R354, R356). -/
def State.managed (s : State) (port : Nat) : Bool :=
  decide (port < 2) && (s.port port).state == .up && !(s.port port).qpError

/-- Queue pairs of a host port (R354). -/
def qpMax : Nat := 4096

/-- The key of a queue pair's payloads stands: a confidential context's comes from its session, and goes with it (R355, R367). -/
def State.qpKeyed (s : State) (q : Qp) : Bool :=
  match (s.ctxAt q.ctx).session with
  | some i => s.hostSession i
  | none => true

/-- A queue pair that a request on an UP host port reaches. -/
def State.qpAt (s : State) (port num : Nat) : Option Qp :=
  if port < 2 ∧ (s.port port).state = .up then
    s.net.qps.find? fun q => q.port == port && q.num == num && !q.error && s.qpKeyed q
  else none

/-- The parts of an RDMA request's range (R355): the checks of a supervisor-level agent. -/
def State.rdmaParts (s : State) (q : Qp) (a : Access) (addr n : Nat) : Option (List RowPart) :=
  if inG addr n ∧ (s.ctxAt q.ctx).state ≠ .free then
    match s.resolveG none q.ctx a addr n with
    | .ok ps => some ps
    | .error _ => none
  else none

/-- The TAIL words that a message has written are seen by the front ends (R269, R355). -/
def State.seeTails (s : State) (x addr n : Nat) : State :=
  (List.range (s.ctxAt x).nqueue).foldl (fun t q =>
    let a := (t.ctxAt x).queueAddr q + 0x18
    if a < addr + n ∧ addr < a + 8 then
      match t.readQueue x q with
      | .ok d => t.tailSeen x q d.tail
      | .error _ => t
    else t) s

/-- A CTL word that a message has written with RESUME set resumes its queue (R269, R272). -/
def State.seeResumes (s : State) (x addr n : Nat) : State :=
  (List.range (s.ctxAt x).nqueue).foldl (fun t q =>
    let a := (t.ctxAt x).queueAddr q + 0x0E
    if addr ≤ a ∧ a < addr + n then
      match t.agentRead x a 1 false with
      | .ok b => if natOfBytes b % 2 = 1 then t.resumeQueue x q else t
      | .error _ => t
    else t) s

/-- The front ends see what a message has written in their descriptors. -/
def State.seeQueues (s : State) (x addr n : Nat) : State :=
  if (s.ctxAt x).queuesUp then (s.seeTails x addr n).seeResumes x addr n else s

/-- RDMA_WRITE (R355). -/
def execRdmaWrite (port qp : Nat) (addr : Word) (data : List Byte) (s : State) : Result :=
  match s.qpAt port qp with
  | none => .next s
  | some q =>
    match s.rdmaParts q (Access.store .supervisor) addr.toNat data.length with
    | none => .next (s.send (.nak port qp false))
    | some ps =>
      match s.writeParts ps data with
      | .ok t => .next ((t.seeQueues q.ctx addr.toNat data.length).send (.ack port qp))
      | .error e => .next (s.agentStop q.ctx 0 e)

/-- RDMA_READ (R355). -/
def execRdmaRead (port qp : Nat) (addr : Word) (len : Nat) (s : State) : Result :=
  match s.qpAt port qp with
  | none => .next s
  | some q =>
    match s.rdmaParts q (Access.load .supervisor) addr.toNat len with
    | none => .next (s.send (.nak port qp false))
    | some ps =>
      match s.readParts ps with
      | .ok bs => .next (s.send (.readData port qp bs))
      | .error e => .next (s.agentStop q.ctx 0 e)

/-- MANAGEMENT_SEND (R354): a SEND on the management QP reaches the root firmware. -/
def execManagementSend (port : Nat) (data : List Byte) (s : State) : Result :=
  if port < 2 then
    if s.managed port then .next ((s.send (.managed port data)).send (.ack port managementQp)) else .next s
  else .fault .noSuchObject

/-- RDMA_ATOMIC_REQUEST (R354): the NAK Invalid Request, and memory is unchanged. -/
def execRdmaAtomicRequest (port qp : Nat) (s : State) : Result :=
  if (s.qpAt port qp).isSome ∨ (qp = managementQp ∧ s.managed port = true) then .next (s.send (.nak port qp true)) else .next s

/-- QP_CREATE (R354): RC only, and a confidential context's by the root firmware.  DESIGN CHOICE (log 162): the root firmware
makes a management QP anew that has gone to the error state. -/
def execQpCreate (port qp ctx : Nat) (rc byRoot : Bool) (s : State) : Result :=
  if port < 2 ∧ ctx < 64 then
    let c := s.ctxAt ctx
    let here := s.net.qps.filter fun q => q.port == port
    let live := here.any fun q => q.num == qp && !q.error
    let room := decide ((here.filter (·.num != qp)).length + 1 < qpMax)
    let ok := rc && qp != managementQp && !live && room && c.state != .free && byRoot == c.conf &&
      s.dev.state == .ready
    if ok then
      let others := s.net.qps.filter fun q => q.port != port || q.num != qp
      let t : State := { s with net := { s.net with qps := others ++ [⟨port, qp, ctx, false⟩] } }
      .next (t.send (.qpMade port qp true))
    else if qp = managementQp ∧ rc = true ∧ byRoot = true then
      .next ((s.setPort port { s.port port with qpError := false }).send (.qpMade port qp true))
    else .next (s.send (.qpMade port qp false))
  else .fault .noSuchObject

/-- HOST_PORT_DOWN (R356): its queue pairs, the management QP among them, enter the error state. -/
def execHostPortDown (port : Nat) (s : State) : Result :=
  if port < 2 then
    if (s.port port).state = .up then
      let t : State := { s with net := { s.net with qps := s.net.qps.map fun q => if q.port == port then { q with error := true } else q } }
      .next (t.changePort port { t.port port with state := .down, lanes := 0, retryDue := true, qpError := true })
    else .next s
  else .fault .noSuchObject

/-! ## Gang ports (R357 to R359) -/

/-- A gang port number. -/
def gangPort (p : Nat) : Bool := decide (2 ≤ p) && decide (p < 18)

/-- The routes of a port are withdrawn (R359). -/
def State.dropRoutes (s : State) (p : Nat) : State := { s with net := { s.net with routes := s.net.routes.filter (·.2 != p) } }

/-- A gang port goes DOWN (R359): its key goes with its state. -/
def State.linkDown (s : State) (p : Nat) (retry : Bool) : State :=
  (s.dropRoutes p).changePort p { s.port p with state := .down, lanes := 0, unacked := [], retryDue := retry, peer := none }

/-- A gang port begins training (R359). -/
def State.linkTrain (s : State) (p : Nat) : State :=
  (s.dropRoutes p).changePort p { s.port p with
    state := .training, epoch := (s.port p).epoch + 1, lanes := 0, unacked := [], rxSeq := 0, txSeq := 0, retryDue := false, peer := none }

/-- A flit with its CRC (R357). -/
def withCrc (b : List Byte) : List Byte := b.take 0xFC ++ bytesOfNat 4 (crc32 (b.take 0xFC)).toNat

/-- A flit of 256 bytes whose CRC passes (R357). -/
def crcOk (b : List Byte) : Bool := b.length == 256 && leAt b 0xFC 4 == (crc32 (b.take 0xFC)).toNat

/-- SEQ of a flit. -/
def flitSeq (b : List Byte) : BitVec 32 := BitVec.ofNat 32 (leAt b 4 4)

/-- A flit's VC, LEN and zero fields keep R357. -/
def flitForm (b : List Byte) : Bool :=
  decide (byteAt b 1 < 4) && decide (leAt b 8 2 ≤ 240) && leAt b 0xA 2 == 0 && allZero ((b.drop (12 + leAt b 8 2)).take (240 - leAt b 8 2))

/-- The payload of a flit. -/
def flitPayload (b : List Byte) : List Byte := (b.drop 12).take (leAt b 8 2)

/-- The SEQ that an ACK or a NAK names.  DESIGN CHOICE (log 163): the first four bytes of its payload. -/
def flitNames (b : List Byte) : BitVec 32 := BitVec.ofNat 32 (leAt b 12 4)

/-- A flit of a type from its fields (R357). -/
def flitOf (ty vc src dst : Nat) (seq : BitVec 32) (payload : List Byte) : List Byte :=
  withCrc (bytesOfNat 1 ty ++ bytesOfNat 1 vc ++ bytesOfNat 1 src ++ bytesOfNat 1 dst ++ bytesOfNat 4 seq.toNat ++
    bytesOfNat 2 payload.length ++ [0#8, 0#8] ++ payload ++ List.replicate (240 - payload.length) 0#8)

/-- EtherType of a gang frame, high byte first (R357). -/
def gangEtherType : List Byte := [0x88#8, 0xB5#8]

/-- The Ethernet frame that carries flits over a port (R357): MAC addresses, EtherType, the frame header, the flits, on a LOCKED
link the GCM tag, and the FCS. -/
def Port.frame (v : Port) (p draw : Nat) (flits : List (List Byte)) : List Byte :=
  let head := Config.frameMacs p ++ gangEtherType ++ bytesOfNat 1 flits.length ++ [0#8] ++ bytesOfNat 2 v.epoch.toNat
  let b := head ++ flits.flatten ++ (if v.state = .locked then Config.frameTag draw else [])
  b ++ bytesOfNat 4 (crc32 b).toNat

/-- Flits leave over a port, in frames of at most 16 (R357). -/
def State.sendFrames (s : State) (p : Nat) : Nat → List (List Byte) → State
  | 0, _ => s
  | _, [] => s
  | fuel + 1, l => (s.send (.frame p ((s.port p).frame p s.freeCtr (l.take 16)))).sendFrames p fuel (l.drop 16)

/-- Flits leave over a port. -/
def State.sendFlits (s : State) (p : Nat) (l : List (List Byte)) : State := s.sendFrames p l.length l

/-- A new flit leaves over a port with the port's next SEQ, and is kept until it is acknowledged (R357, R358). -/
def State.sendFlit (s : State) (p : Nat) (flit : BitVec 32 → List Byte) : State :=
  let v := s.port p
  let b := flit v.txSeq
  (s.setPort p { v with txSeq := v.txSeq + 1, unacked := v.unacked ++ [(v.txSeq, b, 0)] }).sendFlits p [b]

/-- An ACK (type 2) or NAK (type 3) for the far end of a port, naming a SEQ (R357, R358). -/
def State.sendControl (s : State) (p ty : Nat) (named : BitVec 32) : State :=
  s.sendFlit p fun seq => flitOf ty 3 s.dev.devIndex ((s.port p).peer.getD 0) seq (bytesOfNat 4 named.toNat)

/-- Retransmissions of a flit before its link goes DOWN (R358). -/
def retryLimit : Nat := 16

/-- Every unacknowledged flit is sent again (R358, R359). -/
def State.resend (s : State) (p : Nat) : State :=
  let v := s.port p
  if v.unacked.any fun f => decide (retryLimit ≤ f.2.2) then s.linkDown p false
  else
    let again := v.unacked.map fun f => (f.1, f.2.1, f.2.2 + 1)
    (s.setPort p { v with unacked := again, retry := v.retry + again.length }).sendFlits p (again.map (·.2.1))

/-- The port of the route to a device (R358): what came over a LOCKED link leaves over LOCKED links only. -/
def State.routeFor (s : State) (locked : Bool) (dev : Nat) : Option Nat :=
  (s.net.routes.find? fun r =>
    r.1 == dev && (if locked then (s.port r.2).state == .locked else (s.port r.2).state.inService)).map (·.2)

/-- A flit that has come over port `p` is forwarded along the route of its destination (R358): it gets the link's own SEQ.
DESIGN CHOICE (log 163): what came over a LOCKED link may belong to a confidential context. -/
def State.forwardFlit (s : State) (p : Nat) (b : List Byte) : State :=
  match s.routeFor ((s.port p).state == .locked) (byteAt b 3) with
  | none => s
  | some q => s.sendFlit q fun seq => withCrc (overlay b 4 (bytesOfNat 4 seq.toNat))

/-- A flit that cannot be accepted is discarded, with a NAK naming the first SEQ that is lacking (R358). -/
def State.nakFlit (s : State) (p : Nat) : State := s.sendControl p 3 (s.port p).rxSeq

/-- A flit that is discarded and counted as bad (R357). -/
def State.badFlit (s : State) (p : Nat) : State := s.setPort p { s.port p with bad := (s.port p).bad + 1 }

/-- The reception of a flit of one type (R357, R358): the tag of a LOCKED link's frame, the CRC, the type and SEQ come
first. -/
def flitIn (ty port : Nat) (flit : List Byte) (tagOk : Bool) (act : State → State) (s : State) : Result :=
  if gangPort port then
    let v := s.port port
    if v.state.inService = false then .next s
    else if (v.state = .locked ∧ tagOk = false) ∨ crcOk flit = false then .next (s.nakFlit port)
    else if byteAt flit 0 = 0 ∨ 5 < byteAt flit 0 ∨ flitForm flit = false then .next (s.badFlit port)
    else if byteAt flit 0 ≠ ty then .next s
    else if flitSeq flit ≠ v.rxSeq then .next (s.nakFlit port)
    else .next (act (s.setPort port { v with rxSeq := v.rxSeq + 1 }))
  else .fault .noSuchObject

/-- A flit that has been accepted is acknowledged, and its payload is delivered here or forwarded (R358). -/
def State.takePayload (s : State) (port : Nat) (flit : List Byte) : State :=
  let t := s.sendControl port 2 (flitSeq flit)
  if byteAt flit 3 = t.dev.devIndex then t.send (.delivered port (byteAt flit 1) (flitPayload flit)) else t.forwardFlit port flit

/-- FLIT_DATA (R358). -/
def execFlitData (port : Nat) (flit : List Byte) (tagOk : Bool) (s : State) : Result :=
  flitIn 1 port flit tagOk (·.takePayload port flit) s

/-- The flits up to the one named are accepted (R358). -/
def Port.acked (v : Port) (seq : BitVec 32) : Port :=
  match v.unacked.findIdx? (·.1 == seq) with
  | some i => { v with unacked := v.unacked.drop (i + 1) }
  | none => v

/-- FLIT_ACK (R358). -/
def execFlitAck (port : Nat) (flit : List Byte) (tagOk : Bool) (s : State) : Result :=
  flitIn 2 port flit tagOk (fun t => t.setPort port ((t.port port).acked (flitNames flit))) s

/-- Retransmission from the SEQ that a NAK names (R358). -/
def State.nakked (s : State) (port : Nat) (seq : BitVec 32) : State :=
  let v := s.port port
  match v.unacked.findIdx? (·.1 == seq) with
  | some i => (s.setPort port { v with unacked := v.unacked.drop i }).resend port
  | none => s

/-- FLIT_NAK (R358). -/
def execFlitNak (port : Nat) (flit : List Byte) (tagOk : Bool) (s : State) : Result :=
  flitIn 3 port flit tagOk (·.nakked port (flitNames flit)) s

/-- FLIT_CREDIT (R357): credits of a virtual channel return; their number stands in a payload that the spec does not lay out. -/
def execFlitCredit (port : Nat) (flit : List Byte) (tagOk : Bool) (s : State) : Result :=
  flitIn 4 port flit tagOk (fun t =>
    let v := t.port port
    t.setPort port { v with credits := modifyAt v.credits (byteAt flit 1) fun n => n + (Config.freeWord t.freeCtr).toNat }) s

/-- FLIT_CONTROL (R357, R358). -/
def execFlitControl (port : Nat) (flit : List Byte) (tagOk : Bool) (s : State) : Result :=
  flitIn 5 port flit tagOk (·.takePayload port flit) s

/-! ## Link states (R359) -/

/-- Some confidential context uses the LOCKED links: it is in the gang, and not FREE (R359). -/
def State.linksUsed (s : State) : Bool :=
  (List.range 64).any fun y => (s.ctxAt y).conf && (s.ctxAt y).state != .free

/-- LINK_RETRAIN_REQUEST (R359): a LOCKED port refuses it while a confidential context uses the link. -/
def execLinkRetrainRequest (port : Nat) (s : State) : Result :=
  if gangPort port then
    match (s.port port).state with
    | .down | .degraded => .next (s.linkTrain port)
    | .locked => if s.linksUsed then .next s else .next (s.linkTrain port)
    | _ => .next s
  else .fault .noSuchObject

/-- A trained port with its far end's device index; the route tables are updated (R359, R368). -/
def State.linkUp (s : State) (p lanes : Nat) : State :=
  let st : PortState := if 8 ≤ lanes then .up else .degraded
  let peer := if p < 2 then none else (Config.linkPeer p s.freeCtr).map (· % 64)
  let t := s.changePort p { s.port p with state := st, lanes := if 8 ≤ lanes then 8 else 4, peer := peer, retryDue := false }
  match peer with
  | none => t
  | some d =>
    let u : State := { t with net := { t.net with routes := t.net.routes ++ [(d, p)] } }
    u.sched.plates.foldl (fun w q =>
      if (q.state = .sealed ∨ q.state = .refined) ∧ u.routeUp q.conf d = true then w.send (.plateSection d q.image) else w) u

/-- TRAINING_COMPLETE (R359); a host port is UP with 8 lanes and DOWN with fewer. -/
def execTrainingComplete (port lanes : Nat) (s : State) : Result :=
  if port < 18 then
    if (s.port port).state ≠ .training then .next s
    else if (if port < 2 then 8 else 4) ≤ lanes then .next (s.linkUp port lanes)
    else .next (s.linkDown port true)
  else .fault .noSuchObject

/-- TRAINING_TIMEOUT (R359). -/
def execTrainingTimeout (port : Nat) (s : State) : Result :=
  if port < 18 then (if (s.port port).state = .training then .next (s.linkDown port true) else .next s) else .fault .noSuchObject

/-- TRAINING_RETRY_TIMER (R359). -/
def execTrainingRetryTimer (port : Nat) (s : State) : Result :=
  if port < 18 then
    if (s.port port).state = .down ∧ (s.port port).retryDue = true then .next (s.linkTrain port) else .next s
  else .fault .noSuchObject

/-- LANE_FAILURE (R359): `lanes` remain. -/
def execLaneFailure (port lanes : Nat) (s : State) : Result :=
  if gangPort port then
    let v := s.port port
    if v.state.inService = false then .next s
    else if lanes < 4 then .next (s.linkDown port false)
    else
      match v.state with
      | .up => .next ((s.setPort port { v with state := .degraded, lanes := 4 }).resend port)
      | .locked => .next ((s.setPort port { v with lanes := 4 }).resend port)
      | _ => .next s
  else .fault .noSuchObject

/-- The established session with the device at the far end of a port that has not given the port a key yet (R359, R367). -/
def State.linkSession (s : State) (port : Nat) : Option Session :=
  s.dev.sessions.find? fun e => e.state == .established && !e.keyed.contains port && (match e.asker with
    | .peer d => (s.port port).peer == some d
    | .host _ => false)

/-- Replace a session. -/
def State.setSession (s : State) (e : Session) : State :=
  { s with dev := { s.dev with sessions := s.dev.sessions.map fun f => if f.id == e.id then e else f } }

/-- LINK_KEY_INSTALL (R359, R367): the key comes from a session with the far end, which gives a port one key. -/
def execLinkKeyInstall (port : Nat) (s : State) : Result :=
  if gangPort port then
    match (s.port port).state, s.linkSession port with
    | .up, some e | .degraded, some e =>
      .next ((s.setPort port { s.port port with state := .locked }).setSession { e with keyed := e.keyed ++ [port] })
    | _, _ => .next s
  else .fault .noSuchObject

/-! ## The SPDM responder (R366, R367) -/

/-- The root firmware answers (R23, R366): through the management QP of a host port, or over VC 3 of a route to a device. -/
def State.answers (s : State) (a : SpdmAsker) : Bool :=
  s.dev.state != .off && match a with
    | .host p => s.managed p
    | .peer d => decide (d < 64) && s.routeUp false d

/-- The signature of a response (R366): Ed25519's, and ML-DSA-65's in OpaqueData under ID 0x5A01. -/
def spdmSignature (draw : Nat) : SpdmSignature := ⟨Config.edSignature draw, 0x5A01, Config.mldsaSignature draw⟩

/-- A response, signed or not. -/
def State.respond (s : State) (a : SpdmAsker) (code : Nat) (body : SpdmBody) (signed : Bool) : State :=
  s.send (.spdm a ⟨code, body, if signed then some (spdmSignature s.freeCtr) else none⟩)

/-- An SPDM response. -/
def spdmReply (a : SpdmAsker) (code : Nat) (body : SpdmBody) (signed : Bool) (s : State) : Result :=
  if s.answers a then .next (s.respond a code body signed) else .next s

/-- A body whose fields the spec does not lay out. -/
def State.openBody (s : State) (code : Nat) : SpdmBody := .fields (Config.spdmBody code s.freeCtr)

/-- The algorithms that the responder offers (R366). -/
def spdmAlgorithms : List SpdmAlgorithm := [.sha3_256, .ed25519, .secp384r1, .aes256Gcm]

/-- The certificate chain of slot 0 (R366). -/
def slotChain : CertChain := ⟨Config.edKey, Config.mldsaKey, Config.chainRest⟩

/-- GET_VERSION (R366). -/
def execGetVersion (asker : SpdmAsker) (s : State) : Result := spdmReply asker 0x04 (s.openBody 0x04) false s
/-- GET_CAPABILITIES (R366). -/
def execGetCapabilities (asker : SpdmAsker) (s : State) : Result := spdmReply asker 0x61 (s.openBody 0x61) false s
/-- NEGOTIATE_ALGORITHMS (R366). -/
def execNegotiateAlgorithms (asker : SpdmAsker) (s : State) : Result := spdmReply asker 0x63 (.algorithms spdmAlgorithms) false s
/-- GET_DIGESTS (R366). -/
def execGetDigests (asker : SpdmAsker) (s : State) : Result := spdmReply asker 0x01 (.chainDigest slotChain) false s
/-- GET_CERTIFICATE (R366). -/
def execGetCertificate (asker : SpdmAsker) (s : State) : Result := spdmReply asker 0x02 (.chain slotChain) false s
/-- CHALLENGE (R366): the response is signed. -/
def execChallenge (asker : SpdmAsker) (s : State) : Result := spdmReply asker 0x03 (s.openBody 0x03) true s

/-- The measurement of a confidential context (R367): its creation request and the ROOT of each kernel loaded. -/
def Ctx.measurement (c : Ctx) : Digest := sha3 (c.request ++ c.loaded.flatMap digestBytes)

/-- The measurement of an index (R367): of the image measured last, of the fuses, or of a confidential context. -/
def State.measurement (s : State) (i : Nat) : Option Digest :=
  if 1 ≤ i ∧ i ≤ 4 then
    match s.dev.measured.find? (·.1 == i) with
    | some m => some (Config.imageDigest i m.2)
    | none => some (Config.imageDigest i 0)
  else if 16 ≤ i ∧ i < 80 ∧ (s.ctxAt (i - 16)).conf = true ∧ (s.ctxAt (i - 16)).state ≠ .free then
    some (s.ctxAt (i - 16)).measurement
  else none

/-- GET_MEASUREMENTS (R366, R367): an index that the device does not have is an error response. -/
def execGetMeasurements (asker : SpdmAsker) (index : Nat) (s : State) : Result :=
  match s.measurement index with
  | some d => spdmReply asker 0x60 (.measurement index d) true s
  | none => spdmReply asker 0x7F .error false s

/-- A session number that no session has, and that no context's keys come from. -/
def State.sessionFree (s : State) (id : Nat) : Bool :=
  s.dev.sessions.all (·.id != id) && (List.range 64).all fun x => (s.ctxAt x).session != some id

/-- KEY_EXCHANGE (R366): a session begins. -/
def execKeyExchange (asker : SpdmAsker) (session : Nat) (s : State) : Result :=
  if s.answers asker ∧ s.sessionFree session = true then
    let t : State := { s with dev := { s.dev with sessions := s.dev.sessions ++ [⟨session, asker, .handshake, 0, []⟩] } }
    spdmReply asker 0x64 (s.openBody 0x64) true t
  else .next s

/-- A request inside a session that stands in a state. -/
def inSession (id : Nat) (st : SessionState) (act : Session → State → Result) (s : State) : Result :=
  match s.dev.sessions.find? fun e => e.id == id && e.state == st with
  | some e => if s.answers e.asker then act e s else .next s
  | none => .next s

/-- FINISH (R366): the handshake completes. -/
def execFinish (session : Nat) (s : State) : Result :=
  inSession session .handshake (fun e t =>
    spdmReply e.asker 0x65 (s.openBody 0x65) false (t.setSession { e with state := .established })) s

/-- KEY_UPDATE (R366). -/
def execKeyUpdate (session : Nat) (s : State) : Result :=
  inSession session .established (fun e t =>
    spdmReply e.asker 0x69 (s.openBody 0x69) false (t.setSession { e with keyUpdates := e.keyUpdates + 1 })) s

/-- HEARTBEAT (R366). -/
def execHeartbeat (session : Nat) (s : State) : Result :=
  inSession session .established (fun e t => spdmReply e.asker 0x68 (s.openBody 0x68) false t) s

/-- A link whose key is destroyed (R359, R367).  DESIGN CHOICE (log 164): it goes DOWN while a confidential context uses the
links, and is UP or DEGRADED without a key otherwise. -/
def State.dropKey (s : State) (p : Nat) : State :=
  if (s.port p).state ≠ .locked then s
  else if s.linksUsed then s.linkDown p false
  else s.setPort p (s.port p).unlock

/-- END_SESSION (R367): the session and the keys derived from it are gone. -/
def execEndSession (session : Nat) (s : State) : Result :=
  inSession session .established (fun e t =>
    let u : State := { t with dev := { t.dev with sessions := t.dev.sessions.filter (·.id != session) } }
    .next (e.keyed.foldl (fun w p => w.dropKey p) (u.respond e.asker 0x6C (s.openBody 0x6C) false))) s

end Sys2Proof.Machine
end

