-- ==== Sys2Proof/Machine/Integer.lean ====
section
/-! DEFINITION. The integer instructions of the A stream (R94 to R100), and the functions that XALU and XMUL share. -/

namespace Sys2Proof.Machine

open Sys2Proof

/-- y mod 64, the shift count of R94. -/
def shiftCount (y : Word) : Nat := y.toNat % 64

/-- SHL of R94. -/
def opShl (x y : Word) : Word := x <<< shiftCount y
/-- SHR of R94. -/
def opShr (x y : Word) : Word := x >>> shiftCount y
/-- SRA of R94. -/
def opSra (x y : Word) : Word := x.sshiftRight (shiftCount y)
/-- ROTR of R94. -/
def opRotr (x y : Word) : Word := (x >>> shiftCount y) ||| (x <<< (64 - shiftCount y))
/-- MIN of R94. -/
def opMin (x y : Word) : Word := if x.sle y then x else y
/-- MAX of R94. -/
def opMax (x y : Word) : Word := if y.sle x then x else y
/-- MINU of R94. -/
def opMinu (x y : Word) : Word := if x.ule y then x else y
/-- MAXU of R94. -/
def opMaxu (x y : Word) : Word := if y.ule x then x else y
/-- SLT of R94. -/
def opSlt (x y : Word) : Word := wordOfBool (x.slt y)
/-- SLTU of R94. -/
def opSltu (x y : Word) : Word := wordOfBool (x.ult y)
/-- SEQ of R94. -/
def opSeq (x y : Word) : Word := wordOfBool (x == y)
/-- MULH of R95: bits 127 to 64 of the signed product. -/
def opMulh (x y : Word) : Word := wordOfNat (((x.toInt * y.toInt) % (2 ^ 128 : Nat)).toNat >>> 64)
/-- MULHU of R95. -/
def opMulhu (x y : Word) : Word := wordOfNat ((x.toNat * y.toNat) >>> 64)
/-- DIV of R95. -/
def opDiv (x y : Word) : Word :=
  if y = 0 then BitVec.allOnes 64 else wordOfInt (Int.tdiv x.toInt y.toInt)
/-- DIVU of R95. -/
def opDivu (x y : Word) : Word := if y = 0 then BitVec.allOnes 64 else wordOfNat (x.toNat / y.toNat)
/-- REM of R95. -/
def opRem (x y : Word) : Word := if y = 0 then x else wordOfInt (Int.tmod x.toInt y.toInt)
/-- REMU of R95. -/
def opRemu (x y : Word) : Word := if y = 0 then x else wordOfNat (x.toNat % y.toNat)
/-- SEL of R95: the old destination chooses. -/
def opSel (old x y : Word) : Word := if old ≠ 0 then x else y

/-- A two-operand instruction of R94 or R95. -/
def aluA (f : Word → Word → Word) (d a b : BitVec 6) (s : State) : Result :=
  answerA s 1 d (f (s.bank.readA a.toNat) (s.bank.readA b.toNat))

/-- ADD (R94). -/
def execAdd (d a b : BitVec 6) (s : State) : Result := aluA (· + ·) d a b s
/-- SUB (R94). -/
def execSub (d a b : BitVec 6) (s : State) : Result := aluA (· - ·) d a b s
/-- AND (R94). -/
def execAnd (d a b : BitVec 6) (s : State) : Result := aluA (· &&& ·) d a b s
/-- OR (R94). -/
def execOr (d a b : BitVec 6) (s : State) : Result := aluA (· ||| ·) d a b s
/-- XOR (R94). -/
def execXor (d a b : BitVec 6) (s : State) : Result := aluA (· ^^^ ·) d a b s
/-- SHL (R94). -/
def execShl (d a b : BitVec 6) (s : State) : Result := aluA opShl d a b s
/-- SHR (R94). -/
def execShr (d a b : BitVec 6) (s : State) : Result := aluA opShr d a b s
/-- SRA (R94). -/
def execSra (d a b : BitVec 6) (s : State) : Result := aluA opSra d a b s
/-- ROTR (R94). -/
def execRotr (d a b : BitVec 6) (s : State) : Result := aluA opRotr d a b s
/-- MIN (R94). -/
def execMin (d a b : BitVec 6) (s : State) : Result := aluA opMin d a b s
/-- MAX (R94). -/
def execMax (d a b : BitVec 6) (s : State) : Result := aluA opMax d a b s
/-- MINU (R94). -/
def execMinu (d a b : BitVec 6) (s : State) : Result := aluA opMinu d a b s
/-- MAXU (R94). -/
def execMaxu (d a b : BitVec 6) (s : State) : Result := aluA opMaxu d a b s
/-- SLT (R94). -/
def execSlt (d a b : BitVec 6) (s : State) : Result := aluA opSlt d a b s
/-- SLTU (R94). -/
def execSltu (d a b : BitVec 6) (s : State) : Result := aluA opSltu d a b s
/-- SEQ (R94). -/
def execSeq (d a b : BitVec 6) (s : State) : Result := aluA opSeq d a b s
/-- MUL (R95): the low 64 bits of the signed product. -/
def execMul (d a b : BitVec 6) (s : State) : Result := aluA (· * ·) d a b s
/-- MULH (R95). -/
def execMulh (d a b : BitVec 6) (s : State) : Result := aluA opMulh d a b s
/-- MULHU (R95). -/
def execMulhu (d a b : BitVec 6) (s : State) : Result := aluA opMulhu d a b s
/-- DIV (R95). -/
def execDiv (d a b : BitVec 6) (s : State) : Result := aluA opDiv d a b s
/-- DIVU (R95). -/
def execDivu (d a b : BitVec 6) (s : State) : Result := aluA opDivu d a b s
/-- REM (R95). -/
def execRem (d a b : BitVec 6) (s : State) : Result := aluA opRem d a b s
/-- REMU (R95). -/
def execRemu (d a b : BitVec 6) (s : State) : Result := aluA opRemu d a b s
/-- SEL (R95). -/
def execSel (d a b : BitVec 6) (s : State) : Result := aluA (opSel (s.bank.readA d.toNat)) d a b s

/-- Leading zeros among the `n` low bits of `v` (R96). -/
def clzN : Nat → Nat → Nat
  | 0, _ => 0
  | n + 1, v => if v.testBit n then 0 else 1 + clzN n v

/-- Trailing zeros among `n` bits of `v` (R96). -/
def ctzN : Nat → Nat → Nat
  | 0, _ => 0
  | n + 1, v => if v % 2 = 1 then 0 else 1 + ctzN n (v / 2)

/-- 1 bits among the `n` low bits of `v` (R96). -/
def popN : Nat → Nat → Nat
  | 0, _ => 0
  | n + 1, v => v % 2 + popN n (v / 2)

/-- BSWAP of R96. -/
def opBswap (x : Word) : Word := wordOfNat (natOfBytes (bytesOfNat 8 x.toNat).reverse)

/-- A one-operand instruction of R96. -/
def unaryA (f : Word → Word) (d a : BitVec 6) (s : State) : Result := answerA s 1 d (f (s.bank.readA a.toNat))

/-- CLZ (R96). -/
def execClz (d a : BitVec 6) (s : State) : Result := unaryA (fun x => wordOfNat (clzN 64 x.toNat)) d a s
/-- CTZ (R96). -/
def execCtz (d a : BitVec 6) (s : State) : Result := unaryA (fun x => wordOfNat (ctzN 64 x.toNat)) d a s
/-- POPC (R96). -/
def execPopc (d a : BitVec 6) (s : State) : Result := unaryA (fun x => wordOfNat (popN 64 x.toNat)) d a s
/-- SEXT (R96): b holds n − 1. -/
def execSext (d a b : BitVec 6) (s : State) : Result :=
  unaryA (fun x => wordOfInt (sextNat x.toNat (b.toNat + 1))) d a s
/-- ZEXT (R96): b holds n − 1. -/
def execZext (d a b : BitVec 6) (s : State) : Result :=
  unaryA (fun x => wordOfNat (x.toNat % 2 ^ (b.toNat + 1))) d a s
/-- BSWAP (R96). -/
def execBswap (d a : BitVec 6) (s : State) : Result := unaryA opBswap d a s

/-- The immediate of BFX and BFI lies in range (R97). -/
def bitFieldOk (i : Word) : Bool := decide (i.toNat < 4096) && decide (i.toNat % 64 + i.toNat / 64 + 1 ≤ 64)

/-- m of R97. -/
def bitFieldMask (i : Word) : Word := wordOfNat ((2 ^ (i.toNat / 64 + 1) - 1) <<< (i.toNat % 64))

/-- BFX of R97. -/
def bfxOp (len : Nat) (d a : BitVec 6) (i : Word) (s : State) : Result :=
  if bitFieldOk i then answerA s len d ((s.bank.readA a.toNat &&& bitFieldMask i) >>> (i.toNat % 64))
  else s.pcFault .a .operandIllegal

/-- BFI of R97. -/
def bfiOp (len : Nat) (d a : BitVec 6) (i : Word) (s : State) : Result :=
  if bitFieldOk i then
    answerA s len d ((s.bank.readA d.toNat &&& ~~~(bitFieldMask i)) |||
      ((s.bank.readA a.toNat <<< (i.toNat % 64)) &&& bitFieldMask i))
  else s.pcFault .a .operandIllegal

/-- BFX (R97). -/
def execBfx (d a : BitVec 6) (im : BitVec 10) (s : State) : Result := bfxOp 1 d a (im.signExtend 64) s
/-- BFX, long form (R97). -/
def execBfxL (d a : BitVec 6) (im : BitVec 30) (s : State) : Result := bfxOp 2 d a (im.signExtend 64) s
/-- BFI (R97). -/
def execBfi (d a : BitVec 6) (im : BitVec 10) (s : State) : Result := bfiOp 1 d a (im.signExtend 64) s
/-- BFI, long form (R97). -/
def execBfiL (d a : BitVec 6) (im : BitVec 30) (s : State) : Result := bfiOp 2 d a (im.signExtend 64) s

/-- An immediate instruction of R98 without a limit; `i` is the immediate modulo 2^64. -/
def immA (f : Word → Word → Word) (len : Nat) (d a : BitVec 6) (i : Word) (s : State) : Result :=
  answerA s len d (f (s.bank.readA a.toNat) i)

/-- A shift by an immediate of R98: 0 to 63, else OPERAND_ILLEGAL. -/
def shiftImmA (f : Word → Word → Word) (len : Nat) (d a : BitVec 6) (i : Word) (s : State) : Result :=
  if i.toNat < 64 then immA f len d a i s else s.pcFault .a .operandIllegal

/-- ADDI (R98). -/
def execAddi (d a : BitVec 6) (im : BitVec 10) (s : State) : Result := immA (· + ·) 1 d a (im.signExtend 64) s
/-- ADDI, long form (R98). -/
def execAddiL (d a : BitVec 6) (im : BitVec 30) (s : State) : Result := immA (· + ·) 2 d a (im.signExtend 64) s
/-- ANDI (R98). -/
def execAndi (d a : BitVec 6) (im : BitVec 10) (s : State) : Result := immA (· &&& ·) 1 d a (im.signExtend 64) s
/-- ANDI, long form (R98). -/
def execAndiL (d a : BitVec 6) (im : BitVec 30) (s : State) : Result := immA (· &&& ·) 2 d a (im.signExtend 64) s
/-- ORI (R98). -/
def execOri (d a : BitVec 6) (im : BitVec 10) (s : State) : Result := immA (· ||| ·) 1 d a (im.signExtend 64) s
/-- ORI, long form (R98). -/
def execOriL (d a : BitVec 6) (im : BitVec 30) (s : State) : Result := immA (· ||| ·) 2 d a (im.signExtend 64) s
/-- XORI (R98). -/
def execXori (d a : BitVec 6) (im : BitVec 10) (s : State) : Result := immA (· ^^^ ·) 1 d a (im.signExtend 64) s
/-- XORI, long form (R98). -/
def execXoriL (d a : BitVec 6) (im : BitVec 30) (s : State) : Result := immA (· ^^^ ·) 2 d a (im.signExtend 64) s
/-- SHLI (R98). -/
def execShli (d a : BitVec 6) (im : BitVec 10) (s : State) : Result := shiftImmA opShl 1 d a (im.signExtend 64) s
/-- SHLI, long form (R98). -/
def execShliL (d a : BitVec 6) (im : BitVec 30) (s : State) : Result := shiftImmA opShl 2 d a (im.signExtend 64) s
/-- SHRI (R98). -/
def execShri (d a : BitVec 6) (im : BitVec 10) (s : State) : Result := shiftImmA opShr 1 d a (im.signExtend 64) s
/-- SHRI, long form (R98). -/
def execShriL (d a : BitVec 6) (im : BitVec 30) (s : State) : Result := shiftImmA opShr 2 d a (im.signExtend 64) s
/-- SRAI (R98). -/
def execSrai (d a : BitVec 6) (im : BitVec 10) (s : State) : Result := shiftImmA opSra 1 d a (im.signExtend 64) s
/-- SRAI, long form (R98). -/
def execSraiL (d a : BitVec 6) (im : BitVec 30) (s : State) : Result := shiftImmA opSra 2 d a (im.signExtend 64) s
/-- SLTI (R98). -/
def execSlti (d a : BitVec 6) (im : BitVec 10) (s : State) : Result := immA opSlt 1 d a (im.signExtend 64) s
/-- SLTI, long form (R98). -/
def execSltiL (d a : BitVec 6) (im : BitVec 30) (s : State) : Result := immA opSlt 2 d a (im.signExtend 64) s
/-- SLTIU (R98). -/
def execSltiu (d a : BitVec 6) (im : BitVec 10) (s : State) : Result := immA opSltu 1 d a (im.signExtend 64) s
/-- SLTIU, long form (R98). -/
def execSltiuL (d a : BitVec 6) (im : BitVec 30) (s : State) : Result := immA opSltu 2 d a (im.signExtend 64) s
/-- SEQI (R98). -/
def execSeqi (d a : BitVec 6) (im : BitVec 10) (s : State) : Result := immA opSeq 1 d a (im.signExtend 64) s
/-- SEQI, long form (R98). -/
def execSeqiL (d a : BitVec 6) (im : BitVec 30) (s : State) : Result := immA opSeq 2 d a (im.signExtend 64) s
/-- MULI (R98). -/
def execMuli (d a : BitVec 6) (im : BitVec 10) (s : State) : Result := immA (· * ·) 1 d a (im.signExtend 64) s
/-- MULI, long form (R98). -/
def execMuliL (d a : BitVec 6) (im : BitVec 30) (s : State) : Result := immA (· * ·) 2 d a (im.signExtend 64) s

/-- LI (R99). -/
def execLi (d : BitVec 6) (im : BitVec 16) (s : State) : Result := answerA s 1 d (im.signExtend 64)
/-- LIH (R99). -/
def execLih (d : BitVec 6) (im : BitVec 16) (s : State) : Result :=
  answerA s 1 d ((s.bank.readA d.toNat <<< 16) + im.setWidth 64)

/-- lc[d] := min(max(s(a[a]) + imm, 0), 2^32 − 1) (R100); a code above 7 is OPERAND_ILLEGAL (R34). -/
def lsetOp (len : Nat) (d a : BitVec 6) (i : Int) (s : State) : Result :=
  if d.toNat < 8 then
    let v := ((s.bank.readA a.toNat).toInt + i).toNat
    .next ((s.setBank (s.bank.writeLc d.toNat (BitVec.ofNat 32 (min v (2 ^ 32 - 1))))).retire .a len)
  else s.pcFault .a .operandIllegal

/-- LSET (R100). -/
def execLset (d a : BitVec 6) (im : BitVec 10) (s : State) : Result := lsetOp 1 d a im.toInt s
/-- LSET, long form (R100). -/
def execLsetL (d a : BitVec 6) (im : BitVec 30) (s : State) : Result := lsetOp 2 d a im.toInt s

/-- ea of SDSET and SDGET: a base and a signed count of 32 bytes (R101, R200). -/
def Bank.eaSd (b : Bank) (a : BitVec 6) (im : BitVec 10) : Word := b.readA a.toNat + (im.signExtend 64 <<< 5)

/-- SDSET (R101). -/
def execSdset (d a : BitVec 6) (im : BitVec 10) (s : State) : Result :=
  if d.toNat < 16 then
    let ea := s.bank.eaSd a im
    if aligned ea 32 then
      finish s .a do
        let bs ← s.rd .s false ea 32
        .ok ((s.setBank (s.bank.writeSd d.toNat (BitVec.ofNat 256 (natOfBytes bs)))).retire .a 1)
    else .next (s.raise .a .align ea)
  else s.pcFault .a .operandIllegal

end Sys2Proof.Machine
end

