-- ==== Sys2Proof/Machine/Foresight.lean ====
section
/-! DEFINITION. The tile-engine operations that the A stream is still to issue (R157).

An X instruction waits for an operation of lower walk count on its tile, and the A stream may not have reached that
operation yet.  Its way is followed along the text with what its registers give: an integer result, a transfer, a level or
a loop counter that follows from known values is known, and what a load, a queue or the device answers is not.  A transfer
that hangs on an unknown value goes both ways, and an operation whose placement is unknown counts for every tile. -/

namespace Sys2Proof.Machine

open Sys2Proof

/-- The half that is not active. -/
def otherHalf (h : Fin 2) : Fin 2 := if h = 0 then 1 else 0

/-- A level from its trip source and strides (R193). -/
def levelOf (lc : Option Nat) (trip : Nat) (v : Word) : NestLevel :=
  ⟨lc, trip, sextNat (field v 0 24) 24, sextNat (field v 24 24) 24, sextNat (field v 48 16) 16⟩

/-- M of an mcode (R194). -/
def rowsOfCode (m : BitVec 2) : Nat := 32 * 2 ^ m.toNat

/-- The A stream at a word that it is to reach: the word's text index, its walk count, and what is known of the registers
there.  `nests` is the active half and both halves' levels. -/
structure Foreseen where
  i : Nat
  w : Int
  a : Vector (Option Word) 64
  lc : Vector (Option (BitVec 32)) 8
  nests : Option (Fin 2 × Vector (Vector NestLevel 6) 2)
  deriving DecidableEq, Repr

namespace Foreseen

/-- What is known of an a register; a0 reads 0 (R34). -/
def reg (f : Foreseen) (r : Nat) : Option Word := if r = 0 then some 0 else vget f.a r none

/-- The a register `r` holds `v`. -/
def put (f : Foreseen) (r : Nat) (v : Option Word) : Foreseen := { f with a := vset f.a r v }

/-- What is known of an lc register. -/
def counter (f : Foreseen) (r : Nat) : Option (BitVec 32) := vget f.lc r none

/-- The lc register `r` holds `v`. -/
def putCounter (f : Foreseen) (r : Nat) (v : Option (BitVec 32)) : Foreseen := { f with lc := vset f.lc r v }

/-- Go on at the word of index `j`, `d` words of walk count on. -/
def goTo (f : Foreseen) (j : Option Nat) (d : Int) : List Foreseen :=
  match j with
  | some j => [{ f with i := j, w := f.w + d }]
  | none => []

/-- A private transfer by `d` words: the walk count follows the distance (R80). -/
def jump (f : Foreseen) (d : Int) : List Foreseen := f.goTo (shiftIndex f.i d) d

/-- The ways of a transfer: the one that is known to be taken, else both. -/
def ways (taken : Option Bool) (there on : List Foreseen) : List Foreseen :=
  match taken with
  | some true => there
  | some false => on
  | none => there ++ on

/-- Nothing is known of the registers. -/
def blank (f : Foreseen) : Foreseen :=
  { f with a := Vector.replicate 64 none, lc := Vector.replicate 8 none, nests := none }

/-- What two ways to one word agree on. -/
def meet (f g : Foreseen) : Foreseen :=
  { f with
    a := Vector.zipWith (fun x y => if x = y then x else none) f.a g.a
    lc := Vector.zipWith (fun x y => if x = y then x else none) f.lc g.lc
    nests := if f.nests = g.nests then f.nests else none }

end Foreseen

/-- The operations of major 0x00 in the order of f (R94). -/
def aluRow0 : List (Word → Word → Word) :=
  [(· + ·), (· - ·), (· &&& ·), (· ||| ·), (· ^^^ ·), opShl, opShr, opSra, opRotr, opMin, opMax, opMinu, opMaxu, opSlt,
    opSltu, opSeq]

/-- The operations of major 0x01 in the order of f, SEL excepted (R95). -/
def aluRow1 : List (Word → Word → Word) := [(· * ·), opMulh, opMulhu, opDiv, opDivu, opRem, opRemu]

/-- The immediate operations of majors 0x08 to 0x12 (R98). -/
def aluRow8 : List (Word → Word → Word) :=
  [(· + ·), (· &&& ·), (· ||| ·), (· ^^^ ·), opShl, opShr, opSra, opSlt, opSltu, opSeq, (· * ·)]

/-- The one-operand operations of major 0x02 (R96); `n` is the b field. -/
def aluRow2 (f : Nat) (n : Nat) (x : Word) : Word :=
  match f with
  | 0 => wordOfNat (clzN 64 x.toNat)
  | 1 => wordOfNat (ctzN 64 x.toNat)
  | 2 => wordOfNat (popN 64 x.toNat)
  | 3 => wordOfInt (sextNat x.toNat (n + 1))
  | 4 => wordOfNat (x.toNat % 2 ^ (n + 1))
  | _ => opBswap x

/-- The immediate of an I-format word (R31). -/
def iImmediate (w : IWord) (next : Option IWord) : Word :=
  if longOf w then
    match next with
    | some e => (e.extractLsb' 0 30).signExtend 64
    | none => 0
  else (w.extractLsb' 0 10).signExtend 64

/-- The integer instructions that write a[d] (R94 to R99). -/
def integerMajor (m : Nat) : Bool := decide (m ≤ 0x04) || (decide (0x08 ≤ m) && decide (m ≤ 0x14))

/-- The result of an integer instruction (R94 to R99), where what is known gives it. -/
def Foreseen.alu (f : Foreseen) (w : IWord) (next : Option IWord) : Option Word :=
  let d := f.reg (field w 16 6)
  let x := f.reg (field w 10 6)
  let y := f.reg (field w 4 6)
  let i := iImmediate w next
  let fn := field w 0 4
  match majorOf w with
  | 0x00 => do some ((aluRow0.getD fn fun _ _ => 0) (← x) (← y))
  | 0x01 => if fn = 7 then do some (opSel (← d) (← x) (← y)) else do some ((aluRow1.getD fn fun _ _ => 0) (← x) (← y))
  | 0x02 => x.map (aluRow2 fn (field w 4 6))
  | 0x03 => if bitFieldOk i then x.map fun v => (v &&& bitFieldMask i) >>> (i.toNat % 64) else none
  | 0x04 =>
    if bitFieldOk i then do some (((← d) &&& ~~~(bitFieldMask i)) ||| (((← x) <<< (i.toNat % 64)) &&& bitFieldMask i))
    else none
  | 0x13 => some ((w.extractLsb' 0 16).signExtend 64)
  | 0x14 => d.map fun (v : Word) => (v <<< 16) + (w.extractLsb' 0 16).setWidth 64
  | m => x.map fun v => (aluRow8.getD (m - 8) fun _ _ => 0) v i

/-- LSET (R100), where what is known gives it. -/
def Foreseen.lset (f : Foreseen) (w : IWord) (next : Option IWord) : Option (BitVec 32) :=
  (f.reg (field w 10 6)).map fun v =>
    BitVec.ofNat 32 (min (v.toInt + (iImmediate w next).toInt).toNat (2 ^ 32 - 1))

/-- NSET (R193), where what is known gives the level. -/
def Foreseen.nset (f : Foreseen) (w : IWord) (next : Option IWord) : Foreseen :=
  let l := field w 19 3
  let level : Option NestLevel := (f.reg (field w 4 6)).map fun v =>
    if longOf w then levelOf none ((next.getD 0).extractLsb' 0 30).toNat v
    else if w.getLsbD 18 then levelOf (some (field w 10 8)) 0 v
    else levelOf none (field w 10 8) v
  { f with nests := do
      let (h, n) ← f.nests
      let v ← level
      some (h, vset n (otherHalf h) (vset n[otherHalf h] l v)) }

/-- Majors other than the integer ones whose instructions write the a register of bits 21 to 16: QPOPA, the loads, the
atomics, TDONE, TCANCEL, FREG, LSTAT, PROBE, SRD and WFE. -/
def answersA (m : Nat) : Bool :=
  [0x19, 0x20, 0x22, 0x24, 0x26, 0x28, 0x2c, 0x2d, 0x2e, 0x2f, 0x52, 0x53, 0x55, 0x61, 0x6a, 0x72, 0x76].contains m

/-- Where the A stream goes from a word, and what is known there. -/
def Foreseen.next (k : Kernel) (w : IWord) (e : Option IWord) (f : Foreseen) : List Foreseen :=
  let n := wordsOf w
  let m := majorOf w
  let d := field w 16 6
  let step := fun (g : Foreseen) => g.goTo (some (g.i + n)) n
  let link := f.put d (some (k.textG + wordOfNat (4 * f.i + 4)))
  let away := fun (g : Foreseen) (target : Option Word) =>
    match target with
    | some t =>
      match textIndex k t with
      | some j => g.goTo (some j) ((j : Int) - g.i)
      | none => []
    | none => (tileWordsOf 0 k.text).flatMap fun j => g.blank.goTo (some j) ((j : Int) - g.i)
  let share := fun (g : Foreseen) (taken : Option Bool) (by_ : Int) =>
    Foreseen.ways taken (g.goTo (shiftIndex g.i by_) n) (step g)
  match (tagOf w).toNat with
  | 0 =>
    if integerMajor m then step (f.put d (f.alu w e))
    else
      match m with
      | 0x30 => f.jump (w.extractLsb' 0 22).toInt
      | 0x31 =>
        let taken := do some (condHolds (field w 18 4) (← f.reg (field w 12 6)) (← f.reg (field w 6 6)))
        Foreseen.ways taken (f.jump (bcOffset w e)) (step f)
      | 0x32 => (f.put 63 (some (k.textG + wordOfNat (4 * f.i + 4)))).jump (w.extractLsb' 0 22).toInt
      | 0x33 => away f (f.reg (field w 10 6))
      | 0x34 => away link (f.reg (field w 10 6))
      | 0x35 =>
        let c := f.counter (field w 12 6)
        let g := f.putCounter (field w 12 6) (c.map fun v => if v = 0 then v else v - 1)
        Foreseen.ways (c.map (· != 0)) (g.jump (bcOffset w e)) (step g)
      | 0x38 => step (f.putCounter d (f.lset w e))
      | 0x3a => step (f.nset w e)
      | 0x3b => step { f with nests := f.nests.map fun p => (otherHalf p.1, p.2) }
      | 0x29 | 0x4c => step (f.put (field w 10 6) none)
      | 0x47 => step ((f.put (field w 10 6) none).put (field w 10 6 + 1) none)
      | 0x70 | 0x71 | 0x75 => step f.blank
      | _ => if answersA m then step (f.put d none) else step f
  | 2 =>
    match m with
    | 0x00 =>
      let taken := if w.getLsbD 21 then none
        else do some (condHolds (field w 18 3) (← f.reg (field w 12 6)) (← f.reg (field w 6 6)))
      share f taken (bcOffset w e)
    | 0x01 => share f ((f.counter d).map (· == 0)) ((field w 0 16 : Nat) + 1)
    | 0x02 =>
      let c := (f.counter d).map fun v => if v = 0 then v else v - 1
      share (f.putCounter d c) (c.map (· != 0)) (1 - (field w 0 16 : Nat))
    | 0x06 => []
    | _ => step f
  | 3 => []
  | _ => step f

/-- The levels that an MMA captures there (R192), where they are known. -/
def Foreseen.levels (f : Foreseen) (depth : Nat) : Option (List NestLevel) := do
  let (h, n) ← f.nests
  (n[otherHalf h].toList.take depth).mapM fun l =>
    match l.lc with
    | none => some l
    | some r => (f.counter r).map fun v => { l with lc := none, trip := v.toNat }

/-- A nest places at most the rows of the accumulator file, so that its rows can be listed (R195). -/
def levelsListed (levels : List NestLevel) : Bool :=
  let many := fun (g : NestLevel → Int) => levels.foldl (fun n l => n * if g l = 0 then 1 else l.trip) 1
  decide (many (·.sc) ≤ 4096) && decide (many (·.sa) ≤ 4096)

/-- The tiles that the tile-engine instruction `w` is to read or write, where its operands are known. -/
def Foreseen.tiles (f : Foreseen) (w : IWord) : Option (List Nat) :=
  match majorOf w with
  | 0x3b => do
    let p ← f.reg (field w 0 6)
    let l ← f.levels (field w 6 3)
    if levelsListed l then
      let m := rowsOfCode (w.extractLsb' 12 2)
      some (resultTiles p m l ++ avecTiles p m l)
    else none
  | 0x3c => (f.reg (field w 10 6)).map fun v => tilesOfRows (field v 0 12) (field v 12 13) [0]
  | _ => (f.reg (field w 6 6)).map fun v => tilesOfRows (placeCrow v) (rowsOfCode (w.extractLsb' 16 2)) [0]

/-- The fields of a tile-engine word are in order (R194, R199, R201).  At a word whose fields are not the stream faults whatever
its registers hold, and issues nothing from there. -/
def tileFieldsOk (w : IWord) : Bool :=
  !longOf w &&
    match majorOf w with
    | 0x3b => field w 12 2 != 3 && field w 6 3 != 0 && decide (field w 6 3 ≤ 6)
    | 0x3c => field w 16 6 == 0 && field w 0 10 == 0
    | _ => field w 16 2 != 3 && (!w.getLsbD 12 || field w 0 6 == 0)

/-- From the words of the list the A stream may issue, below the walk count `lim`, an operation on tile `t`.  Out of fuel it
may. -/
def mayFork (k : Kernel) (t : Nat) (lim : Int) : Nat → List Foreseen → List Foreseen → Bool
  | 0, _, _ => true
  | _ + 1, [], _ => false
  | fuel + 1, f :: rest, seen =>
    let old := seen.find? fun g => g.i == f.i && g.w == f.w
    let g := match old with
      | some o => o.meet f
      | none => f
    if old = some g ∨ lim + k.text.length ≤ f.w then mayFork k t lim fuel rest seen
    else
      match k.text[g.i]? with
      | none => mayFork k t lim fuel rest seen
      | some w =>
        if (tileWord w && !tileFieldsOk w) = true then mayFork k t lim fuel rest seen
        else if (tileWord w && decide (g.w < lim) && (match g.tiles w with | some ts => ts.contains t | none => true)) = true then true
        else
          mayFork k t lim fuel (g.next k w k.text[g.i + 1]? ++ rest)
            (g :: seen.filter fun o => o.i != g.i || o.w != g.w)

/-- The A stream as it stands, its registers known. -/
def Bank.foreseen (b : Bank) (i : Nat) : Foreseen :=
  { i, w := b.w .a, a := b.af.a.map some, lc := b.af.lc.map some, nests := some (b.eng.activeHalf, b.eng.nests) }

/-- The A stream may still issue an operation on tile `t` below a walk count. -/
def State.aIssues (s : State) (t : Nat) (lim : Int) : Bool :=
  match s.kernel with
  | none => false
  | some k =>
    match textIndex k (s.bank.pc .a) with
    | none => false
    | some i => mayFork k t lim (reachFuel k.text) [s.bank.foreseen i] []

/-- An X instruction that accesses rows of tile `t` waits (R157): an operation of lower walk count has not completed, or
may still be issued.  An A stream that only X lets go on issues none before X moves. -/
def State.tileHeld (s : State) (t : Nat) : Bool :=
  s.bank.eng.tileQ.any (fun o => decide (o.walk < s.bank.walk.wx) && o.work.tiles.contains t) ||
    (!s.aNeedsX && s.aIssues t s.bank.walk.wx)

end Sys2Proof.Machine
end

