-- ==== Sys2Proof/Machine/Trans.lean ====
section
/-! DEFINITION. The special functions of R163, correctly rounded.

EXP2, LOG2, TANH and SIGM are irrational at every input that their rules do not name, so the floor of the result in a
fine enough unit, with a sticky bit, decides every rounding.  The floor comes from interval arithmetic in fixed point,
repeated at growing precision until both ends of the interval have the same floor. -/

namespace Sys2Proof.Machine

/-- A fixed-point interval: the value times `2^P` lies in [lo, hi]. -/
structure Ivl where
  lo : Nat
  hi : Nat
  deriving DecidableEq, Repr

/-- Product at precision `P`. -/
def Ivl.mul (p : Nat) (a b : Ivl) : Ivl := ⟨(a.lo * b.lo) >>> p, ((a.hi * b.hi) >>> p) + 1⟩

/-- Quotient at precision `P`. -/
def Ivl.div (p : Nat) (a b : Ivl) : Ivl := ⟨(a.lo <<< p) / b.hi, (a.hi <<< p) / b.lo + 1⟩

/-- Sum. -/
def Ivl.add (a b : Ivl) : Ivl := ⟨a.lo + b.lo, a.hi + b.hi⟩

/-- Difference, for a − b ≥ 0. -/
def Ivl.sub (a b : Ivl) : Ivl := ⟨a.lo - b.hi, a.hi - b.lo⟩

/-- The integer `n`. -/
def Ivl.ofNat (p n : Nat) : Ivl := ⟨n <<< p, n <<< p⟩

/-- The magnitude `m × 2^e`. -/
def Ivl.ofMag (p m : Nat) (e : Int) : Ivl :=
  let s := e + p
  if s ≥ 0 then ⟨m <<< s.toNat, m <<< s.toNat⟩ else ⟨m >>> (-s).toNat, (m >>> (-s).toNat) + 1⟩

/-- The sum z + z^3/3 + … of atanh for z at most 1/3: `fuel` more terms, power `t`, term number `k`. -/
def atanhSum (p : Nat) (z2 : Ivl) : Nat → Nat → Ivl → Ivl → Ivl
  | 0, _, t, acc => ⟨acc.lo, acc.hi + t.hi + 1⟩
  | fuel + 1, k, t, acc =>
    let term : Ivl := ⟨t.lo / (2 * k + 1), t.hi / (2 * k + 1) + 1⟩
    atanhSum p z2 fuel (k + 1) (Ivl.mul p t z2) (Ivl.add acc term)

/-- atanh z for z at most 1/3. -/
def atanhIvl (p : Nat) (z : Ivl) : Ivl := atanhSum p (Ivl.mul p z z) (p / 3 + 4) 0 z ⟨0, 0⟩

/-- ln t for t from 1 to 2, as 2 × atanh((t − 1) / (t + 1)). -/
def lnIvl (p : Nat) (t : Ivl) : Ivl :=
  let one := Ivl.ofNat p 1
  let a := atanhIvl p (Ivl.div p (Ivl.sub t one) (Ivl.add t one))
  ⟨2 * a.lo, 2 * a.hi⟩

/-- ln 2 = 2 × atanh(1/3). -/
def ln2Ivl (p : Nat) : Ivl := lnIvl p (Ivl.ofNat p 2)

/-- The exponential series for y at most 1: `fuel` more terms, term `t` of number `k`. -/
def expSum (p : Nat) (y : Ivl) : Nat → Nat → Ivl → Ivl → Ivl
  | 0, _, t, acc => ⟨acc.lo, acc.hi + 2 * t.hi + 1⟩
  | fuel + 1, k, t, acc =>
    let t' := Ivl.mul p t y
    expSum p y fuel (k + 1) ⟨t'.lo / k, t'.hi / k + 1⟩ (Ivl.add acc t)

/-- Number of series terms that bring the exponential's tail below the unit at precision `p`. -/
def expTerms (p : Nat) : Nat := p / 4 + 24

/-- e^y for y at most 1. -/
def expSmall (p : Nat) (y : Ivl) : Ivl := expSum p y (expTerms p) 1 (Ivl.ofNat p 1) ⟨0, 0⟩

/-- Square `k` times. -/
def squareIvl (p : Nat) : Nat → Ivl → Ivl
  | 0, x => x
  | k + 1, x => squareIvl p k (Ivl.mul p x x)

/-- e^y for y below 1,024. -/
def expIvl (p : Nat) (y : Ivl) : Ivl := squareIvl p 10 (expSmall p ⟨y.lo >>> 10, (y.hi >>> 10) + 1⟩)

/-- The 96-bit floor of a positive interval at precision `p`, when both ends agree on it. -/
def settle (p : Nat) (x : Ivl) : Option (Nat × Int) :=
  let l := Nat.log2 x.hi
  if l < 96 then none
  else
    let s := l - 96
    if x.lo >>> s == x.hi >>> s then some (x.lo >>> s, (s : Int) - p) else none

/-- Try `f` at each precision until it settles; the last one stands if none does. -/
def refine (f : Nat → Ivl) (neg : Bool) : List Nat → Num
  | [] => .nan
  | p :: ps =>
    match settle p (f p) with
    | some (m, e) => .fin neg m e true
    | none => refine f neg ps

/-- The precisions tried: the last resolves every f32, bf16 and f16 input. -/
def precisions : List Nat := [192, 640, 1280, 2560, 5120]

/-- Below this magnitude (as a power of two) every rounding of a nonzero result agrees. -/
def tinyNum (neg : Bool) : Num := .fin neg 0 (-400) true

/-- A value strictly between 1 − 2^−200 and 1. -/
def nearOne (neg : Bool) : Num := .fin neg (2 ^ 200 - 1) (-200) true

/-- 2^a (R163). -/
def exp2Num (a : Num) : Exact :=
  match a with
  | .nan => ⟨.nan, 0⟩
  | .inf n => ⟨if n then .zero else .inf false, 0⟩
  | .fin n m e _ =>
    if m = 0 then ⟨.ofInt 1, 0⟩
    else if magLog2 m e ≥ 12 then ⟨if n then tinyNum false else .fin false 1 4096 false, 0⟩
    else
      -- a = k + f with k an integer and f in [0, 1)
      let v := signedAt n m e (min e 0)
      let d := (-(min e 0)).toNat
      let k : Int := v / (2 ^ d : Nat)
      let f := (v % (2 ^ d : Nat)).toNat
      if f = 0 then ⟨.fin false 1 k false, 0⟩
      else ⟨(refine (fun p => expSmall p (Ivl.mul p (Ivl.ofMag p f (-(d : Int))) (ln2Ivl p))) false precisions).scale k, 0⟩

/-- log2 a (R163). -/
def log2Num (a : Num) : Exact :=
  match a with
  | .nan => ⟨.nan, 0⟩
  | .inf n => if n then ⟨.nan, flNV⟩ else ⟨.inf false, 0⟩
  | .fin n m e _ =>
    if m = 0 then ⟨.inf true, flDZ⟩
    else if n then ⟨.nan, flNV⟩
    else
      let l := Nat.log2 m
      let k : Int := (l : Int) + e
      if m = 2 ^ l then ⟨.ofInt k, 0⟩
      else
        let lg := fun p => Ivl.div p (lnIvl p (Ivl.ofMag p m (-(l : Int)))) (ln2Ivl p)
        if k ≥ 0 then ⟨refine (fun p => Ivl.add (Ivl.ofNat p k.toNat) (lg p)) false precisions, 0⟩
        else ⟨refine (fun p => Ivl.sub (Ivl.ofNat p (-k).toNat) (lg p)) true precisions, 0⟩

/-- tanh a (R163). -/
def tanhNum (a : Num) : Exact :=
  match a with
  | .nan => ⟨.nan, 0⟩
  | .inf n => ⟨.ofInt (if n then -1 else 1), 0⟩
  | .fin n m e _ =>
    if m = 0 then ⟨.fin n 0 0 false, 0⟩
    else if magLog2 m e ≥ 8 then ⟨nearOne n, 0⟩
    else
      let f := fun p =>
        let ex := expIvl p (Ivl.ofMag p m (e + 1))
        let one := Ivl.ofNat p 1
        Ivl.div p (Ivl.sub ex one) (Ivl.add ex one)
      ⟨refine f n precisions, 0⟩

/-- 1 / (1 + e^−a) (R163). -/
def sigmNum (a : Num) : Exact :=
  match a with
  | .nan => ⟨.nan, 0⟩
  | .inf n => ⟨if n then .zero else .ofInt 1, 0⟩
  | .fin n m e _ =>
    if m = 0 then ⟨.fin false 1 (-1) false, 0⟩
    else if magLog2 m e ≥ 9 then ⟨if n then tinyNum false else nearOne false, 0⟩
    else
      let f := fun p =>
        let ex := expIvl p (Ivl.ofMag p m e)
        let one := Ivl.ofNat p 1
        if n then Ivl.div p one (Ivl.add ex one) else Ivl.div p ex (Ivl.add ex one)
      ⟨refine f false precisions, 0⟩

end Sys2Proof.Machine
end

