-- ==== Sys2Proof/Machine/XScalar.lean ====
section
/-! DEFINITION. The scalar instructions of the X stream (R158 to R161). -/

namespace Sys2Proof.Machine

open Sys2Proof

/-- A field names an x register (R35, R152). -/
def xOk (r : BitVec 6) : Bool := decide (r.toNat < 32)

/-- x[d] := v after `len` words, when every register code is in range. -/
def answerX (len : Nat) (ok : Bool) (d : BitVec 6) (v : Word) (s : State) : Result :=
  if ok then .next (s.setX len d.toNat v) else s.pcFault .x .operandIllegal

/-- A two-operand instruction of R158. -/
def aluX (f : Word → Word → Word) (d a b : BitVec 6) (s : State) : Result :=
  answerX 1 (xOk d && xOk a && xOk b) d (f (s.bank.readX a.toNat) (s.bank.readX b.toNat)) s

/-- XADD (R158). -/
def execXadd (d a b : BitVec 6) (s : State) : Result := aluX (· + ·) d a b s
/-- XSUB (R158). -/
def execXsub (d a b : BitVec 6) (s : State) : Result := aluX (· - ·) d a b s
/-- XAND (R158). -/
def execXand (d a b : BitVec 6) (s : State) : Result := aluX (· &&& ·) d a b s
/-- XIOR (R158). -/
def execXior (d a b : BitVec 6) (s : State) : Result := aluX (· ||| ·) d a b s
/-- XEOR (R158). -/
def execXeor (d a b : BitVec 6) (s : State) : Result := aluX (· ^^^ ·) d a b s
/-- XSHL (R158). -/
def execXshl (d a b : BitVec 6) (s : State) : Result := aluX opShl d a b s
/-- XSHR (R158). -/
def execXshr (d a b : BitVec 6) (s : State) : Result := aluX opShr d a b s
/-- XSRA (R158). -/
def execXsra (d a b : BitVec 6) (s : State) : Result := aluX opSra d a b s
/-- XROTR (R158). -/
def execXrotr (d a b : BitVec 6) (s : State) : Result := aluX opRotr d a b s
/-- XMIN (R158). -/
def execXmin (d a b : BitVec 6) (s : State) : Result := aluX opMin d a b s
/-- XMAX (R158). -/
def execXmax (d a b : BitVec 6) (s : State) : Result := aluX opMax d a b s
/-- XMINU (R158). -/
def execXminu (d a b : BitVec 6) (s : State) : Result := aluX opMinu d a b s
/-- XMAXU (R158). -/
def execXmaxu (d a b : BitVec 6) (s : State) : Result := aluX opMaxu d a b s
/-- XSLT (R158). -/
def execXslt (d a b : BitVec 6) (s : State) : Result := aluX opSlt d a b s
/-- XSLTU (R158). -/
def execXsltu (d a b : BitVec 6) (s : State) : Result := aluX opSltu d a b s
/-- XSEQ (R158). -/
def execXseq (d a b : BitVec 6) (s : State) : Result := aluX opSeq d a b s
/-- XMUL (R158). -/
def execXmul (d a b : BitVec 6) (s : State) : Result := aluX (· * ·) d a b s
/-- XMULH (R158). -/
def execXmulh (d a b : BitVec 6) (s : State) : Result := aluX opMulh d a b s
/-- XMULHU (R158). -/
def execXmulhu (d a b : BitVec 6) (s : State) : Result := aluX opMulhu d a b s
/-- XDIV (R158). -/
def execXdiv (d a b : BitVec 6) (s : State) : Result := aluX opDiv d a b s
/-- XDIVU (R158). -/
def execXdivu (d a b : BitVec 6) (s : State) : Result := aluX opDivu d a b s
/-- XREM (R158). -/
def execXrem (d a b : BitVec 6) (s : State) : Result := aluX opRem d a b s
/-- XREMU (R158). -/
def execXremu (d a b : BitVec 6) (s : State) : Result := aluX opRemu d a b s
/-- XSEL (R158): the old x[d] chooses. -/
def execXsel (d a b : BitVec 6) (s : State) : Result := aluX (opSel (s.bank.readX d.toNat)) d a b s

/-- A one-operand instruction of R159. -/
def immX (f : Word → Word) (len : Nat) (d a : BitVec 6) (s : State) : Result :=
  answerX len (xOk d && xOk a) d (f (s.bank.readX a.toNat)) s

/-- XADDI (R159). -/
def execXaddi (d a : BitVec 6) (im : BitVec 10) (s : State) : Result := immX (· + im.signExtend 64) 1 d a s
/-- XADDI, long form (R159). -/
def execXaddiL (d a : BitVec 6) (im : BitVec 30) (s : State) : Result := immX (· + im.signExtend 64) 2 d a s
/-- XSHLI (R159). -/
def execXshli (d a k : BitVec 6) (s : State) : Result := immX (opShl · (k.setWidth 64)) 1 d a s
/-- XSHLI, long form (R159). -/
def execXshliL (d a k : BitVec 6) (s : State) : Result := immX (opShl · (k.setWidth 64)) 2 d a s
/-- XSHRI (R159). -/
def execXshri (d a k : BitVec 6) (s : State) : Result := immX (opShr · (k.setWidth 64)) 1 d a s
/-- XSHRI, long form (R159). -/
def execXshriL (d a k : BitVec 6) (s : State) : Result := immX (opShr · (k.setWidth 64)) 2 d a s
/-- XSRAI (R159). -/
def execXsrai (d a k : BitVec 6) (s : State) : Result := immX (opSra · (k.setWidth 64)) 1 d a s
/-- XSRAI, long form (R159). -/
def execXsraiL (d a k : BitVec 6) (s : State) : Result := immX (opSra · (k.setWidth 64)) 2 d a s
/-- XROTI (R159). -/
def execXroti (d a k : BitVec 6) (s : State) : Result := immX (opRotr · (k.setWidth 64)) 1 d a s
/-- XROTI, long form (R159). -/
def execXrotiL (d a k : BitVec 6) (s : State) : Result := immX (opRotr · (k.setWidth 64)) 2 d a s

/-- XLI (R160). -/
def execXli (d : BitVec 6) (im : BitVec 16) (s : State) : Result := answerX 1 (xOk d) d (im.signExtend 64) s
/-- XLIH (R160). -/
def execXlih (d : BitVec 6) (im : BitVec 16) (s : State) : Result :=
  answerX 1 (xOk d) d ((s.bank.readX d.toNat <<< 16) + im.setWidth 64) s

/-- XQPOP (R161): waits for a complete entry; a row faults and stays at the head (R83). -/
def execXqpop (d a : BitVec 6) (s : State) : Result :=
  if xOk d && decide (a.toNat < 4) then
    match s.bank.qx a.toNat with
    | [] => .next (s.countEmpty.stallPeer .x)
    | .pending _ _ :: _ => .next (s.countEmpty.stall .x)
    | .row _ :: _ => .next (s.raise .x .operandFormat 0)
    | .scalar v :: rest => .next ((s.setBank (s.bank.setQx a.toNat rest)).setX 1 d.toNat v)
  else s.pcFault .x .operandIllegal

/-- XQPUSH (R161): a full queue waits. -/
def execXqpush (d a : BitVec 6) (s : State) : Result :=
  if decide (d.toNat < 2) && xOk a then
    if (s.bank.qa d.toNat).length < qaSize then
      .next ((s.setBank (s.bank.setQa d.toNat (s.bank.qa d.toNat ++ [s.bank.readX a.toNat]))).retire .x 1)
    else .next (s.stallPeer .x)
  else s.pcFault .x .operandIllegal

end Sys2Proof.Machine
end

