-- ==== Sys2Proof/Machine/Vector.lean ====
section
/-! DEFINITION. Lanes, types and predicates of the V-format instructions, and the lane-wise ones (R152 to R166, R172,
R174, R178 to R182). -/

namespace Sys2Proof.Machine

open Sys2Proof

/-! ## Operands -/

/-- The type and rounding fields of a V-format instruction: none in the short form (R32). -/
abbrev VType := Option (BitVec 4)

/-- Words of the form. -/
def vlen (ty : VType) : Nat := if ty.isSome then 2 else 1

/-- The operation types that a tile's tag accepts (R153). -/
def tagAccepts (g : TileTag) (t : ElemTy) : Bool :=
  match g, t with
  | .f32, .f32 => true
  | .i32, .i32 => true
  | .i32, .n32 => true
  | .bf16, .bf16 => true
  | .f16, .f16 => true
  | _, _ => false

/-- The fault of a decoding check of the moving X instruction: sr.fva is its first word. -/
def State.xFault {α : Type} (s : State) (c : Cause) : Except Stop α := .error (.fault c s.bank.sr.pcx)

/-- Checks 7 and 8 of R49 for a V-format instruction: register codes and limits, the type and rounding codes, and the
agreement of the type with the tile's tag. -/
def State.vcheck (s : State) (ty : VType) (rnd : BitVec 3) (regs : Bool) : Except Stop ElemTy :=
  if regs = false ∨ rnd = 7#3 then s.xFault .operandIllegal
  else
    match ty with
    | none => .ok s.bank.tag.ty
    | some c =>
      match ElemTy.ofCode c.toNat with
      | none => s.xFault .operandIllegal
      | some t => if tagAccepts s.bank.tag t then .ok t else s.xFault .operandFormat

/-- A floating operation type, or OPERAND_FORMAT at check 8. -/
def State.needFloat (s : State) (t : ElemTy) : Except Stop Unit :=
  if t.fmt?.isSome then .ok () else s.xFault .operandFormat

/-- The wait of R157 for the tile of the window. -/
def State.vwait (s : State) : Except Stop Unit :=
  if s.tileHeld (s.bank.sr.vwin.toNat / 128) then .error .wait else .ok ()

/-- A field names a p register (R152). -/
def pOk (r : BitVec 6) : Bool := decide (r.toNat < 16)

/-- Lane count and lane width of the window (R153). -/
def Bank.lanes (b : Bank) : Nat := b.tag.lanes
/-- Lane width. -/
def Bank.laneBits (b : Bank) : Nat := 4096 / b.tag.lanes

/-- Lane `i` is active (R154). -/
def Bank.active (b : Bank) (p : BitVec 4) (i : Nat) : Bool := (b.readP p.toNat).getLsbD i

/-- The 8-byte words of a row, some of whose lanes of width `w` meet `act`; `all` asks it of every lane. -/
def laneWords (w : Nat) (all : Bool) (act : Nat → Bool) : List Nat :=
  (List.range 64).filter fun k =>
    let ls := (List.range (64 / w)).map fun j => act (64 / w * k + j)
    if all then ls.all id else ls.any id

/-- The accumulator words that an instruction reads and writes (R25): the v registers of `reads` are read whole, and the lanes
of width `w` of v[d] that `act` marks are written.  A poisoned word that is read, or written in part, ends the context; one
that is written whole is poisoned no longer. -/
def State.vrows (s : State) (reads : List (BitVec 6)) (d : BitVec 6) (w : Nat) (act : Nat → Bool) : Except Stop State :=
  let row := fun (r : BitVec 6) => s.bank.sr.vwin.toNat + r.toNat
  let full := laneWords w true act
  let part := (laneWords w false act).filter fun k => !(full.contains k)
  let lost := (reads.findSome? fun r => s.bank.rowPoison 0 512 (row r)).orElse fun _ =>
    part.findSome? fun k => s.bank.rowPoison (8 * k) 8 (row d)
  match lost with
  | some k => .error (.lost (accKey s.cellNo k))
  | none => .ok (s.setBank (s.bank.cleanWords (row d) full))

/-- The lanes of v registers that are read and no v register written. -/
def State.vreads (s : State) (reads : List (BitVec 6)) : Except Stop State := s.vrows reads 0 32 fun _ => false

/-! ## Lane-wise results -/

/-- A lane's result: its bits and the flags it raises. -/
abbrev LaneOut := Nat × Flags

/-- A lane without flags. -/
def quiet (v : Nat) : LaneOut := (v, 0)

/-- The lanes of a register written by `f` where active, with the flags of the active lanes (R154, R155). -/
def laneRow (n w : Nat) (act : Nat → Bool) (old : Row) (f : Nat → LaneOut) : Row × Flags :=
  let ls := (List.range n).map fun i => if act i then f i else (rowElem old w i, 0)
  (rowOfLanes w (ls.map (·.1)), ls.foldl (fun a l => a ||| l.2) 0)

/-- A rounded result as a lane. -/
def laneRound (t : ElemTy) (c : Controls) (j : Nat) (x : Exact) : LaneOut :=
  let r := roundElem t true c.ftz (c.rmAt j) x.v
  (r.bits, r.flags ||| x.flags)

/-- Write a v register, OR flags, advance the counter by `draws`, and retire (R155, R156). -/
def State.writeVec (s : State) (len : Nat) (d : BitVec 6) (out : Row × Flags) (draws : Nat) : State :=
  (s.setBank (((s.bank.writeV d.toNat out.1).orFlags out.2).advanceCtr draws)).retire .x len

/-- The draws of an instruction: `n` when its resolved mode is stochastic and it rounds (R156). -/
def drawsOf (c : Controls) (rounds : Bool) (n : Nat) : Nat := if c.stochastic && rounds then n else 0

/-- The operands of one lane: patterns of va, vb, vc. -/
abbrev LaneOp := ElemTy → Controls → Nat → Nat → Nat → Nat → LaneOut

/-- A lane-wise instruction (R162): `rounds` tells that a floating T makes it round, `floats` that T must be floating. -/
def vlaneOp (f : LaneOp) (rounds floats : Bool) (ty : VType) (rnd : BitVec 3) (d a b c : BitVec 6) (p : BitVec 4)
    (s : State) : Result :=
  finish s .x do
    let t ← s.vcheck ty rnd true
    if floats then s.needFloat t
    s.vwait
    let s ← s.vrows [a, b, c] d s.bank.laneBits (s.bank.active p)
    let k := s.bank.controlsX rnd.toNat
    let n := s.bank.lanes
    let w := s.bank.laneBits
    let va := s.bank.readV a.toNat
    let vb := s.bank.readV b.toNat
    let vc := s.bank.readV c.toNat
    let out := laneRow n w (s.bank.active p) (s.bank.readV d.toNat)
      fun i => f t k i (rowElem va w i) (rowElem vb w i) (rowElem vc w i)
    .ok (s.writeVec (vlen ty) d out (drawsOf k (rounds && t.fmt?.isSome) n))

/-- A floating lane operation, or an integer one modulo 2^32 (R155). -/
def lane3 (f : Bool → Num → Num → Num → Exact) (g : Int → Int → Int → Int) : LaneOp := fun t k j a b c =>
  if t.fmt?.isSome then
    laneRound t k j (f k.rdn (decodeElem t k.daz a) (decodeElem t k.daz b) (decodeElem t k.daz c))
  else quiet ((g a b c) % (2 ^ 32 : Nat)).toNat

/-- VADD's lane. -/
def laneAdd : LaneOp := lane3 (fun r a b _ => addNum r a b) (fun a b _ => a + b)
/-- VSUB's lane. -/
def laneSub : LaneOp := lane3 (fun r a b _ => addNum r a b.negate) (fun a b _ => a - b)
/-- VMUL's lane. -/
def laneMul : LaneOp := lane3 (fun _ a b _ => mulNum a b) (fun a b _ => a * b)
/-- VFMA's lane. -/
def laneFma : LaneOp := lane3 (fun r a b c => fmaNum r a b c) (fun a b c => a * b + c)
/-- VFMS's lane. -/
def laneFms : LaneOp := lane3 (fun r a b c => fmaNum r a b c.negate) (fun a b c => a * b - c)
/-- VFNMA's lane. -/
def laneFnma : LaneOp := lane3 (fun r a b c => fmaNum r a.negate b c) (fun a b c => c - a * b)
/-- VDIV's lane. -/
def laneDiv : LaneOp := lane3 (fun _ a b _ => divNum a b) (fun a _ _ => a)
/-- VSQRT's lane. -/
def laneSqrt : LaneOp := lane3 (fun _ a _ _ => sqrtNum a) (fun a _ _ => a)
/-- A special function's lane (R163). -/
def laneFn (f : Num → Exact) : LaneOp := lane3 (fun _ a _ _ => f a) (fun a _ _ => a)

/-- The integer value of a 32-bit lane under T. -/
def laneInt (t : ElemTy) (v : Nat) : Int := if t = .i32 then sextNat v 32 else (v : Int)

/-- VMIN's and VMAX's lane (R162). -/
def laneExt (f : Num → Num → Num) (less : Bool) : LaneOp := fun t k j a b _ =>
  if t.fmt?.isSome then laneRound t k j ⟨f (decodeElem t k.daz a) (decodeElem t k.daz b), 0⟩
  else
    let le := decide (laneInt t a ≤ laneInt t b)
    quiet (if le = less then a else b)

/-- The sign bit of a lane of width `w`. -/
def signBit (w : Nat) : Nat := 2 ^ (w - 1)

/-- VABS's lane (R162). -/
def laneAbs : LaneOp := fun t _ _ a _ _ =>
  match t.fmt? with
  | some f => quiet (if (decodeFloat f false a).isNan then f.nanPat else a % signBit t.width)
  | none => quiet (if t = .i32 ∧ a ≥ 2 ^ 31 then (2 ^ 32 - a) % 2 ^ 32 else a)

/-- VNEG's lane (R162). -/
def laneNeg : LaneOp := fun t _ _ a _ _ =>
  match t.fmt? with
  | some f => quiet (if (decodeFloat f false a).isNan then f.nanPat else natXor a (signBit t.width))
  | none => quiet ((2 ^ 32 - a) % 2 ^ 32)

/-- VMOV's lane. -/
def laneMov : LaneOp := fun _ _ _ a _ _ => quiet a

/-- VADD (R162). -/
def execVadd (d a b : BitVec 6) (p : BitVec 4) (s : State) : Result := vlaneOp laneAdd true false none 0 d a b d p s
/-- VADD, long form (R162). -/
def execVaddL (d a b : BitVec 6) (p : BitVec 4) (ty : BitVec 4) (rnd : BitVec 3) (s : State) : Result :=
  vlaneOp laneAdd true false (some ty) rnd d a b d p s
/-- VSUB (R162). -/
def execVsub (d a b : BitVec 6) (p : BitVec 4) (s : State) : Result := vlaneOp laneSub true false none 0 d a b d p s
/-- VSUB, long form (R162). -/
def execVsubL (d a b : BitVec 6) (p : BitVec 4) (ty : BitVec 4) (rnd : BitVec 3) (s : State) : Result :=
  vlaneOp laneSub true false (some ty) rnd d a b d p s
/-- VMUL (R162). -/
def execVmul (d a b : BitVec 6) (p : BitVec 4) (s : State) : Result := vlaneOp laneMul true false none 0 d a b d p s
/-- VMUL, long form (R162). -/
def execVmulL (d a b : BitVec 6) (p : BitVec 4) (ty : BitVec 4) (rnd : BitVec 3) (s : State) : Result :=
  vlaneOp laneMul true false (some ty) rnd d a b d p s
/-- VFMA (R162). -/
def execVfma (d a b : BitVec 6) (p : BitVec 4) (s : State) : Result := vlaneOp laneFma true false none 0 d a b d p s
/-- VFMA, long form (R162). -/
def execVfmaL (d a b : BitVec 6) (p : BitVec 4) (c : BitVec 6) (ty : BitVec 4) (rnd : BitVec 3) (s : State) : Result :=
  vlaneOp laneFma true false (some ty) rnd d a b c p s
/-- VFMS (R162). -/
def execVfms (d a b : BitVec 6) (p : BitVec 4) (s : State) : Result := vlaneOp laneFms true false none 0 d a b d p s
/-- VFMS, long form (R162). -/
def execVfmsL (d a b : BitVec 6) (p : BitVec 4) (c : BitVec 6) (ty : BitVec 4) (rnd : BitVec 3) (s : State) : Result :=
  vlaneOp laneFms true false (some ty) rnd d a b c p s
/-- VFNMA (R162). -/
def execVfnma (d a b : BitVec 6) (p : BitVec 4) (s : State) : Result := vlaneOp laneFnma true false none 0 d a b d p s
/-- VFNMA, long form (R162). -/
def execVfnmaL (d a b : BitVec 6) (p : BitVec 4) (c : BitVec 6) (ty : BitVec 4) (rnd : BitVec 3) (s : State) : Result :=
  vlaneOp laneFnma true false (some ty) rnd d a b c p s
/-- VMIN (R162). -/
def execVmin (d a b : BitVec 6) (p : BitVec 4) (s : State) : Result :=
  vlaneOp (laneExt minNum true) false false none 0 d a b d p s
/-- VMIN, long form (R162). -/
def execVminL (d a b : BitVec 6) (p : BitVec 4) (ty : BitVec 4) (s : State) : Result :=
  vlaneOp (laneExt minNum true) false false (some ty) 0 d a b d p s
/-- VMAX (R162). -/
def execVmax (d a b : BitVec 6) (p : BitVec 4) (s : State) : Result :=
  vlaneOp (laneExt maxNum false) false false none 0 d a b d p s
/-- VMAX, long form (R162). -/
def execVmaxL (d a b : BitVec 6) (p : BitVec 4) (ty : BitVec 4) (s : State) : Result :=
  vlaneOp (laneExt maxNum false) false false (some ty) 0 d a b d p s
/-- VABS (R162). -/
def execVabs (d a : BitVec 6) (p : BitVec 4) (s : State) : Result := vlaneOp laneAbs false false none 0 d a a d p s
/-- VABS, long form (R162). -/
def execVabsL (d a : BitVec 6) (p : BitVec 4) (ty : BitVec 4) (s : State) : Result :=
  vlaneOp laneAbs false false (some ty) 0 d a a d p s
/-- VNEG (R162). -/
def execVneg (d a : BitVec 6) (p : BitVec 4) (s : State) : Result := vlaneOp laneNeg false false none 0 d a a d p s
/-- VNEG, long form (R162). -/
def execVnegL (d a : BitVec 6) (p : BitVec 4) (ty : BitVec 4) (s : State) : Result :=
  vlaneOp laneNeg false false (some ty) 0 d a a d p s
/-- VDIV (R162). -/
def execVdiv (d a b : BitVec 6) (p : BitVec 4) (s : State) : Result := vlaneOp laneDiv true true none 0 d a b d p s
/-- VDIV, long form (R162). -/
def execVdivL (d a b : BitVec 6) (p : BitVec 4) (ty : BitVec 4) (rnd : BitVec 3) (s : State) : Result :=
  vlaneOp laneDiv true true (some ty) rnd d a b d p s
/-- VSQRT (R162). -/
def execVsqrt (d a : BitVec 6) (p : BitVec 4) (s : State) : Result := vlaneOp laneSqrt true true none 0 d a a d p s
/-- VSQRT, long form (R162). -/
def execVsqrtL (d a : BitVec 6) (p : BitVec 4) (ty : BitVec 4) (rnd : BitVec 3) (s : State) : Result :=
  vlaneOp laneSqrt true true (some ty) rnd d a a d p s
/-- VMOV (R162). -/
def execVmov (d a : BitVec 6) (p : BitVec 4) (s : State) : Result := vlaneOp laneMov false false none 0 d a a d p s
/-- VMOV, long form (R162). -/
def execVmovL (d a : BitVec 6) (p : BitVec 4) (ty : BitVec 4) (s : State) : Result :=
  vlaneOp laneMov false false (some ty) 0 d a a d p s
/-- EXP2 (R163). -/
def execExp2 (d a : BitVec 6) (p : BitVec 4) (s : State) : Result := vlaneOp (laneFn exp2Num) true true none 0 d a a d p s
/-- EXP2, long form (R163). -/
def execExp2L (d a : BitVec 6) (p : BitVec 4) (ty : BitVec 4) (rnd : BitVec 3) (s : State) : Result :=
  vlaneOp (laneFn exp2Num) true true (some ty) rnd d a a d p s
/-- LOG2 (R163). -/
def execLog2 (d a : BitVec 6) (p : BitVec 4) (ty : BitVec 4) (rnd : BitVec 3) (s : State) : Result :=
  vlaneOp (laneFn log2Num) true true (some ty) rnd d a a d p s
/-- RCP (R163). -/
def execRcp (d a : BitVec 6) (p : BitVec 4) (ty : BitVec 4) (rnd : BitVec 3) (s : State) : Result :=
  vlaneOp (laneFn rcpNum) true true (some ty) rnd d a a d p s
/-- RSQ (R163). -/
def execRsq (d a : BitVec 6) (p : BitVec 4) (ty : BitVec 4) (rnd : BitVec 3) (s : State) : Result :=
  vlaneOp (laneFn rsqrtNum) true true (some ty) rnd d a a d p s
/-- TANH (R163). -/
def execTanh (d a : BitVec 6) (p : BitVec 4) (ty : BitVec 4) (rnd : BitVec 3) (s : State) : Result :=
  vlaneOp (laneFn tanhNum) true true (some ty) rnd d a a d p s
/-- SIGM (R163). -/
def execSigm (d a : BitVec 6) (p : BitVec 4) (ty : BitVec 4) (rnd : BitVec 3) (s : State) : Result :=
  vlaneOp (laneFn sigmNum) true true (some ty) rnd d a a d p s

/-- A lane-wise instruction without rounding of its own: type check, wait, lanes (R154, R155). -/
def vquietOp (f : ElemTy → Bank → Nat → Nat) (regs : Bool) (ty : VType) (d : BitVec 6) (reads : List (BitVec 6))
    (act : Bank → Nat → Bool) (s : State) : Result :=
  finish s .x do
    let t ← s.vcheck ty 0 regs
    s.vwait
    let s ← s.vrows reads d s.bank.laneBits (act s.bank)
    let out := laneRow s.bank.lanes s.bank.laneBits (act s.bank) (s.bank.readV d.toNat) fun i => quiet (f t s.bank i)
    .ok (s.writeVec (vlen ty) d out 0)

/-- Lane `i` of v[r]. -/
def Bank.lane (b : Bank) (r : BitVec 6) (i : Nat) : Nat := rowElem (b.readV r.toNat) b.laneBits i

/-- VSEL of R162: the predicate selects and every lane is written. -/
def vselOp (ty : VType) (d a b : BitVec 6) (p : BitVec 4) (s : State) : Result :=
  vquietOp (fun _ k i => if k.active p i then k.lane a i else k.lane b i) true ty d [a, b] (fun _ _ => true) s
/-- VSEL (R162). -/
def execVsel (d a b : BitVec 6) (p : BitVec 4) (s : State) : Result := vselOp none d a b p s
/-- VSEL, long form (R162). -/
def execVselL (d a b : BitVec 6) (p : BitVec 4) (ty : BitVec 4) (s : State) : Result := vselOp (some ty) d a b p s

/-- VPERM of R172. -/
def vpermOp (ty : VType) (d a b : BitVec 6) (p : BitVec 4) (s : State) : Result :=
  vquietOp (fun _ k i => if k.lane b i < k.lanes then k.lane a (k.lane b i) else 0) true ty d [a, b] (fun k i => k.active p i) s
/-- VPERM (R172). -/
def execVperm (d a b : BitVec 6) (p : BitVec 4) (s : State) : Result := vpermOp none d a b p s
/-- VPERM, long form (R172). -/
def execVpermL (d a b : BitVec 6) (p : BitVec 4) (ty : BitVec 4) (s : State) : Result := vpermOp (some ty) d a b p s

/-- VBCAST minor 1 (R174). -/
def execVbcastLane (d a b : BitVec 6) (p : BitVec 4) (ty : BitVec 4) (s : State) : Result :=
  vquietOp (fun _ k _ => if (k.readX b.toNat).toNat < k.lanes then k.lane a (k.readX b.toNat).toNat else 0) (xOk b)
    (some ty) d [a] (fun k i => k.active p i) s

/-- A lane-wise instruction that rounds one value per lane (R156): `rounds` by T. -/
def vgenOp (f : ElemTy → Bank → Controls → Nat → LaneOut) (rounds : ElemTy → Bool) (regs : Bool) (ty : VType)
    (rnd : BitVec 3) (d : BitVec 6) (p : BitVec 4) (s : State) : Result :=
  finish s .x do
    let t ← s.vcheck ty rnd regs
    s.vwait
    let s ← s.vrows [] d s.bank.laneBits (s.bank.active p)
    let k := s.bank.controlsX rnd.toNat
    let out := laneRow s.bank.lanes s.bank.laneBits (s.bank.active p) (s.bank.readV d.toNat) (f t s.bank k)
    .ok (s.writeVec (vlen ty) d out (drawsOf k (rounds t) s.bank.lanes))

/-- VBCAST minor 0 of R174. -/
def vbcastOp (ty : VType) (rnd : BitVec 3) (d a : BitVec 6) (p : BitVec 4) (s : State) : Result :=
  vgenOp (fun t b k j =>
      let v := field (b.readX a.toNat) 0 32
      if t = .bf16 ∨ t = .f16 then laneRound t k j ⟨decodeElem .f32 k.daz v, 0⟩ else quiet v)
    (fun t => t == .bf16 || t == .f16) (xOk a) ty rnd d p s
/-- VBCAST (R174). -/
def execVbcast (d a : BitVec 6) (p : BitVec 4) (s : State) : Result := vbcastOp none 0 d a p s
/-- VBCAST, long form (R174). -/
def execVbcastL (d a : BitVec 6) (p : BitVec 4) (ty : BitVec 4) (rnd : BitVec 3) (s : State) : Result :=
  vbcastOp (some ty) rnd d a p s

/-- VIOTA of R179. -/
def viotaOp (ty : VType) (rnd : BitVec 3) (raw : Bool) (d a : BitVec 6) (p : BitVec 4) (s : State) : Result :=
  vgenOp (fun t b k j =>
      let v := (b.readX a.toNat).toInt + j
      if raw || !(t.fmt?.isSome) then quiet (v % (2 ^ b.laneBits : Nat)).toNat
      else laneRound t k j ⟨.ofInt v, 0⟩)
    (fun t => !raw && t.fmt?.isSome) (xOk a) ty rnd d p s
/-- VIOTA (R179). -/
def execViota (d a : BitVec 6) (p : BitVec 4) (s : State) : Result := viotaOp none 0 false d a p s
/-- VIOTA, long form (R179). -/
def execViotaL (d a : BitVec 6) (p : BitVec 4) (ty : BitVec 4) (rnd : BitVec 3) (raw : BitVec 1) (s : State) : Result :=
  viotaOp (some ty) rnd (raw == 1#1) d a p s

/-- VLDI of R180. -/
def vldiOp (ty : VType) (rnd : BitVec 3) (d : BitVec 6) (m : BitVec 12) (e : Int) (p : BitVec 4) (s : State) : Result :=
  vgenOp (fun t _ k j => laneRound t k j ⟨(Num.ofInt m.toInt).scale e, 0⟩) (fun _ => true) true ty rnd d p s
/-- VLDI (R180). -/
def execVldi (d : BitVec 6) (m : BitVec 12) (p : BitVec 4) (s : State) : Result := vldiOp none 0 d m 0 p s
/-- VLDI, long form (R180). -/
def execVldiL (d : BitVec 6) (m : BitVec 12) (p : BitVec 4) (ty : BitVec 4) (rnd : BitVec 3) (ex : BitVec 8) (s : State) : Result :=
  vldiOp (some ty) rnd d m ex.toInt p s

/-- A lane of VRNG (R178). -/
def rngLane (raw : Bool) (t : ElemTy) (w h : Nat) : Nat :=
  if raw then h % 2 ^ w
  else if t.fmt?.isSome then (roundElem t true false .rtz (.fin false (h >>> 8) (-24) false)).bits
  else h >>> 8

/-- VRNG of R178: the counter advances under every mode. -/
def vrngOp (raw : Bool) (ty : VType) (d : BitVec 6) (p : BitVec 4) (s : State) : Result :=
  finish s .x do
    let t ← s.vcheck ty 0 true
    s.vwait
    let s ← s.vrows [] d s.bank.laneBits (s.bank.active p)
    let w := s.bank.laneBits
    let key := field s.bank.sr.seed 0 32
    let ctr := field s.bank.sr.seedCtr 0 32
    let out := laneRow s.bank.lanes w (s.bank.active p) (s.bank.readV d.toNat)
      fun i => quiet (rngLane raw t w (counterGen key (ctr + i)))
    .ok (s.writeVec (vlen ty) d out s.bank.lanes)
/-- VRNG (R178). -/
def execVrng (d : BitVec 6) (p : BitVec 4) (s : State) : Result := vrngOp false none d p s
/-- VRNG, long form (R178). -/
def execVrngL (d : BitVec 6) (p : BitVec 4) (ty : BitVec 4) (s : State) : Result := vrngOp false (some ty) d p s
/-- VRNG RAW (R178). -/
def execVrngRaw (d : BitVec 6) (p : BitVec 4) (ty : BitVec 4) (s : State) : Result := vrngOp true (some ty) d p s

/-- VQPOP of R181. -/
def vqpopOp (ty : VType) (d a : BitVec 6) (p : BitVec 4) (s : State) : Result :=
  finish s .x do
    let _ ← s.vcheck ty 0 (decide (a.toNat < 4))
    s.vwait
    match s.bank.qx a.toNat with
    | [] => .ok (s.countEmpty.stallPeer .x)
    | .pending _ _ :: _ => .ok (s.countEmpty.stall .x)
    | .scalar _ :: _ => .error (.fault .operandFormat 0)
    | .row r :: rest =>
      let s ← s.vrows [] d s.bank.laneBits (s.bank.active p)
      let w := s.bank.laneBits
      let out := laneRow s.bank.lanes w (s.bank.active p) (s.bank.readV d.toNat) fun i => quiet (rowElem r w i)
      .ok ((s.setBank (s.bank.setQx a.toNat rest)).writeVec (vlen ty) d out 0)
/-- VQPOP (R181). -/
def execVqpop (d a : BitVec 6) (p : BitVec 4) (s : State) : Result := vqpopOp none d a p s
/-- VQPOP, long form (R181). -/
def execVqpopL (d a : BitVec 6) (p : BitVec 4) (ty : BitVec 4) (s : State) : Result := vqpopOp (some ty) d a p s

/-- The tag of a retag code (R182). -/
def retagOf (t : BitVec 3) : Option TileTag :=
  match t.toNat with
  | 1 => some .f32
  | 2 => some .i32
  | 3 => some .bf16
  | 4 => some .f16
  | _ => none

/-- VWIN (R182): sr.vwin := w, then the retag of tile w / 128, which waits as an access to it. -/
def execVwin (t : BitVec 3) (w : BitVec 16) (s : State) : Result :=
  if t.toNat > 4 ∨ w.toNat % 64 ≠ 0 ∨ w.toNat > 4032 then s.pcFault .x .operandIllegal
  else
    finish s .x do
      let tile := w.toNat / 128
      if t ≠ 0 ∧ s.tileHeld tile = true then .error .wait
      else
        let b := s.bank.mapSr fun r => { r with vwin := w.setWidth 64 }
        let b := match retagOf t with
          | some g => { b with xf := { b.xf with tags := vset b.xf.tags tile g } }
          | none => b
        .ok ((s.setBank b).retire .x 1)

/-! ## Predicates -/

/-- A lane below the count limit (R164). -/
def Bank.belowLimit (b : Bank) (m : BitVec 5) (i : Nat) : Bool := m == 0#5 || decide (i < (b.readX m.toNat).toNat)

/-- Write a p register, OR flags and retire. -/
def State.writePred (s : State) (len : Nat) (d : BitVec 6) (v : BitVec 256) (f : Flags) : State :=
  (s.setBank ((s.bank.writeP d.toNat v).orFlags f)).retire .x len

/-- The relation of a comparison of numbers, and its flags (R164). -/
def vcmpNum (c : Nat) (a b : Num) : Bool × Flags :=
  let un := a.isNan || b.isNan
  match c with
  | 6 => (un, 0)
  | 7 => (!un, 0)
  | 0 => (!un && Num.cmp a b == .eq, 0)
  | 1 => (un || Num.cmp a b != .eq, 0)
  | _ =>
    if un then (false, flNV)
    else
      let o := Num.cmp a b
      ((match c with
        | 2 => o == .lt
        | 3 => o != .gt
        | 4 => o == .gt
        | _ => o != .lt), 0)

/-- A comparison of two lanes under T. -/
def vcmpLane (t : ElemTy) (daz : Bool) (c a b : Nat) : Bool × Flags :=
  if t.fmt?.isSome then vcmpNum c (decodeElem t daz a) (decodeElem t daz b)
  else vcmpNum c (.ofInt (laneInt t a)) (.ofInt (laneInt t b))

/-- VCMP of R164. -/
def vcmpOp (ty : VType) (d a b : BitVec 6) (p : BitVec 4) (c : Nat) (m : BitVec 5) (s : State) : Result :=
  finish s .x do
    let t ← s.vcheck ty 0 (pOk d)
    s.vwait
    let s ← s.vreads [a, b]
    let k := s.bank.controlsX 0
    let ls := (List.range s.bank.lanes).map fun i =>
      if s.bank.active p i && s.bank.belowLimit m i then vcmpLane t k.daz c (s.bank.lane a i) (s.bank.lane b i) else (false, 0)
    .ok (s.writePred (vlen ty) d (maskOf 256 (ls.map (·.1))) (ls.foldl (fun f l => f ||| l.2) 0))
/-- VCMP (R164): the short form compares EQ. -/
def execVcmp (d a b : BitVec 6) (p : BitVec 4) (s : State) : Result := vcmpOp none d a b p 0 0 s
/-- VCMP, long form (R164). -/
def execVcmpL (d a b : BitVec 6) (p : BitVec 4) (ty : BitVec 4) (cond : BitVec 4) (lim : BitVec 5) (s : State) : Result :=
  vcmpOp (some ty) d a b p cond.toNat lim s

/-- A predicate instruction of R165. -/
def predOp (f : BitVec 256 → BitVec 256 → BitVec 256) (ty : VType) (d a b : BitVec 6) (p : BitVec 4) (m : BitVec 5)
    (s : State) : Result :=
  finish s .x do
    let _ ← s.vcheck ty 0 (pOk d && pOk a && pOk b)
    let v := f (s.bank.readP a.toNat) (s.bank.readP b.toNat)
    let bits := (List.range s.bank.lanes).map fun i => s.bank.active p i && s.bank.belowLimit m i && v.getLsbD i
    .ok (s.writePred (vlen ty) d (maskOf 256 bits) 0)
/-- PAND (R165). -/
def execPand (d a b : BitVec 6) (p : BitVec 4) (s : State) : Result := predOp (· &&& ·) none d a b p 0 s
/-- PAND, long form (R165). -/
def execPandL (d a b : BitVec 6) (p : BitVec 4) (ty : BitVec 4) (lim : BitVec 5) (s : State) : Result :=
  predOp (· &&& ·) (some ty) d a b p lim s
/-- POR (R165). -/
def execPor (d a b : BitVec 6) (p : BitVec 4) (s : State) : Result := predOp (· ||| ·) none d a b p 0 s
/-- POR, long form (R165). -/
def execPorL (d a b : BitVec 6) (p : BitVec 4) (ty : BitVec 4) (lim : BitVec 5) (s : State) : Result :=
  predOp (· ||| ·) (some ty) d a b p lim s
/-- PNOT (R165). -/
def execPnot (d a : BitVec 6) (p : BitVec 4) (s : State) : Result := predOp (fun x _ => ~~~x) none d a a p 0 s
/-- PNOT, long form (R165). -/
def execPnotL (d a : BitVec 6) (p : BitVec 4) (ty : BitVec 4) (lim : BitVec 5) (s : State) : Result :=
  predOp (fun x _ => ~~~x) (some ty) d a a p lim s

/-- The lanes that PCNT and PFIRST count (R166). -/
def Bank.trueLanes (b : Bank) (a : BitVec 6) (p : BitVec 4) : List Nat :=
  (List.range b.lanes).filter fun i => b.active p i && (b.readP a.toNat).getLsbD i

/-- An instruction of R166: x[d] := f of the true lanes. -/
def predCount (f : Nat → List Nat → Nat) (ty : VType) (d a : BitVec 6) (p : BitVec 4) (s : State) : Result :=
  finish s .x do
    let _ ← s.vcheck ty 0 (xOk d && pOk a)
    .ok (s.setX (vlen ty) d.toNat (wordOfNat (f s.bank.lanes (s.bank.trueLanes a p))))
/-- PCNT (R166). -/
def execPcnt (d a : BitVec 6) (p : BitVec 4) (s : State) : Result := predCount (fun _ l => l.length) none d a p s
/-- PCNT, long form (R166). -/
def execPcntL (d a : BitVec 6) (p : BitVec 4) (ty : BitVec 4) (s : State) : Result :=
  predCount (fun _ l => l.length) (some ty) d a p s
/-- PFIRST (R166). -/
def execPfirst (d a : BitVec 6) (p : BitVec 4) (ty : BitVec 4) (s : State) : Result :=
  predCount (fun n l => l.head?.getD n) (some ty) d a p s

end Sys2Proof.Machine
end

