-- ==== Sys2Proof/Machine/VectorRows.lean ====
section
/-! DEFINITION. Reductions, scans, sorts and conversions of the X stream (R167 to R171, R173). -/

namespace Sys2Proof.Machine

open Sys2Proof

/-! ## Reductions -/

/-- One level of the tree of R167: `j` counts the nodes so far. -/
def treeLevel {α : Type} (f : Nat → α → α → α) : Nat → List (Option α) → Nat × List (Option α)
  | j, l :: q :: t =>
    match l, q with
    | none, _ =>
      let r := treeLevel f j t
      (r.1, q :: r.2)
    | some _, none =>
      let r := treeLevel f j t
      (r.1, l :: r.2)
    | some a, some b =>
      let r := treeLevel f (j + 1) t
      (r.1, some (f j a b) :: r.2)
  | j, l => (j, l)

/-- The tree of R167 over 2^k lanes. -/
def treeReduce {α : Type} (f : Nat → α → α → α) : Nat → Nat → List (Option α) → Option α
  | 0, _, l => (l.head?).join
  | k + 1, j, l =>
    let r := treeLevel f j l
    treeReduce f k r.1 r.2

/-- The active lanes of va, absent where inactive. -/
def activeLanes {α : Type} (b : Bank) (a : BitVec 6) (p : BitVec 4) (f : Nat → Option α) : List (Option α) :=
  (List.range b.lanes).map fun i => if b.active p i then f (b.lane a i) else none

/-- A number as its f32 pattern (R167). -/
def f32Word (v : Num) : Word := wordOfNat (roundElem .f32 true false .rne v).bits

/-- How a reduction combines floating lanes and integer lanes, and what it gives when every lane is absent. -/
structure Reducer where
  leafF : Num → Option Num
  combF : Controls → Nat → Num × Flags → Num × Flags → Num × Flags
  emptyF : Num
  leafI : Int → Int
  combI : Int → Int → Int
  emptyI : ElemTy → Int

/-- A reduction (R167). -/
def reduceOp (r : Reducer) (rounds : Bool) (ty : VType) (rnd : BitVec 3) (d a : BitVec 6) (p : BitVec 4) (s : State) : Result :=
  finish s .x do
    let t ← s.vcheck ty rnd (xOk d)
    s.vwait
    let s ← s.vreads [a]
    let k := s.bank.controlsX rnd.toNat
    if t.fmt?.isSome then
      let ls := activeLanes s.bank a p fun v => (r.leafF (decodeElem t k.daz v)).map fun x => (x, (0 : Flags))
      let (v, fl) := (treeReduce (r.combF k) 8 0 ls).getD (r.emptyF, 0)
      let b := ((s.bank.writeX d.toNat (f32Word v)).orFlags fl).advanceCtr (drawsOf k rounds s.bank.lanes)
      .ok ((s.setBank b).retire .x (vlen ty))
    else
      let ls := activeLanes s.bank a p fun v => some (r.leafI (laneInt t v))
      .ok (s.setX (vlen ty) d.toNat (wordOfInt ((treeReduce (fun _ => r.combI) 8 0 ls).getD (r.emptyI t))))

/-- VRSUM (R167). -/
def redSum : Reducer :=
  { leafF := some
    combF := fun k j x y =>
      let e := addNum k.rdn x.1 y.1
      let o := laneRound .f32 k j e
      (decodeElem .f32 false o.1, x.2 ||| y.2 ||| o.2)
    emptyF := .zero, leafI := id, combI := (· + ·), emptyI := fun _ => 0 }
/-- VRMAX (R167). -/
def redMax : Reducer :=
  { leafF := some, combF := fun _ _ x y => (maxNum x.1 y.1, 0), emptyF := .nan, leafI := id, combI := max,
    emptyI := fun t => if t = .i32 then -(2 ^ 31) else 0 }
/-- VRMIN (R167). -/
def redMin : Reducer :=
  { leafF := some, combF := fun _ _ x y => (minNum x.1 y.1, 0), emptyF := .nan, leafI := id, combI := min,
    emptyI := fun t => if t = .i32 then 2 ^ 31 - 1 else 2 ^ 32 - 1 }
/-- VRAMAX (R167): NaNs are skipped as if absent. -/
def redAmax : Reducer :=
  { leafF := fun v => if v.isNan then none else some v.abs
    combF := fun _ _ x y => (maxNum x.1 y.1, 0), emptyF := .zero, leafI := fun v => v.natAbs, combI := max,
    emptyI := fun _ => 0 }

/-- VRSUM (R167). -/
def execVrsum (d a : BitVec 6) (p : BitVec 4) (s : State) : Result := reduceOp redSum true none 0 d a p s
/-- VRSUM, long form (R167). -/
def execVrsumL (d a : BitVec 6) (p : BitVec 4) (ty : BitVec 4) (rnd : BitVec 3) (s : State) : Result :=
  reduceOp redSum true (some ty) rnd d a p s
/-- VRMAX (R167). -/
def execVrmax (d a : BitVec 6) (p : BitVec 4) (s : State) : Result := reduceOp redMax false none 0 d a p s
/-- VRMAX, long form (R167). -/
def execVrmaxL (d a : BitVec 6) (p : BitVec 4) (ty : BitVec 4) (s : State) : Result :=
  reduceOp redMax false (some ty) 0 d a p s
/-- VRMIN (R167). -/
def execVrmin (d a : BitVec 6) (p : BitVec 4) (s : State) : Result := reduceOp redMin false none 0 d a p s
/-- VRMIN, long form (R167). -/
def execVrminL (d a : BitVec 6) (p : BitVec 4) (ty : BitVec 4) (s : State) : Result :=
  reduceOp redMin false (some ty) 0 d a p s
/-- VRAMAX (R167). -/
def execVramax (d a : BitVec 6) (p : BitVec 4) (s : State) : Result := reduceOp redAmax false none 0 d a p s
/-- VRAMAX, long form (R167). -/
def execVramaxL (d a : BitVec 6) (p : BitVec 4) (ty : BitVec 4) (s : State) : Result :=
  reduceOp redAmax false (some ty) 0 d a p s

/-! ## Scans -/

/-- The sequential sums of R168: the lanes from `i` on, with the flags so far. -/
def scanLanes (step : Nat → Num → Num × LaneOut) (act : Nat → Bool) (old : Nat → Nat) : Nat → Nat → Num → List LaneOut
  | 0, _, _ => []
  | k + 1, i, c =>
    if act i then
      let r := step i c
      r.2 :: scanLanes step act old k (i + 1) r.1
    else (old i, 0) :: scanLanes step act old k (i + 1) c

/-- VSCAN of R168. -/
def vscanOp (ty : VType) (rnd : BitVec 3) (d a b : BitVec 6) (p : BitVec 4) (s : State) : Result :=
  finish s .x do
    let t ← s.vcheck ty rnd (xOk b)
    s.vwait
    let s ← s.vrows [a] d s.bank.laneBits (s.bank.active p)
    let k := s.bank.controlsX rnd.toNat
    let n := s.bank.lanes
    let v := field (s.bank.readX b.toNat) 0 32
    let fl := t.fmt?.isSome
    let start : Num × Flags :=
      if fl then
        let x := decodeElem .f32 k.daz v
        if t = .f32 then (x, 0)
        else
          let r := roundElem t true k.ftz .rne x
          (decodeElem t false r.bits, r.flags)
      else (.ofInt v, 0)
    let step := fun (i : Nat) (c : Num) =>
      if fl then
        let o := laneRound t k i (addNum k.rdn c (decodeElem t k.daz (s.bank.lane a i)))
        (decodeElem t false o.1, o)
      else
        match c with
        | .fin _ m _ _ =>
          let q : Nat := (m + s.bank.lane a i) % 2 ^ 32
          (Num.ofInt q, quiet q)
        | _ => (c, quiet 0)
    let ls := scanLanes step (s.bank.active p) (s.bank.lane d) n 0 start.1
    let out := (rowOfLanes s.bank.laneBits (ls.map (·.1)), ls.foldl (fun f l => f ||| l.2) start.2)
    .ok (s.writeVec (vlen ty) d out (drawsOf k fl n))
/-- VSCAN (R168). -/
def execVscan (d a b : BitVec 6) (p : BitVec 4) (s : State) : Result := vscanOp none 0 d a b p s
/-- VSCAN, long form (R168). -/
def execVscanL (d a b : BitVec 6) (p : BitVec 4) (ty : BitVec 4) (rnd : BitVec 3) (s : State) : Result :=
  vscanOp (some ty) rnd d a b p s

/-! ## Sorts -/

/-- A key's place in the order of R169, as an integer: NaNs last and equal, −0 before +0. -/
def sortKey (t : ElemTy) (v : Nat) : Int :=
  match t.fmt? with
  | some f =>
    if (decodeFloat f false v).isNan then (2 ^ t.width : Nat)
    else if v < signBit t.width then (v : Int) else -((v - signBit t.width : Nat) : Int) - 1
  | none => laneInt t v

/-- Insert a key and payload behind every one that it does not precede. -/
def insertKey (before : Nat → Nat → Bool) (x : Nat × Nat) : List (Nat × Nat) → List (Nat × Nat)
  | [] => [x]
  | y :: l => if before x.1 y.1 then x :: y :: l else y :: insertKey before x l

/-- The stable sort of R169. -/
def stableSort (t : ElemTy) (asc : Bool) (l : List (Nat × Nat)) : List (Nat × Nat) :=
  let before := fun (x y : Nat) => if asc then decide (sortKey t x < sortKey t y) else decide (sortKey t y < sortKey t x)
  l.foldl (fun acc x => insertKey before x acc) []

/-- The pairs of lanes of v[r] and v[r+1] whose predicate bit is `want`, ascending. -/
def Bank.pairLanes (b : Bank) (r : BitVec 6) (p : BitVec 4) (want : Bool) : List (Nat × Nat) :=
  ((List.range b.lanes).filter fun i => b.active p i == want).map fun i =>
    (b.lane r i, rowElem (b.readV (r.toNat + 1)) b.laneBits i)

/-- Write keys to v[r] and payloads to v[r+1]. -/
def Bank.writePair (b : Bank) (r : BitVec 6) (l : List (Nat × Nat)) : Bank :=
  (b.writeV r.toNat (rowOfLanes b.laneBits (l.map (·.1)))).writeV (r.toNat + 1) (rowOfLanes b.laneBits (l.map (·.2)))

/-- An even register code (R169). -/
def evenOk (r : BitVec 6) : Bool := r.toNat % 2 == 0

/-- The rows of a pair: v[r] and v[r+1]. -/
def pairRows (r : BitVec 6) : List (BitVec 6) := [r, r + 1]

/-- The pairs of `reads` are read, and both rows of the pair `d` are written whole (R25). -/
def State.vpairs (s : State) (reads : List (BitVec 6)) (d : BitVec 6) : Except Stop State := do
  let t ← s.vrows (reads.flatMap pairRows) d 32 fun _ => true
  t.vrows [] (d + 1) 32 fun _ => true

/-- VSORTK of R170. -/
def vsortOp (ty : VType) (asc : Bool) (d a : BitVec 6) (p : BitVec 4) (s : State) : Result :=
  finish s .x do
    let t ← s.vcheck ty 0 (evenOk d && evenOk a)
    s.vwait
    let s ← s.vpairs [a] d
    let l := stableSort t asc (s.bank.pairLanes a p true) ++ s.bank.pairLanes a p false
    .ok ((s.setBank (s.bank.writePair d l)).retire .x (vlen ty))
/-- VSORTK (R170). -/
def execVsortk (d a : BitVec 6) (p : BitVec 4) (s : State) : Result := vsortOp none false d a p s
/-- VSORTK, long form (R170). -/
def execVsortkL (d a : BitVec 6) (p : BitVec 4) (ty : BitVec 4) (asc : BitVec 1) (s : State) : Result :=
  vsortOp (some ty) (asc == 1#1) d a p s

/-- VMERGEK of R171. -/
def vmergeOp (ty : VType) (asc : Bool) (d a b c : BitVec 6) (p : BitVec 4) (s : State) : Result :=
  finish s .x do
    let t ← s.vcheck ty 0 (evenOk d && evenOk a && evenOk b && evenOk c)
    s.vwait
    let s1 ← s.vpairs [a, b] d
    let s ← s1.vpairs [] c
    let l := stableSort t asc (s.bank.pairLanes a p true ++ s.bank.pairLanes b p true) ++
      s.bank.pairLanes a p false ++ s.bank.pairLanes b p false
    let n := s.bank.lanes
    let k := s.bank.writePair d (l.take n)
    .ok ((s.setBank (if c = d then k else k.writePair c (l.drop n))).retire .x (vlen ty))
/-- VMERGEK (R171). -/
def execVmergek (d a b : BitVec 6) (p : BitVec 4) (s : State) : Result := vmergeOp none false d a b d p s
/-- VMERGEK, long form (R171). -/
def execVmergekL (d a b : BitVec 6) (p : BitVec 4) (c : BitVec 6) (ty : BitVec 4) (asc : BitVec 1) (s : State) : Result :=
  vmergeOp (some ty) (asc == 1#1) d a b c p s

/-! ## Conversion -/

/-- The value of packed element `j` of a row under a type (R124, R125, R130, R132). -/
def rowValue (t : ElemTy) (daz : Bool) (r : Row) (j : Nat) : Num :=
  if t = .o4 then
    let q := decodeO4 (rowElem r 8 (j / 2))
    if j % 2 = 0 then q.1 else q.2
  else decodeElem t daz (rowElem r t.width j)

/-- Round a pair of values to a 4-bit type's byte (R131, R132), at counters `c0`, `c1`. -/
def roundPair (t : ElemTy) (k : Controls) (c0 c1 : Nat) (v0 v1 : Num) : PairRounded :=
  if t = .o4 then roundO4 (k.rmAt c0) (k.rmAt c1) v0 v1 else roundI4 (k.rmAt c0) (k.rmAt c1) v0 v1

/-- Replace element `i` of width `w` of a row. -/
def putElem (r : Row) (w i v : Nat) : Row := putField r (w * i) w v

/-- Write `n` values into the slots from `first` of a row of type `t` (R173, R176): each element that `act` marks, the
pairs of a 4-bit type as their even element says. -/
def packInto (t : ElemTy) (ieee : Bool) (k : Controls) (act : Nat → Bool) (val : Nat → Num) (first n : Nat) (r : Row) :
    Row × Flags :=
  if t.width = 4 then
    (List.range (n / 2)).foldl (fun acc j =>
      if act (2 * j) then
        let o := roundPair t k (2 * j) (2 * j + 1) (val (2 * j)) (val (2 * j + 1))
        (putElem acc.1 8 (first / 2 + j) o.byte, acc.2 ||| o.flags)
      else acc) (r, 0)
  else
    (List.range n).foldl (fun acc j =>
      if act j then
        let o := roundElem t ieee k.ftz (k.rmAt j) (val j)
        (putElem acc.1 t.width (first + j) o.bits, acc.2 ||| o.flags)
      else acc) (r, 0)

/-- VCVT (R173): the tile tags play no part. -/
def execVcvt (d a : BitVec 6) (p : BitVec 4) (ty : BitVec 4) (rnd : BitVec 3) (sty : BitVec 4) (part : BitVec 3) (s : State) : Result :=
  finish s .x do
    match ElemTy.ofCode ty.toNat, ElemTy.ofCode sty.toNat with
    | some dt, some st =>
      if rnd = 7#3 then s.xFault .operandIllegal
      else
        let ws := st.width
        let wd := dt.width
        let big := max ws wd
        let g := part.toNat
        if big < 16 ∨ big / min ws wd ≤ g then s.xFault .operandFormat
        else
          s.vwait
          let k := s.bank.controlsX rnd.toNat
          let n := 4096 / big
          let src := if ws ≥ wd then 0 else g * n
          let dst := if ws ≥ wd then g * n else 0
          let whole := fun (j : Nat) => if wd = 4 then j / 2 * 2 else j
          let s ← s.vrows [a] d wd fun i => decide (dst ≤ i) && decide (i < dst + n) && s.bank.active p (whole (i - dst))
          let va := s.bank.readV a.toNat
          let out := packInto dt false k (s.bank.active p) (fun j => rowValue st k.daz va (src + j)) dst n
            (s.bank.readV d.toNat)
          .ok (s.writeVec 2 d out (drawsOf k true n))
    | _, _ => s.xFault .operandIllegal

end Sys2Proof.Machine
end

