-- ==== Sys2Proof/Machine/Quant.lean ====
section
/-! DEFINITION. VQNT and VDQNT, and the quantising of blocks that MWB shares (R175 to R177, R204). -/

namespace Sys2Proof.Machine

open Sys2Proof

/-- A quantised element: its code in the low bits, its flags, and whether it counts as saturated. -/
structure QElem where
  bits : Nat
  flags : Flags
  sat : Bool
  deriving DecidableEq, Repr

/-- Quantise a list of scaled values, element `i` at counter `i`; 4-bit types pair by pair (R125 to R132). -/
def quantList (t : ElemTy) (ieee : Bool) (k : Controls) : Nat → List Num → List QElem
  | _, [] => []
  | i, [v] =>
    if t.width = 4 then
      let o := roundPair t k i (i + 1) v .zero
      [⟨o.byte % 16, o.flags, o.sat0⟩]
    else
      let o := roundElem t ieee k.ftz (k.rmAt i) v
      [⟨o.bits, o.flags, o.sat⟩]
  | i, v :: w :: rest =>
    if t.width = 4 then
      let o := roundPair t k i (i + 1) v w
      ⟨o.byte % 16, o.flags, o.sat0⟩ :: ⟨o.byte / 16, 0, o.sat1⟩ :: quantList t ieee k (i + 2) rest
    else
      let o := roundElem t ieee k.ftz (k.rmAt i) v
      let q := roundElem t ieee k.ftz (k.rmAt (i + 1)) w
      ⟨o.bits, o.flags, o.sat⟩ :: ⟨q.bits, q.flags, q.sat⟩ :: quantList t ieee k (i + 2) rest

/-- Elements that a list of quantised ones counts as saturated (R146). -/
def satCount (l : List QElem) : Nat := (l.filter (·.sat)).length

/-- Blocks of a tensor (R133). -/
def Desc.blocks (d : Desc) : Nat := (List.range d.ndim).foldl (fun n j => n * d.blockExt j) 1

/-- G address of the byte that holds the nibble of block `b` (R133). -/
def Desc.nibbleAddr (d : Desc) (b : Nat) : Nat := d.shifts + 8 + b / 2

/-- The operands of VQNT and VDQNT: the conditions of R175 before the shift-array accesses. -/
def State.quantDesc (s : State) (t : ElemTy) (b : BitVec 6) (pos : BitVec 3) (u : BindUse) : Except Stop (Desc × Nat) :=
  let v := s.bank.readX b.toNat
  if t.fmt?.isNone then .error (.fault .operandFormat 0)
  else
    match s.useDesc (field v 0 16) u false with
    | .error e => .error e
    | .ok d =>
      let n := s.bank.lanes
      let b0 := field v 16 48
      if d.ty.blockScaled = false ∨ 64 * pos.toNat + n * d.ty.width / 8 > 512 ∨ b0 + n / 32 > d.blocks then
        .error (.fault .operandFormat 0)
      else .ok (d, b0)

/-- Resolve one byte of a shift array for the moving stream (R175). -/
def State.shiftByte (s : State) (write : Bool) (g : Nat) : Except Stop (List RowPart) :=
  s.resolve .g (if write then Access.store s.level else Access.load s.level) (wordOfNat g) 1

/-- The checks of R106 on bytes of a shift array, in order. -/
def State.shiftBytes (s : State) (write : Bool) : List Nat → Except Stop (List (Nat × List RowPart))
  | [] => .ok []
  | g :: rest =>
    match s.shiftByte write g with
    | .error e => .error e
    | .ok p =>
      match s.shiftBytes write rest with
      | .error e => .error e
      | .ok l => .ok ((g, p) :: l)

/-- Bytes of a shift array that the nibbles of some blocks and ETS occupy, in address order. -/
def Desc.shiftAddrs (d : Desc) (blocks : List Nat) : List Nat := d.shifts :: ((blocks.map d.nibbleAddr).eraseDups)

/-- Set the nibbles of blocks in one byte. -/
def setNibbles (d : Desc) (g old : Nat) (ks : List (Nat × Nat)) : Nat :=
  (ks.filter fun b => d.nibbleAddr b.1 == g).foldl (fun v b => putNibble v b.1 b.2) old

/-- Read and write the bytes of a shift array: ETS and the nibbles of `ks` (R175, R204). -/
def State.writeShifts (s : State) (d : Desc) (et : Int) (ks : List (Nat × Nat)) : List (Nat × List RowPart) → Except Stop State
  | [] => .ok s
  | (g, p) :: rest =>
    match s.readParts p with
    | .error e => .error e
    | .ok bs =>
      let v := if g = d.shifts then (et % 256).toNat else setNibbles d g (natOfBytes bs) ks
      match s.writeParts p (bytesOfNat 1 v) with
      | .error e => .error e
      | .ok t => t.writeShifts d et ks rest

/-- VQNT of R176. -/
def vqntOp (ty : VType) (rnd : BitVec 3) (pos : BitVec 3) (d a b : BitVec 6) (p : BitVec 4) (s : State) : Result :=
  finish s .x do
    let t ← s.vcheck ty rnd (xOk b)
    s.vwait
    let (q, b0) ← s.quantDesc t b pos .ws
    let n := s.bank.lanes
    let blocks := (List.range (n / 32)).map (b0 + ·)
    let parts ← s.shiftBytes true (q.shiftAddrs blocks)
    let k := s.bank.controlsX rnd.toNat
    let vals := (List.range n).map fun i => decodeElem t k.daz (s.bank.lane a i)
    let act := s.bank.active p
    let et := scaleExp q (s.snapshotOf q.record)
    let ks := (List.range (n / 32)).map fun j =>
      blockShift q.ty et (((List.range 32).map (32 * j + ·)).filterMap fun i =>
        if act i then some (vals.getD i .zero) else none)
    let scaled := (List.range n).map fun i =>
      if act i then (vals.getD i .zero).scale ((ks.getD (i / 32) 0 : Nat) - et) else .zero
    let out := quantList q.ty q.ieee k 0 scaled
    if q.rescaleOk (satCount out) = false then .error (.fault .rescale 0)
    else
      let w := q.ty.width
      let codes := out.map (·.bits)
      let s ← s.vrows [a] d w fun i => decide (512 * pos.toNat ≤ i * w) && decide (i * w < 512 * pos.toNat + n * w)
      let row := putField (s.bank.readV d.toNat) (512 * pos.toNat) (n * w) (natOfDigits w codes)
      let fl := out.foldl (fun f o => f ||| o.flags) 0
      let s1 ← s.writeShifts q et (blocks.zip ks) parts
      let shown := (List.range n).filterMap fun i =>
        if act i then some (vals.getD i .zero, (out.map (·.sat)).getD i false) else none
      let s2 := s1.presentHere (some s.bank.walk.wx) q shown
      .ok (s2.writeVec (vlen ty) d (row, fl) (drawsOf k true n))

/-- VQNT (R176). -/
def execVqnt (d a b : BitVec 6) (p : BitVec 4) (s : State) : Result := vqntOp none 0 0 d a b p s
/-- VQNT, long form (R176). -/
def execVqntL (d a b : BitVec 6) (p : BitVec 4) (ty : BitVec 4) (rnd : BitVec 3) (pos : BitVec 3) (s : State) : Result :=
  vqntOp (some ty) rnd pos d a b p s

/-- Read bytes of a shift array. -/
def State.readShifts (s : State) : List (Nat × List RowPart) → Except Stop (List (Nat × Nat))
  | [] => .ok []
  | (g, p) :: rest =>
    match s.readParts p with
    | .error e => .error e
    | .ok bs =>
      match s.readShifts rest with
      | .error e => .error e
      | .ok l => .ok ((g, natOfBytes bs) :: l)

/-- The byte read at an address. -/
def byteRead (l : List (Nat × Nat)) (g : Nat) : Nat :=
  match l.find? (·.1 == g) with
  | some e => e.2
  | none => 0

/-- The nibble of block `b` among bytes read. -/
def nibbleIn (d : Desc) (l : List (Nat × Nat)) (b : Nat) : Nat :=
  let v := byteRead l (d.nibbleAddr b)
  if b % 2 = 0 then v % 16 else v / 16

/-- VDQNT of R177. -/
def vdqntOp (ty : VType) (rnd : BitVec 3) (pos : BitVec 3) (d a b : BitVec 6) (p : BitVec 4) (s : State) : Result :=
  finish s .x do
    let t ← s.vcheck ty rnd (xOk b)
    s.vwait
    let (q, b0) ← s.quantDesc t b pos .any
    let n := s.bank.lanes
    let act := s.bank.active p
    let used := (List.range (n / 32)).filter fun j => (List.range 32).any fun i => act (32 * j + i)
    let parts ← s.shiftBytes false (if used.isEmpty then [] else q.shiftAddrs (used.map (b0 + ·)))
    let read ← s.readShifts parts
    let et := sextNat (byteRead read q.shifts) 8
    let k := s.bank.controlsX rnd.toNat
    let s ← s.vrows [a] d s.bank.laneBits act
    let va := s.bank.readV a.toNat
    let first := 512 * pos.toNat / q.ty.width
    let out := laneRow n s.bank.laneBits act (s.bank.readV d.toNat) fun i =>
      laneRound t k i ⟨(rowValue q.ty false va (first + i)).scale (et - (nibbleIn q read (b0 + i / 32) : Nat)), 0⟩
    .ok (s.writeVec (vlen ty) d out (drawsOf k true n))

/-- VDQNT (R177). -/
def execVdqnt (d a b : BitVec 6) (p : BitVec 4) (s : State) : Result := vdqntOp none 0 0 d a b p s
/-- VDQNT, long form (R177). -/
def execVdqntL (d a b : BitVec 6) (p : BitVec 4) (ty : BitVec 4) (rnd : BitVec 3) (pos : BitVec 3) (s : State) : Result :=
  vdqntOp (some ty) rnd pos d a b p s

end Sys2Proof.Machine
end

