-- ==== Sys2Proof/Machine/Nest.lean ====
section
/-! DEFINITION. The arithmetic of nests and write-backs, and their checks (R189 to R204). -/

namespace Sys2Proof.Machine

open Sys2Proof

/-- OPERAND_FORMAT from an operand value (R49). -/
def badFormat {α : Type} : Except Stop α := .error (.fault .operandFormat 0)

/-- `c`, or OPERAND_FORMAT. -/
def require (c : Bool) : Except Stop Unit := if c then .ok () else badFormat

/-! ## Descriptors -/

/-- The checks of R189 that read the descriptor alone; `inner` is I. -/
def sdFieldsOk (d : BitVec 256) (inner : Nat) : Bool :=
  field d 56 7 == 0 && field d 211 13 == 0 && sdCode d != 15 && sdBgeom d != 3 && decide (sdSwz d < 2) &&
  (sdBgeom d == 0 || (sdTy d).blockScaled) &&
  (sdSwz d == 0 || (!(sdInG d) && sdBase d % 512 == 0 && sdPitch d % 512 == 0)) &&
  (!(sdOrder d) || (sdBase d % 64 == 0 && sdPitch d % 64 == 0 && inner * (sdTy d).width % 512 == 0)) &&
  (!(sdVer d) || sdTv d)

/-- The checks of R189 on a descriptor whose tensor, if it names one, is bound for `use`. -/
def State.checkSd (s : State) (d : BitVec 256) (inner : Nat) (use : BindUse) : Except Stop (Option Desc) :=
  match require (sdFieldsOk d inner) with
  | .error e => .error e
  | .ok _ =>
    if sdTv d then
      match s.useDesc (sdTidx d) use (sdVer d) with
      | .ok t => .ok (some t)
      | .error e => .error e
    else .ok none

/-! ## Nests -/

/-- K per step (R196). -/
def kStep (w : Nat) : Nat := if w = 32 then 16 else 1024 / w

/-- The width class of an operand type (R195); none for codes 7 to 13. -/
def widthClass (t : ElemTy) : Option Nat :=
  match t with
  | .f32 => some 0
  | .bf16 | .f16 => some 1
  | .e4m3 | .e5m2 | .i8 => some 2
  | .o4 | .i4 => some 3
  | _ => none

/-- Captured levels: the trips that lc registers hold at issue (R192). -/
def Bank.captureLevels (b : Bank) (half : Fin 2) (depth : Nat) : List NestLevel :=
  ((b.eng.nests[half]).toList.take depth).map fun l =>
    match l.lc with
    | some r => { l with lc := none, trip := (b.readLc r).toNat }
    | none => l

/-- The iterations of a nest. -/
def tripProduct (levels : List NestLevel) : Nat := levels.foldl (fun n l => n * l.trip) 1

/-- The indices (i0, i1, …) of iteration `n`, i0 fastest (R196). -/
def indicesOf : List NestLevel → Nat → List Nat
  | [], _ => []
  | l :: t, n => n % l.trip :: indicesOf t (n / l.trip)

/-- Σ stride × index (R196). -/
def offsetAt (f : NestLevel → Int) (levels : List NestLevel) (n : Nat) : Int :=
  ((levels.zip (indicesOf levels n)).map fun p => f p.1 * (p.2 : Int)).foldl (· + ·) 0

/-- The lowest and highest Σ stride × index. -/
def offsetSpan (f : NestLevel → Int) (levels : List NestLevel) : Int × Int :=
  levels.foldl (fun a l =>
    let e := f l * ((l.trip : Int) - 1)
    (a.1 + min 0 e, a.2 + max 0 e)) (0, 0)

/-- A stream of a nest: its descriptor, outer extent, K extent and tile strides. -/
structure StreamUse where
  d : BitVec 256
  outer : Nat
  kx : Nat
  stride : NestLevel → Int
  levels : List NestLevel

/-- Steps of an iteration (R207). -/
def stepsOf (d : BitVec 256) (kx : Nat) : Nat := ceilDiv kx (kStep (sdTy d).width)

/-- The last byte offset that a step's element (outer − 1, j) reaches from the iteration's offset. -/
def StreamUse.lastByte (u : StreamUse) (step j : Nat) : Int :=
  let w := (sdTy u.d).width
  let t : Nat := step * sdTpitch u.d
  let i := u.outer - 1
  if sdOrder u.d then ((t + j * sdPitch u.d + (i * w + w - 1) / 8 : Nat) : Int)
  else ((t + i * sdPitch u.d + (j * w + w - 1) / 8 : Nat) : Int)

/-- The lowest and highest byte offset over every element that an iteration reads (R195). -/
def StreamUse.span (u : StreamUse) : Int × Int :=
  let k := kStep (sdTy u.d).width
  let n := stepsOf u.d u.kx
  let sp := offsetSpan u.stride u.levels
  let top := max (u.lastByte (n - 1) ((u.kx - 1) % k)) (if n ≥ 2 then u.lastByte (n - 2) (k - 1) else 0)
  (sp.1, sp.2 + top)

/-- The addresses of every shift nibble that a nest reads (R191, R195). -/
def StreamUse.nibbles (u : StreamUse) : List Int :=
  if sdBgeom u.d = 0 then []
  else
    let k := kStep (sdTy u.d).width
    (offsetsOf u.stride u.levels).flatMap fun t =>
      (List.range u.kx).flatMap fun kk =>
        (List.range u.outer).map fun i =>
          let p := elemPlace u.d (t + (kk / k * sdTpitch u.d : Nat)) i (kk % k)
          (shiftPlace u.d p.o p.high).1

/-- The byte addresses that bound every element and shift nibble of a stream (R195). -/
def StreamUse.bounds (u : StreamUse) : List Int := ((sdBase u.d : Int) + u.span.1) :: ((sdBase u.d : Int) + u.span.2) :: u.nibbles

/-- Check 5 of R195 over the operands in scratchpad: the window over all of them, then BASE for each block-scaled one. -/
def rangesOk (l : List StreamUse) : Except Stop Unit :=
  let all := l.flatMap StreamUse.bounds
  let lo := all.foldl min 0
  let hi := all.foldl max 0
  if lo < 0 then .error (.fault .accessRange (wordOfInt lo))
  else if hi > 0x5FFFFF then .error (.fault .accessRange 0x600000#64)
  else require (l.all fun u => !((sdTy u.d).blockScaled && decide (u.span.1 < 0)))

/-- Bytes of the element at a place, as their memory keys (R190). -/
def elemKeys (d : BitVec 256) (x c : Nat) (p : ElemPlace) : List Nat :=
  (List.range (ceilDiv (sdTy d).width 8)).map fun (b : Nat) =>
    spadKey x c ((sdBase d : Int) + swizzle d (p.o + (b : Int))).toNat

/-- The stored value of the element in some bytes. -/
def elemIn (t : ElemTy) (daz high : Bool) (bs : List Byte) : Num :=
  let v := natOfBytes bs
  if t = .o4 then (if high then (decodeO4 v).2 else (decodeO4 v).1)
  else if t = .i4 then .ofInt (sextNat (if high then v / 16 else v % 16) 4)
  else decodeElem t daz v

/-- The decoded element of a nest operand (R190, R191). -/
def streamElem (m : Memory) (x c : Nat) (d : BitVec 256) (daz : Bool) (t : Int) (i j : Nat) : Num :=
  let p := elemPlace d t i j
  let v := elemIn (sdTy d) daz p.high ((elemKeys d x c p).map (memGet m))
  if (sdTy d).blockScaled then
    let k := if sdBgeom d = 0 then 0
      else
        let n := shiftPlace d p.o p.high
        let b := (memGet m (spadKey x c n.1.toNat)).toNat
        if n.2 then b / 16 else b % 16
    v.scale (sdEts d - (k : Int))
  else v

/-- The memory keys that a step of a stream reads. -/
def stepKeys (x c : Nat) (d : BitVec 256) (t : Int) (outer k : Nat) : List Nat :=
  (List.range outer).flatMap fun i => (List.range k).flatMap fun j =>
    let p := elemPlace d t i j
    (if sdBgeom d = 0 then [] else [spadKey x c (shiftPlace d p.o p.high).1.toNat]) ++ elemKeys d x c p

/-- Infinities of both signs meet in a sum, whatever else is in it (R196). -/
def infinitiesMeet (l : List Num) : Bool := l.contains (.inf false) && l.contains (.inf true)

/-- An exact sum of products with the flags that it raises (R196). -/
def dotNum (l : List (Num × Num)) : Num × Flags :=
  let ms := l.map fun p => mulNum p.1 p.2
  let fl := ms.foldl (fun f m => f ||| m.flags) (if infinitiesMeet (ms.map (·.v)) then flNV else 0)
  match ms with
  | [] => (.zero, 0)
  | m :: t => t.foldl (fun a q => ((addNum false a.1 q.v).v, a.2)) (m.v, fl)

/-- Groups of 16 (R196). -/
def groups16 {α : Type} : Nat → List α → List (List α)
  | 0, _ => []
  | k + 1, l => if l.isEmpty then [] else l.take 16 :: groups16 k (l.drop 16)

/-- A rounding of the nest: f32, RNE (R196). -/
def nestRound (ftz : Bool) (v : Num) : Num × Flags :=
  let r := roundElem .f32 true ftz .rne v
  (decodeElem .f32 false r.bits, r.flags)

/-- One lane's step: the accumulator and the products of a step, in f32 (R196). -/
def laneStepF (ftz : Bool) (acc : Num) (l : List (Num × Num)) : Num × Flags :=
  (groups16 (ceilDiv l.length 16) l).foldl (fun a g =>
    let s := dotNum g
    let r := nestRound ftz s.1
    let t := addNum false a.1 r.1
    let q := nestRound ftz t.v
    (q.1, a.2 ||| s.2 ||| r.2 ||| t.flags ||| q.2)) (acc, 0)

/-- The integer value of an exact number. -/
def numInt (v : Num) : Int :=
  match v with
  | .fin n m e _ => signedAt n m e 0
  | _ => 0

/-- One lane's step in i32 (R196). -/
def laneStepI (acc : Nat) (l : List (Num × Num)) : Nat :=
  (((acc : Int) + (l.map fun p => numInt p.1 * numInt p.2).foldl (· + ·) 0) % (2 ^ 32 : Nat)).toNat

/-- The new lane of a step. -/
def laneStep (int daz ftz : Bool) (old : Nat) (l : List (Num × Num)) : Nat × Flags :=
  if int then (laneStepI old l, 0)
  else
    let r := laneStepF ftz (decodeElem .f32 daz old) l
    ((roundElem .f32 true false .rne r.1).bits, r.2)

/-- Operand A of a step: rows of K elements. -/
def operandA (s : State) (x c : Nat) (b : Bank) (o : MmaOp) (k n : Nat) : List (List Num) :=
  let first := o.step * k
  let off := offsetAt (·.sa) o.levels o.iter
  (List.range o.m).map fun (m : Nat) =>
    if placeAvec o.place then
      let r := b.readRow ((placeArow o.place : Int) + off + m).toNat
      (List.range n).map fun j => rowValue (sdTy o.sda) o.daz r (first + j)
    else (List.range n).map fun j => streamElem s.mem x c o.sda o.daz (off + (o.step * sdTpitch o.sda : Nat)) m j

/-- Operand B of a step. -/
def operandB (s : State) (x c : Nat) (o : MmaOp) (n : Nat) : List (List Num) :=
  let t := offsetAt (·.sb) o.levels o.iter + (o.step * sdTpitch o.sdb : Nat)
  (List.range o.n).map fun i => (List.range n).map fun j => streamElem s.mem x c o.sdb o.daz t i j

/-- The first poisoned word of the accumulator array that a step reads: in the lanes of its result rows, or in the elements of
an AVEC operand (R25). -/
def Bank.stepRowPoison (b : Bank) (o : MmaOp) (n : Nat) : Option Nat :=
  let w := (sdTy o.sda).width
  let rows := fun (first : Nat) (off : Int) => (List.range o.m).map fun (m : Nat) => ((first : Int) + off + m).toNat
  match (rows (placeCrow o.place) (offsetAt (·.sc) o.levels o.iter)).findSome? (b.rowPoison (4 * placeClane o.place) (4 * o.n)) with
  | some k => some k
  | none =>
    if placeAvec o.place then
      (rows (placeArow o.place) (offsetAt (·.sa) o.levels o.iter)).findSome?
        (b.rowPoison (o.step * kStep (sdTy o.sdb).width * w / 8) (n * w / 8))
    else none

/-- The first poisoned word of memory that a step reads (R25). -/
def stepMemPoison (s : State) (x c : Nat) (o : MmaOp) (n : Nat) : Option Nat :=
  if s.dev.poisoned.isEmpty then none
  else
    let ta := offsetAt (·.sa) o.levels o.iter + (o.step * sdTpitch o.sda : Nat)
    let tb := offsetAt (·.sb) o.levels o.iter + (o.step * sdTpitch o.sdb : Nat)
    let ks := (if placeAvec o.place then [] else stepKeys x c o.sda ta o.m n) ++ stepKeys x c o.sdb tb o.n n
    s.dev.poisoned.find? fun w => ks.any fun k => decide (w ≤ k) && decide (k < w + 8)

/-- The first poisoned word that a step reads (R25). -/
def stepPoison (s : State) (x c : Nat) (o : MmaOp) (n : Nat) : Option Nat :=
  match s.bank.stepRowPoison o n with
  | some w => some (accKey c w)
  | none => stepMemPoison s x c o n

/-- K elements of the step that a nest is at. -/
def MmaOp.stepLen (o : MmaOp) : Nat :=
  let k := kStep (sdTy o.sdb).width
  min k (placeKx o.place - o.step * k)

/-- The result row of lane row `m` of a step. -/
def stepRow (o : MmaOp) (old : Row) (a : List Num) (bs : List (List Num)) : Row × Flags :=
  let daz := o.daz && o.step == 0
  let first := placeClane o.place
  ((List.range o.n).zip bs).foldl (fun acc p =>
    let r := laneStep (placeInt o.place) daz o.ftz (rowElem old 32 (first + p.1)) (a.zip p.2)
    (putElem acc.1 32 (first + p.1) r.1, acc.2 ||| r.2)) (old, 0)

/-- One K-step of a nest: the bank with its result rows, and the flags (R196). -/
def nestStep (s : State) (x c : Nat) (b : Bank) (o : MmaOp) : Bank × Flags :=
  let k := kStep (sdTy o.sdb).width
  let n := o.stepLen
  let as := operandA s x c b o k n
  let bs := operandB s x c o n
  let row := (placeCrow o.place : Int) + offsetAt (·.sc) o.levels o.iter
  ((List.range o.m).zip as).foldl (fun acc p =>
    let r := (row + p.1).toNat
    let q := stepRow o (acc.1.readRow r) p.2 bs
    (acc.1.writeRow r q.1, acc.2 ||| q.2)) (b, 0)

/-- The position after a step. -/
def MmaOp.advance (o : MmaOp) : MmaOp :=
  if o.step + 1 < stepsOf o.sdb (placeKx o.place) then { o with step := o.step + 1 }
  else { o with step := 0, iter := o.iter + 1 }

/-- Every iteration has run. -/
def MmaOp.finished (o : MmaOp) : Bool := decide (tripProduct o.levels ≤ o.iter)

/-- Check 1 of R195. -/
def placeOk (w : Word) (m n : Nat) (levels : List NestLevel) : Bool :=
  field w 36 4 == 0 && field w 21 3 == 0 && placeKx w != 0 && placeClane w % 16 == 0 && decide (placeClane w + n ≤ 128) &&
  placeCrow w % m == 0 && placeArow w % m == 0 && (placeAvec w || placeArow w == 0) &&
  levels.all fun l => Int.fmod l.sc m == 0

/-- Check 3 of R195. -/
def typesOk (w : Word) (a b : BitVec 256) : Bool :=
  (widthClass (sdTy a)).isSome && widthClass (sdTy a) == widthClass (sdTy b) &&
  (!(placeInt w) ||
    (let one := fun (d : BitVec 256) => sdTy d == .i8 || sdTy d == .i4
     let flat := fun (d : BitVec 256) => sdBgeom d == 0 && sdEts d == 0
     one a && one b && (placeAvec w || flat a) && flat b)) &&
  (!(placeAvec w) || decide (placeKx w ≤ 4096 / (sdTy a).width))

/-- Rows `first + lo` to `first + hi + m − 1` exist. -/
def rowsOk (first m : Nat) (sp : Int × Int) : Bool :=
  decide (0 ≤ (first : Int) + sp.1) && decide ((first : Int) + sp.2 + m ≤ 4096)

/-- Check 4 of R195. -/
def nestRowsOk (w : Word) (m : Nat) (levels : List NestLevel) : Bool :=
  rowsOk (placeCrow w) m (offsetSpan (·.sc) levels) &&
  (!(placeAvec w) ||
    (rowsOk (placeArow w) m (offsetSpan (·.sa) levels) &&
      !((avecTiles w m levels).any (resultTiles w m levels).contains)))

/-- The checks of R195. -/
def State.checkMma (s : State) (o : MmaOp) : Except Stop Unit := do
  let avec := placeAvec o.place
  require (placeOk o.place o.m o.n o.levels)
  if avec then require (sdTy o.sda == .f32 || sdTy o.sda == .bf16 || sdTy o.sda == .f16)
  else
    let _ ← s.checkSd o.sda o.m .any
    require (!(sdInG o.sda))
  if avec then require (sdCode o.sda != 15)
  let _ ← s.checkSd o.sdb o.n .any
  require (!(sdInG o.sdb))
  require (typesOk o.place o.sda o.sdb)
  if tripProduct o.levels = 0 then .ok ()
  else
    require (nestRowsOk o.place o.m o.levels)
    rangesOk ((if avec then [] else [⟨o.sda, o.m, placeKx o.place, (·.sa), o.levels⟩]) ++
      [⟨o.sdb, o.n, placeKx o.place, (·.sb), o.levels⟩])

/-! ## Write-backs -/

/-- The source value of lane (m, n) of a write-back (R203). -/
def MwbOp.value (o : MwbOp) (b : Bank) (m n : Nat) : Num :=
  let v := rowElem (b.readRow (placeCrow o.src + m)) 32 (placeClane o.src + n)
  if placeInt o.src then .ofInt (sextNat v 32) else decodeElem .f32 o.daz v

/-- The first poisoned word of the accumulator array that a write-back reads (R25). -/
def MwbOp.poison (o : MwbOp) (b : Bank) : Option Nat :=
  ((List.range o.m).map (placeCrow o.src + ·)).findSome? (b.rowPoison (4 * placeClane o.src) (4 * o.n))

/-- The controls of a write-back. -/
def MwbOp.controls (o : MwbOp) : Controls := ⟨o.rm, o.daz, o.ftz, 0, 0⟩

/-- The elements of stored row `r`, in stored order, as (m, n). -/
def MwbOp.storedElems (o : MwbOp) (r : Nat) : List (Nat × Nat) :=
  if sdOrder o.sd then (List.range o.m).map fun m => (m, r) else (List.range o.n).map fun n => (r, n)

/-- The codes of a stored row whose elements are scaled by 2^(scale m n) (R203, R204). -/
def MwbOp.rowCodes (o : MwbOp) (b : Bank) (scale : Nat → Nat → Int) (r : Nat) : List QElem :=
  quantList (sdTy o.sd) o.ieee o.controls 0 ((o.storedElems r).map fun p => (o.value b p.1 p.2).scale (scale p.1 p.2))

/-- The codes of a RAW write-back's stored row: the packed elements from byte 4 × CLANE on (R203). -/
def MwbOp.rawCodes (o : MwbOp) (b : Bank) (r : Nat) : List QElem :=
  let w := (sdTy o.sd).width
  (o.storedElems r).map fun p => ⟨field (b.readRow (placeCrow o.src + p.1)) (32 * placeClane o.src + w * p.2) w, 0, false⟩

/-- The bytes of a stored row from its codes. -/
def codeBytes (w : Nat) (l : List QElem) : List Byte := bytesOfNat (l.length * w / 8) (natOfDigits w (l.map (·.bits)))

/-- The codes of every stored row. -/
def MwbOp.codes (o : MwbOp) (b : Bank) (scale : Nat → Nat → Int) : List (List QElem) :=
  (List.range (storedRows o.sd o.m o.n).1).map fun r => if o.raw then o.rawCodes b r else o.rowCodes b scale r

/-- The writes of one stored row from its codes. -/
def MwbOp.rowWrites (o : MwbOp) (x c r : Nat) (l : List QElem) : List (Nat × Byte) :=
  let bs := codeBytes (sdTy o.sd).width l
  ((List.range bs.length).zip bs).map fun q => (o.key x c ((r * sdPitch o.sd + q.1 : Nat) : Int), q.2)

/-- The bytes of an element at (m, n) of codes by stored row, where its width is at least 8 bits. -/
def MwbOp.elemWrites (o : MwbOp) (x c : Nat) (codes : List (List QElem)) (m n : Nat) : List (Nat × Byte) :=
  let w := (sdTy o.sd).width
  let (r, i) := if sdOrder o.sd then (n, m) else (m, n)
  match (codes.getD r []).drop i with
  | [] => []
  | e :: _ =>
    let bs := bytesOfNat (w / 8) e.bits
    ((List.range bs.length).zip bs).map fun q =>
      (o.key x c ((r * sdPitch o.sd + i * w / 8 + q.1 : Nat) : Int), q.2)

/-- The bytes that a write-back writes, in the order of R203: ascending (m, n), and 4-bit pairs by stored row. -/
def MwbOp.writes (o : MwbOp) (x c : Nat) (codes : List (List QElem)) : List (Nat × Byte) :=
  if (sdTy o.sd).width = 4 then ((List.range codes.length).zip codes).flatMap fun p => o.rowWrites x c p.1 p.2
  else (List.range o.m).flatMap fun m => (List.range o.n).flatMap fun n => o.elemWrites x c codes m n

/-- Check 1 of R202 and the limits of R201; `b` is the block placement's register code and value. -/
def mwbPlaceOk (w : Word) (m n : Nat) (quant : Bool) (breg : Nat) (bval : Word) : Bool :=
  field w 27 37 == 0 && field w 24 3 != 7 && field w 21 3 == 0 && field w 19 1 == 0 && placeClane w % 16 == 0 &&
  decide (placeClane w + n ≤ 128) && placeCrow w % m == 0 &&
  (if quant then field bval 48 16 == 0 else breg == 0)

/-- A write-back is quantising (R202). -/
def quantising (sd : BitVec 256) (raw : Bool) : Bool := (sdTy sd).blockScaled && sdBgeom sd != 0 && !raw

/-- The destination's parts, stored row by stored row (R202). -/
def State.mwbParts (s : State) (sd : BitVec 256) (m n : Nat) : Nat → Except Stop (List RowPart)
  | 0 => .ok []
  | k + 1 =>
    match s.mwbParts sd m n k with
    | .error e => .error e
    | .ok l =>
      match s.locate (if sdInG sd then .g else .s) (Access.store s.level) (wordOfNat (sdBase sd + k * sdPitch sd)) (rowBytes sd m n) with
      | .error e => .error e
      | .ok ps => .ok (l ++ ps)

end Sys2Proof.Machine
end

