-- ==== Sys2Proof/Machine/Matrix.lean ====
section
/-! DEFINITION. NSET, MMA, MZERO, MWB and SDGET, and the steps of the matrix engine (R185 to R206). -/

namespace Sys2Proof.Machine

open Sys2Proof

/-! ## Programming the engine -/

/-- Write a level of the inactive half (R192, R193). -/
def Bank.setLevel (b : Bank) (l : Nat) (v : NestLevel) : Bank :=
  let h := otherHalf b.eng.activeHalf
  { b with eng := { b.eng with nests := vset b.eng.nests h (vset b.eng.nests[h] l v) } }

/-- NSET of R193. -/
def nsetOp (len : Nat) (l : BitVec 3) (lc : Option Nat) (trip : Nat) (a : BitVec 6) (s : State) : Result :=
  if l.toNat < 6 ∧ (lc.getD 0) < 8 then
    .next ((s.setBank (s.bank.setLevel l.toNat (levelOf lc trip (s.bank.readA a.toNat)))).retire .a len)
  else s.pcFault .a .operandIllegal

/-- NSET with an immediate trip (R193). -/
def execNset (l : BitVec 3) (t : BitVec 8) (a : BitVec 6) (s : State) : Result := nsetOp 1 l none t.toNat a s
/-- NSET with an lc register (R193). -/
def execNsetLc (l : BitVec 3) (c : BitVec 8) (a : BitVec 6) (s : State) : Result := nsetOp 1 l (some c.toNat) 0 a s
/-- NSET, long form (R193). -/
def execNsetL (l : BitVec 3) (a : BitVec 6) (t : BitVec 30) (s : State) : Result := nsetOp 2 l none t.toNat a s

/-- The engine holds at most two operations (R185). -/
def Bank.engineRoom (b : Bank) : Bool := decide (b.eng.tileQ.length < 2)

/-- Fork a tile-engine operation at the A stream's walk count (R157, R185). -/
def Bank.fork (b : Bank) (w : TileWork) (f : Flags) : Bank :=
  { b with eng := { b.eng with tileQ := b.eng.tileQ ++ [⟨b.walk.wa, false, w, f⟩] } }

/-- N of an ncode (R194). -/
def colsOfCode (n : BitVec 3) : Nat := 16 * (n.toNat + 1)

/-- MMA (R194, R195): the halves swap, the levels and controls are captured and the nest is forked. -/
def execMma (a b : BitVec 4) (m : BitVec 2) (n d : BitVec 3) (x : BitVec 6) (s : State) : Result :=
  if m = 3#2 ∨ d.toNat = 0 ∨ d.toNat > 6 then s.pcFault .a .operandIllegal
  else
    finish s .a do
      let half := otherHalf s.bank.eng.activeHalf
      let c := s.bank.controlsA 0
      let o : MmaOp :=
        { sda := s.bank.readSd a.toNat, sdb := s.bank.readSd b.toNat, m := rowsOfCode m, n := colsOfCode n,
          place := s.bank.readA x.toNat, levels := s.bank.captureLevels half d.toNat, daz := c.daz, ftz := c.ftz,
          iter := 0, step := 0 }
      s.checkMma o
      if s.bank.engineRoom then
        let k := { s.bank with eng := { s.bank.eng with activeHalf := half } }
        .ok ((s.setBank (k.fork (.mma o) 0)).retire .a 1)
      else .error .wait

/-- MZERO (R199). -/
def execMzero (a : BitVec 6) (s : State) : Result :=
  let v := s.bank.readA a.toNat
  let f := field v 0 12
  let c := field v 12 13
  finish s .a do
    require (c != 0 && field v 25 39 == 0 && decide (f + c ≤ 4096))
    if s.bank.engineRoom then .ok ((s.setBank (s.bank.fork (.mzero f c) 0)).retire .a 1) else .error .wait

/-- SDGET (R200). -/
def execSdget (d a : BitVec 6) (im : BitVec 10) (s : State) : Result :=
  if d.toNat < 16 then
    let ea := s.bank.eaSd a im
    if aligned ea 32 then
      finish s .a do
        let s1 ← s.wr .s false ea (bytesOfNat 32 (s.bank.readSd d.toNat).toNat)
        .ok (s1.retire .a 1)
    else .next (s.raise .a .align ea)
  else s.pcFault .a .operandIllegal

/-- Blocks of a quantising write-back: the block number and its elements (R204). -/
def mwbBlocks (o : MwbOp) (b0 pitch : Nat) : List (Nat × List (Nat × Nat)) :=
  if sdBgeom o.sd = 1 then
    (List.range o.m).flatMap fun m => (List.range (o.n / 32)).map fun j =>
      (b0 + m * pitch + j, (List.range 32).map fun i => (m, 32 * j + i))
  else
    (List.range o.n).flatMap fun n => (List.range (o.m / 32)).map fun j =>
      (b0 + j * pitch + n, (List.range 32).map fun i => (32 * j + i, n))

/-- The shift of the block that element (m, n) lies in. -/
def shiftOf (o : MwbOp) (ks : List Nat) (m n : Nat) : Nat :=
  if sdBgeom o.sd = 1 then ks.getD (m * (o.n / 32) + n / 32) 0 else ks.getD (n * (o.m / 32) + m / 32) 0

/-- A whole byte as a pending write. -/
def wholeByte (page : Option (Nat × Nat)) (p : Nat × Byte) : PendWrite := ⟨p.1, page, p.2, 255#8⟩

/-- A nibble as a pending write (R133). -/
def nibbleWrite (ps : List RowPart) (blk k : Nat) : PendWrite :=
  let (key, page) := match ps with
    | p :: _ => (p.key, p.gva.map fun g => (g / 65536, p.size))
    | [] => (0, none)
  if blk % 2 = 0 then ⟨key, page, BitVec.ofNat 8 k, 0x0F#8⟩ else ⟨key, page, BitVec.ofNat 8 (16 * k), 0xF0#8⟩

/-- The parts of the byte at an address among resolved shift bytes. -/
def partsAt (l : List (Nat × List RowPart)) (g : Nat) : List RowPart :=
  match l.find? (·.1 == g) with
  | some e => e.2
  | none => []

/-- The parts of the shift array that a quantising MWB writes, checked with its destination (R204, step 3): those of its blocks
below nb. -/
def mwbShifts (o : MwbOp) (d : Desc) (b0 pitch : Nat) (s : State) : Except Stop (List (Nat × List RowPart)) :=
  s.shiftBytes true (d.shiftAddrs (((mwbBlocks o b0 pitch).map (·.1)).filter fun q => decide (q < d.blocks)))

/-- A quantising MWB after its checks 1 to 3 (R204): its results are decided here and its writes complete as an engine
operation. -/
def mwbQuant (o : MwbOp) (d : Option Desc) (b0 pitch : Nat) (parts : List (Nat × List RowPart)) (s : State) : Except Stop State := do
  if s.bank.eng.tileQ.isEmpty = false ∨ s.xPending s.bank.walk.wa (TileWork.mwb o).tiles = true then .error .wait
  else
    match d with
    | none => badFormat
    | some d =>
      if sdVer o.sd && decide (d.version < sdExpver o.sd) then .error .wait
      else
        require (d.tcode == sdCode o.sd)
        require (if sdBgeom o.sd = 1 then o.n % 32 == 0 else o.m % 32 == 0)
        let blocks := mwbBlocks o b0 pitch
        require (blocks.all fun q => decide (q.1 < d.blocks))
        match o.poison s.bank with
        | some w => throw (.lost (accKey s.cellNo w))
        | none => pure ()
        let et := scaleExp d (s.snapshotOf d.record)
        let val := fun (p : Nat × Nat) => o.value s.bank p.1 p.2
        let ks := blocks.map fun q => blockShift d.ty et (q.2.map val)
        let codes := o.codes s.bank fun m n => (shiftOf o ks m n : Nat) - et
        let all := codes.flatten
        if d.rescaleOk (satCount all) = false then .error (.fault .rescale 0)
        else
          let x := s.ctxNo
          let c := s.cellNo
          let elems := (o.writes x c codes).map (wholeByte none)
          let ets : List PendWrite := (partsAt parts d.shifts).map fun p =>
            ⟨p.key, p.gva.map fun g => (g / 65536, p.size), BitVec.ofInt 8 et, 255#8⟩
          let nibs := (blocks.zip ks).map fun q => nibbleWrite (partsAt parts (d.nibbleAddr q.1.1)) q.1.1 q.2
          let held := o.frames.map fun f => (⟨f.key, some (f.page, f.size), 0#8, 0#8⟩ : PendWrite)
          let shown := ((List.range codes.length).zip codes).flatMap fun r =>
            ((o.storedElems r.1).zip r.2).map fun e => (val e.1, e.2.sat)
          let s1 := s.presentHere none d shown
          let fl := all.foldl (fun f e => f ||| e.flags) 0
          .ok ((s1.setBank (s1.bank.fork (.writes (held ++ elems ++ ets ++ nibs)) fl)).retire .a 1)

/-- MWB of R201 to R204. -/
def mwbOp (raw : Bool) (d : BitVec 4) (m : BitVec 2) (n : BitVec 3) (sz b : BitVec 6) (s : State) : Result :=
  if m = 3#2 then s.pcFault .a .operandIllegal
  else
    finish s .a do
      let sd := s.bank.readSd d.toNat
      let w := s.bank.readA sz.toNat
      let rows := rowsOfCode m
      let cols := colsOfCode n
      let q := quantising sd raw
      let bv := s.bank.readA b.toNat
      require (mwbPlaceOk w rows cols q b.toNat bv)
      let desc ← s.checkSd sd (storedRows sd rows cols).2 (if q then .ws else .w)
      require (!raw || (!(sdTv sd) && sdBgeom sd == 0))
      let c := s.bank.controlsA (field w 24 3)
      require (!c.stochastic)
      let parts ← s.mwbParts sd rows cols (storedRows sd rows cols).1
      let ieee := match desc with
        | some t => t.ieee
        | none => false
      let o : MwbOp :=
        { sd := sd, src := w, m := rows, n := cols, raw := raw, rm := c.rm, daz := c.daz, ftz := c.ftz, ieee := ieee,
          frames := framesOf parts, shown := desc.map fun t => (t.record, t.hbase) }
      if q then
        let shifts ← match desc with
          | some t => mwbShifts o t (field bv 0 24) (field bv 24 24) s
          | none => .ok []
        mwbQuant o desc (field bv 0 24) (field bv 24 24) shifts s
      else if s.bank.engineRoom then .ok ((s.setBank (s.bank.fork (.mwb o) 0)).retire .a 1)
      else .error .wait

/-- MWB (R201). -/
def execMwb (d : BitVec 4) (m : BitVec 2) (n : BitVec 3) (sz b : BitVec 6) (s : State) : Result := mwbOp false d m n sz b s
/-- MWB RAW (R201). -/
def execMwbRaw (d : BitVec 4) (m : BitVec 2) (n : BitVec 3) (sz : BitVec 6) (s : State) : Result := mwbOp true d m n sz 0 s

/-! ## The engine -/

/-- The engines of a cell's active bank may begin operations: its context runs, or it is a handler's (R206, R342). -/
def State.enginesRun (s : State) : Bool :=
  match s.bank.ctl.owner with
  | none => false
  | some x => s.bank.ctl.froze || ((s.ctxAt x).state == .active && !(s.ctxAt x).swapping)

/-- A stream descriptor's version wait (R197): none where it holds, else the wait or the agent's fault. -/
def State.versionOf (s : State) (x : Nat) (d : BitVec 256) : Except Stop Bool :=
  if sdVer d then
    match s.readDesc x (sdTidx d) true with
    | .ok t => .ok (decide (sdExpver d ≤ t.version))
    | .error e => .error e
  else .ok true

/-- The version waits of an operation (R188, R197). -/
def State.versionsOf (s : State) (x : Nat) : TileWork → Except Stop Bool
  | .mma o =>
    match if placeAvec o.place then .ok true else s.versionOf x o.sda with
    | .error e => .error e
    | .ok a =>
      match s.versionOf x o.sdb with
      | .error e => .error e
      | .ok b => .ok (a && b)
  | .mwb o => s.versionOf x o.sd
  | _ => .ok true

/-- Replace the head of the engine's queue. -/
def Bank.setHead (b : Bank) (o : TileOp) : Bank := { b with eng := { b.eng with tileQ := o :: b.eng.tileQ.tail } }

/-- A stop in an engine operation of the moving bank: an agent's access to the tensor table fails as a fault of the context
that no stream issued, and is made again (R187, R397); a poisoned word loses the context (R25). -/
def State.engineStop (s : State) : Stop → State
  | .fault c f => s.raiseDevice s.ctxNo c f s.bank.sr.task
  | .lost k => s.losePoison k
  | _ => s

/-- Every scratchpad line of the moving cell may be used by its engine (R334): the engine waits for the exchange of the first
line that another context holds. -/
def State.linesReady (s : State) : Bool := (s.foreignLine s.ctxNo s.cellNo).isNone

/-- The head operation of the moving bank starts when the X instructions before it have retired and its versions are
reached (R157, R185, R197). -/
def State.startTileOp (s : State) : State :=
  match s.bank.eng.tileQ with
  | o :: _ =>
    if o.started ∨ s.enginesRun = false ∨ s.linesReady = false ∨ s.xPending o.walk o.work.tiles = true then s
    else
      match s.versionsOf s.ctxNo o.work with
      | .ok true => s.setBank (s.bank.setHead { o with started := true })
      | .ok false => s
      | .error e => s.engineStop e
  | [] => s

/-- One K-step of the nest that runs in the moving bank (R196, R205, R206). -/
def State.stepTileOp (s : State) : State :=
  let narrow := fun (b : Bank) => { b with eng := { b.eng with narrow := s.dev.alarm } }
  match s.bank.eng.tileQ with
  | ⟨w, true, .mma o, f⟩ :: _ =>
    if o.finished ∨ (s.ctxAt s.ctxNo).swapping ∨ s.linesReady = false then s
    else
      match stepPoison s s.ctxNo s.cellNo o o.stepLen with
      | some k => s.engineStop (.lost k)
      | none =>
        let r := nestStep s s.ctxNo s.cellNo s.bank o
        let s1 := s.setBank (narrow (r.1.setHead ⟨w, true, .mma o.advance, f ||| r.2⟩))
        if s.dev.alarm then s1.count fun c => { c with narrowed := satInc c.narrowed (Config.stallCycles s.freeCtr) } else s1
  | _ => s

/-- The head operation leaves the queue: its flags are held by its walk count, and the sequence number counts it (R187,
R198). -/
def Bank.retireTile (b : Bank) (f : Flags) : Bank :=
  match b.eng.tileQ with
  | [] => b
  | o :: rest =>
    { b with eng := { b.eng with tileQ := rest, tileFlags := b.eng.tileFlags ++ [(o.walk, o.flags ||| f)],
                                 engSeq := b.eng.engSeq + 1 } }

/-- Rows set to zero (R199). -/
def Bank.zeroRows (b : Bank) (f : Nat) : Nat → Bank
  | 0 => b
  | n + 1 => ((b.zeroRows f n).writeRow (f + n) 0).cleanWords (f + n) (List.range 64)

/-- A byte of memory with some bits replaced. -/
def mergeByte (m : Memory) (p : PendWrite) : Byte := (memGet m p.key &&& ~~~p.mask) ||| (p.val &&& p.mask)

/-- The writes of a quantising MWB, in order (R204). -/
def State.putPending (s : State) : List PendWrite → Except Nat State
  | [] => .ok s
  | p :: t =>
    if p.mask = 0 then s.putPending t
    else
      match s.dev.poisoned.find? fun w => decide (w ≤ p.key) && decide (p.key < w + 8) && p.mask != 255#8 with
      | some w => .error w
      | none => ({ s with mem := memPut s.mem p.key (mergeByte s.mem p) }).putPending t

/-- Poison under whole bytes that a list of writes covers, or the word that it covers in part (R25). -/
def State.coverPending (s : State) (l : List PendWrite) : Except Nat State :=
  match s.putBytes (l.filterMap fun p => if p.mask = 255#8 then some (p.key, p.val) else none) with
  | .ok t => t.putPending l
  | .error w => .error w

/-- A plain write-back completes in the moving bank (R203). -/
def State.finishMwb (s : State) (o : MwbOp) : State :=
  match o.poison s.bank with
  | some w => s.engineStop (.lost (accKey s.cellNo w))
  | none =>
  let x := s.ctxNo
  let c := s.cellNo
  let codes := o.codes s.bank fun _ _ => -(sdEts o.sd)
  match s.putBytes (o.writes x c codes) with
  | .error k => s.engineStop (.lost k)
  | .ok s1 =>
    let vals := ((List.range codes.length).zip codes).flatMap fun r =>
      ((o.storedElems r.1).zip r.2).map fun e => ((o.value s.bank e.1.1 e.1.2).scale (-(sdEts o.sd)), e.2.sat)
    let fl := codes.flatten.foldl (fun f e => f ||| e.flags) 0
    let (s2, b2) := match o.shown with
      | some (i, h) => s1.present s1.bank c none i h vals
      | none => (s1, s1.bank)
    s2.setBank (b2.retireTile fl)

/-- The head operation of the moving bank completes (R185, R187, R199, R203, R204). -/
def State.finishTileOp (s : State) : State :=
  match s.bank.eng.tileQ with
  | ⟨_, true, work, _⟩ :: _ =>
    if s.linesReady = false then s
    else
    match work with
    | .mma o => if o.finished then s.setBank (s.bank.retireTile 0) else s
    | .mzero f n => s.setBank ((s.bank.zeroRows f n).retireTile 0)
    | .mwb o => s.finishMwb o
    | .writes l =>
      match s.coverPending l with
      | .ok t => t.setBank (t.bank.retireTile 0)
      | .error k => s.engineStop (.lost k)
  | _ => s

/-- TILE_ENGINE_OP_START (R185, R197). -/
def execTileEngineOpStart (cell : Nat) (s : State) : Result := s.onCell cell State.startTileOp
/-- MATRIX_K_STEP (R196). -/
def execMatrixKStep (cell : Nat) (s : State) : Result := s.onCell cell State.stepTileOp
/-- TILE_ENGINE_OP_COMPLETE (R185). -/
def execTileEngineOpComplete (cell : Nat) (s : State) : Result := s.onCell cell State.finishTileOp

end Sys2Proof.Machine
end

