-- ==== Sys2Proof/Machine/PageOps.lean ====
section
/-! DEFINITION. INVR, INVA, PROBE and FREPLAY, page walks and acknowledgements (R217 to R225, R387). -/

namespace Sys2Proof.Machine

open Sys2Proof

/-- A G range of `n` bytes at `g` meets an invalidated range. -/
def InvRange.meets (r : InvRange) (g n : Nat) : Bool := decide (g < r.hi) && decide (r.lo < g + n)

/-- A page, as a whole, meets an invalidated range (R223). -/
def InvRange.page (r : InvRange) (page size : Nat) : Bool := r.meets (wholePage page size).1 (wholePage page size).2

/-- An invalidation covers a TLB entry: a large page whole (R223). -/
def InvRange.covers (r : InvRange) (e : TlbEntry) : Bool :=
  e.asid == r.asid && r.page e.page e.x.size

/-- Drop the held translations that an invalidation covers, in every cell (R223). -/
def State.dropTlb (s : State) (r : InvRange) : State :=
  { s with cells := s.cells.map fun c => { c with tlb := c.tlb.filter fun e => !(r.covers e) } }

/-- A copy still has bytes to move through a translation that it holds on the range (R387). -/
def CopyOp.uses (o : CopyOp) (r : InvRange) : Bool :=
  let d := copyDescOf o.desc
  let hits := fun (held : List HeldPage) (addr : Nat → Nat) =>
    held.any fun h => r.meets h.base h.len &&
      (List.range (o.total - o.wp)).any fun i => (heldAt [h] (addr (o.wp + i))).isSome
  o.phase != .faulted && ((d.sspace == 3 && hits o.srcHeld (d.srcAddr o.kind o.idx)) ||
    (d.dspace == 3 && hits o.dstHeld (d.dstAddr o.kind o.idx o.slotBase)))

/-- A tile-engine operation holds a translation on the range (R202, R219). -/
def TileWork.uses (r : InvRange) : TileWork → Bool
  | .mwb w => w.frames.any fun f => r.page f.page f.size
  | .writes l => l.any fun p => p.page.any fun g => r.page g.1 g.2
  | _ => false

/-- A reserved queue entry is to read the range (R219). -/
def QEntry.uses (r : InvRange) : QEntry → Bool
  | .pending ps _ => ps.any fun p => p.gva.any fun g => r.page (g / 65536) p.size
  | _ => false

/-- A collective holds a translation on the range. -/
def CollOp.uses (r : InvRange) (o : CollOp) : Bool :=
  (o.srcFrames ++ o.dstFrames).any fun f => r.page f.page f.size

/-- A bank has a retired use of the range that is not yet performed (R219). -/
def Bank.usesRange (b : Bank) (r : InvRange) : Bool :=
  b.q.qx.any (·.any (·.uses r)) || b.eng.tileQ.any (·.work.uses r) || b.eng.channels.any (·.any (·.uses r)) ||
    b.eng.collQ.any (·.uses r)

/-- Every use of a context's range is settled (R219, R223). -/
def State.settled (s : State) (x : Nat) (r : InvRange) : Bool :=
  (partCells (s.ctxAt x).part).all fun c =>
    (s.places c).all fun q => q.2 != x || !((s.bankIn q.1 x c).any (·.usesRange r))

/-- The invalidation of a range (R223): the entries drop, and the instruction retires at acknowledgement. -/
def State.invalidate (s : State) (r : InvRange) : State :=
  let s1 := s.dropTlb r
  if s.bank.ctl.invAck ∨ s1.settled s.ctxNo r = true then
    (s1.setBank (s1.bank.mapCtl fun c => { c with invWait := none, invAck := false })).retire .a 1
  else (s1.setBank (s1.bank.mapCtl fun c => { c with invWait := some r })).stall .a

/-- The ASID checks of INVR and INVA (R222, R223). -/
def State.invAsid (s : State) (v : Word) : Except Stop Nat :=
  if field v 16 48 ≠ 0 then .error (.fault .operandFormat 0)
  else if v ≠ s.bank.sr.asid ∨ (s.ctxAt s.ctxNo).conf = true then .error (.fault .priv 0)
  else .ok v.toNat

/-- INVR (R223). -/
def execInvr (sz n im : BitVec 6) (s : State) : Result :=
  if s.level = .task then s.pcFault .a .priv
  else
    finish s .a do
      let asid ← s.invAsid (s.bank.readA im.toNat)
      let g := (s.bank.readA sz.toNat).toNat
      let len := (s.bank.readA n.toNat).toNat
      if g % 65536 ≠ 0 ∨ len % 65536 ≠ 0 ∨ len = 0 ∨ g + len > 2 ^ 56 then .error (.fault .operandFormat 0)
      else .ok (s.invalidate ⟨asid, g, g + len⟩)

/-- INVA (R223). -/
def execInva (im : BitVec 6) (s : State) : Result :=
  if s.level = .task then s.pcFault .a .priv
  else
    finish s .a do
      let asid ← s.invAsid (s.bank.readA im.toNat)
      .ok (s.invalidate ⟨asid, 0, 2 ^ 56⟩)

/-- PROBE (R224). -/
def execProbe (d sz : BitVec 6) (s : State) : Result :=
  let g := (s.bank.readA sz.toNat).toNat
  if inG g 1 = false then answerA s 1 d (wordOfNat (4 <<< 8))
  else
    match s.lookup (some s.cellNo) s.ctxNo g with
    | .lost k => .next (s.losePoison k)
    | w => answerA s 1 d (probeWord s.level (s.ctxAt s.ctxNo).conf (keyIn g w) w)

/-! ## Replay -/

/-- The copy that a replay token names: its bank, channel index and copy (R220, R225). -/
def State.replayed (s : State) (x c token : Nat) : Option (BankPlace × Nat × CopyOp) :=
  (s.places c).findSome? fun q =>
    if q.2 = x then
      (s.bankIn q.1 x c).bind fun b =>
        match (b.channel 2).findIdx? fun o => o.phase == .replay token with
        | some i => (b.channel 2)[i]?.map fun o => (q.1, i, o)
        | none => none
    else none

/-- FREPLAY of R225: the slot is freed, and the copy continues or ends. -/
def freplayOp (abort : Bool) (t : BitVec 6) (s : State) : Result :=
  if s.level = .task then s.pcFault .a .priv
  else
    let v := s.bank.readA t.toNat
    let x := s.ctxNo
    let k := s.ctxAt x
    match if field v 32 32 = 0 then k.replays.find? fun e => e.token == v.toNat else none with
    | none => .next (s.raise .a .operandFormat 0)
    | some e =>
      let s1 := (s.retire .a 1).setCtx x { k with replays := k.replays.filter fun r => r.token != e.token }
      match s1.replayed x e.cell e.token with
      | none => .next s1
      | some (p, i, o) =>
        if abort then .next (s1.copyFault p x e.cell 2 i o e.cause e.fva.toNat)
        else .next (s1.mapBankIn p x e.cell fun b => b.setCopy 2 i { o with phase := .running })

/-- FREPLAY RESUME (R225). -/
def execFreplayResume (t : BitVec 6) (s : State) : Result := freplayOp false t s
/-- FREPLAY ABORT (R225). -/
def execFreplayAbort (t : BitVec 6) (s : State) : Result := freplayOp true t s

/-! ## Events -/

/-- Entries a cell's TLB holds (R226). -/
def tlbSize : Nat := 512

/-- What the streams' instructions are about to raise at 64 KiB page `page` (R343). -/
def Control.dueAt (c : Control) (page : Nat) : Option FaultInfo := c.ahead.find? fun f => f.fva.toNat / 65536 == page

/-- In a swap, the fault that an instruction at a stream's precise point is about to raise at G address `g` is pending (R343). -/
def State.setPending (s : State) (x g : Nat) : State :=
  match s.bank.ctl.dueAt (g / 65536) with
  | some f =>
    if (s.ctxAt x).swapping = true ∧ s.bank.ctl.fault = none ∧ s.bank.ctl.pend = none then
      s.setBank (s.bank.mapCtl fun k => { k with pend := some f })
    else s
  | none => s

/-- A walk of G address `g` by the moving cell ends (R213, R217): a leaf is held.  During a swap, the fault that an instruction
at a stream's precise point is about to raise there is pending (R343). -/
def State.endWalk (s : State) (g : Nat) : State :=
  match s.owner with
  | none => s
  | some x =>
    match s.walk x g with
    | .leaf l =>
      let e : TlbEntry := ⟨(s.ctxAt x).asid, g / 65536, l⟩
      let rest := s.cell.tlb.filter fun h => !(h.asid == e.asid && h.page == e.page)
      let t := s.withCell { s.cell with tlb := (rest ++ [e]).drop (rest.length + 1 - tlbSize) }
      t.setPending x g
    | _ => s.setPending x g
/-- PAGE_WALK_COMPLETE (R213, R217, R343). -/
def execPageWalkComplete (cell : Nat) (addr : Word) (s : State) : Result :=
  s.onCell cell fun t => if inG addr.toNat 1 then t.endWalk addr.toNat else t

/-- INVALIDATION_ACK (R219, R223): the invalidation that the moving cell waits for is acknowledged once every use is
settled. -/
def State.ackInv (s : State) : State :=
  match s.bank.ctl.invWait with
  | some r => if s.settled s.ctxNo r then s.setBank (s.bank.mapCtl fun c => { c with invAck := true }) else s
  | none => s

/-- INVALIDATION_ACK. -/
def execInvalidationAck (cell : Nat) (s : State) : Result := s.onCell cell State.ackInv

end Sys2Proof.Machine
end

