-- ==== Sys2Proof/Machine/System.lean ====
section
/-! DEFINITION. TRAP, ERET, SRD, SWR, NOP, BRK, WFE, YIELDCTX and HALT, the arrival of data, the taking of a cell's fault,
skips and decoding failures (R25, R28, R38, R39, R47, R49, R89, R305, R348 to R352). -/

namespace Sys2Proof.Machine

open Sys2Proof

/-! ## Traps and returns -/

/-- A trap entry (R349): the instruction retires, and the A stream then stops precisely after it.  DESIGN CHOICE (log 36): where
the X stream has faulted and A runs to its cut, A's stop after the trap is that cut, and the trap's own entry follows that
of the fault as a second fault's does. -/
def trapOp (kind : Nat) (code : BitVec 16) (s : State) : Result :=
  let f : FaultInfo := ⟨0, .fetchMalformed, 0, kind, code.setWidth 64, none⟩
  let t := s.retire .a 1
  if s.bank.ctl.fault.isSome then .next (t.setBank (t.bank.mapCtl fun c => { c with second := c.second ++ [f], atCut := true }))
  else .next (t.record f)

/-- TRAP (R348, R349). -/
def execTrap (c : BitVec 16) (s : State) : Result := if s.level = .task then trapOp 3 c s else s.pcFault .a .priv

/-- BRK (R348, R349): NOP while DEBUG is 0. -/
def execBrk (c : BitVec 16) (s : State) : Result :=
  if s.level = .task then (if (s.ctxAt s.ctxNo).debug then trapOp 4 c s else .next (s.retire .a 1)) else s.pcFault .a .priv

/-- Bytes of a frame that ERET reads (R337). -/
def frameLen : Nat := 0x8000

/-- ERET of a handler whose bank is drained (R350). -/
def State.eret (s : State) (fr : List Byte) : State := if byteAt fr 1 = 1 then s.endCtx s.ctxNo else s.returnFrom fr

/-- ERET (R350): a fault here is a fault in the handler (R346). -/
def execEret (f : BitVec 6) (s : State) : Result :=
  if s.level = .task then s.pcFault .a .priv
  else
    finish s .a do
      let g := s.bank.readA f.toNat
      if s.bank.ctl.status ≠ .handler ∨ g ≠ s.bank.ctl.frame then .error (.fault .operandFormat 0)
      else
        let act ← s.rd .g true (g + 1) 1
        if 1 < natOfBytes act then .error (.fault .operandFormat 0)
        else
          let fr ← s.rd .g false g frameLen
          if natOfBytes act = 0 ∧ frameBreaks fr = true then .error (.fault .operandFormat 0)
          else if s.bank.drained then .ok (s.eret fr) else .error .wait

/-! ## System registers -/

/-- The registers that R38 lists. -/
def sysListed (n : Nat) : Bool := decide (n ≤ 0x0B) || (decide (0x10 ≤ n) && decide (n ≤ 0x15)) || (decide (0x20 ≤ n) && decide (n ≤ 0x25))

/-- A register that task level may not read (R38). -/
def sysPriv (n : Nat) : Bool := decide (0x20 ≤ n)

/-- The X stream waits at the moving A stream's own word, or at a HALT (R39). -/
def State.xMeets (s : State) : Bool :=
  (s.canRun .x && s.bank.sr.pcx == s.bank.sr.pca && decide (s.bank.walk.wmaxa ≤ s.bank.walk.wx) &&
    decide (s.bank.lead .x < s.bank.window .x)) || s.standsAt .x haltWord

/-- The A stream's wait at an SRD or SWR of an X-owned register, a loss of decoupling (R39, R85); sr.fflags waits for the
tile-engine operations of lower walk count too (R198). -/
def meetX (n : Nat) (s : State) (go : State → Result) : Result :=
  if xOwned n then
    if s.xMeets = false then .next (s.countLossWait.stallPeer .a)
    else if n = 1 ∧ s.bank.eng.tileQ.any (fun o => decide (o.walk < s.bank.walk.wa)) = true then .next (s.countLossWait.stall .a)
    else go s.countLoss
  else go s

/-- SRD (R38, R39, R351): a read of sr.cyc draws the cycles that have passed. -/
def execSrd (d : BitVec 6) (n : BitVec 8) (s : State) : Result :=
  let k := n.toNat
  if s.level = .task ∧ sysListed k = true ∧ sysPriv k = true then s.pcFault .a .priv
  else if sysListed k = false then s.pcFault .a .operandIllegal
  else
    meetX k s fun t =>
      let t1 := if k = 7 then t.passTime t.cellNo else t
      .next (t1.setA 1 d.toNat (t1.bank.sysReg t1.cell t1.cellNo k))

/-- SWR (R38, R39, R351). -/
def execSwr (sz : BitVec 6) (n : BitVec 8) (s : State) : Result :=
  let k := n.toNat
  let v := s.bank.readA sz.toNat
  let low := v &&& 0xFFFFFFFF#64
  let ro := k != 1 && k != 5 && k != 6
  if sysListed k = true ∧ ro = true ∧ k ≠ 0 ∧ k ≠ 2 ∧ k ≠ 3 ∧ s.level = .task then s.pcFault .a .priv
  else if sysListed k = false ∨ k = 0 ∨ k = 2 ∨ k = 3 then s.pcFault .a .operandIllegal
  else
    meetX k s fun t =>
      let b := if k = 1 then t.bank.clearFflags t.bank.walk.wa v
        else if k = 5 then t.bank.mapSr fun r => { r with seed := low }
        else if k = 6 then t.bank.mapSr fun r => { r with seedCtr := low }
        else t.bank
      .next ((t.setBank b).retire .a 1)

/-- NOP (R352). -/
def execNop (s : State) : Result := .next (s.retire .a 1)

/-- WFE (R352): the wait ends when the location differs. -/
def execWfe (v a : BitVec 6) (s : State) : Result :=
  let ea := s.bank.readA a.toNat
  if aligned ea 8 then
    finish s .a do
      let bs ← s.rd .g true ea 8
      let w := wordOfNat (natOfBytes bs)
      if w = s.bank.readA v.toNat then .error .wait else .ok (s.setA 1 v.toNat w)
  else .next (s.raise .a .align ea)

/-- YIELDCTX (R352): it asks for a pre-emption, which affects only time. -/
def execYieldctx (s : State) : Result := .next (s.retire .a 1)

/-! ## HALT -/

/-- HALT (R305, R346): both streams retire it once the bank is drained; a handler's ends the context. -/
def execHalt (s : State) : Result :=
  if s.standsAt s.turn.other haltWord = false then .next (s.stallPeer s.turn)
  else if s.bank.drained = false then .next (s.stall s.turn)
  else if s.bank.ctl.status = .handler then .next (s.endCtx s.ctxNo)
  else .next s.endPass

/-! ## Device steps on a stream -/

/-- A key lies in DRAM: every other key is a scratchpad's. -/
def inDram (k : Nat) : Bool := decide (k < 2 ^ 52)

/-- Count a corrected word (R24, R25). -/
def Background.corrected (b : Background) (dram : Bool) : Background :=
  if dram then { b with dramCorrected := satInc b.dramCorrected 1 } else { b with sramCorrected := satInc b.sramCorrected 1 }

/-- LOAD_DATA_ARRIVAL (R25, R107): a word with a correctable error is counted, and one without data loses the context. -/
def execLoadDataArrival (cell addr : Nat) (found : EccFinding) (s : State) : Result :=
  s.onCell cell fun t =>
    match t.bank.ctl.owner with
    | none => t
    | some x =>
      let lose := t.loseCtx x 2 0 (wordOfNat (physOf (eccWord addr))) cell 0 0 t.bank.sr.task 0
      match found with
      | .uncorrectable => lose
      | .clean => if t.dev.poisoned.contains (eccWord addr) then lose else t
      | .correctable => { t with dev := { t.dev with bg := t.dev.bg.corrected (inDram addr) } }

/-- CELL_FAULT_TAKEN (R89, R342, R349). -/
def execCellFaultTaken (cell : Nat) (s : State) : Result := s.onCell cell fun t => t.takeFault cell

/-- The words at the moving stream's PC, when the stream may move and its region is entered. -/
def State.wordHere (s : State) : Option (IWord × Option IWord) := if s.canRun s.turn then s.bank.entryWord s.turn else none

/-- STREAM_SKIP (R28, R39, R81): the moving stream skips an instruction that is not tagged for it, unless a slip stall or the
other stream's SRD or SWR holds it; a first word whose TAG is 0b11 is FETCH_MALFORMED. -/
def execStreamSkip (two : Bool) (s : State) : Result :=
  match s.wordHere with
  | none => .next s
  | some (w, next) =>
    if taggedFor w s.turn ∨ (tagOf w ≠ 3#2 ∧ longOf w ≠ two) then .next s
    else if s.bank.window s.turn ≤ s.bank.lead s.turn then .next (s.slipStall s.turn)
    else
      match s.fetchWord s.turn w next with
      | .done t => .next t
      | .word _ _ => .next s

/-- OPCODE_UNDEF (R47, R49, R50): what follows where the word at the moving stream's PC fails check 4 or 5; a shared word faults
once, in both streams.  A step takes it only there. -/
def execOpcodeUndef (shared : Bool) (s : State) : Result :=
  if s.canRun s.turn then
    .next (if shared then s.sharedFault .opcodeUndef (s.bank.pc s.turn) else s.raise s.turn .opcodeUndef (s.bank.pc s.turn))
  else .next s

/-- FETCH_MALFORMED (R28, R29, R49): what follows where the fetch or checks 1 to 3 fail; `fva` is the offending word.  A step
takes it only there. -/
def execFetchMalformed (fva : Word) (s : State) : Result :=
  if s.canRun s.turn then .next (s.raise s.turn .fetchMalformed fva) else .next s

end Sys2Proof.Machine
end

