-- ==== Sys2Proof/Machine/DeviceOps.lean ====
section
/-! DEFINITION. Starting, firmware, power and background work (R19 to R26, R347, R358). -/

namespace Sys2Proof.Machine

open Sys2Proof

/-! ## Starting (R22, R23) -/

/-- A cell at a start command: sr.cyc begins again, and a cold start clears its counters and seeds its LFSR (R38, R86, R281). -/
def Cell.startOver (c : Cell) (n : Nat) (cold : Bool) : Cell :=
  if cold then .reset n
  else { Cell.reset n with counters := c.counters, steal := { c.steal with sent := 0, victim := none, backoff := false } }

/-- A port that link training covers: its epoch begins at 0 and counts the training (R22, R359, R368). -/
def Port.train (p : Port) (cold : Bool) : Port :=
  { Port.reset with state := .training, lanes := 0, epoch := 1, retry := if cold then 0 else p.retry, bad := p.bad }

/-- A port at a start command: link training covers every port, or those that are not UP (R22, step 5).  DESIGN CHOICE (log
165): a port that stays UP over a warm start loses its unacknowledged flits and keeps its SEQ numbers. -/
def Port.startOver (p : Port) (cold : Bool) : Port :=
  if cold = false ∧ p.state = .up then { p with unacked := [] } else p.train cold

/-- A plate whose run or recording a device start has ended (R327). -/
def Plate.startOver (p : Plate) : Option Plate :=
  if p.state = .recording then none
  else some { p.clearStalls with run := none, heads := [], handback := false, due := false }

/-- Every context is FREE, without a record (R23, R332), and nothing of theirs stays on the device. -/
def State.endAll (s : State) (cold : Bool) : State :=
  { s with
    cells := Vector.ofFn fun i => (s.cellAt i.val).startOver i.val cold
    ctxs := Vector.replicate 64 .reset
    saved := []
    sched := { s.sched with graphs := [], groups := [], plates := s.sched.plates.filterMap Plate.startOver }
    net := { s.net with qps := [] } }

/-- An image is measured before it runs (R21). -/
def Device.measure (d : Device) (index number : Nat) : Device :=
  { d with measured := (index, number) :: d.measured.filter (·.1 != index) }

/-- Steps 1 and 2 of R22: the root firmware measures itself, and the service firmware where both its signatures verify. -/
def Device.measureStart (d : Device) : Device :=
  let e := d.measure 1 0
  if d.service.verifies then e.measure 2 d.service.number else { e with measured := e.measured.filter (·.1 != 2) }

/-- A start begins (R22, R23).  DESIGN CHOICE (log 166): the power alarm, and the stop on new tasks
that it brought, stand until power falls (R19), over a start and over RECOVERY. -/
def State.beginStart (s : State) (cold : Bool) (failed : Nat) : State :=
  let t := s.endAll cold
  { t with
    net := { t.net with ports := t.net.ports.map (·.startOver cold), routes := if cold then [] else t.net.routes.filter fun r =>
      (s.port r.2).state == .up }
    dev := { t.dev.measureStart with state := .starting, cold := cold, failedStarts := failed, sessions := [] } }

/-- RECOVERY, or STOPPED where the recovery image fails R21 (R23): the recovery image is measured before it runs.  Ports that
are not in service train, for the root firmware answers over them (log 166). -/
def State.enterRecovery (s : State) (recOk : Bool) (failed : Nat) : State :=
  let t := s.endAll true
  let d := if recOk then (t.dev.measure 1 0).measure 3 t.dev.recovery.number else t.dev.measure 1 0
  { t with
    net := { t.net with ports := t.net.ports.map fun p => if p.state = .down then p.train true else p }
    dev := { d with state := if recOk then .recovery else .stopped, failedStarts := failed, installed := false } }

/-- A start fails (R23). -/
def State.failStart (s : State) (recOk : Bool) : State :=
  let n := s.dev.failedStarts
  if n ≤ 1 then s.beginStart true (n + 1) else s.enterRecovery recOk 3

/-- POWER_APPLIED (R23). -/
def execPowerApplied (recOk : Bool) (s : State) : Result :=
  if s.dev.state = .off then
    .next (if s.dev.failedStarts ≤ 2 then s.beginStart true s.dev.failedStarts else s.enterRecovery recOk s.dev.failedStarts)
  else .next s

/-- POWER_LOST (R23). -/
def execPowerLost (recOk : Bool) (s : State) : Result :=
  match s.dev.state with
  | .off => .next s
  | .starting => .next (s.failStart recOk)
  | _ =>
    let t := s.endAll true
    .next { t with
      net := { t.net with ports := t.net.ports.map fun p => { p with state := .down, lanes := 0, unacked := [], retryDue := false, peer := none }
                          routes := [] }
      dev := { t.dev with state := .off, alarm := false, inhibit := false, sessions := [] } }

/-- HOST_COLD_START (R22, R23): out of RECOVERY the count is cleared only with a service firmware image newly installed. -/
def execHostColdStart (s : State) : Result :=
  match s.dev.state with
  | .ready | .starting => .next (s.beginStart true s.dev.failedStarts)
  | .recovery => .next (s.beginStart true (if s.dev.installed then 0 else s.dev.failedStarts))
  | _ => .next s

/-- HOST_WARM_START (R22): taken in READY only. -/
def execHostWarmStart (s : State) : Result :=
  if s.dev.state = .ready then .next (s.beginStart false s.dev.failedStarts) else .next s

/-- A byte of the far pool, which no start zeroes (R18, R22). -/
def farKey (k : Nat) : Bool := tierOf k == .far

/-- The plates that a start leaves (R22, step 7). -/
def startPlates (cold : Bool) (l : List Plate) : List Plate :=
  if cold then []
  else (l.filter fun p => !p.conf && p.digestOf == p.digest).map fun p => if p.hback = 0 then p else Plate.redigest { p with hback := 0 }

/-- Steps 6 to 8 of R22, and READY (R23).  DESIGN CHOICE (log 167): a galley's generation counter begins at 0. -/
def State.completeStart (s : State) : State :=
  { s with
    mem := s.mem.filter fun e => farKey e.1
    sched := { s.sched with plates := startPlates s.dev.cold s.sched.plates, galleys := Vector.replicate 4 ⟨[], 0⟩, chunks := [] }
    dev := { s.dev with state := .ready, failedStarts := 0, installed := false, bg := if s.dev.cold then .reset else s.dev.bg,
                        poisoned := s.dev.poisoned.filter farKey } }

/-- START_COMPLETE (R22, R23): the service firmware has verified, and link training has ended on every port. -/
def execStartComplete (s : State) : Result :=
  if s.dev.state = .starting ∧ s.dev.service.verifies = true ∧ (s.net.ports.all fun p => p.state != .training) = true then .next s.completeStart else .next s

/-- START_STEP_FAILURE (R23). -/
def execStartStepFailure (recOk : Bool) (s : State) : Result :=
  if s.dev.state = .starting then .next (s.failStart recOk) else .next s

/-- START_TIMEOUT (R23). -/
def execStartTimeout (recOk : Bool) (s : State) : Result :=
  if s.dev.state = .starting then .next (s.failStart recOk) else .next s

/-! ## Firmware (R21, R23) -/

/-- The number of an image that is installed now. -/
def State.newImage (s : State) (ed mldsa : Bool) : FwImage := ⟨s.freeCtr + 1, ed && mldsa⟩

/-- FIRMWARE_INSTALL (R21, R23): the host installs a service firmware image, in READY or RECOVERY; whether it is accepted is
whether both its signatures verify, and a start that finds it does not fails at step 2. -/
def execFirmwareInstall (ed mldsa : Bool) (s : State) : Result :=
  if s.dev.state = .recovery ∨ s.dev.state = .ready then
    let t : State := { s with dev := { s.dev with service := s.newImage ed mldsa, installed := true } }
    .next (t.send (.firmware (ed && mldsa)))
  else .next s

/-- RECOVERY_IMAGE_INSTALL (R21, R23): in STOPPED, an image that passes R21 is measured and runs. -/
def execRecoveryImageInstall (ed mldsa : Bool) (s : State) : Result :=
  if s.dev.state = .stopped then
    if ed && mldsa then
      let i := s.newImage ed mldsa
      let t : State := { s with dev := { s.dev.measure 3 i.number with recovery := i, state := .recovery, installed := false } }
      .next (t.send (.firmware true))
    else .next (s.send (.firmware false))
  else .next s

/-! ## What the firmware may touch (R20) -/

/-- The service firmware may touch the memory of a context: the context is there, and is not confidential (R20). -/
def State.serviceMay (s : State) (x : Nat) : Bool :=
  s.dev.state == .ready && decide (x < 64) && (s.ctxAt x).state != .free && !(s.ctxAt x).conf

/-- A page-table entry that the root firmware writes: an 8-byte word of near or mid tier, of a confidential context (R20, R211,
R347). -/
def State.rootMay (s : State) (x : Nat) : Bool :=
  s.dev.state == .ready && decide (x < 64) && (s.ctxAt x).state != .free && (s.ctxAt x).conf

/-- A step of the firmware (R20, R347, R358). -/
def State.firmware (s : State) : FirmwareAct → State
  | .serviceRead x g n =>
    s.send (.serviceRead x (if s.serviceMay x then
      match s.agentRead x g n false with
      | .ok b => some b
      | .error _ => none
    else none))
  | .serviceWrite x g bs =>
    if s.serviceMay x then
      match s.agentWrite x g bs false with
      | .ok t => t.send (.serviceWrote x true)
      | .error _ => s.send (.serviceWrote x false)
    else s.send (.serviceWrote x false)
  | .serviceRoutes l =>
    if s.dev.state = .ready then
      let ok := l.filter fun r => decide (r.1 < 64) && gangPort r.2 && (s.port r.2).state.inService
      { s with net := { s.net with routes := ok } }
    else s
  | .rootTable x a e =>
    if s.rootMay x = true ∧ a % 8 = 0 ∧ (tierOf a = .near ∨ tierOf a = .mid) then { s with mem := memWrite s.mem a (w8 e) } else s
  | .rootInvalidate x lo hi => if s.rootMay x then s.dropTlb ⟨(s.ctxAt x).asid, lo, hi⟩ else s
  | .rootSettled x lo hi =>
    if s.rootMay x then s.send (.rootInvalidated x (s.settled x ⟨(s.ctxAt x).asid, lo, hi⟩)) else s

/-! ## Power (R19) -/

/-- The power controllers work while the device is powered. -/
def State.powered (s : State) : Bool := s.dev.state != .off

/-- POWER_ALARM_ASSERT (R19). -/
def execPowerAlarmAssert (s : State) : Result :=
  if s.powered then .next { s with dev := { s.dev with alarm := true } } else .next s

/-- POWER_ALARM_CLEAR (R19). -/
def execPowerAlarmClear (s : State) : Result := .next { s with dev := { s.dev with alarm := false, inhibit := false } }

/-- POWER_LIMIT_EXCEEDED (R19). -/
def execPowerLimitExceeded (s : State) : Result :=
  if s.dev.alarm then .next { s with dev := { s.dev with inhibit := true } } else .next s

/-- POWER_LIMIT_RECOVERED (R19). -/
def execPowerLimitRecovered (s : State) : Result := .next { s with dev := { s.dev with inhibit := false } }

/-! ## Background work (R24 to R26) -/

/-- Change the background counters. -/
def State.background (s : State) (f : Background → Background) : State := { s with dev := { s.dev with bg := f s.dev.bg } }

/-- A key of the near or mid tier or of the device structures, where the DRAM scrub works (R24, R210). -/
def scrubbedDram (k : Nat) : Bool := tierOf k == .near || tierOf k == .mid || tierOf k == .device

/-- A key of a scratchpad. -/
def scrubbedSram (k : Nat) : Bool := decide (2 ^ 52 ≤ k) && decide (k < 2 ^ 56)

/-- A word becomes poisoned (R25). -/
def State.poison (s : State) (k : Nat) : State :=
  { s with dev := { s.dev with poisoned := if s.dev.poisoned.contains (eccWord k) then s.dev.poisoned else s.dev.poisoned ++ [eccWord k] } }

/-- Count an uncorrectable word (R24, R25). -/
def Background.uncorrected (b : Background) (dram : Bool) : Background :=
  if dram then { b with dramUncorrectable := satInc b.dramUncorrectable 1 } else { b with sramUncorrectable := satInc b.sramUncorrectable 1 }

/-- A scrub reads a word (R25): a correction is abandoned when a store reaches the word between its read and its write. -/
def State.scrub (s : State) (dram : Bool) (k : Nat) (found : EccFinding) (storeBetween : Bool) : State :=
  match found with
  | .clean => s
  | .correctable => if storeBetween then s else s.background (·.corrected dram)
  | .uncorrectable => (s.poison k).background (·.uncorrected dram)

/-- The last ECC word of the mid tier, where a pass of the DRAM scrub ends (R24, R210). -/
def lastScrubWord : Nat := 0x1DFFFFFFFF8

/-- DRAM_PATROL_SCRUB (R24, R25). -/
def execDramPatrolScrub (addr : Nat) (found : EccFinding) (storeBetween : Bool) (s : State) : Result :=
  if s.dev.state = .ready then
    if scrubbedDram addr then
      let t := s.scrub true addr found storeBetween
      .next (if eccWord addr = lastScrubWord then t.background fun b => { b with scrubPass := satInc b.scrubPass 1 } else t)
    else .fault .noSuchObject
  else .next s

/-- A word of a cell's accumulator file becomes poisoned (R25). -/
def State.poisonAcc (s : State) (cell : Nat) (shadow : Bool) (w : Nat) : State :=
  let mark := fun (b : Bank) => { b with xf := { b.xf with bad := if b.xf.bad.contains w then b.xf.bad else b.xf.bad ++ [w] } }
  let c := s.cellAt cell
  s.setCell cell (if shadow then { c with shadow := mark c.shadow } else { c with active := mark c.active })

/-- The scrub reads a word of a cell's accumulator file (R24, R25). -/
def State.scrubAcc (s : State) (cell : Nat) (shadow : Bool) (w : Nat) (found : EccFinding) (storeBetween : Bool) : State :=
  match found with
  | .uncorrectable => (s.poisonAcc cell shadow w).background (·.uncorrected false)
  | _ => s.scrub false 0 found storeBetween

/-- SRAM_PATROL_SCRUB (R24, R25): the scratchpads, both banks of the accumulator file, and the die buffer, where an error is
one of the memory word that stands there. -/
def execSramPatrolScrub (at_ : SramWord) (found : EccFinding) (storeBetween : Bool) (s : State) : Result :=
  if s.dev.state = .ready then
    match at_ with
    | .scratchpad k => if scrubbedSram k then .next (s.scrub false k found storeBetween) else .fault .noSuchObject
    | .dieBuffer k => if tierOf k != .hole then .next (s.scrub false k found storeBetween) else .fault .noSuchObject
    | .accumulator c b r w =>
      if c < 256 ∧ r < 4096 ∧ w < 64 then .next (s.scrubAcc c b (64 * r + w) found storeBetween) else .fault .noSuchObject
  else .next s

/-- The longest recalibration pause in microseconds (R24). -/
def pauseMax : Nat := 2

/-- LINK_RECALIBRATION (R24). -/
def execLinkRecalibration (port us : Nat) (s : State) : Result :=
  if port < 18 then
    if s.dev.state = .ready ∧ us ≤ pauseMax then
      .next (s.background fun b => { b with linkRecal := satInc b.linkRecal 1, linkRecalUs := satInc b.linkRecalUs us })
    else .next s
  else .fault .noSuchObject

/-- DRAM_RECALIBRATION (R24). -/
def execDramRecalibration (us : Nat) (s : State) : Result :=
  if s.dev.state = .ready ∧ us ≤ pauseMax then
    .next (s.background fun b => { b with dramRecal := satInc b.dramRecal 1, dramRecalUs := satInc b.dramRecalUs us })
  else .next s

/-- FLASH_WEAR_MANAGEMENT (R24): never during a start. -/
def execFlashWearManagement (erased retired : Nat) (s : State) : Result :=
  if s.dev.state = .ready then
    .next (s.background fun b => { b with flashErase := satInc b.flashErase erased, flashRetired := satInc b.flashRetired retired })
  else .next s

/-- TELEMETRY_SAMPLE (R23, R24): the service firmware reports in READY, the recovery image in RECOVERY. -/
def execTelemetrySample (sent : Bool) (s : State) : Result :=
  if s.dev.state = .ready ∨ s.dev.state = .recovery then
    .next (s.background fun b =>
      if sent then { b with telemetrySamples := satInc b.telemetrySamples 1 } else { b with telemetryDropped := satInc b.telemetryDropped 1 })
  else .next s

end Sys2Proof.Machine
end

