-- ==== Sys2Proof/Machine/Tasks.lean ====
section
/-! DEFINITION. The task and future instructions: TSPAWN, TEDGE, TDONE, TCANCEL, FNEW, FREG, FRES, FFAIL, TYIELD and TGUARD
(R286 to R294). -/

namespace Sys2Proof.Machine

open Sys2Proof

/-! ## Shared -/

/-- A register that names a task (R286). -/
def State.taskIn (s : State) (v : Word) : Except Stop Nat :=
  if v.toNat < 2 ^ 20 ∧ v.toNat < (s.ctxAt s.ctxNo).tcbCount then .ok v.toNat else .error (.fault .operandFormat 0)

/-- TASK_STATE at an instruction names the TCB (R286). -/
def State.taskStop (s : State) (i : Nat) : Stop := .fault .taskState (wordOfNat ((s.ctxAt s.ctxNo).tcbAddr i))

/-- The die of the moving cell. -/
def State.die (s : State) : Nat := dieOf s.cellNo

/-- Raise what an instruction's completions met in the context (R280). -/
def State.raiseAll (s : State) (l : List AgentFault) : State :=
  l.foldl (fun t f => t.raiseDevice t.ctxNo f.cause (wordOfNat f.fva) (wordOfNat f.tcb)) s

/-- The moving A instruction retires, and what its completions met follows. -/
def Work.retire (w : Work) : State := (w.s.retire .a 1).raiseAll w.faults

/-- The moving A instruction writes a[d] and retires, and what its completions met follows. -/
def Work.setA (w : Work) (d : BitVec 6) (v : Word) : State := (w.s.setA 1 d.toNat v).raiseAll w.faults

/-- The graph of the issuing task. -/
def State.curGraph (s : State) : Option Graph := s.curGroup.bind fun g => s.graphAt g.graph

/-! ## TSPAWN (R287) -/

/-- The TCB that TSPAWN writes. -/
def spawnedTcb (img : List Byte) (graphNo : Nat) : List Byte :=
  let b1 := overlay img 0 (statewBytes 1 0 0 false)
  let b2 := overlay b1 0x22 (bytesOfNat 2 0)
  let b3 := overlay b2 0x48 (List.replicate 32 0#8)
  overlay b3 0x70 (bytesOfNat 4 graphNo)

/-- The task is counted in the issuing task's graph, on the issuing cell's counter, which has registered (R287, R308). -/
def Graph.countSpawned (g : Graph) (t c : Nat) (binds : List (BitVec 32)) : Graph :=
  let h := g.countTask c
  { h with tasks := h.tasks ++ [(t, some (.cell c))], bindings := h.bindings ++ [(t, binds)] }

/-- The bindings of a spawned task, as far as its list can be read (R138): dispatch reads it again. -/
def State.bindsOrNone (s : State) (x : Nat) (b : List Byte) : List (BitVec 32) :=
  match s.readBinds x b with
  | .ok l => l
  | .error _ => []

/-- TSPAWN waits until the issuing cell's counter has registered (R308). -/
def State.awaitCounter (s : State) : State := (s.setBank (s.bank.mapCtl fun c => { c with spawning := true })).stall .a

/-- The first block of TSPAWN: task `t` becomes CREATED from the image at `ea`; none while the counter that counts it has not
registered. -/
def State.createTask (s : State) (t : Nat) (ea : Word) : Except Stop (Option State) :=
  let x := s.ctxNo
  if aligned ea 128 then do
    let img ← s.rd .s false ea 128
    if imageOk img = false then .error (.fault .operandFormat 0)
    else
      let b ← s.readTcb x t
      if s.tcbOpen x t b = false then .error (s.taskStop t)
      else
        match s.curGraph with
        | none => .error (s.taskStop t)
        | some g =>
          if g.registered (.cell s.cellNo) then
            let s1 ← s.writeTcb x t 0 (spawnedTcb img g.graphNo)
            .ok (some (s1.setGraph (g.countSpawned t s.cellNo (s.bindsOrNone x img))))
          else .ok none
  else .error (.fault .align ea)

/-- The second block of TSPAWN: a CREATED task is armed. -/
def State.armTask (s : State) (t : Nat) : Except Stop Work := do
  let x := s.ctxNo
  let b ← s.readTcb x t
  if tcbState b ≠ 1 then .error (s.taskStop t)
  else if tcbPred b ≠ 0 then
    let s1 ← s.writeTcb x t 0 (withState b 2 (tcbCxl b))
    .ok ⟨s1, []⟩
  else if tcbCxl b then
    let s1 ← s.writeTcb x t 0 (withState b 7 true)
    s1.completeTask x t 7 s.die
  else
    let s1 ← s.makeReady x t s.die
    .ok ⟨s1, []⟩

/-- TSPAWN with both blocks (R287); PRIV at supervisor level (R286). -/
def execTspawn (im sz : BitVec 6) (s : State) : Result :=
  if s.level = .supervisor then s.pcFault .a .priv
  else
    finish s .a do
      let t ← s.taskIn (s.bank.readA im.toNat)
      match ← s.createTask t (s.bank.readA sz.toNat) with
      | none => .ok s.awaitCounter
      | some s1 =>
        let w ← s1.armTask t
        .ok w.retire

/-- TSPAWN CREATE (R287). -/
def execTspawnCreate (im sz : BitVec 6) (s : State) : Result :=
  if s.level = .supervisor then s.pcFault .a .priv
  else
    finish s .a do
      let t ← s.taskIn (s.bank.readA im.toNat)
      match ← s.createTask t (s.bank.readA sz.toNat) with
      | none => .ok s.awaitCounter
      | some s1 => .ok (s1.retire .a 1)

/-- TSPAWN ARM (R287). -/
def execTspawnArm (im : BitVec 6) (s : State) : Result :=
  if s.level = .supervisor then s.pcFault .a .priv
  else
    finish s .a do
      let t ← s.taskIn (s.bank.readA im.toNat)
      let w ← s.armTask t
      .ok w.retire

/-! ## TEDGE (R288) -/

/-- The edge enters the graph of its successor. -/
def State.noteEdge (s : State) (x p t : Nat) : State :=
  match s.graphOf x t with
  | some g => s.setGraph { g with edges := g.edges ++ [(p, t)] }
  | none => s

/-- The bytes of a successor entry and where it stands in TCB `b` of task `p` (R274). -/
def succAddr (base : Nat) (b : List Byte) : Nat :=
  if tcbNsucc b < 8 then base + 0x48 + 4 * tcbNsucc b else tcbSuccPtr b + 4 * (tcbNsucc b - 8)

/-- TEDGE's block on tasks `p` and `t`. -/
def State.addEdge (s : State) (p t : Nat) : Except Stop State := do
  let x := s.ctxNo
  let bp ← s.readTcb x p
  let bt ← s.readTcb x t
  if tcbState bt ≠ 1 then .error (s.taskStop t)
  else if tcbState bp = 0 then .error (s.taskStop p)
  else if tcbState bp = 6 ∨ tcbState bp = 7 then .ok (s.noteEdge x p t)
  else if tcbNsucc bp = 8 + tcbSuccCap bp ∨ tcbPred bt = 2 ^ 32 - 1 then .error (.fault .operandFormat 0)
  else
    let s1 ← s.agentWrite x (succAddr ((s.ctxAt x).tcbAddr p) bp) (bytesOfNat 4 t) true
    let s2 ← s1.writeTcb x p 0x22 (bytesOfNat 2 (tcbNsucc bp + 1))
    let s3 ← s2.writeTcb x t 8 (bytesOfNat 4 (tcbPred bt + 1))
    .ok (s3.noteEdge x p t)

/-- TEDGE (R288). -/
def execTedge (p sz : BitVec 6) (s : State) : Result :=
  finish s .a do
    let i ← s.taskIn (s.bank.readA p.toNat)
    let t ← s.taskIn (s.bank.readA sz.toNat)
    let s1 ← s.addEdge i t
    .ok (s1.retire .a 1)

/-! ## TDONE and TCANCEL (R289, R290) -/

/-- TDONE (R289). -/
def execTdone (d t : BitVec 6) (s : State) : Result :=
  finish s .a do
    let i ← s.taskIn (s.bank.readA t.toNat)
    let b ← s.readTcb s.ctxNo i
    if tcbState b = 0 then .error (s.taskStop i)
    else if terminal (tcbState b) then .ok (s.setA 1 d.toNat (wordOfNat (tcbState b)))
    else .error .wait

/-- TCANCEL (R285, R290). -/
def execTcancel (d t : BitVec 6) (s : State) : Result :=
  finish s .a do
    let i ← s.taskIn (s.bank.readA t.toNat)
    let r ← s.cancelStep s.ctxNo i s.die
    .ok (r.2.setA d (wordOfNat r.1))

/-! ## Futures (R284, R291, R292) -/

/-- A row of R284 on the future at `f` by the moving stream: the state word before the block, and the work done. -/
def State.actFuture (s : State) (f : Word) (a : FutAct) : Except Stop (Word × Work) :=
  let x := s.ctxNo
  if aligned f 16 then do
    let ps ← s.resolve .g (Access.atomic s.level) f 16
    let bs ← s.readParts ps
    let old := wordAt bs 0
    match futStep old (wordAt bs 8) a with
    | .double => .error (.fault .futDouble f)
    | .write w v dec =>
      let s1 ← s.writeParts ps (w8 w ++ w8 v)
      match dec with
      | none => .ok (old, ⟨s1, []⟩)
      | some t =>
        match ← s1.decPred x t s.die with
        | .bad => .error (.fault .taskState f)
        | .done s2 => .ok (old, ⟨s2, []⟩)
        | .cancelled s2 => do
          let w2 ← s2.completeTask x t 7 s.die
          .ok (old, w2)
  else .error (.fault .align f)

/-- FNEW (R291). -/
def execFnew (f : BitVec 6) (s : State) : Result :=
  finish s .a do
    let r ← s.actFuture (s.bank.readA f.toNat) .new
    .ok r.2.retire

/-- FREG (R292): a[d] receives the state word before the block. -/
def execFreg (d f t : BitVec 6) (s : State) : Result :=
  finish s .a do
    let i ← s.taskIn (s.bank.readA t.toNat)
    let r ← s.actFuture (s.bank.readA f.toNat) (.reg i)
    .ok (r.2.setA d r.1)

/-- FRES (R292). -/
def execFres (f v : BitVec 6) (s : State) : Result :=
  finish s .a do
    let r ← s.actFuture (s.bank.readA f.toNat) (.res (s.bank.readA v.toNat))
    .ok r.2.retire

/-- FFAIL (R292): the code is 1 to 254. -/
def execFfail (f v : BitVec 6) (s : State) : Result :=
  let c := (s.bank.readA v.toNat).toNat
  if 1 ≤ c ∧ c ≤ 254 then
    finish s .a do
      let r ← s.actFuture (s.bank.readA f.toNat) (.fail c)
      .ok r.2.retire
  else .next (s.raise .a .operandFormat 0)

/-! ## TYIELD (R293) -/

/-- The first READY task of the highest level of a cell, with its level. -/
def State.headLevel (s : State) (cell : Nat) : Option (Nat × ReadyTask) :=
  (List.range 4).findSome? fun l => ((vget (s.cellAt cell).ready l []).find? fun t => s.scheduled t.ctx).map fun t => (l, t)

/-- The group that forms on a cell lets a TYIELD there dispatch task `t`: it is the task's own, or that of another task of this
cell alone, which then stands READY in the queue again (R293, R302). -/
def State.formsHere (s : State) (cell : Nat) (t : ReadyTask) (g : Group) : Bool :=
  s.forms t.ctx t.tcb g || (g.home == cell && g.p * g.q == 1 && g.plateBase.isNone)

/-- The groups that form on a cell: that which holds it, and those of its own requests. -/
def State.formingOn (s : State) (cell : Nat) : List Group :=
  s.sched.groups.filter fun g =>
    g.state != .running && ((s.cellAt cell).held == some g.id || (g.state == .requested && g.home == cell))

/-- TYIELD takes effect for this task: the four conditions of R293, on a cell that no other formation holds (R302). -/
def State.yieldsTo (s : State) : Option ReadyTask :=
  match s.curGroup, s.headLevel s.cellNo with
  | some g, some (l, t) =>
    if g.p * g.q = 1 ∧ l < g.prio ∧ s.cell.shadow.ctl.owner = none ∧ s.bank.ctl.yielding = false ∧
        s.bank.ctl.status ≠ .handler ∧ s.mayIssue = true ∧ (s.formingOn s.cellNo).all (s.formsHere s.cellNo t) = true then some t
    else none
  | _, _ => none

/-- The issuing shard stands in the shadow bank, and the active bank waits for the waiting task's shard. -/
def State.yieldBank (s : State) : State :=
  s.withCell { s.cell with
    shadow := s.bank
    active := (idleBank s.ctxNo).mapCtl fun c => { c with yielding := true } }

/-- The waiting task's group is to form: its own forms already, or a decision asks for it. -/
def State.yieldDecide (s : State) (t : ReadyTask) : Except Stop Work :=
  let others := (s.formingOn s.cellNo).filter fun g => !(s.forms t.ctx t.tcb g)
  if (s.formingOf t.ctx t.tcb).isSome then .ok ⟨s, []⟩ else (others.foldl State.dropGroup s).decideTask s.cellNo t.ctx t.tcb

/-- TYIELD (R293): a dispatch that fails forms no group and yields nothing. -/
def execTyield (s : State) : Result :=
  let s1 := s.retire .a 1
  match s.yieldsTo with
  | none => .next s1
  | some t =>
    let tcb := (s.ctxAt t.ctx).tcbAddr t.tcb
    match s1.yieldDecide t with
    | .error e => .next (s1.agentStop t.ctx tcb e)
    | .ok w =>
      if (w.s.formingOf t.ctx t.tcb).isSome then .next (w.s.yieldBank.agentDo t.ctx tcb (.ok ⟨w.s.yieldBank, w.faults⟩)).arbitrate
      else .next (s1.agentDo t.ctx tcb (.ok w))

/-! ## TGUARD (R294) -/

/-- The guard word enters its graph's list and the plate that is recorded (R294, R317, R320, R327). -/
def State.noteGuard (s : State) (g : Graph) (i tcb : Nat) (v : Word) : State :=
  let s1 := s.setGraph { g with guards := g.guards ++ [(i, tcb, v)] }
  match s1.plateOf g with
  | some p =>
    if g.recording ∧ g.tcb0 ≤ tcb ∧ tcb < g.tcb0 + g.nt then
      s1.growPlate { g with guards := g.guards ++ [(i, tcb, v)] } p { p with guards := p.guards ++ [(tcb - g.tcb0, i, v)] }
    else s1
  | none => s1

/-- TGUARD (R294); PRIV at supervisor level (R286). -/
def execTguard (im v : BitVec 6) (s : State) : Result :=
  if s.level = .supervisor then s.pcFault .a .priv
  else
    finish s .a do
      let i := (s.bank.readA im.toNat).toNat
      match s.curGroup, s.curGraph with
      | some gr, some g =>
        if 256 ≤ i ∨ g.nguard ≤ i ∨ g.guards.any (·.1 == i) = true then .error (.fault .operandFormat 0)
        else
          let val := s.bank.readA v.toNat
          let s1 ← s.wr .g true (g.guardBase + wordOfNat (8 * i)) (w8 val)
          .ok ((s1.noteGuard g i ((s.ctxAt s.ctxNo).tcbIndex gr.tcb) val).retire .a 1)
      | _, _ => .error (.fault .operandFormat 0)

end Sys2Proof.Machine
end

