-- ==== Sys2Proof/Machine/Dispatch.lean ====
section
/-! DEFINITION. The dispatch from an instruction or event to its meaning. -/

namespace Sys2Proof.Machine

open Sys2Proof

/-- One step of the instruction or event `i`. -/
def exec (i : Instr) (s : State) : Host.Outcome State Fault Refusal :=
  match i with
  | .powerApplied recOk => Sys2Proof.Machine.execPowerApplied recOk s
  | .powerLost recOk => Sys2Proof.Machine.execPowerLost recOk s
  | .hostColdStart => Sys2Proof.Machine.execHostColdStart s
  | .hostWarmStart => Sys2Proof.Machine.execHostWarmStart s
  | .startComplete => Sys2Proof.Machine.execStartComplete s
  | .startStepFailure recOk => Sys2Proof.Machine.execStartStepFailure recOk s
  | .startTimeout recOk => Sys2Proof.Machine.execStartTimeout recOk s
  | .firmwareInstall ed mldsa => Sys2Proof.Machine.execFirmwareInstall ed mldsa s
  | .recoveryImageInstall ed mldsa => Sys2Proof.Machine.execRecoveryImageInstall ed mldsa s
  | .powerAlarmAssert => Sys2Proof.Machine.execPowerAlarmAssert s
  | .powerAlarmClear => Sys2Proof.Machine.execPowerAlarmClear s
  | .powerLimitExceeded => Sys2Proof.Machine.execPowerLimitExceeded s
  | .powerLimitRecovered => Sys2Proof.Machine.execPowerLimitRecovered s
  | .dramPatrolScrub addr found storeBetween => Sys2Proof.Machine.execDramPatrolScrub addr found storeBetween s
  | .sramPatrolScrub at_ found storeBetween => Sys2Proof.Machine.execSramPatrolScrub at_ found storeBetween s
  | .linkRecalibration port us => Sys2Proof.Machine.execLinkRecalibration port us s
  | .dramRecalibration us => Sys2Proof.Machine.execDramRecalibration us s
  | .flashWearManagement erased retired => Sys2Proof.Machine.execFlashWearManagement erased retired s
  | .telemetrySample sent => Sys2Proof.Machine.execTelemetrySample sent s
  | .loadDataArrival cell addr found => Sys2Proof.Machine.execLoadDataArrival cell addr found s
  | .kernelLoadComplete ctx slot room => Sys2Proof.Machine.execKernelLoadComplete ctx slot room s
  | .kernelUnloadComplete ctx slot => Sys2Proof.Machine.execKernelUnloadComplete ctx slot s
  | .galleyEntryReclaim die entry => Sys2Proof.Machine.execGalleyEntryReclaim die entry s
  | .eagerTranslationComplete die ctx slot => Sys2Proof.Machine.execEagerTranslationComplete die ctx slot s
  | .regionTranslationComplete cell st hashOk => Sys2Proof.Machine.execRegionTranslationComplete cell st hashOk s
  | .compositorFailure cell st => Sys2Proof.Machine.execCompositorFailure cell st s
  | .streamSkip two => Sys2Proof.Machine.execStreamSkip two s
  | .ldvqFill cell q => Sys2Proof.Machine.execLdvqFill cell q s
  | .cellFaultTaken cell => Sys2Proof.Machine.execCellFaultTaken cell s
  | .tileEngineOpStart cell => Sys2Proof.Machine.execTileEngineOpStart cell s
  | .matrixKStep cell => Sys2Proof.Machine.execMatrixKStep cell s
  | .tileEngineOpComplete cell => Sys2Proof.Machine.execTileEngineOpComplete cell s
  | .pageWalkComplete cell addr => Sys2Proof.Machine.execPageWalkComplete cell addr s
  | .invalidationAck cell => Sys2Proof.Machine.execInvalidationAck cell s
  | .copyStart cell ch => Sys2Proof.Machine.execCopyStart cell ch s
  | .copyBytesDelivered cell ch n poolError => Sys2Proof.Machine.execCopyBytesDelivered cell ch n poolError s
  | .copyComplete cell ch => Sys2Proof.Machine.execCopyComplete cell ch s
  | .tailWrite ctx q value => Sys2Proof.Machine.execTailWrite ctx q value s
  | .queueResume ctx q => Sys2Proof.Machine.execQueueResume ctx q s
  | .graphPacket ctx q => Sys2Proof.Machine.execGraphPacket ctx q s
  | .loadPacket ctx q => Sys2Proof.Machine.execLoadPacket ctx q s
  | .unloadPacket ctx q => Sys2Proof.Machine.execUnloadPacket ctx q s
  | .bindPacket ctx q => Sys2Proof.Machine.execBindPacket ctx q s
  | .retirePacket ctx q => Sys2Proof.Machine.execRetirePacket ctx q s
  | .cancelPacket ctx q => Sys2Proof.Machine.execCancelPacket ctx q s
  | .nopPacket ctx q => Sys2Proof.Machine.execNopPacket ctx q s
  | .graphAdmission ctx q => Sys2Proof.Machine.execGraphAdmission ctx q s
  | .taskDispatch cell => Sys2Proof.Machine.execTaskDispatch cell s
  | .stealRequest cell => Sys2Proof.Machine.execStealRequest cell s
  | .stealAnswer cell => Sys2Proof.Machine.execStealAnswer cell s
  | .stealBackoffExpiry cell => Sys2Proof.Machine.execStealBackoffExpiry cell s
  | .stagingBaseAllocate grp => Sys2Proof.Machine.execStagingBaseAllocate grp s
  | .stagingCopyComplete grp => Sys2Proof.Machine.execStagingCopyComplete grp s
  | .shardStart grp => Sys2Proof.Machine.execShardStart grp s
  | .groupCompletion grp => Sys2Proof.Machine.execGroupCompletion grp s
  | .counterRegister graph node => Sys2Proof.Machine.execCounterRegister graph node s
  | .counterCombine graph node => Sys2Proof.Machine.execCounterCombine graph node s
  | .laneEntryIssue cell => Sys2Proof.Machine.execLaneEntryIssue cell s
  | .makeReady plate => Sys2Proof.Machine.execMakeReady plate s
  | .plateSectionReceive image => Sys2Proof.Machine.execPlateSectionReceive image s
  | .contextCreate request fromRoot => Sys2Proof.Machine.execContextCreate request fromRoot s
  | .contextSetupComplete ctx => Sys2Proof.Machine.execContextSetupComplete ctx s
  | .contextGrant ctx => Sys2Proof.Machine.execContextGrant ctx s
  | .preemptRequest ctx latches => Sys2Proof.Machine.execPreemptRequest ctx latches s
  | .shadowSwapComplete ctx => Sys2Proof.Machine.execShadowSwapComplete ctx s
  | .resumeRequest ctx => Sys2Proof.Machine.execResumeRequest ctx s
  | .spillStart ctx => Sys2Proof.Machine.execSpillStart ctx s
  | .spillComplete ctx => Sys2Proof.Machine.execSpillComplete ctx s
  | .restoreComplete ctx => Sys2Proof.Machine.execRestoreComplete ctx s
  | .scratchpadLineExchange cell line ctx => Sys2Proof.Machine.execScratchpadLineExchange cell line ctx s
  | .contextEndRequest ctx => Sys2Proof.Machine.execContextEndRequest ctx s
  | .contextRetireComplete ctx => Sys2Proof.Machine.execContextRetireComplete ctx s
  | .supervisorTaskStart ctx => Sys2Proof.Machine.execSupervisorTaskStart ctx s
  | .watchdogExpiry cell => Sys2Proof.Machine.execWatchdogExpiry cell s
  | .rdmaWrite port qp addr data => Sys2Proof.Machine.execRdmaWrite port qp addr data s
  | .rdmaRead port qp addr len => Sys2Proof.Machine.execRdmaRead port qp addr len s
  | .managementSend port data => Sys2Proof.Machine.execManagementSend port data s
  | .rdmaAtomicRequest port qp => Sys2Proof.Machine.execRdmaAtomicRequest port qp s
  | .qpCreate port qp ctx rc byRoot => Sys2Proof.Machine.execQpCreate port qp ctx rc byRoot s
  | .hostPortDown port => Sys2Proof.Machine.execHostPortDown port s
  | .flitData port flit tagOk => Sys2Proof.Machine.execFlitData port flit tagOk s
  | .flitAck port flit tagOk => Sys2Proof.Machine.execFlitAck port flit tagOk s
  | .flitNak port flit tagOk => Sys2Proof.Machine.execFlitNak port flit tagOk s
  | .flitCredit port flit tagOk => Sys2Proof.Machine.execFlitCredit port flit tagOk s
  | .flitControl port flit tagOk => Sys2Proof.Machine.execFlitControl port flit tagOk s
  | .linkRetrainRequest port => Sys2Proof.Machine.execLinkRetrainRequest port s
  | .trainingComplete port lanes => Sys2Proof.Machine.execTrainingComplete port lanes s
  | .trainingTimeout port => Sys2Proof.Machine.execTrainingTimeout port s
  | .trainingRetryTimer port => Sys2Proof.Machine.execTrainingRetryTimer port s
  | .laneFailure port lanes => Sys2Proof.Machine.execLaneFailure port lanes s
  | .linkKeyInstall port => Sys2Proof.Machine.execLinkKeyInstall port s
  | .collectiveComplete cell remote => Sys2Proof.Machine.execCollectiveComplete cell remote s
  | .getVersion asker => Sys2Proof.Machine.execGetVersion asker s
  | .getCapabilities asker => Sys2Proof.Machine.execGetCapabilities asker s
  | .negotiateAlgorithms asker => Sys2Proof.Machine.execNegotiateAlgorithms asker s
  | .getDigests asker => Sys2Proof.Machine.execGetDigests asker s
  | .getCertificate asker => Sys2Proof.Machine.execGetCertificate asker s
  | .challenge asker => Sys2Proof.Machine.execChallenge asker s
  | .getMeasurements asker index => Sys2Proof.Machine.execGetMeasurements asker index s
  | .keyExchange asker session => Sys2Proof.Machine.execKeyExchange asker session s
  | .finish session => Sys2Proof.Machine.execFinish session s
  | .keyUpdate session => Sys2Proof.Machine.execKeyUpdate session s
  | .heartbeat session => Sys2Proof.Machine.execHeartbeat session s
  | .endSession session => Sys2Proof.Machine.execEndSession session s
  | .add d a b => Sys2Proof.Machine.execAdd d a b s
  | .sub d a b => Sys2Proof.Machine.execSub d a b s
  | .and d a b => Sys2Proof.Machine.execAnd d a b s
  | .or d a b => Sys2Proof.Machine.execOr d a b s
  | .xor d a b => Sys2Proof.Machine.execXor d a b s
  | .shl d a b => Sys2Proof.Machine.execShl d a b s
  | .shr d a b => Sys2Proof.Machine.execShr d a b s
  | .sra d a b => Sys2Proof.Machine.execSra d a b s
  | .rotr d a b => Sys2Proof.Machine.execRotr d a b s
  | .min d a b => Sys2Proof.Machine.execMin d a b s
  | .max d a b => Sys2Proof.Machine.execMax d a b s
  | .minu d a b => Sys2Proof.Machine.execMinu d a b s
  | .maxu d a b => Sys2Proof.Machine.execMaxu d a b s
  | .slt d a b => Sys2Proof.Machine.execSlt d a b s
  | .sltu d a b => Sys2Proof.Machine.execSltu d a b s
  | .seq d a b => Sys2Proof.Machine.execSeq d a b s
  | .mul d a b => Sys2Proof.Machine.execMul d a b s
  | .mulh d a b => Sys2Proof.Machine.execMulh d a b s
  | .mulhu d a b => Sys2Proof.Machine.execMulhu d a b s
  | .div d a b => Sys2Proof.Machine.execDiv d a b s
  | .divu d a b => Sys2Proof.Machine.execDivu d a b s
  | .rem d a b => Sys2Proof.Machine.execRem d a b s
  | .remu d a b => Sys2Proof.Machine.execRemu d a b s
  | .sel d a b => Sys2Proof.Machine.execSel d a b s
  | .clz d a => Sys2Proof.Machine.execClz d a s
  | .ctz d a => Sys2Proof.Machine.execCtz d a s
  | .popc d a => Sys2Proof.Machine.execPopc d a s
  | .sext d a n => Sys2Proof.Machine.execSext d a n s
  | .zext d a n => Sys2Proof.Machine.execZext d a n s
  | .bswap d a => Sys2Proof.Machine.execBswap d a s
  | .bfx d a im => Sys2Proof.Machine.execBfx d a im s
  | .bfxL d a im => Sys2Proof.Machine.execBfxL d a im s
  | .bfi d a im => Sys2Proof.Machine.execBfi d a im s
  | .bfiL d a im => Sys2Proof.Machine.execBfiL d a im s
  | .addi d a im => Sys2Proof.Machine.execAddi d a im s
  | .addiL d a im => Sys2Proof.Machine.execAddiL d a im s
  | .andi d a im => Sys2Proof.Machine.execAndi d a im s
  | .andiL d a im => Sys2Proof.Machine.execAndiL d a im s
  | .ori d a im => Sys2Proof.Machine.execOri d a im s
  | .oriL d a im => Sys2Proof.Machine.execOriL d a im s
  | .xori d a im => Sys2Proof.Machine.execXori d a im s
  | .xoriL d a im => Sys2Proof.Machine.execXoriL d a im s
  | .shli d a im => Sys2Proof.Machine.execShli d a im s
  | .shliL d a im => Sys2Proof.Machine.execShliL d a im s
  | .shri d a im => Sys2Proof.Machine.execShri d a im s
  | .shriL d a im => Sys2Proof.Machine.execShriL d a im s
  | .srai d a im => Sys2Proof.Machine.execSrai d a im s
  | .sraiL d a im => Sys2Proof.Machine.execSraiL d a im s
  | .slti d a im => Sys2Proof.Machine.execSlti d a im s
  | .sltiL d a im => Sys2Proof.Machine.execSltiL d a im s
  | .sltiu d a im => Sys2Proof.Machine.execSltiu d a im s
  | .sltiuL d a im => Sys2Proof.Machine.execSltiuL d a im s
  | .seqi d a im => Sys2Proof.Machine.execSeqi d a im s
  | .seqiL d a im => Sys2Proof.Machine.execSeqiL d a im s
  | .muli d a im => Sys2Proof.Machine.execMuli d a im s
  | .muliL d a im => Sys2Proof.Machine.execMuliL d a im s
  | .li d im => Sys2Proof.Machine.execLi d im s
  | .lih d im => Sys2Proof.Machine.execLih d im s
  | .qpush d a => Sys2Proof.Machine.execQpush d a s
  | .qpopa d a => Sys2Proof.Machine.execQpopa d a s
  | .lds t b sz o => Sys2Proof.Machine.execLds t b sz o s
  | .ldsL t b sz sc od off => Sys2Proof.Machine.execLdsL t b sz sc od off s
  | .sts t b sz o => Sys2Proof.Machine.execSts t b sz o s
  | .stsL t b sz sc od off => Sys2Proof.Machine.execStsL t b sz sc od off s
  | .ldc t b sz o => Sys2Proof.Machine.execLdc t b sz o s
  | .ldcL t b sz sc od off => Sys2Proof.Machine.execLdcL t b sz sc od off s
  | .stc t b sz o => Sys2Proof.Machine.execStc t b sz o s
  | .stcL t b sz sc od off => Sys2Proof.Machine.execStcL t b sz sc od off s
  | .ldg t b sz o => Sys2Proof.Machine.execLdg t b sz o s
  | .ldgL t b sz sc od off => Sys2Proof.Machine.execLdgL t b sz sc od off s
  | .stg t b sz o => Sys2Proof.Machine.execStg t b sz o s
  | .stgL t b sz sc od off => Sys2Proof.Machine.execStgL t b sz sc od off s
  | .ldr t b sz o => Sys2Proof.Machine.execLdr t b sz o s
  | .ldrL t b sz sc od off => Sys2Proof.Machine.execLdrL t b sz sc od off s
  | .str t b sz o => Sys2Proof.Machine.execStr t b sz o s
  | .strL t b sz sc od off => Sys2Proof.Machine.execStrL t b sz sc od off s
  | .ldgv t b sz o => Sys2Proof.Machine.execLdgv t b sz o s
  | .ldgvL t b sz sc od off => Sys2Proof.Machine.execLdgvL t b sz sc od off s
  | .ldvq t b sz o => Sys2Proof.Machine.execLdvq t b sz o s
  | .ldvqL t b sz sc od off => Sys2Proof.Machine.execLdvqL t b sz sc od off s
  | .stvq t b sz o => Sys2Proof.Machine.execStvq t b sz o s
  | .stvqL t b sz sc od off => Sys2Proof.Machine.execStvqL t b sz sc od off s
  | .cpre b o => Sys2Proof.Machine.execCpre b o s
  | .cpreL b sc od off => Sys2Proof.Machine.execCpreL b sc od off s
  | .amog t b sz o => Sys2Proof.Machine.execAmog t b sz o s
  | .amogL t b sz sc od off => Sys2Proof.Machine.execAmogL t b sz sc od off s
  | .amos t b sz o => Sys2Proof.Machine.execAmos t b sz o s
  | .amosL t b sz sc od off => Sys2Proof.Machine.execAmosL t b sz sc od off s
  | .casg t b sz o => Sys2Proof.Machine.execCasg t b sz o s
  | .casgL t b sz sc od off => Sys2Proof.Machine.execCasgL t b sz sc od off s
  | .cass t b sz o => Sys2Proof.Machine.execCass t b sz o s
  | .cassL t b sz sc od off => Sys2Proof.Machine.execCassL t b sz sc od off s
  | .b o => Sys2Proof.Machine.execB o s
  | .bc c a b o => Sys2Proof.Machine.execBc c a b o s
  | .bcL c a b o => Sys2Proof.Machine.execBcL c a b o s
  | .call o => Sys2Proof.Machine.execCall o s
  | .ret a => Sys2Proof.Machine.execRet a s
  | .ji d a => Sys2Proof.Machine.execJi d a s
  | .bqp a o => Sys2Proof.Machine.execBqp a o s
  | .bqpL a o => Sys2Proof.Machine.execBqpL a o s
  | .lset d a im => Sys2Proof.Machine.execLset d a im s
  | .lsetL d a im => Sys2Proof.Machine.execLsetL d a im s
  | .sdset d a im => Sys2Proof.Machine.execSdset d a im s
  | .nset l t a => Sys2Proof.Machine.execNset l t a s
  | .nsetLc l c a => Sys2Proof.Machine.execNsetLc l c a s
  | .nsetL l a t => Sys2Proof.Machine.execNsetL l a t s
  | .mma a b m n d x => Sys2Proof.Machine.execMma a b m n d x s
  | .mzero a => Sys2Proof.Machine.execMzero a s
  | .mwb d m n sz b => Sys2Proof.Machine.execMwb d m n sz b s
  | .mwbRaw d m n sz => Sys2Proof.Machine.execMwbRaw d m n sz s
  | .sdget d a im => Sys2Proof.Machine.execSdget d a im s
  | .cpy h a x e c p f => Sys2Proof.Machine.execCpy h a x e c p f s
  | .cpyf h a x e p f => Sys2Proof.Machine.execCpyf h a x e p f s
  | .gath h a x e c p f => Sys2Proof.Machine.execGath h a x e c p f s
  | .scat h a x e c p f => Sys2Proof.Machine.execScat h a x e c p f s
  | .hwait h => Sys2Proof.Machine.execHwait h s
  | .hwaitp h b => Sys2Proof.Machine.execHwaitp h b s
  | .hrel h => Sys2Proof.Machine.execHrel h s
  | .hstat h d => Sys2Proof.Machine.execHstat h d s
  | .bxinit x sz e => Sys2Proof.Machine.execBxinit x sz e s
  | .bxexp x g sz p c a => Sys2Proof.Machine.execBxexp x g sz p c a s
  | .bxarr x g sz p c a => Sys2Proof.Machine.execBxarr x g sz p c a s
  | .bxwait x g sz p => Sys2Proof.Machine.execBxwait x g sz p s
  | .bxtest x g d => Sys2Proof.Machine.execBxtest x g d s
  | .ringset k c => Sys2Proof.Machine.execRingset k c s
  | .fence sz k e => Sys2Proof.Machine.execFence sz k e s
  | .promote sz => Sys2Proof.Machine.execPromote sz s
  | .tspawn im sz => Sys2Proof.Machine.execTspawn im sz s
  | .tspawnCreate im sz => Sys2Proof.Machine.execTspawnCreate im sz s
  | .tspawnArm im => Sys2Proof.Machine.execTspawnArm im s
  | .tedge p sz => Sys2Proof.Machine.execTedge p sz s
  | .tdone d t => Sys2Proof.Machine.execTdone d t s
  | .tcancel d t => Sys2Proof.Machine.execTcancel d t s
  | .fnew f => Sys2Proof.Machine.execFnew f s
  | .freg d f t => Sys2Proof.Machine.execFreg d f t s
  | .fres f v => Sys2Proof.Machine.execFres f v s
  | .ffail f v => Sys2Proof.Machine.execFfail f v s
  | .tyield => Sys2Proof.Machine.execTyield s
  | .tguard im v => Sys2Proof.Machine.execTguard im v s
  | .trec b im => Sys2Proof.Machine.execTrec b im s
  | .trecClr im => Sys2Proof.Machine.execTrecClr im s
  | .tfold im => Sys2Proof.Machine.execTfold im s
  | .tver im v sz => Sys2Proof.Machine.execTver im v sz s
  | .tvwait im v sz => Sys2Proof.Machine.execTvwait im v sz s
  | .coll a x p => Sys2Proof.Machine.execColl a x p s
  | .lstat d p => Sys2Proof.Machine.execLstat d p s
  | .invr sz n im => Sys2Proof.Machine.execInvr sz n im s
  | .inva im => Sys2Proof.Machine.execInva im s
  | .probe d sz => Sys2Proof.Machine.execProbe d sz s
  | .freplayResume t => Sys2Proof.Machine.execFreplayResume t s
  | .freplayAbort t => Sys2Proof.Machine.execFreplayAbort t s
  | .trap c => Sys2Proof.Machine.execTrap c s
  | .eret f => Sys2Proof.Machine.execEret f s
  | .srd d n => Sys2Proof.Machine.execSrd d n s
  | .swr sz n => Sys2Proof.Machine.execSwr sz n s
  | .nop => Sys2Proof.Machine.execNop s
  | .brk c => Sys2Proof.Machine.execBrk c s
  | .wfe v a => Sys2Proof.Machine.execWfe v a s
  | .yieldctx => Sys2Proof.Machine.execYieldctx s
  | .xadd d a b => Sys2Proof.Machine.execXadd d a b s
  | .xsub d a b => Sys2Proof.Machine.execXsub d a b s
  | .xand d a b => Sys2Proof.Machine.execXand d a b s
  | .xior d a b => Sys2Proof.Machine.execXior d a b s
  | .xeor d a b => Sys2Proof.Machine.execXeor d a b s
  | .xshl d a b => Sys2Proof.Machine.execXshl d a b s
  | .xshr d a b => Sys2Proof.Machine.execXshr d a b s
  | .xsra d a b => Sys2Proof.Machine.execXsra d a b s
  | .xrotr d a b => Sys2Proof.Machine.execXrotr d a b s
  | .xmin d a b => Sys2Proof.Machine.execXmin d a b s
  | .xmax d a b => Sys2Proof.Machine.execXmax d a b s
  | .xminu d a b => Sys2Proof.Machine.execXminu d a b s
  | .xmaxu d a b => Sys2Proof.Machine.execXmaxu d a b s
  | .xslt d a b => Sys2Proof.Machine.execXslt d a b s
  | .xsltu d a b => Sys2Proof.Machine.execXsltu d a b s
  | .xseq d a b => Sys2Proof.Machine.execXseq d a b s
  | .xmul d a b => Sys2Proof.Machine.execXmul d a b s
  | .xmulh d a b => Sys2Proof.Machine.execXmulh d a b s
  | .xmulhu d a b => Sys2Proof.Machine.execXmulhu d a b s
  | .xdiv d a b => Sys2Proof.Machine.execXdiv d a b s
  | .xdivu d a b => Sys2Proof.Machine.execXdivu d a b s
  | .xrem d a b => Sys2Proof.Machine.execXrem d a b s
  | .xremu d a b => Sys2Proof.Machine.execXremu d a b s
  | .xsel d a b => Sys2Proof.Machine.execXsel d a b s
  | .xaddi d a im => Sys2Proof.Machine.execXaddi d a im s
  | .xaddiL d a im => Sys2Proof.Machine.execXaddiL d a im s
  | .xshli d a k => Sys2Proof.Machine.execXshli d a k s
  | .xshliL d a k => Sys2Proof.Machine.execXshliL d a k s
  | .xshri d a k => Sys2Proof.Machine.execXshri d a k s
  | .xshriL d a k => Sys2Proof.Machine.execXshriL d a k s
  | .xsrai d a k => Sys2Proof.Machine.execXsrai d a k s
  | .xsraiL d a k => Sys2Proof.Machine.execXsraiL d a k s
  | .xroti d a k => Sys2Proof.Machine.execXroti d a k s
  | .xrotiL d a k => Sys2Proof.Machine.execXrotiL d a k s
  | .xli d im => Sys2Proof.Machine.execXli d im s
  | .xlih d im => Sys2Proof.Machine.execXlih d im s
  | .xqpop d a => Sys2Proof.Machine.execXqpop d a s
  | .xqpush d a => Sys2Proof.Machine.execXqpush d a s
  | .vadd d a b p => Sys2Proof.Machine.execVadd d a b p s
  | .vaddL d a b p ty rnd => Sys2Proof.Machine.execVaddL d a b p ty rnd s
  | .vsub d a b p => Sys2Proof.Machine.execVsub d a b p s
  | .vsubL d a b p ty rnd => Sys2Proof.Machine.execVsubL d a b p ty rnd s
  | .vmul d a b p => Sys2Proof.Machine.execVmul d a b p s
  | .vmulL d a b p ty rnd => Sys2Proof.Machine.execVmulL d a b p ty rnd s
  | .vfma d a b p => Sys2Proof.Machine.execVfma d a b p s
  | .vfmaL d a b p c ty rnd => Sys2Proof.Machine.execVfmaL d a b p c ty rnd s
  | .vfms d a b p => Sys2Proof.Machine.execVfms d a b p s
  | .vfmsL d a b p c ty rnd => Sys2Proof.Machine.execVfmsL d a b p c ty rnd s
  | .vfnma d a b p => Sys2Proof.Machine.execVfnma d a b p s
  | .vfnmaL d a b p c ty rnd => Sys2Proof.Machine.execVfnmaL d a b p c ty rnd s
  | .vmin d a b p => Sys2Proof.Machine.execVmin d a b p s
  | .vminL d a b p ty => Sys2Proof.Machine.execVminL d a b p ty s
  | .vmax d a b p => Sys2Proof.Machine.execVmax d a b p s
  | .vmaxL d a b p ty => Sys2Proof.Machine.execVmaxL d a b p ty s
  | .vabs d a p => Sys2Proof.Machine.execVabs d a p s
  | .vabsL d a p ty => Sys2Proof.Machine.execVabsL d a p ty s
  | .vneg d a p => Sys2Proof.Machine.execVneg d a p s
  | .vnegL d a p ty => Sys2Proof.Machine.execVnegL d a p ty s
  | .vdiv d a b p => Sys2Proof.Machine.execVdiv d a b p s
  | .vdivL d a b p ty rnd => Sys2Proof.Machine.execVdivL d a b p ty rnd s
  | .vsqrt d a p => Sys2Proof.Machine.execVsqrt d a p s
  | .vsqrtL d a p ty rnd => Sys2Proof.Machine.execVsqrtL d a p ty rnd s
  | .vsel d a b p => Sys2Proof.Machine.execVsel d a b p s
  | .vselL d a b p ty => Sys2Proof.Machine.execVselL d a b p ty s
  | .vmov d a p => Sys2Proof.Machine.execVmov d a p s
  | .vmovL d a p ty => Sys2Proof.Machine.execVmovL d a p ty s
  | .exp2 d a p => Sys2Proof.Machine.execExp2 d a p s
  | .exp2L d a p ty rnd => Sys2Proof.Machine.execExp2L d a p ty rnd s
  | .log2 d a p ty rnd => Sys2Proof.Machine.execLog2 d a p ty rnd s
  | .rcp d a p ty rnd => Sys2Proof.Machine.execRcp d a p ty rnd s
  | .rsq d a p ty rnd => Sys2Proof.Machine.execRsq d a p ty rnd s
  | .tanh d a p ty rnd => Sys2Proof.Machine.execTanh d a p ty rnd s
  | .sigm d a p ty rnd => Sys2Proof.Machine.execSigm d a p ty rnd s
  | .vcmp d a b p => Sys2Proof.Machine.execVcmp d a b p s
  | .vcmpL d a b p ty cond lim => Sys2Proof.Machine.execVcmpL d a b p ty cond lim s
  | .pand d a b p => Sys2Proof.Machine.execPand d a b p s
  | .pandL d a b p ty lim => Sys2Proof.Machine.execPandL d a b p ty lim s
  | .por d a b p => Sys2Proof.Machine.execPor d a b p s
  | .porL d a b p ty lim => Sys2Proof.Machine.execPorL d a b p ty lim s
  | .pnot d a p => Sys2Proof.Machine.execPnot d a p s
  | .pnotL d a p ty lim => Sys2Proof.Machine.execPnotL d a p ty lim s
  | .pcnt d a p => Sys2Proof.Machine.execPcnt d a p s
  | .pcntL d a p ty => Sys2Proof.Machine.execPcntL d a p ty s
  | .pfirst d a p ty => Sys2Proof.Machine.execPfirst d a p ty s
  | .vrsum d a p => Sys2Proof.Machine.execVrsum d a p s
  | .vrsumL d a p ty rnd => Sys2Proof.Machine.execVrsumL d a p ty rnd s
  | .vrmax d a p => Sys2Proof.Machine.execVrmax d a p s
  | .vrmaxL d a p ty => Sys2Proof.Machine.execVrmaxL d a p ty s
  | .vrmin d a p => Sys2Proof.Machine.execVrmin d a p s
  | .vrminL d a p ty => Sys2Proof.Machine.execVrminL d a p ty s
  | .vramax d a p => Sys2Proof.Machine.execVramax d a p s
  | .vramaxL d a p ty => Sys2Proof.Machine.execVramaxL d a p ty s
  | .vscan d a b p => Sys2Proof.Machine.execVscan d a b p s
  | .vscanL d a b p ty rnd => Sys2Proof.Machine.execVscanL d a b p ty rnd s
  | .vsortk d a p => Sys2Proof.Machine.execVsortk d a p s
  | .vsortkL d a p ty asc => Sys2Proof.Machine.execVsortkL d a p ty asc s
  | .vmergek d a b p => Sys2Proof.Machine.execVmergek d a b p s
  | .vmergekL d a b p c ty asc => Sys2Proof.Machine.execVmergekL d a b p c ty asc s
  | .vperm d a b p => Sys2Proof.Machine.execVperm d a b p s
  | .vpermL d a b p ty => Sys2Proof.Machine.execVpermL d a b p ty s
  | .vcvt d a p ty rnd sty part => Sys2Proof.Machine.execVcvt d a p ty rnd sty part s
  | .vqnt d a b p => Sys2Proof.Machine.execVqnt d a b p s
  | .vqntL d a b p ty rnd pos => Sys2Proof.Machine.execVqntL d a b p ty rnd pos s
  | .vdqnt d a b p => Sys2Proof.Machine.execVdqnt d a b p s
  | .vdqntL d a b p ty rnd pos => Sys2Proof.Machine.execVdqntL d a b p ty rnd pos s
  | .vbcast d a p => Sys2Proof.Machine.execVbcast d a p s
  | .vbcastL d a p ty rnd => Sys2Proof.Machine.execVbcastL d a p ty rnd s
  | .vbcastLane d a b p ty => Sys2Proof.Machine.execVbcastLane d a b p ty s
  | .vrng d p => Sys2Proof.Machine.execVrng d p s
  | .vrngL d p ty => Sys2Proof.Machine.execVrngL d p ty s
  | .vrngRaw d p ty => Sys2Proof.Machine.execVrngRaw d p ty s
  | .viota d a p => Sys2Proof.Machine.execViota d a p s
  | .viotaL d a p ty rnd raw => Sys2Proof.Machine.execViotaL d a p ty rnd raw s
  | .vldi d m p => Sys2Proof.Machine.execVldi d m p s
  | .vldiL d m p ty rnd ex => Sys2Proof.Machine.execVldiL d m p ty rnd ex s
  | .vqpop d a p => Sys2Proof.Machine.execVqpop d a p s
  | .vqpopL d a p ty => Sys2Proof.Machine.execVqpopL d a p ty s
  | .vwin t w => Sys2Proof.Machine.execVwin t w s
  | .bq c a b o => Sys2Proof.Machine.execBq c a b o s
  | .bqL c a b o => Sys2Proof.Machine.execBqL c a b o s
  | .loop c o => Sys2Proof.Machine.execLoop c o s
  | .endl c o => Sys2Proof.Machine.execEndl c o s
  | .sync => Sys2Proof.Machine.execSync s
  | .win n => Sys2Proof.Machine.execWin n s
  | .fpcAll z f r => Sys2Proof.Machine.execFpcAll z f r s
  | .fpcRm r => Sys2Proof.Machine.execFpcRm r s
  | .fpcDazFtz z f => Sys2Proof.Machine.execFpcDazFtz z f s
  | .halt => Sys2Proof.Machine.execHalt s
  | .opcodeUndef shared => Sys2Proof.Machine.execOpcodeUndef shared s
  | .fetchMalformed fva => Sys2Proof.Machine.execFetchMalformed fva s

end Sys2Proof.Machine
end

