-- ==== Sys2Proof/Machine/Ahead.lean ====
section
/-! DEFINITION. A stream's turn, and what the device knows of instructions that a stream has not retired yet: the results that
a translation has latched when a pre-empt request stops it (R338, R339, R393), and the fault of a walk that ends in a swap
(R343).

All of it is the instruction's own meaning, run aside: a latch entry holds what the instruction answers, so pre-emption
changes no result (R2). -/

namespace Sys2Proof.Machine

open Sys2Proof

/-! ## Latch entries -/

/-- The sequence number of a stream (R87). -/
def Bank.seq (b : Bank) : Stream → Word
  | .a => b.sr.seqa
  | .x => b.sr.seqx

/-- Put a stream at an instruction: the address of its first word, and the sequence number that it takes. -/
def Bank.standAt (b : Bank) (st : Stream) (pc seq : Word) : Bank :=
  (b.setPc st pc).mapSr fun r => match st with
    | .a => { r with seqa := seq - 1, fflags := 0 }
    | .x => { r with seqx := seq - 1, fflags := 0 }

/-- The latch entry of the instruction that a stream has reached (R339): its address, and the count that it makes (R393). -/
def Bank.latchHere (b : Bank) (st : Stream) : Option Latch :=
  (b.ctl.latches st).find? fun l => l.pc == b.pc st && l.seq == b.seq st + 1

/-- An entry leaves its stream's list. -/
def Bank.dropLatch (b : Bank) (st : Stream) (l : Latch) : Bank :=
  let drop := fun (ls : List Latch) => ls.filter fun e => e.pc != l.pc || e.seq != l.seq
  b.mapCtl fun c => match st with
    | .a => { c with latA := drop c.latA }
    | .x => { c with latX := drop c.latX }

/-- A latched instruction retires without issuing again (R339): its value, flags and counter advance are applied. -/
def Bank.inject (b : Bank) (st : Stream) (l : Latch) (len : Nat) : Bank :=
  let b1 := match l.kind with
    | .aReg => b.writeA l.dest (l.value.setWidth 64)
    | .xReg => b.writeX l.dest (l.value.setWidth 64)
    | .accRow => b.writeRow l.dest l.value
    | .pred => b.writeP l.dest (l.value.setWidth 256)
  let b2 := b1.mapSr fun r => { r with fflags := r.fflags ||| l.flags.setWidth 64
                                       seedCtr := (r.seedCtr + wordOfNat l.ctrAdv) &&& 0xFFFFFFFF#64 }
  (b2.dropLatch st l).retire st len

/-- The words of the instruction that begins with `w`. -/
def lengthOf (w : IWord) : Nat := if longOf w then 2 else 1

/-- What follows when a stream reaches an instruction, whose own answer is `r` (R339): with a latch entry, the entry is taken
in its place where it is that instruction's result; where it is not, as after a data race, the instruction executes again
and the entry is discarded. -/
def State.retireLatched (s : State) (w : IWord) (r : Result) : Result :=
  match s.bank.latchHere s.turn, r with
  | some l, .next t =>
    if t.bank.seq s.turn = s.bank.seq s.turn then .next t
    else
      let b := s.bank.inject s.turn l (lengthOf w)
      let c := t.bank.dropLatch s.turn l
      if b = c then .next (s.setBank b) else .next (t.setBank c)
  | _, r => r

/-- One turn of the stream `s.turn` of the moving cell: it waits, skips, faults at decoding, executes, or takes a latched
result. -/
noncomputable def streamStep (s : State) : Result :=
  match s.fetch s.turn with
  | .done t => .next t
  | .word w next =>
    match decode w next with
    | .ok i => s.retireLatched w (exec i s)
    | .error e => .next (s.decodeFault w e)

/-- Where an instruction that may be latched puts its result, by its first word (R338): A arithmetic and plain loads, X
arithmetic, and vector arithmetic with one destination.  Queues, memory writes, engines, barriers and lc registers never. -/
def latchDest (vwin : Nat) (w : IWord) (next : Option IWord) : Option (LatchDest × Nat) :=
  let m := majorOf w
  let d := field w 16 6
  let plain := longOf w == false || next.all fun e => field e 25 2 == 0
  let within := fun (lo hi : Nat) => decide (lo ≤ m) && decide (m ≤ hi)
  match (tagOf w).toNat with
  | 0 =>
    if within 0x00 0x04 || within 0x08 0x14 || (plain && (m == 0x20 || m == 0x22 || m == 0x24 || m == 0x26)) then some (.aReg, d)
    else none
  | 1 =>
    if within 0x00 0x05 || m == 0x2C || within 0x30 0x33 then some (.xReg, d)
    else if within 0x28 0x2B then some (.pred, d)
    else if within 0x10 0x27 || m == 0x34 || within 0x37 0x38 || within 0x3A 0x3B || within 0x40 0x42 then some (.accRow, vwin + d)
    else none
  | _ => none

/-- The value at a latch entry's destination, as the entry holds it (R338). -/
def Bank.latchValue (b : Bank) : LatchDest × Nat → Row
  | (.aReg, d) => (b.readA d).setWidth 4096
  | (.xReg, d) => (b.readX d).setWidth 4096
  | (.accRow, r) => b.readRow r
  | (.pred, d) => (b.readP d).setWidth 4096

/-- The instruction that a cell's translation had issued ahead, run aside: its latch entry, and what younger ones see.  None
where it is no instruction of R338, waits, faults, or does anything beyond its result. -/
noncomputable def State.issueOne (s : State) (e : LatchIn) : Option (Latch × State) :=
  let g := s.setBank (s.bank.standAt e.stream e.pc e.seq)
  match g.bank.entryWord e.stream with
  | none => none
  | some (w, next) =>
    match latchDest g.bank.sr.vwin.toNat w next, decode w next with
    | some d, .ok i =>
      match exec i g with
      | .next t =>
        let l : Latch :=
          { seq := e.seq, pc := e.pc, kind := d.1, flags := t.bank.sr.fflags.setWidth 6, dest := d.2, remain := e.remain
            ctrAdv := field (t.bank.sr.seedCtr - g.bank.sr.seedCtr) 0 16, value := t.bank.latchValue d }
        if t.bank = g.bank.inject e.stream l (lengthOf w) then some (l, t) else none
      | _ => none
    | _, _ => none

/-- The latch entries of a list of instructions of one stream, each seeing the results of those before it. -/
noncomputable def State.issueAll : State → List LatchIn → List Latch
  | _, [] => []
  | s, e :: rest =>
    match s.issueOne e with
    | some (l, t) => l :: t.issueAll rest
    | none => s.issueAll rest

/-- The latch entries of one stream of a cell at a pre-empt request: those of the younger instructions that the request names,
in ascending SEQ (R338, R393). -/
noncomputable def State.issuedAt (s : State) (c : Fin 256) (st : Stream) (ins : List LatchIn) : List Latch :=
  let t := { s with cur := c, turn := st }
  let le := fun (a b : LatchIn) => decide (a.seq.toNat ≤ b.seq.toNat)
  t.issueAll ((ins.filter fun e =>
    e.cell == c.val && e.stream == st && decide (t.bank.seq st + 1 < e.seq)).mergeSort le)

/-- The results that the translations of a context's cells have latched when a pre-empt request comes (R333, R338). -/
noncomputable def State.issueAhead (s : State) (x : Nat) (ins : List LatchIn) : State :=
  if s.mayPreempt x then
    (List.finRange 256).foldl (fun t c =>
      match t.bankIn .active x c.val with
      | some b =>
        if b.shardOf x ∧ (t.ctxAt x).part.getLsbD c.val = true then
          t.setBankIn .active x c.val (b.mapCtl fun k => { k with latA := s.issuedAt c .a ins, latX := s.issuedAt c .x ins })
        else t
      | none => t) s
  else s

/-! ## A walk that ends in a swap -/

/-- A fault that a page walk brings (R343). -/
def Cause.ofWalk : Cause → Bool
  | .pageNotPresent | .pagePerm | .pageOrd | .farFault => true
  | _ => false

/-- What the instruction at a stream's PC would raise, had there been no swap (R343). -/
noncomputable def State.dueFault (s : State) (x : Nat) (st : Stream) : Option FaultInfo :=
  let g := s.setCtx x { s.ctxAt x with swapping := false }
  match streamStep { g with turn := st } with
  | .next t => t.bank.ctl.fault.filter fun f => f.kind == 1 && f.stream == streamCode st && f.cause.ofWalk
  | _ => none

/-- The faults that a cell's streams are about to raise when a walk ends in a swap (R343). -/
noncomputable def State.walkAhead (s : State) (c : Nat) : State :=
  if h : c < 256 then
    let t := { s with cur := ⟨c, h⟩ }
    match t.owner with
    | some x =>
      if (s.ctxAt x).swapping = true ∧ t.bank.ctl.fault = none then
        let l := [Stream.a, Stream.x].filterMap (t.dueFault x)
        { t.setBank (t.bank.mapCtl fun k => { k with ahead := l }) with cur := s.cur }
      else s
    | none => s
  else s

/-! ## Events -/

/-- What the device knows of the instructions ahead when an event comes. -/
noncomputable def State.lookAhead (s : State) : Instr → State
  | .preemptRequest x ins => s.issueAhead x ins
  | .pageWalkComplete c _ => s.walkAhead c
  | _ => s

/-- An event that a stream's own turn makes comes only where that turn makes it (R49, R50): OPCODE_UNDEF where the word that
the stream decodes fails check 4 or 5, and FETCH_MALFORMED where its fetch or checks 1 to 3 fail. -/
noncomputable def State.eventDue (s : State) : Instr → Bool
  | .opcodeUndef shared =>
    match s.fetch s.turn with
    | .word w next =>
      match decode w next with
      | .error .undef => shared == (tagOf w == 2#2)
      | _ => false
    | .done _ => false
  | .fetchMalformed fva =>
    match s.fetch s.turn with
    | .word w next =>
      match decode w next with
      | .error .badExt => tagOf w != 2#2 && fva == s.bank.pc s.turn + 4
      | _ => false
    | .done t => t == s.raise s.turn .fetchMalformed fva && t != s
  | _ => true

end Sys2Proof.Machine
end

