-- ==== Sys2Proof/Machine/Auto.lean ====
section
/-! DEFINITION. What moves when the agenda is empty: the turn, and the device's own steps at a cell. -/

namespace Sys2Proof.Machine

open Sys2Proof

/-! ## The turn -/

/-- The lowest cell of a context's partition. -/
def Ctx.lead (c : Ctx) : Option Nat := (List.range 256).find? fun i => c.part.getLsbD i

/-- The contexts whose lowest cell this is. -/
def State.ledBy (s : State) (cell : Nat) : List Nat :=
  (List.range 64).filter fun x => (s.ctxAt x).state != .free && (s.ctxAt x).lead == some cell

/-- A cell takes turns: a context holds its active bank, or a group its cell, or it leads a context. -/
def State.takesTurn (s : State) (cell : Nat) : Bool :=
  (s.cellAt cell).active.ctl.owner.isSome || (s.cellAt cell).held.isSome || !(s.ledBy cell).isEmpty

/-- The next cell that takes turns, in ascending order around. -/
def State.nextCell (s : State) : Fin 256 :=
  let after := (List.range 256).map fun i => (s.cur.val + 1 + i) % 256
  match after.find? s.takesTurn with
  | some c => if h : c < 256 then ⟨c, h⟩ else s.cur
  | none => s.cur

/-- Pass the turn: the A stream, the X stream, the device's own steps at the cell, and then the next cell. -/
def State.passTurn (s : State) : State :=
  if s.engine then { s with engine := false, turn := .a, cur := s.nextCell }
  else
    match s.turn with
    | .a => { s with turn := .x }
    | .x => { s with engine := true }

/-! ## The device's own steps at a cell -/

/-- Bytes that a channel delivers in one turn. -/
def turnBytes : Nat := 4096

/-- The steps of a cell's engines (R82, R185, R196, R218, R257, R365). -/
def engineEvents (c : Nat) : List Instr :=
  [.cellFaultTaken c, .ldvqFill c 0, .ldvqFill c 1, .ldvqFill c 2, .ldvqFill c 3, .invalidationAck c, .tileEngineOpStart c,
    .matrixKStep c, .tileEngineOpComplete c] ++
  ((List.range 4).flatMap fun k => [.copyStart c k, .copyBytesDelivered c k turnBytes false, .copyComplete c k]) ++
  [.collectiveComplete c []]

/-- The exchange of the line that a stream or an engine waits for (R334). -/
def State.lineEvents (s : State) (c : Nat) : List Instr :=
  match (s.cellAt c).active.ctl.owner with
  | none => []
  | some x =>
    match (s.cellAt c).active.ctl.wantLine with
    | some l => [.scratchpadLineExchange c l x]
    | none =>
      match s.foreignLine x c with
      | some l => [.scratchpadLineExchange c l x]
      | none => []

/-- The hang watchdog of a bank of the cell has reached its count (R341). -/
def State.watchEvents (s : State) (c : Nat) : List Instr := if (s.watchDue c).isSome then [.watchdogExpiry c] else []

/-- A busy cell's own turn leaves the head of its queue to the steals of the die's other cells while one of them may still
take it (R281): a decision would hold the cell, and a held cell answers empty (R302). -/
def State.leavesHead (s : State) (c : Nat) : Bool :=
  !(s.cellAt c).free && match s.headTask c with
    | some t => s.stealable c t && (otherCells (c / 64 * 64) 64 c).any fun d => (s.ctxAt t.ctx).part.getLsbD d
    | none => false

/-- The dispatcher's steps at a cell: its lane, its queue, its steals, and the groups whose home it is (R277, R281, R302,
R307, R312, R321). -/
def State.dispatchEvents (s : State) (c : Nat) : List Instr :=
  [.laneEntryIssue c] ++ (if s.leavesHead c then [] else [.taskDispatch c]) ++
    [.stealRequest c, .stealAnswer c, .stealBackoffExpiry c] ++
    (s.sched.groups.filter fun g => g.home == c).flatMap fun g =>
      [.stagingBaseAllocate g.id, .stagingCopyComplete g.id, .shardStart g.id, .groupCompletion g.id]

/-- The counters of a graph that an addition is to reach, the die's first, and those that may combine (R308). -/
def State.counterEvents (s : State) (g : Graph) : List Instr :=
  (((partCells (s.ctxAt g.ctx).part).filter (s.addsOn g)).flatMap fun c =>
    [.counterRegister g.id (.die (dieOf c)), .counterRegister g.id (.cluster (c / 8)), .counterRegister g.id (.cell c)]) ++
    g.counters.map fun n => .counterCombine g.id n.1

/-- The front end's steps on a queue (R272). -/
def queueEvents (x q : Nat) : List Instr :=
  [.graphAdmission x q, .graphPacket x q, .loadPacket x q, .unloadPacket x q, .bindPacket x q, .retirePacket x q, .cancelPacket x q,
    .nopPacket x q]

/-- The loader's steps on a kernel (R68, R69, R75): `frames` are those that it finds in the context's memory. -/
def kernelEvents (x : Nat) (frames : List Nat) (k : Kernel) : List Instr :=
  [.kernelLoadComplete x k.slot (some frames), .kernelUnloadComplete x k.slot] ++
    (if k.eager then (List.range 4).map fun d => .eagerTranslationComplete d x ⟨k.slot, []⟩ else [])

/-- The device's steps on a context, taken at the cell that leads it. -/
def State.ctxEvents (s : State) (x : Nat) : List Instr :=
  let c := s.ctxAt x
  [.contextSetupComplete x, .contextGrant x, .contextRetireComplete x] ++
    (if c.swapping then [.shadowSwapComplete x] else []) ++
    (if c.state = .spilling then [.spillComplete x] else []) ++
    (if c.state = .restoring then [.restoreComplete x] else []) ++ [.supervisorTaskStart x] ++
    c.kernels.flatMap (kernelEvents x (Config.contextFrames s.freeCtr)) ++ (List.range c.nqueue).flatMap (queueEvents x) ++
    (s.sched.graphs.filter fun g => g.ctx == x).flatMap s.counterEvents

/-- One of the device's own steps; a stop leaves the state as it is. -/
def State.own (s : State) (i : Instr) : State :=
  match exec i s with
  | .next t => t
  | _ => s

/-- The device's own turn at the moving cell. -/
def State.engineTurn (s : State) : State :=
  let c := s.cur.val
  let s1 := (engineEvents c ++ s.lineEvents c ++ s.watchEvents c ++ s.dispatchEvents c).foldl State.own (s.tickAside c)
  ((s1.ledBy c).flatMap s1.ctxEvents).foldl State.own s1

end Sys2Proof.Machine
end

