-- ==== Sys2Proof/Machine/Step.lean ====
section
/-! DEFINITION. One step of the device.

The agenda says what moves next: an event, or one stream of a cell.  When it is empty, the moving cell's A stream, its
X stream and its engines take turns, and the turn passes to the next cell that holds a bank of a context. -/

namespace Sys2Proof.Machine

open Sys2Proof

/-- What follows a turn when the agenda was empty. -/
def passTurn (r : Result) : Result :=
  match r with
  | .next t => .next t.passTurn
  | .fault f => .fault f
  | .refused f => .refused f

/-- An event, with what the device knows when it comes. -/
noncomputable def eventStep (e : Instr) (s : State) : Result := if s.eventDue e then exec e (s.lookAhead e) else .next s

/-- One step. -/
noncomputable def step (s : State) : Result :=
  let s1 := { s with freeCtr := s.freeCtr + 1 }
  match s.agenda with
  | .event e :: rest => eventStep e { s1 with agenda := rest }
  | .stream c st :: rest =>
    if h : c < 256 then streamStep { s1 with agenda := rest, cur := ⟨c, h⟩, turn := st, engine := false }
    else .fault .noSuchObject
  | .firmware a :: rest => .next (State.firmware { s1 with agenda := rest } a)
  | [] => if s.engine then passTurn (.next s1.engineTurn) else passTurn (streamStep s1)

/-- `s` with an instruction stored where the next step fetches it: the moving cell's bank runs the kernel in slot 0 of
context 0, whose TEXT is the instruction's two words, and the stream that the word's TAG names moves next. -/
def State.withFetchWord (s : State) (_nbits w : Nat) : State := s.placeWords (BitVec.ofNat 32 w) (BitVec.ofNat 32 (w >>> 32))

end Sys2Proof.Machine
end

