-- ==== Sys2Proof/WellFormed.lean ====
section
/-! DEFINITION. Which instructions are well formed.

An instruction with an encoding is well formed when its fields keep the rules of its layout that are no field's width:
the sub-codes that no table assigns and the fields that R242 to R244 and R255 require to be 0.  A step without an
encoding is well formed when it names objects that the device has: 256 cells, 64 contexts, 4 dies, 4 channels, 16
queues of a context, 96 scratchpad lines, 2 host ports and 16 gang ports. -/

namespace Sys2Proof

/-- A key of DRAM where a scrub reads (R24, R210): the near, mid and device regions. -/
def dramKey (k : Nat) : Bool :=
  (decide (k < 0x4000000000) && decide (k % 0x1000000000 ≤ 0xBFFFFFFFF)) || (decide (0x10000000000 ≤ k) && decide (k ≤ 0x1FFFFFFFFFF))

/-- A key of a scratchpad image. -/
def sramKey (k : Nat) : Bool := decide (2 ^ 52 ≤ k) && decide (k < 2 ^ 56)

/-- An SRAM word that the device has (R24): a row of the accumulator file has 64 words. -/
def SramWord.exists_ : SramWord → Bool
  | .scratchpad k => sramKey k
  | .accumulator cell _ row word => decide (cell < 256) && decide (row < 4096) && decide (word < 64)
  | .dieBuffer k => dramKey k

/-- A gang port: the ports after the two host ports (R357). -/
def gangPortNo (p : Nat) : Bool := decide (2 ≤ p) && decide (p < 18)

/-- Well-formedness of an instruction. -/
def Instr.wellFormed : Instr → Bool
  | .powerApplied _ => true
  | .powerLost _ => true
  | .hostColdStart => true
  | .hostWarmStart => true
  | .startComplete => true
  | .startStepFailure _ => true
  | .startTimeout _ => true
  | .firmwareInstall _ _ => true
  | .recoveryImageInstall _ _ => true
  | .powerAlarmAssert => true
  | .powerAlarmClear => true
  | .powerLimitExceeded => true
  | .powerLimitRecovered => true
  | .dramPatrolScrub addr _ _ => dramKey addr
  | .sramPatrolScrub at_ _ _ => at_.exists_
  | .linkRecalibration port _ => decide (port < 18)
  | .dramRecalibration _ => true
  | .flashWearManagement _ _ => true
  | .telemetrySample _ => true
  | .loadDataArrival cell _ _ => decide (cell < 256)
  | .kernelLoadComplete ctx _ _ => decide (ctx < 64)
  | .kernelUnloadComplete ctx _ => decide (ctx < 64)
  | .galleyEntryReclaim die _ => decide (die < 4)
  | .eagerTranslationComplete die ctx _ => decide (die < 4) && decide (ctx < 64)
  | .regionTranslationComplete cell _ _ => decide (cell < 256)
  | .compositorFailure cell _ => decide (cell < 256)
  | .streamSkip _ => true
  | .ldvqFill cell q => decide (cell < 256) && decide (q < 4)
  | .cellFaultTaken cell => decide (cell < 256)
  | .tileEngineOpStart cell => decide (cell < 256)
  | .matrixKStep cell => decide (cell < 256)
  | .tileEngineOpComplete cell => decide (cell < 256)
  | .pageWalkComplete cell _ => decide (cell < 256)
  | .invalidationAck cell => decide (cell < 256)
  | .copyStart cell ch => decide (cell < 256) && decide (ch < 4)
  | .copyBytesDelivered cell ch _ _ => decide (cell < 256) && decide (ch < 4)
  | .copyComplete cell ch => decide (cell < 256) && decide (ch < 4)
  | .tailWrite ctx q _ => decide (ctx < 64) && decide (q < 16)
  | .queueResume ctx q => decide (ctx < 64) && decide (q < 16)
  | .graphPacket ctx q => decide (ctx < 64) && decide (q < 16)
  | .loadPacket ctx q => decide (ctx < 64) && decide (q < 16)
  | .unloadPacket ctx q => decide (ctx < 64) && decide (q < 16)
  | .bindPacket ctx q => decide (ctx < 64) && decide (q < 16)
  | .retirePacket ctx q => decide (ctx < 64) && decide (q < 16)
  | .cancelPacket ctx q => decide (ctx < 64) && decide (q < 16)
  | .nopPacket ctx q => decide (ctx < 64) && decide (q < 16)
  | .graphAdmission ctx q => decide (ctx < 64) && decide (q < 16)
  | .taskDispatch cell => decide (cell < 256)
  | .stealRequest cell => decide (cell < 256)
  | .stealAnswer cell => decide (cell < 256)
  | .stealBackoffExpiry cell => decide (cell < 256)
  | .stagingBaseAllocate _ => true
  | .stagingCopyComplete _ => true
  | .shardStart _ => true
  | .groupCompletion _ => true
  | .counterRegister _ _ => true
  | .counterCombine _ _ => true
  | .laneEntryIssue cell => decide (cell < 256)
  | .makeReady _ => true
  | .plateSectionReceive _ => true
  | .contextCreate _ _ => true
  | .contextSetupComplete ctx => decide (ctx < 64)
  | .contextGrant ctx => decide (ctx < 64)
  | .preemptRequest ctx _ => decide (ctx < 64)
  | .shadowSwapComplete ctx => decide (ctx < 64)
  | .resumeRequest ctx => decide (ctx < 64)
  | .spillStart ctx => decide (ctx < 64)
  | .spillComplete ctx => decide (ctx < 64)
  | .restoreComplete ctx => decide (ctx < 64)
  | .scratchpadLineExchange cell line ctx => decide (cell < 256) && decide (line < 96) && decide (ctx < 64)
  | .contextEndRequest ctx => decide (ctx < 64)
  | .contextRetireComplete ctx => decide (ctx < 64)
  | .supervisorTaskStart ctx => decide (ctx < 64)
  | .watchdogExpiry cell => decide (cell < 256)
  | .rdmaWrite _ _ _ _ => true
  | .rdmaRead _ _ _ _ => true
  | .managementSend port _ => decide (port < 2)
  | .rdmaAtomicRequest _ _ => true
  | .qpCreate port _ ctx _ _ => decide (port < 2) && decide (ctx < 64)
  | .hostPortDown port => decide (port < 2)
  | .flitData port _ _ => gangPortNo port
  | .flitAck port _ _ => gangPortNo port
  | .flitNak port _ _ => gangPortNo port
  | .flitCredit port _ _ => gangPortNo port
  | .flitControl port _ _ => gangPortNo port
  | .linkRetrainRequest port => gangPortNo port
  | .trainingComplete port _ => decide (port < 18)
  | .trainingTimeout port => decide (port < 18)
  | .trainingRetryTimer port => decide (port < 18)
  | .laneFailure port _ => gangPortNo port
  | .linkKeyInstall port => gangPortNo port
  | .collectiveComplete cell _ => decide (cell < 256)
  | .getVersion _ => true
  | .getCapabilities _ => true
  | .negotiateAlgorithms _ => true
  | .getDigests _ => true
  | .getCertificate _ => true
  | .challenge _ => true
  | .getMeasurements _ _ => true
  | .keyExchange _ _ => true
  | .finish _ => true
  | .keyUpdate _ => true
  | .heartbeat _ => true
  | .endSession _ => true
  | .add _ _ _ => true
  | .sub _ _ _ => true
  | .and _ _ _ => true
  | .or _ _ _ => true
  | .xor _ _ _ => true
  | .shl _ _ _ => true
  | .shr _ _ _ => true
  | .sra _ _ _ => true
  | .rotr _ _ _ => true
  | .min _ _ _ => true
  | .max _ _ _ => true
  | .minu _ _ _ => true
  | .maxu _ _ _ => true
  | .slt _ _ _ => true
  | .sltu _ _ _ => true
  | .seq _ _ _ => true
  | .mul _ _ _ => true
  | .mulh _ _ _ => true
  | .mulhu _ _ _ => true
  | .div _ _ _ => true
  | .divu _ _ _ => true
  | .rem _ _ _ => true
  | .remu _ _ _ => true
  | .sel _ _ _ => true
  | .clz _ _ => true
  | .ctz _ _ => true
  | .popc _ _ => true
  | .sext _ _ _ => true
  | .zext _ _ _ => true
  | .bswap _ _ => true
  | .bfx _ _ _ => true
  | .bfxL _ _ _ => true
  | .bfi _ _ _ => true
  | .bfiL _ _ _ => true
  | .addi _ _ _ => true
  | .addiL _ _ _ => true
  | .andi _ _ _ => true
  | .andiL _ _ _ => true
  | .ori _ _ _ => true
  | .oriL _ _ _ => true
  | .xori _ _ _ => true
  | .xoriL _ _ _ => true
  | .shli _ _ _ => true
  | .shliL _ _ _ => true
  | .shri _ _ _ => true
  | .shriL _ _ _ => true
  | .srai _ _ _ => true
  | .sraiL _ _ _ => true
  | .slti _ _ _ => true
  | .sltiL _ _ _ => true
  | .sltiu _ _ _ => true
  | .sltiuL _ _ _ => true
  | .seqi _ _ _ => true
  | .seqiL _ _ _ => true
  | .muli _ _ _ => true
  | .muliL _ _ _ => true
  | .li _ _ => true
  | .lih _ _ => true
  | .qpush _ _ => true
  | .qpopa _ _ => true
  | .lds _ _ _ _ => true
  | .ldsL _ _ _ _ _ _ => true
  | .sts _ _ _ _ => true
  | .stsL _ _ _ _ _ _ => true
  | .ldc _ _ _ _ => true
  | .ldcL _ _ _ _ _ _ => true
  | .stc _ _ _ _ => true
  | .stcL _ _ _ _ _ _ => true
  | .ldg _ _ _ _ => true
  | .ldgL _ _ _ _ _ _ => true
  | .stg _ _ _ _ => true
  | .stgL _ _ _ _ _ _ => true
  | .ldr _ _ _ _ => true
  | .ldrL _ _ _ _ _ _ => true
  | .str _ _ _ _ => true
  | .strL _ _ _ _ _ _ => true
  | .ldgv _ _ _ _ => true
  | .ldgvL _ _ _ _ _ _ => true
  | .ldvq _ _ sz _ => (sz != 1#2)
  | .ldvqL _ _ sz _ _ _ => (sz != 1#2)
  | .stvq _ _ sz _ => (sz == 0#2 || sz == 2#2)
  | .stvqL _ _ sz _ _ _ => (sz == 0#2 || sz == 2#2)
  | .cpre _ _ => true
  | .cpreL _ _ _ _ => true
  | .amog _ _ _ _ => true
  | .amogL _ _ _ _ _ _ => true
  | .amos _ _ _ _ => true
  | .amosL _ _ _ _ _ _ => true
  | .casg _ _ _ _ => true
  | .casgL _ _ _ _ _ _ => true
  | .cass _ _ _ _ => true
  | .cassL _ _ _ _ _ _ => true
  | .b _ => true
  | .bc c _ _ _ => decide (c.toNat < 6)
  | .bcL c _ _ _ => decide (c.toNat < 6)
  | .call _ => true
  | .ret _ => true
  | .ji _ _ => true
  | .bqp _ _ => true
  | .bqpL _ _ => true
  | .lset _ _ _ => true
  | .lsetL _ _ _ => true
  | .sdset _ _ _ => true
  | .nset _ _ _ => true
  | .nsetLc _ _ _ => true
  | .nsetL _ _ _ => true
  | .mma _ _ _ _ _ _ => true
  | .mzero _ => true
  | .mwb _ _ _ _ _ => true
  | .mwbRaw _ _ _ _ => true
  | .sdget _ _ _ => true
  | .cpy _ _ x e _ p _ => copyFieldsOk x e p
  | .cpyf _ _ x e p _ => copyFieldsOk x e p
  | .gath _ _ x e _ p _ => copyFieldsOk x e p
  | .scat _ _ x e _ p _ => copyFieldsOk x e p
  | .hwait _ => true
  | .hwaitp _ _ => true
  | .hrel _ => true
  | .hstat _ _ => true
  | .bxinit _ _ _ => true
  | .bxexp x g sz p c _ => arriveFieldsOk x g sz p c
  | .bxarr x g sz p c _ => arriveFieldsOk x g sz p c
  | .bxwait x g sz p => waitFieldsOk x g sz p
  | .bxtest x g _ => ringFieldOk x g
  | .ringset _ _ => true
  | .fence _ _ _ => true
  | .promote _ => true
  | .tspawn _ _ => true
  | .tspawnCreate _ _ => true
  | .tspawnArm _ => true
  | .tedge _ _ => true
  | .tdone _ _ => true
  | .tcancel _ _ => true
  | .fnew _ => true
  | .freg _ _ _ => true
  | .fres _ _ => true
  | .ffail _ _ => true
  | .tyield => true
  | .tguard _ _ => true
  | .trec _ _ => true
  | .trecClr _ => true
  | .tfold _ => true
  | .tver _ _ _ => true
  | .tvwait _ _ _ => true
  | .coll _ _ _ => true
  | .lstat _ _ => true
  | .invr _ _ _ => true
  | .inva _ => true
  | .probe _ _ => true
  | .freplayResume _ => true
  | .freplayAbort _ => true
  | .trap _ => true
  | .eret _ => true
  | .srd _ _ => true
  | .swr _ _ => true
  | .nop => true
  | .brk _ => true
  | .wfe _ _ => true
  | .yieldctx => true
  | .xadd _ _ _ => true
  | .xsub _ _ _ => true
  | .xand _ _ _ => true
  | .xior _ _ _ => true
  | .xeor _ _ _ => true
  | .xshl _ _ _ => true
  | .xshr _ _ _ => true
  | .xsra _ _ _ => true
  | .xrotr _ _ _ => true
  | .xmin _ _ _ => true
  | .xmax _ _ _ => true
  | .xminu _ _ _ => true
  | .xmaxu _ _ _ => true
  | .xslt _ _ _ => true
  | .xsltu _ _ _ => true
  | .xseq _ _ _ => true
  | .xmul _ _ _ => true
  | .xmulh _ _ _ => true
  | .xmulhu _ _ _ => true
  | .xdiv _ _ _ => true
  | .xdivu _ _ _ => true
  | .xrem _ _ _ => true
  | .xremu _ _ _ => true
  | .xsel _ _ _ => true
  | .xaddi _ _ _ => true
  | .xaddiL _ _ _ => true
  | .xshli _ _ _ => true
  | .xshliL _ _ _ => true
  | .xshri _ _ _ => true
  | .xshriL _ _ _ => true
  | .xsrai _ _ _ => true
  | .xsraiL _ _ _ => true
  | .xroti _ _ _ => true
  | .xrotiL _ _ _ => true
  | .xli _ _ => true
  | .xlih _ _ => true
  | .xqpop _ _ => true
  | .xqpush _ _ => true
  | .vadd _ _ _ _ => true
  | .vaddL _ _ _ _ _ _ => true
  | .vsub _ _ _ _ => true
  | .vsubL _ _ _ _ _ _ => true
  | .vmul _ _ _ _ => true
  | .vmulL _ _ _ _ _ _ => true
  | .vfma _ _ _ _ => true
  | .vfmaL _ _ _ _ _ _ _ => true
  | .vfms _ _ _ _ => true
  | .vfmsL _ _ _ _ _ _ _ => true
  | .vfnma _ _ _ _ => true
  | .vfnmaL _ _ _ _ _ _ _ => true
  | .vmin _ _ _ _ => true
  | .vminL _ _ _ _ _ => true
  | .vmax _ _ _ _ => true
  | .vmaxL _ _ _ _ _ => true
  | .vabs _ _ _ => true
  | .vabsL _ _ _ _ => true
  | .vneg _ _ _ => true
  | .vnegL _ _ _ _ => true
  | .vdiv _ _ _ _ => true
  | .vdivL _ _ _ _ _ _ => true
  | .vsqrt _ _ _ => true
  | .vsqrtL _ _ _ _ _ => true
  | .vsel _ _ _ _ => true
  | .vselL _ _ _ _ _ => true
  | .vmov _ _ _ => true
  | .vmovL _ _ _ _ => true
  | .exp2 _ _ _ => true
  | .exp2L _ _ _ _ _ => true
  | .log2 _ _ _ _ _ => true
  | .rcp _ _ _ _ _ => true
  | .rsq _ _ _ _ _ => true
  | .tanh _ _ _ _ _ => true
  | .sigm _ _ _ _ _ => true
  | .vcmp _ _ _ _ => true
  | .vcmpL _ _ _ _ _ cond _ => decide (cond.toNat < 8)
  | .pand _ _ _ _ => true
  | .pandL _ _ _ _ _ _ => true
  | .por _ _ _ _ => true
  | .porL _ _ _ _ _ _ => true
  | .pnot _ _ _ => true
  | .pnotL _ _ _ _ _ => true
  | .pcnt _ _ _ => true
  | .pcntL _ _ _ _ => true
  | .pfirst _ _ _ _ => true
  | .vrsum _ _ _ => true
  | .vrsumL _ _ _ _ _ => true
  | .vrmax _ _ _ => true
  | .vrmaxL _ _ _ _ => true
  | .vrmin _ _ _ => true
  | .vrminL _ _ _ _ => true
  | .vramax _ _ _ => true
  | .vramaxL _ _ _ _ => true
  | .vscan _ _ _ _ => true
  | .vscanL _ _ _ _ _ _ => true
  | .vsortk _ _ _ => true
  | .vsortkL _ _ _ _ _ => true
  | .vmergek _ _ _ _ => true
  | .vmergekL _ _ _ _ _ _ _ => true
  | .vperm _ _ _ _ => true
  | .vpermL _ _ _ _ _ => true
  | .vcvt _ _ _ _ _ _ _ => true
  | .vqnt _ _ _ _ => true
  | .vqntL _ _ _ _ _ _ _ => true
  | .vdqnt _ _ _ _ => true
  | .vdqntL _ _ _ _ _ _ _ => true
  | .vbcast _ _ _ => true
  | .vbcastL _ _ _ _ _ => true
  | .vbcastLane _ _ _ _ _ => true
  | .vrng _ _ => true
  | .vrngL _ _ _ => true
  | .vrngRaw _ _ _ => true
  | .viota _ _ _ => true
  | .viotaL _ _ _ _ _ _ => true
  | .vldi _ _ _ => true
  | .vldiL _ _ _ _ _ _ => true
  | .vqpop _ _ _ => true
  | .vqpopL _ _ _ _ => true
  | .vwin _ _ => true
  | .bq c _ _ _ => decide ((c.extractLsb' 0 3).toNat < 6)
  | .bqL c _ _ _ => decide ((c.extractLsb' 0 3).toNat < 6)
  | .loop _ _ => true
  | .endl _ _ => true
  | .sync => true
  | .win _ => true
  | .fpcAll _ _ _ => true
  | .fpcRm _ => true
  | .fpcDazFtz _ _ => true
  | .halt => true
  | .opcodeUndef _ => true
  | .fetchMalformed _ => true

end Sys2Proof
end

