-- ==== Sys2Proof/Safety.lean ====
section
/-! DEFINITION. What a step may do, in the terms the statements use.

A stream that retires an instruction moves its own PC, walk count and sequence number, and its stall is over.  The
predicates below say that together with what the instruction writes and with what it leaves alone: the other
registers, the other state of the bank, every byte of memory, and all of the device outside the moving cell's bank. -/

namespace Sys2Proof.Machine

open Sys2Proof

/-- Every byte of memory reads as before. -/
abbrev SameMemory (s t : State) : Prop := ∀ k, memGet t.mem k = memGet s.mem k

/-- Nothing of the device outside the moving cell's active bank differs. -/
structure SameDevice (s t : State) : Prop where
  device : t = s.setBank t.bank
  memory : SameMemory s t

/-- The A stream has retired an instruction and its PC is `pc` (R28, R80, R87): `w` is its walk count. -/
structure RetiredAt (s t : State) (pc : Word) (w : Int) : Prop where
  sys : t.bank.sr = { s.bank.sr with pca := pc, seqa := s.bank.sr.seqa + 1 }
  wa : t.bank.walk.wa = w
  wx : t.bank.walk.wx = s.bank.walk.wx
  wmaxx : t.bank.walk.wmaxx = s.bank.walk.wmaxx

/-- The A stream's stall is over: `c` is its bank's control as it then stands. -/
abbrev Control.overA (c : Control) : Control := { c with waitA := false, wdog := 0, wantLine := none, spawning := false }

/-- The A stream has retired an instruction of `len` words that does not branch. -/
structure RetiredA (s t : State) (len : Nat) : Prop where
  at_ : RetiredAt s t (s.bank.sr.pca + BitVec.ofNat 64 (4 * len)) (s.bank.walk.wa + len)
  wmaxa : t.bank.walk.wmaxa = max s.bank.walk.wmaxa (s.bank.walk.wa + len)
  ctl : t.bank.ctl = s.bank.ctl.overA

/-- The X stream has retired an instruction of `len` words that does not branch. -/
structure RetiredX (s t : State) (len : Nat) : Prop where
  pcx : t.bank.sr.pcx = s.bank.sr.pcx + BitVec.ofNat 64 (4 * len)
  seqx : t.bank.sr.seqx = s.bank.sr.seqx + 1
  walk : t.bank.walk = { s.bank.walk with wx := s.bank.walk.wx + len, wmaxx := max s.bank.walk.wmaxx (s.bank.walk.wx + len) }
  ctl : t.bank.ctl = { s.bank.ctl with waitX := false, wdog := 0, wantLine := none }

/-- The queues, the barriers, handles and rings, and the engines of the moving bank are as before. -/
structure SameUnits (s t : State) : Prop where
  q : t.bank.q = s.bank.q
  sync : t.bank.sync = s.bank.sync
  eng : t.bank.eng = s.bank.eng

/-- Every a register but `d` reads as before, and so do the lc and sd registers and the X stream's files. -/
structure SameRegsBut (s t : State) (d : Nat) : Prop where
  a : ∀ r, r ≠ d → t.bank.readA r = s.bank.readA r
  lc : t.bank.af.lc = s.bank.af.lc
  sd : t.bank.af.sd = s.bank.af.sd
  xf : t.bank.xf = s.bank.xf

/-- The frame of an A instruction that writes a[d] only: `v` is read there afterwards, or 0 where d is a0 (R34). -/
structure WroteA (s t : State) (len d : Nat) (v : Word) : Prop where
  dest : t.bank.readA d = if d = 0 then 0#64 else v
  regs : SameRegsBut s t d
  units : SameUnits s t
  retired : RetiredA s t len
  rest : SameDevice s t

/-- An A instruction completes with `v` in a[d] and nothing else changed. -/
def AnswersA (i : Instr) (s : State) (len : Nat) (d : BitVec 6) (v : Word) : Prop :=
  ∃ t, exec i s = .next t ∧ WroteA s t len d.toNat v

/-- The registers of the moving bank are as before: a, lc, sd, x, p, the tags and the accumulator array. -/
structure SameRegs (s t : State) : Prop where
  af : t.bank.af = s.bank.af
  xf : t.bank.xf = s.bank.xf

/-- An A instruction of `len` words that only advances. -/
structure OnlyRetiredA (s t : State) (len : Nat) : Prop where
  regs : SameRegs s t
  units : SameUnits s t
  retired : RetiredA s t len
  rest : SameDevice s t

/-- Every x register but `d` reads as before, and so do the p registers, the tags, the rows and the A stream's files. -/
structure SameXRegsBut (s t : State) (d : Nat) : Prop where
  x : ∀ r, r ≠ d → t.bank.readX r = s.bank.readX r
  p : t.bank.xf.p = s.bank.xf.p
  tags : t.bank.xf.tags = s.bank.xf.tags
  rows : t.bank.xf.acc = s.bank.xf.acc
  af : t.bank.af = s.bank.af

/-- The frame of an X instruction that writes x[d] only. -/
structure WroteX (s t : State) (len d : Nat) (v : Word) : Prop where
  dest : t.bank.readX d = if d = 0 then 0#64 else v
  regs : SameXRegsBut s t d
  sys : t.bank.sr = { s.bank.sr with pcx := t.bank.sr.pcx, seqx := t.bank.sr.seqx }
  units : SameUnits s t
  retired : RetiredX s t len
  rest : SameDevice s t

/-- An X instruction completes with `v` in x[d] and nothing else changed. -/
def AnswersX (i : Instr) (s : State) (len : Nat) (d : BitVec 6) (v : Word) : Prop :=
  ∃ t, exec i s = .next t ∧ WroteX s t len d.toNat v

/-- The moving stream may raise a first fault: none is recorded and the cut has not begun (R88, R89). -/
abbrev State.faultless (s : State) : Prop := s.bank.ctl.fault = none

/-- The moving bank has recorded the first fault of a stream and has changed nothing else that a program sees: cause `c`
with fva `f` (R43, R88). -/
structure Raised (s t : State) (stream : Nat) (c : Cause) (f : Word) : Prop where
  fault : t.bank.ctl.fault = some ⟨stream, c, f, 1, 0, none⟩
  regs : SameRegs s t
  units : SameUnits s t
  sys : t.bank.sr = s.bank.sr
  walk : t.bank.walk = s.bank.walk
  rest : SameDevice s t

/-- A stream stalls: its stall is marked, and nothing that a program sees has changed (R12). -/
structure Waits (s t : State) (st : Stream) : Prop where
  mark : (match st with | .a => t.bank.ctl.waitA | .x => t.bank.ctl.waitX) = true
  regs : SameRegs s t
  units : SameUnits s t
  sys : t.bank.sr = s.bank.sr
  walk : t.bank.walk = s.bank.walk
  memory : SameMemory s t

/-- Memory after bytes are stored at the parts of a resolved access, in order (R9, R106). -/
def storedBytes (m : Memory) : List RowPart → List Byte → Memory
  | [], _ => m
  | p :: t, bs => storedBytes (memWrite m p.key (bs.take p.len)) t (bs.drop p.len)

/-- A key lies in a resolved access. -/
abbrev inParts (ps : List RowPart) (k : Nat) : Prop := ∃ p ∈ ps, p.key ≤ k ∧ k < p.key + p.len

/-- No word of a resolved access is poisoned (R25). -/
abbrev State.clean (s : State) (ps : List RowPart) : Prop := ∀ p ∈ ps, firstPoison s.dev.poisoned p.key p.len = none

/-- What an A instruction that stores through a resolved access does: the bytes are in memory, every key outside the access
reads as before, and the stores take poison away at most there (R25). -/
structure StoredA (s t : State) (len : Nat) (ps : List RowPart) (bs : List Byte) : Prop where
  mem : t.mem = storedBytes s.mem ps bs
  outside : ∀ k, ¬ inParts ps k → memGet t.mem k = memGet s.mem k
  retired : RetiredA s t len
  units : SameUnits s t
  device : ∃ bad, t = { (s.setBank t.bank) with mem := t.mem, dev := { s.dev with poisoned := bad } }

/-! ## Memory instructions of the A stream -/

/-- What a memory form of the A stream names: the space, the instruction's words, the register, the effective address, the
bytes and whether it is annotated (R31, R104). -/
structure MemForm where
  sp : Space
  len : Nat
  reg : BitVec 6
  ea : Word
  n : Nat
  marked : Bool
  deriving DecidableEq, Repr

/-- A short form: the offset counts units of the width (R31, R104). -/
def shortForm (sp : Space) (b : Bank) (t a : BitVec 6) (n : Nat) (o : BitVec 8) : Option MemForm :=
  some ⟨sp, 1, t, b.readA a.toNat + BitVec.ofNat 64 (o.toNat * n), n, false⟩

/-- A long form: a signed byte offset, and a scope and an order that the instruction accepts (R31, R104). -/
def longForm (sp : Space) (b : Bank) (t a : BitVec 6) (n : Nat) (sc : BitVec 3) (od : BitVec 2) (takes : Bool)
    (off : BitVec 25) : Option MemForm :=
  if sc.toNat < 5 ∧ takes = true then some ⟨sp, 2, t, b.readA a.toNat + off.signExtend 64, n, od != 0#2⟩ else none

/-- A form in R space: the slot of a ring region at a stage, where the offset keeps inside the slot (R108). -/
def ringForm (len : Nat) (b : Bank) (t k : BitVec 6) (stage : Ring → Nat) (off : Word) (n : Nat) (marked : Bool) : Option MemForm :=
  let r := b.ring k.toNat
  if k.toNat < 8 ∧ r.isSet = true ∧ off.toNat + n ≤ r.slot then
    some ⟨.s, len, t, BitVec.ofNat 64 (r.base + stage r * r.slot) + off, n, marked⟩
  else none

/-- The scalar loads in all their forms (R107, R108): none where the form is refused. -/
def loadForm (b : Bank) : Instr → Option MemForm
  | .lds t a sz o => shortForm .s b t a (2 ^ sz.toNat) o
  | .ldsL t a sz sc od off => longForm .s b t a (2 ^ sz.toNat) sc od (od == 0#2 || od == 1#2) off
  | .ldc t a sz o => shortForm .c b t a (2 ^ sz.toNat) o
  | .ldcL t a sz sc od off => longForm .c b t a (2 ^ sz.toNat) sc od (od == 0#2 || od == 1#2) off
  | .ldg t a sz o => shortForm .g b t a (2 ^ sz.toNat) o
  | .ldgL t a sz sc od off => longForm .g b t a (2 ^ sz.toNat) sc od (od == 0#2 || od == 1#2) off
  | .ldr t k sz o => ringForm 1 b t k Ring.consStage (BitVec.ofNat 64 (o.toNat * 2 ^ sz.toNat)) (2 ^ sz.toNat) false
  | .ldrL t k sz sc od off =>
    if sc.toNat < 5 ∧ (od = 0#2 ∨ od = 1#2) then ringForm 2 b t k Ring.consStage (off.signExtend 64) (2 ^ sz.toNat) (od != 0#2)
    else none
  | _ => none

/-- The scalar stores in all their forms (R107, R108). -/
def storeForm (b : Bank) : Instr → Option MemForm
  | .sts t a sz o => shortForm .s b t a (2 ^ sz.toNat) o
  | .stsL t a sz sc od off => longForm .s b t a (2 ^ sz.toNat) sc od (od == 0#2 || od == 2#2) off
  | .stc t a sz o => shortForm .c b t a (2 ^ sz.toNat) o
  | .stcL t a sz sc od off => longForm .c b t a (2 ^ sz.toNat) sc od (od == 0#2 || od == 2#2) off
  | .stg t a sz o => shortForm .g b t a (2 ^ sz.toNat) o
  | .stgL t a sz sc od off => longForm .g b t a (2 ^ sz.toNat) sc od (od == 0#2 || od == 2#2) off
  | .str t k sz o => ringForm 1 b t k Ring.prodStage (BitVec.ofNat 64 (o.toNat * 2 ^ sz.toNat)) (2 ^ sz.toNat) false
  | .strL t k sz sc od off =>
    if sc.toNat < 5 ∧ (od = 0#2 ∨ od = 2#2) then ringForm 2 b t k Ring.prodStage (off.signExtend 64) (2 ^ sz.toNat) (od != 0#2)
    else none
  | _ => none

/-- The atomics in all their forms (R113): the unit of the short offset is 8 bytes. -/
def amoForm (b : Bank) : Instr → Option (MemForm × BitVec 2)
  | .amog t a op o => (shortForm .g b t a 8 o).map (·, op)
  | .amogL t a op sc od off => (longForm .g b t a 8 sc od true off).map (·, op)
  | .amos t a op o => (shortForm .s b t a 8 o).map (·, op)
  | .amosL t a op sc od off => (longForm .s b t a 8 sc od true off).map (·, op)
  | _ => none

/-- Compare-and-swap in all its forms (R114): the width is 4 or 8 bytes and t is even. -/
def casForm (b : Bank) (i : Instr) : Option MemForm :=
  let ok := fun (t : BitVec 6) (sz : BitVec 2) (f : Option MemForm) => if 2 ≤ sz.toNat ∧ t.toNat % 2 = 0 then f else none
  match i with
  | .casg t a sz o => ok t sz (shortForm .g b t a (2 ^ sz.toNat) o)
  | .casgL t a sz sc od off => ok t sz (longForm .g b t a (2 ^ sz.toNat) sc od true off)
  | .cass t a sz o => ok t sz (shortForm .s b t a (2 ^ sz.toNat) o)
  | .cassL t a sz sc od off => ok t sz (longForm .s b t a (2 ^ sz.toNat) sc od true off)
  | _ => none

/-- The accumulator rows are listed by ascending number, none of them zero. -/
def rowsAscend : List (Nat × Row) → Bool
  | [] => true
  | [(_, v)] => v != 0
  | (a, v) :: (b, w) :: t => (v != 0) && decide (a < b) && rowsAscend ((b, w) :: t)

/-- The frame of an X instruction that writes one row of the window: the row goes to row sr.vwin + d of the accumulator
array, flags are OR-ed in and the counter moves by `draws` (R35, R155, R156). -/
structure WroteV (s t : State) (len d : Nat) (row : Row) (fl : Flags) (draws : Nat) : Prop where
  rows : t.bank.xf.acc = rowPut s.bank.xf.acc (s.bank.sr.vwin.toNat + d) row
  x : t.bank.xf.x = s.bank.xf.x
  p : t.bank.xf.p = s.bank.xf.p
  tags : t.bank.xf.tags = s.bank.xf.tags
  af : t.bank.af = s.bank.af
  sys : t.bank.sr = { s.bank.sr with
    pcx := t.bank.sr.pcx, seqx := t.bank.sr.seqx, fflags := s.bank.sr.fflags ||| fl.setWidth 64,
    seedCtr := BitVec.ofNat 64 ((s.bank.sr.seedCtr.toNat % 2 ^ 32 + draws) % 2 ^ 32) }
  units : SameUnits s t
  retired : RetiredX s t len
  rest : SameDevice s t

/-- The frame of an X instruction that writes p[d] only, and flags; a write to p0 is discarded (R35). -/
structure WroteP (s t : State) (len d : Nat) (v : BitVec 256) (fl : Flags) : Prop where
  dest : t.bank.readP d = if d = 0 then BitVec.allOnes 256 else v
  others : ∀ r, r ≠ d → t.bank.readP r = s.bank.readP r
  x : t.bank.xf.x = s.bank.xf.x
  rows : t.bank.xf.acc = s.bank.xf.acc
  tags : t.bank.xf.tags = s.bank.xf.tags
  af : t.bank.af = s.bank.af
  sys : t.bank.sr = { s.bank.sr with
    pcx := t.bank.sr.pcx, seqx := t.bank.sr.seqx, fflags := s.bank.sr.fflags ||| fl.setWidth 64 }
  units : SameUnits s t
  retired : RetiredX s t len
  rest : SameDevice s t

/-- A V-format instruction of the moving X stream is not held at its window: no tile-engine operation of lower walk count is
outstanding on the tile or may still come (R157). -/
abbrev State.windowFree (s : State) : Prop := s.tileHeld (s.bank.sr.vwin.toNat / 128) = false

/-- The operation type of a V-format form and its type field (R32, R153): the tag's type in the short form; in the long form
the type that the field names, which the tag must accept. -/
def opType (s : State) : Option (BitVec 4) → Option ElemTy
  | none => some s.bank.tag.ty
  | some c => (ElemTy.ofCode c.toNat).bind fun t => if tagAccepts s.bank.tag t then some t else none

/-- The form of an instruction in both its encodings: the short one, with the tag's type and the dynamic mode, and the long one
with a type and a rounding field. -/
def BothForms (P : Instr → Nat → Option (BitVec 4) → BitVec 3 → Prop) (short : Instr) (long : BitVec 4 → BitVec 3 → Instr) : Prop :=
  P short 1 none 0#3 ∧ ∀ ty rnd, P (long ty rnd) 2 (some ty) rnd

/-! ## Rows, transfers and system registers -/

/-- The row instructions LDVQ and STVQ in their forms (R110, R111): the unit of the short offset is 64 bytes, and the size field
names the space, 0 for S and 2 or 3 for G. -/
def rowForm (b : Bank) : Instr → Option (MemForm × BitVec 2)
  | .ldvq t a sz o => (shortForm (if 2 ≤ sz.toNat then .g else .s) b t a 64 o).map (·, sz)
  | .ldvqL t a sz sc od off =>
    (longForm (if 2 ≤ sz.toNat then .g else .s) b t a 64 sc od (od == 0#2 || od == 1#2) off).map (·, sz)
  | .stvq t a sz o => (shortForm (if 2 ≤ sz.toNat then .g else .s) b t a 64 o).map (·, sz)
  | .stvqL t a sz sc od off =>
    (longForm (if 2 ≤ sz.toNat then .g else .s) b t a 64 sc od (od == 0#2 || od == 2#2) off).map (·, sz)
  | _ => none

/-- An instruction is a LDVQ. -/
def isLdvq : Instr → Bool
  | .ldvq _ _ _ _ => true
  | .ldvqL _ _ _ _ _ _ => true
  | _ => false

/-- An instruction is a STVQ. -/
def isStvq : Instr → Bool
  | .stvq _ _ _ _ => true
  | .stvqL _ _ _ _ _ _ => true
  | _ => false

/-- The condition of a cond code on two words (R93): EQ, NE, LT, GE, LTU, GEU. -/
def branchTaken (c : Nat) (x y : Word) : Prop :=
  match c with
  | 0 => x = y
  | 1 => x ≠ y
  | 2 => x.toInt < y.toInt
  | 3 => y.toInt ≤ x.toInt
  | 4 => x.toNat < y.toNat
  | _ => y.toNat ≤ x.toNat

/-- The frame of a taken private transfer of `len` words to `target` that writes at most a[d] (R80, R115 to R117): the walk count
moves by the words of the instruction and then by the distance from the next instruction, a quotient by 4 toward minus
infinity.  The stream leaves its galley entry where that has died (R73). -/
structure Transferred (s t : State) (len d : Nat) (v target : Word) : Prop where
  dest : t.bank.readA d = if d = 0 then 0#64 else v
  regs : SameRegsBut s t d
  units : SameUnits s t
  at_ : RetiredAt s t target (s.bank.walk.wa + len +
    Int.fdiv ((target.toNat : Int) - (s.bank.sr.pca + BitVec.ofNat 64 (4 * len)).toNat) 4)
  wmaxa : t.bank.walk.wmaxa = max s.bank.walk.wmaxa t.bank.walk.wa
  ctl : t.bank.ctl = { s.bank.ctl.overA with galA := t.bank.ctl.galA }
  galley : ∀ e, t.bank.ctl.galA = some e ↔ s.bank.ctl.galA = some e ∧ s.entryDead (dieOf s.cellNo) e.gen = false
  rest : SameDevice s t

/-- A stream retires a shared control word of `len` words and goes on at `target`; its walk count moves by the words only (R80). -/
def RetiredTo (s t : State) (st : Stream) (len : Nat) (target : Word) : Prop :=
  match st with
  | .a => t.bank.sr = { s.bank.sr with pca := target, seqa := s.bank.sr.seqa + 1 } ∧
      t.bank.walk = { s.bank.walk with wa := s.bank.walk.wa + len, wmaxa := max s.bank.walk.wmaxa (s.bank.walk.wa + len) }
  | .x => t.bank.sr = { s.bank.sr with pcx := target, seqx := s.bank.sr.seqx + 1 } ∧
      t.bank.walk = { s.bank.walk with wx := s.bank.walk.wx + len, wmaxx := max s.bank.walk.wmaxx (s.bank.walk.wx + len) }

/-- A stream retires a shared word that changes its own copy of a system register by `f`, and nothing else changes (R39). -/
def RetiredWith (s t : State) (st : Stream) (f : SysRegs → SysRegs) : Prop :=
  (match st with
   | .a => t.bank.sr = { (f s.bank.sr) with pca := s.bank.sr.pca + 4, seqa := s.bank.sr.seqa + 1 } ∧
       t.bank.walk = { s.bank.walk with wa := s.bank.walk.wa + 1, wmaxa := max s.bank.walk.wmaxa (s.bank.walk.wa + 1) }
   | .x => t.bank.sr = { (f s.bank.sr) with pcx := s.bank.sr.pcx + 4, seqx := s.bank.sr.seqx + 1 } ∧
       t.bank.walk = { s.bank.walk with wx := s.bank.walk.wx + 1, wmaxx := max s.bank.walk.wmaxx (s.bank.walk.wx + 1) }) ∧
  SameRegs s t ∧ SameUnits s t ∧ SameDevice s t

/-- A shared control instruction (R119, R120): its producer, its words, the producer's outcome, the target, and the lc register
that the producer writes. -/
structure SharedForm where
  producer : Stream
  len : Nat
  taken : Prop
  target : Word
  lc : Option (Nat × BitVec 32)

/-- The shared control instructions at a stream of a bank: none where the form is refused. -/
def sharedForm (b : Bank) (st : Stream) : Instr → Option SharedForm
  | .bq c x y o => bqForm 1 c x y (o.signExtend 64 * 4)
  | .bqL c x y o => bqForm 2 c x y (o.signExtend 64 * 4)
  | .loop c o =>
    if c.toNat < 8 ∧ o ≠ 0 then
      some ⟨.a, 1, b.readLc c.toNat = 0, b.pc st + BitVec.ofNat 64 (4 * o.toNat) + 4, none⟩
    else none
  | .endl c o =>
    if c.toNat < 8 ∧ o ≠ 0 then
      let n := if b.readLc c.toNat = 0 then 0 else b.readLc c.toNat - 1
      some ⟨.a, 1, n ≠ 0, b.pc st - BitVec.ofNat 64 (4 * o.toNat) + 4, some (c.toNat, n)⟩
    else none
  | _ => none
where
  bqForm (len : Nat) (c : BitVec 4) (x y : BitVec 6) (off : Word) : Option SharedForm :=
    if c.toNat < 8 then
      some ⟨.a, len, branchTaken c.toNat (b.readA x.toNat) (b.readA y.toNat), b.pc st + off, none⟩
    else if x.toNat < 32 ∧ y.toNat < 32 then
      some ⟨.x, len, branchTaken (c.toNat % 8) (b.readX x.toNat) (b.readX y.toNat), b.pc st + off, none⟩
    else none

/-- The registers of the moving bank but one lc register are as before. -/
structure SameRegsButLc (s t : State) (l : Option (Nat × BitVec 32)) : Prop where
  lc : ∀ r, t.bank.readLc r = if l.any (fun p => p.1 == r) = true then (l.map (·.2)).getD 0 else s.bank.readLc r
  a : t.bank.af.a = s.bank.af.a
  sd : t.bank.af.sd = s.bank.af.sd
  xf : t.bank.xf = s.bank.xf

/-- The frame of an A instruction that reads or writes system registers: registers other than a[d], the units and memory are as
before, and it retires one word. -/
structure ReadSys (s t : State) (d : Nat) (v : Word) : Prop where
  dest : t.bank.readA d = if d = 0 then 0#64 else v
  regs : SameRegsBut s t d
  units : SameUnits s t
  retired : RetiredA s t 1
  memory : SameMemory s t

/-- The system registers that a read returns (R38, R42, R198), sr.cyc and the shard registers apart. -/
def sysValue (s : State) (n : Nat) : Option Word :=
  match n with
  | 0x00 => some s.bank.sr.fpcA
  | 0x01 => some (s.bank.sr.fflags ||| (s.bank.tileFlagsBelow s.bank.walk.wa).setWidth 64)
  | 0x02 => some s.bank.sr.windowA
  | 0x03 => some s.bank.sr.vwin
  | 0x04 => some (BitVec.ofNat 64 (2 * min s.bank.eng.tileQ.length 2 + if s.bank.eng.narrow then 1 else 0))
  | 0x05 => some s.bank.sr.seed
  | 0x06 => some s.bank.sr.seedCtr
  | 0x08 => some (BitVec.ofNat 64 s.cellNo)
  | 0x09 => some s.bank.sr.task
  | 0x0A => some s.bank.sr.ctx
  | 0x0B => some s.bank.sr.asid
  | 0x20 => some s.bank.sr.pca
  | 0x21 => some s.bank.sr.pcx
  | 0x22 => some s.bank.sr.seqa
  | 0x23 => some s.bank.sr.seqx
  | 0x24 => some s.bank.sr.cause
  | 0x25 => some s.bank.sr.fva
  | n => if 0x10 ≤ n ∧ n ≤ 0x15 then some (vget s.bank.sr.shard (n - 0x10) 0) else none

/-- The registers whose owner is X (R38). -/
abbrev ownedByX (n : Nat) : Prop := n = 0x01 ∨ n = 0x03 ∨ n = 0x05 ∨ n = 0x06 ∨ n = 0x21 ∨ n = 0x23

/-- The A stream may complete an SRD or SWR of register `n` (R39, R198): for an X-owned register the streams have met, and for
sr.fflags no tile-engine operation of lower walk count is outstanding. -/
abbrev metFor (s : State) (n : Nat) : Prop :=
  (ownedByX n → s.xMeets = true) ∧ (n = 0x01 → ∀ o ∈ s.bank.eng.tileQ, s.bank.walk.wa ≤ o.walk)

/-! ## Lanes of the X stream -/

/-- An X instruction completes by writing the lanes of row d of the window: each lane that `act` marks takes the low bits of its
result, every other lane keeps its bits, and the flags are those of the marked lanes (R154, R155). -/
def AnswersLanes (i : Instr) (s : State) (len : Nat) (d : BitVec 6) (act : Nat → Bool) (f : Nat → Nat × Flags) (draws : Nat) : Prop :=
  ∃ t row fl, exec i s = .next t ∧ WroteV s t len d.toNat row fl draws ∧
    (∀ j, j < s.bank.lanes → rowElem row s.bank.laneBits j =
      if act j = true then (f j).1 % 2 ^ s.bank.laneBits else rowElem (s.bank.readV d.toNat) s.bank.laneBits j) ∧
    (∀ k, fl.getLsbD k = true ↔ ∃ j, j < s.bank.lanes ∧ act j = true ∧ (f j).2.getLsbD k = true)

/-- A lane's result under an operation type: a floating one rounds the exact value `x`, an integer one is `n` modulo 2^32 (R155). -/
def laneValue (t : ElemTy) (k : Controls) (j : Nat) (x : Exact) (n : Int) : Nat × Flags :=
  if t.fmt?.isSome = true then laneRound t k j x else ((n % 2 ^ 32).toNat, 0)

/-- The counters that an instruction of `n` roundings uses: `n` under stochastic rounding, none otherwise (R156). -/
def drawCount (k : Controls) (rounds : Bool) (n : Nat) : Nat := if k.rm = 6 ∧ rounds = true then n else 0

/-- The reduction tree of R167 read from its root, for a way of combining that does not depend on the node's number: the
two halves of the lanes are reduced and combined, and an absent half leaves the other. -/
def halvesReduce {α : Type} (f : α → α → α) (leaf : Nat → Option α) : Nat → Nat → Option α
  | 0, i => leaf i
  | k + 1, i =>
    match halvesReduce f leaf k i, halvesReduce f leaf k (i + 2 ^ k) with
    | none, q => q
    | some a, none => some a
    | some a, some b => some (f a b)

/-- The integers of the active lanes of v[a] under an integer type, ascending (R154). -/
def activeInts (b : Bank) (t : ElemTy) (a : BitVec 6) (p : BitVec 4) : List Int :=
  ((List.range b.lanes).filter (b.active p)).map fun i => laneInt t (b.lane a i)

/-- The frame of an X instruction that writes x[d], flags and draws. -/
structure WroteXF (s t : State) (len d : Nat) (v : Word) (fl : Flags) (draws : Nat) : Prop where
  dest : t.bank.readX d = if d = 0 then 0#64 else v
  regs : SameXRegsBut s t d
  sys : t.bank.sr = { s.bank.sr with
    pcx := t.bank.sr.pcx, seqx := t.bank.sr.seqx, fflags := s.bank.sr.fflags ||| fl.setWidth 64, seedCtr := t.bank.sr.seedCtr }
  counter : (draws = 0 ∧ t.bank.sr.seedCtr = s.bank.sr.seedCtr) ∨
    t.bank.sr.seedCtr = BitVec.ofNat 64 ((s.bank.sr.seedCtr.toNat % 2 ^ 32 + draws) % 2 ^ 32)
  units : SameUnits s t
  retired : RetiredX s t len
  rest : SameDevice s t

/-- A way of numbering the keys of a type in the order of R169: numbers by value with −0 before +0 and every NaN last and equal;
integers by value. -/
def OrdersKeys (t : ElemTy) (key : Nat → Int) : Prop :=
  ∀ x y, x < 2 ^ t.width → y < 2 ^ t.width →
    match t.fmt? with
    | none => key x = laneInt t x
    | some _ =>
      let a := decodeElem t false x
      let b := decodeElem t false y
      (a.isNan = true → b.isNan = true → key x = key y) ∧ (a.isNan = false → b.isNan = true → key x < key y) ∧
      (a.isNan = false → b.isNan = false →
        (key x < key y ↔ Num.cmp a b = .lt ∨ (Num.cmp a b = .eq ∧ a.neg? = true ∧ b.neg? = false)))

/-- `m` is the stable sort of `l`, descending or ascending in the keys' numbers (R169). -/
def StablySorted (key : Nat → Int) (asc : Bool) (l m : List (Nat × Nat)) : Prop :=
  m.Perm l ∧ m.Pairwise (fun x y => if asc = true then key x.1 ≤ key y.1 else key y.1 ≤ key x.1) ∧
  ∀ z : Int, m.filter (fun x => key x.1 == z) = l.filter (fun x => key x.1 == z)

/-- The frame of an X instruction that writes pairs of rows: `rows` lists them in the order written. -/
structure WroteRows (s t : State) (len : Nat) (rows : List (Nat × Row)) : Prop where
  acc : t.bank.xf.acc = rows.foldl (fun l r => rowPut l (s.bank.sr.vwin.toNat + r.1) r.2) s.bank.xf.acc
  x : t.bank.xf.x = s.bank.xf.x
  p : t.bank.xf.p = s.bank.xf.p
  tags : t.bank.xf.tags = s.bank.xf.tags
  af : t.bank.af = s.bank.af
  sys : t.bank.sr = { s.bank.sr with pcx := t.bank.sr.pcx, seqx := t.bank.sr.seqx }
  units : SameUnits s t
  retired : RetiredX s t len
  rest : SameDevice s t

/-- The frame of an A instruction that changes handles, barriers or rings of the moving bank only. -/
structure SyncStep (s t : State) : Prop where
  regs : SameRegs s t
  q : t.bank.q = s.bank.q
  eng : t.bank.eng = s.bank.eng
  retired : RetiredA s t 1
  rest : SameDevice s t

/-- The frame of an A instruction that writes lc[d] only. -/
structure WroteLc (s t : State) (len d : Nat) (v : BitVec 32) : Prop where
  dest : t.bank.readLc d = v
  others : ∀ r, r ≠ d → t.bank.readLc r = s.bank.readLc r
  a : t.bank.af.a = s.bank.af.a
  sd : t.bank.af.sd = s.bank.af.sd
  xf : t.bank.xf = s.bank.xf
  units : SameUnits s t
  retired : RetiredA s t len
  rest : SameDevice s t

/-- The frame of an instruction of stream `st` that changes a queue and, on the A stream, at most one a register. -/
structure QueueStep (s t : State) (len : Nat) (d : Nat) (v : Word) : Prop where
  dest : t.bank.readA d = if d = 0 then 0#64 else v
  regs : SameRegsBut s t d
  bq : t.bank.q.bq = s.bank.q.bq
  sync : t.bank.sync = s.bank.sync
  eng : t.bank.eng = s.bank.eng
  retired : RetiredA s t len
  memory : SameMemory s t

/-! ## The device outside the streams -/

/-- A start has begun (R22, R23): the root firmware has measured itself, and the service firmware where it verifies; every
context is FREE and every cell is as after a start, no graph or group is left, and no session.  Training covers every port of a
cold start and those that are not UP of a warm one, and their epochs count it from 0 (R359, R368).  The power alarm, and the stop
on new tasks, stand as they are (log 166). -/
structure StartBegun (s t : State) (cold : Bool) (failed : Nat) : Prop where
  state : t.dev.state = .starting ∧ t.dev.cold = cold ∧ t.dev.failedStarts = failed ∧ t.dev.sessions = []
  power : t.dev.alarm = s.dev.alarm ∧ t.dev.inhibit = s.dev.inhibit
  measured : (1, 0) ∈ t.dev.measured ∧ ((2, s.dev.service.number) ∈ t.dev.measured ↔ s.dev.service.verifies = true)
  ctxs : ∀ x, t.ctxAt x = .reset
  banks : ∀ c, (t.cellAt c).active = .reset ∧ (t.cellAt c).shadow = .reset ∧ (t.cellAt c).tlb = [] ∧ (t.cellAt c).cyc = 0
  counters : ∀ c, c < 256 → (t.cellAt c).counters = if cold = true then (Cell.reset c).counters else (s.cellAt c).counters
  ports : ∀ p, p < 18 → vget t.net.ports p .reset =
    if cold = false ∧ (vget s.net.ports p .reset).state = .up then { vget s.net.ports p .reset with unacked := [] }
    else
      { Port.reset with
        state := .training, lanes := 0, epoch := 1
        retry := if cold = true then 0 else (vget s.net.ports p .reset).retry, bad := (vget s.net.ports p .reset).bad }
  work : t.sched.graphs = [] ∧ t.sched.groups = [] ∧ t.saved = [] ∧ t.net.qps = []
  memory : t.mem = s.mem

/-- The device works from its recovery image, which is measured before it runs, or stands STOPPED where that image fails its
check (R21, R23). -/
structure Recovering (s t : State) (recOk : Bool) (failed : Nat) : Prop where
  state : t.dev.state = (if recOk = true then .recovery else .stopped) ∧ t.dev.failedStarts = failed ∧ t.dev.installed = false
  measured : recOk = true → (3, s.dev.recovery.number) ∈ t.dev.measured
  ctxs : ∀ x, t.ctxAt x = .reset
  banks : ∀ c, (t.cellAt c).active = .reset ∧ (t.cellAt c).shadow = .reset
  work : t.sched.graphs = [] ∧ t.sched.groups = [] ∧ t.saved = []
  memory : t.mem = s.mem

/-- What a failed start leads to (R23): another cold start, or RECOVERY after the third failure. -/
def StartFailed (s t : State) (recOk : Bool) : Prop :=
  if s.dev.failedStarts ≤ 1 then StartBegun s t true (s.dev.failedStarts + 1) else Recovering s t recOk 3

/-- The front end stands at a packet of type `ty` in its turn, and nothing makes it wait (R138, R269, R272). -/
structure AtPacket (s : State) (x q ty : Nat) (p : Packet) : Prop where
  range : x < 64 ∧ q < 16
  turn : (s.ctxAt x).queueBusy q = false ∧ s.queueTurn x q = true
  parsed : ∃ d, s.parse x q = .ok (.packet d p)
  kind : p.ty = ty
  free : p.wait = true → s.inFlight x q = false

/-- No step of the device stops: it answers a next state. -/
abbrev Answers (r : Result) : Prop := ∃ t, r = .next t

end Sys2Proof.Machine
end

