-- ==== Sys2Proof/Certificates/Slice0/Obligations.lean ====
section
/-! DEFINITION. The statements for the provers.

Each docstring names the rules of spec/ that the statement formalises.  A statement whose docstring names a log entry rests
on a choice of the model there. -/

open Sys2Proof Sys2Proof.Machine

/-! ## Encoding -/

/-- Words that the spec's examples write out decode to the instructions they stand for (R27, R30, R44 to R46). -/
def Obligations.SampleWords : Prop :=
  decode 0x00030420#32 none = .ok (.add 3 1 2) ∧ decode 0x00030427#32 none = .ok (.sra 3 1 2) ∧
  decode 0x02030BFB#32 none = .ok (.addi 3 2 0x3FB) ∧ decode 0x22040C00#32 (some 0xC00186A0#32) = .ok (.addiL 4 3 100000) ∧
  decode 0x04C50040#32 none = .ok (.li 5 0x40) ∧ decode 0x08030B00#32 none = .ok (.lds 3 2 3 0) ∧
  decode 0x0A411700#32 none = .ok (.ldvq 1 5 3 0) ∧ decode 0x10042872#32 none = .ok (.cpy 4 10 3 1 0 1 0) ∧
  decode 0x12064200#32 none = .ok (.bxinit 3 1 2) ∧ decode 0x139F0000#32 none = .ok (.fence 3 3 1) ∧
  decode 0x17040800#32 none = .ok (.trec 4 2) ∧ decode 0x1A851800#32 none = .ok (.probe 5 6) ∧
  decode 0x1C000005#32 none = .ok (.trap 5) ∧ decode 0x44C41460#32 none = .ok (.vfma 4 5 6 0) ∧
  decode 0x64C41460#32 (some 0xC7140000#32) = .ok (.vfmaL 4 5 6 0 7 1 2) ∧
  decode 0x6A021050#32 (some 0xC2004700#32) = .ok (.vcmpL 2 4 5 0 0 2 7) ∧ decode 0x58030100#32 none = .ok (.vwin 3 256) ∧
  decode 0x80C00000#32 none = .ok .sync ∧ decode 0x8140001A#32 none = .ok (.fpcAll 1 1 2) ∧
  decode 0x81800000#32 none = .ok .halt ∧ decode 0x16000001#32 none = .error .undef ∧ decode 0x16000000#32 none = .ok .tyield

/-- Every well-formed instruction that has an encoding decodes from its own bytes, whatever follows it: no bit of a field is
dropped (R27, R30, R44 to R46). -/
def Obligations.DecodeOfEncode : Prop :=
  ∀ (i : Instr) (rest : List Byte), i.wellFormed = true → encode i ≠ [] → decodeBytes (encodeBytes i ++ rest) = .ok (i, rest)

/-- What the decoder accepts is well formed (R33, R47). An instruction that decodes is one word long exactly when the L bit of
its first word is 0, and its words are the ones decoded: the decoder takes no word for another instruction's (R27, R33).  A
first word with TAG 0b11, and an extension word that is missing or has another TAG, are malformed (R29, R49). -/
def Obligations.DecodeIsExact : Prop :=
  ((∀ (w : IWord) (next : Option IWord) (i : Instr), decode w next = .ok i → i.wellFormed = true ∧ encode i ≠ []) ∧
   (∀ (w : IWord) (next : Option IWord) (i : Instr), decode w next = .ok i →
      encode i = if longOf w then w :: next.toList else [w])) ∧
  ((∀ (w : IWord) (next : Option IWord), tagOf w = 3#2 → decode w next = .error .badFirst) ∧
   (∀ w : IWord, tagOf w ≠ 3#2 → longOf w = true → decode w none = .error .badExt) ∧
   (∀ w e : IWord, tagOf w ≠ 3#2 → longOf w = true → tagOf e ≠ 3#2 → decode w (some e) = .error .badExt))

/-! ## A step -/

/-- When the agenda is empty and a stream's fetch gives a word that decodes, the step is the meaning of the decoded instruction,
after which the turn passes (R28, R49). Where the stream holds a latch entry for it, the instruction retires as its own meaning
says and the entry is gone (R339). The step of a stream that the agenda names is the meaning of the instruction that the stream
fetches, the step of an event that the agenda names is the event's meaning, where a stream's turn makes the event at all, and
the firmware acts as the agenda says. The model's choices: log entries 9, 13, 120 and 151. -/
def Obligations.StepRunsDecoded : Prop :=
  (let runs := fun (u : State) (r : Result) (after : Result → Result) =>
     ∀ (w : IWord) (next : Option IWord) (i : Instr), u.fetch u.turn = .word w next → decode w next = .ok i →
       (u.bank.latchHere u.turn = none → r = after (exec i u)) ∧
       ∀ l t, u.bank.latchHere u.turn = some l → exec i u = .next t →
         (t.bank.seq u.turn = u.bank.seq u.turn → r = after (.next t)) ∧
         (t.bank.seq u.turn ≠ u.bank.seq u.turn → ∃ v : State, r = after (.next v) ∧ v.bank = t.bank.dropLatch u.turn l)
   (∀ s : State, s.agenda = [] → s.engine = false → runs { s with freeCtr := s.freeCtr + 1 } (step s) passTurn) ∧
   (∀ (s : State) (c : Nat) (hc : c < 256) (st : Stream) (rest : List Action), s.agenda = .stream c st :: rest →
     runs { s with freeCtr := s.freeCtr + 1, agenda := rest, cur := ⟨c, hc⟩, turn := st, engine := false } (step s) id)) ∧
  (∀ (s : State) (e : Instr) (rest : List Action), s.agenda = .event e :: rest →
     let t : State := { s with freeCtr := s.freeCtr + 1, agenda := rest }
     (t.eventDue e = false → step s = .next t) ∧
     (t.eventDue e = true → step s = exec e (t.lookAhead e)) ∧
     ((∀ b, e ≠ .opcodeUndef b) → (∀ v, e ≠ .fetchMalformed v) → t.eventDue e = true) ∧
     ((∀ x l, e ≠ .preemptRequest x l) → (∀ c g, e ≠ .pageWalkComplete c g) → t.lookAhead e = t)) ∧
  (∀ (s : State) (a : FirmwareAct) (rest : List Action), s.agenda = .firmware a :: rest →
     step s = .next (State.firmware { s with freeCtr := s.freeCtr + 1, agenda := rest } a))

/-- What a stream finds in its turn (R28, R39, R62, R69, R70, R73, R81, R88, R214). A stream that may not move does nothing, and
one that leads by its window stalls. One whose PC lies in the galley entry that it has entered finds the word there and the word
after it: a word of TAG 0b11 faults, a word tagged for it is the one to decode, and it skips a word that is not, except that the
X stream waits at an SRD or SWR that it must meet. One whose PC does not enters the region of TEXT that begins there, and then
stands at TEXT's word; a PC outside TEXT faults; and TEXT of a kernel that is gone is not mapped. The model's choices: log
entries 9, 24 and 32. -/
def Obligations.FetchReadsText : Prop :=
  ∀ (s : State) (st : Stream),
    let pc := s.bank.pc st
    (s.canRun st = false → s.fetch st = .done s) ∧
    ∀ x : Nat, s.canRun st = true → s.owner = some x →
      (s.bank.window st ≤ s.bank.lead st → s.fetch st = .done (s.slipStall st)) ∧
      (s.bank.lead st < s.bank.window st →
        (∀ w next, s.bank.entryWord st = some (w, next) →
          (tagOf w = 3#2 → s.fetch st = .done (s.raise st .fetchMalformed pc)) ∧
          (tagOf w ≠ 3#2 → taggedFor w st = true → s.fetch st = .word w next) ∧
          (tagOf w ≠ 3#2 → taggedFor w st = false →
            s.fetch st = if st = .x ∧ meetsX w = true ∧ s.bank.walk.wmaxa ≤ s.bank.walk.wx then .done (s.stallPeer .x)
              else .done (s.skip st (if longOf w then 2 else 1)))) ∧
        (s.bank.entryWord st = none →
          (∀ k, s.kernel = some k →
            (textIndex k pc = none → s.fetch st = .done (s.raise st .fetchMalformed pc)) ∧
            (∀ i, textIndex k pc = some i → s.fetch st = .done (s.enterRegion st x k i) ∧
              (∀ e, s.textCheck k i pc = some e → s.enterRegion st x k i = s.stop st e) ∧
              ∀ w, k.text[i]? = some w → s.textCheck k i pc = none →
                s.chunkBad (s.regionKey x st k i (regionLen k.text k.textG.toNat i)) = false →
                ∃ next, (s.enterRegion st x k i).bank.entryWord st = some (w, next) ∧ (longOf w = true → next = k.text[i + 1]?))) ∧
          (s.kernel = none →
            (∀ e, s.textStop pc = some e → s.fetch st = .done (s.stop st e)) ∧
            (s.textStop pc = none → s.fetch st = .done (s.raise st .fetchMalformed pc)))))

/-- A step answers a next state, unless an event of the agenda names an object that the device lacks: no instruction and no
event of the table is refused. Every well-formed instruction and event answers a next state in every state. The model's choices:
log entries 9 and 13. -/
def Obligations.NothingIsRefused : Prop :=
  (∀ s : State, (∀ e rest, s.agenda = .event e :: rest → e.wellFormed = true) →
     (∀ c st rest, s.agenda = .stream c st :: rest → c < 256) → Answers (step s)) ∧
  (∀ (i : Instr) (s : State), i.wellFormed = true → Answers (exec i s))

/-! ## Registers, reset and shard start -/

/-- The register files read back what is written, with the hard-wired a0, x0 and p0 (R34, R35).  In memory in canonical form a
byte written is read back and no other byte changes, and the form is kept; the same holds of the rows of the accumulator array
(R9, R35). -/
def Obligations.RegistersAndMemory : Prop :=
  (∀ (b : Bank) (r q : Nat),
     (∀ v, (b.writeA r v).readA q = if q = 0 then 0 else if q = r ∧ r < 64 then v else b.readA q) ∧
     (∀ v, (b.writeX r v).readX q = if q = 0 then 0 else if q = r ∧ r < 32 then v else b.readX q) ∧
     (∀ v, (b.writeP r v).readP q = if q = 0 then BitVec.allOnes 256 else if q = r ∧ r < 16 then v else b.readP q) ∧
     (∀ v, (b.writeLc r v).readLc q = if q = r ∧ r < 8 then v else b.readLc q) ∧
     (∀ v, (b.writeSd r v).readSd q = if q = r ∧ r < 16 then v else b.readSd q) ∧
     (∀ v, (b.writeA 0 v) = b) ∧ (∀ v, (b.writeX 0 v) = b) ∧ (∀ v, (b.writeP 0 v) = b)) ∧
  ((∀ (m : Memory) (a k : Nat) (v : Byte), m.wf = true →
     (memPut m a v).wf = true ∧ memGet (memPut m a v) k = if k = a then v else memGet m k) ∧
   (∀ (l : List (Nat × Row)) (r q : Nat) (v : Row), rowsAscend l = true →
     rowsAscend (rowPut l r v) = true ∧ rowGet (rowPut l r v) q = if q = r then v else rowGet l q))

/-- Every step keeps the memory's canonical form: keys rise strictly and no entry equals the blank byte. -/
def Obligations.StepKeepsMemory : Prop :=
  ∀ s t : State, s.mem.wf = true → step s = .next t → t.mem.wf = true

/-- The machine after reset: a completed cold start. Memory has its canonical form and every byte reads 0, every context is FREE
with no kernel, every cell's banks are free of a shard and its sr.cyc is 0 (R22, R38). The registers of a shard that starts
(R37, R38, R303, R304): a1 is ARGS and every other a register is 0; the x, lc and sd registers and the rows are 0; p1 to p15 are
all-false and every tile is tagged f32; the system registers have their reset values but for those that the launch sets. The
model's choices: log entries 1, 2, 3, 4, 5, 7 and 167. -/
def Obligations.ResetAndStart : Prop :=
  (State.reset.mem.wf = true ∧ (∀ k, memGet State.reset.mem k = 0) ∧
   (∀ x, (State.reset.ctxAt x).state = .free ∧ (State.reset.ctxAt x).kernels = []) ∧
   (∀ c, c < 256 → (State.reset.cellAt c).active.ctl.owner = none ∧ (State.reset.cellAt c).shadow.ctl.owner = none ∧
     (State.reset.cellAt c).cyc = 0 ∧ (State.reset.cellAt c).tlb = []) ∧
   State.reset.sched.graphs = [] ∧ State.reset.sched.groups = [] ∧ State.reset.sched.plates = [] ∧
   State.reset.dev.state = .ready ∧ State.reset.dev.failedStarts = 0) ∧
  (∀ (c : Ctx) (k : Kernel) (g : Group) (n t r : Nat),
     let b := shardBank c k g n t
     b.readA r = (if r = 1 then g.args else 0) ∧ b.readX r = 0 ∧ b.readLc r = 0 ∧ b.readSd r = 0 ∧
     b.readP r = (if r = 0 then BitVec.allOnes 256 else 0) ∧ b.readRow r = 0 ∧ (r < 32 → vget b.xf.tags r .i32 = .f32) ∧
     b.sr.fpcA = 1 ∧ b.sr.fpcX = 1 ∧ b.sr.windowA = 4096 ∧ b.sr.windowX = 4096 ∧ b.sr.fflags = 0 ∧ b.sr.vwin = 0 ∧
     b.sr.seed = 0 ∧ b.sr.seedCtr = 0 ∧ b.sr.seqa = 0 ∧ b.sr.seqx = 0 ∧ b.sr.cause = 0 ∧ b.sr.fva = 0 ∧
     b.sr.task = BitVec.ofNat 64 g.tcb ∧ b.sr.ctx = BitVec.ofNat 64 g.ctx ∧ b.sr.asid = BitVec.ofNat 64 c.asid ∧
     b.sr.pca = k.textG + BitVec.ofNat 64 k.entry ∧ b.sr.pcx = b.sr.pca ∧
     b.sr.shard = shardWords (groupLevels k g.exts) t (n % g.p) (n / g.p) ∧
     b.walk = ⟨0, 0, 0, 0⟩ ∧ b.q = .reset ∧ b.ctl.level = .task)

/-! ## Address spaces -/

/-- The address spaces and their checks (R208, R209, R213, R216, R334). S space ends at 6 MiB and waits for a line that holds
another context's image; C space names a cell of the cluster that belongs to the partition, and reaches that cell's image, which
is waited for while it is not held; G space is its window, and an access within one 64 KiB page reaches the page's frame or
takes the fault of the first check that fails; a page that is not present or malformed is PAGE_NOT_PRESENT, one whose bits
forbid the access PAGE_PERM, and one of order 0b11, or of order UNORDERED under an annotated access, PAGE_ORD. A scope of 5 to
7, and an order that the instruction does not take, are OPERAND_ILLEGAL in the long forms (R31, R104); so are t odd, or a width
of 1 or 2 bytes, in a compare-and-swap (R114), and an R-space code above 7 (R36), in both forms. The model's choices: log
entries 22, 62, 64 and 65. -/
def Obligations.AddressSpaces : Prop :=
  ((∀ (s : State) (a : Access) (ea : Word) (n : Nat), 0 < n →
     let g := ea.toNat
     let tag := fun (l : Nat) => vget (s.cellAt s.cellNo).lineTags l none
     (g + n ≤ 0x600000 →
       ((∀ l, g / 65536 ≤ l → l ≤ (g + n - 1) / 65536 → ∀ y, tag l = some y → y = s.ctxNo) →
         s.locate .s a ea n = .ok [⟨none, spadKey s.ctxNo s.cellNo g, n, 0⟩]) ∧
       (∀ l y, g / 65536 ≤ l → l ≤ (g + n - 1) / 65536 → tag l = some y → y ≠ s.ctxNo →
         (∀ m z, g / 65536 ≤ m → m < l → tag m = some z → z = s.ctxNo) → s.locate .s a ea n = .error (.waitLine l))) ∧
     (∀ (st : Stream) (l : Nat), Waits s (s.stop st (.waitLine l)) st ∧ (s.stop st (.waitLine l)).bank.ctl.wantLine = some l) ∧
     (0x600000 < g + n → s.locate .s a ea n = .error (.fault .accessRange ea)) ∧
     (let t := s.cellNo / 8 * 8 + g / 2 ^ 23 % 8
      let off := g % 2 ^ 23
      (2 ^ 26 ≤ g ∨ 0x600000 < off + n ∨ (s.ctxAt s.ctxNo).part.getLsbD t = false →
        s.locate .c a ea n = .error (.fault .accessRange ea)) ∧
      (g < 2 ^ 26 → off + n ≤ 0x600000 → (s.ctxAt s.ctxNo).part.getLsbD t = true →
        (t = s.cellNo → s.locate .c a ea n = s.locate .s a (BitVec.ofNat 64 off) n) ∧
        (t ≠ s.cellNo →
          (s.imageHeld s.ctxNo t off = true → s.imageHeld s.ctxNo t (off + n - 1) = true →
            s.locate .c a ea n = .ok [⟨none, spadKey s.ctxNo t off, n, 0⟩]) ∧
          (s.imageHeld s.ctxNo t off = false ∨ s.imageHeld s.ctxNo t (off + n - 1) = false →
            s.locate .c a ea n = .error .wait)))) ∧
     (g < 0x10000 ∨ 0xFFFF0000000000 < g + n → s.locate .g a ea n = .error (.fault .accessRange ea)) ∧
     (0x10000 ≤ g → g + n ≤ 0xFFFF0000000000 → g % 65536 + n ≤ 65536 →
       let w := s.lookup (some s.cellNo) s.ctxNo g
       (∀ k, w = .lost k → s.locate .g a ea n = .error (.lost k)) ∧
       (∀ c, check3 a w = some c → s.locate .g a ea n = .error (.fault c ea)) ∧
       (∀ c, check3 a w = none → check4 a w = some c → s.locate .g a ea n = .error (.fault c ea)) ∧
       (∀ x, w = .leaf x → check3 a w = none → check4 a w = none →
         s.locate .g a ea n = .ok [⟨some g, x.key + g % 65536, n, x.size⟩]))) ∧
   (∀ a : Access, check3 a .notPresent = some .pageNotPresent ∧ check3 a .malformed = some .pageNotPresent) ∧
   (∀ (a : Access) (x : Xlat),
     check3 a (.leaf x) = (if (a.rd = true ∧ x.rd = false) ∨ (a.wr = true ∧ x.wr = false) ∨ (a.ex = true ∧ x.ex = false) ∨
         (a.level = .task ∧ x.task = false) ∨ x.far ≠ a.farSrc then some Cause.pagePerm else none) ∧
     check4 a (.leaf x) = (if x.ord = 3 ∨ (x.ord = 2 ∧ a.annotated = true) then some Cause.pageOrd else none))) ∧
  (∀ (s : State) (t b : BitVec 6) (sz : BitVec 2) (sc : BitVec 3) (od : BitVec 2) (off : BitVec 25), s.faultless →
     (5 ≤ sc.toNat ∨ od = 2#2 ∨ od = 3#2 → ∀ i ∈ [Instr.ldsL t b sz sc od off, .ldcL t b sz sc od off, .ldgL t b sz sc od off,
         .ldrL t b sz sc od off, .ldvqL t b sz sc od off, .ldgvL t b sz sc od off],
       ∃ u, exec i s = .next u ∧ Raised s u 0 .operandIllegal s.bank.sr.pca) ∧
     (5 ≤ sc.toNat ∨ od = 1#2 ∨ od = 3#2 → ∀ i ∈ [Instr.stsL t b sz sc od off, .stcL t b sz sc od off, .stgL t b sz sc od off,
         .strL t b sz sc od off, .stvqL t b sz sc od off],
       ∃ u, exec i s = .next u ∧ Raised s u 0 .operandIllegal s.bank.sr.pca) ∧
     (5 ≤ sc.toNat → ∀ i ∈ [Instr.amogL t b sz sc od off, .amosL t b sz sc od off, .casgL t b sz sc od off, .cassL t b sz sc od off],
       ∃ u, exec i s = .next u ∧ Raised s u 0 .operandIllegal s.bank.sr.pca) ∧
     (sz.toNat < 2 ∨ t.toNat % 2 = 1 → ∀ o, ∀ i ∈ [Instr.casg t b sz o, .cass t b sz o, .casgL t b sz sc od off, .cassL t b sz sc od off],
       ∃ u, exec i s = .next u ∧ Raised s u 0 .operandIllegal s.bank.sr.pca) ∧
     (8 ≤ b.toNat → ∀ o, ∀ i ∈ [Instr.ldr t b sz o, .str t b sz o, .ldrL t b sz sc od off, .strL t b sz sc od off],
       ∃ u, exec i s = .next u ∧ Raised s u 0 .operandIllegal s.bank.sr.pca) ∧
     (sc ≠ 0#3 ∨ od ≠ 0#2 → ∃ u, exec (.cpreL b sc od off) s = .next u ∧ Raised s u 0 .operandIllegal s.bank.sr.pca))

/-! ## Integer instructions of the A stream -/

/-- The three-register instructions of R94 and R95: the words of format R3 under majors 0x00 and 0x01 (TAG, L, MAJOR, d, a, b and
f, from the top) are these instructions; the result of each, and its frame. -/
def Obligations.AluResults : Prop :=
  (∀ (d a b : BitVec 6) (next : Option IWord), ∀ x ∈ [
      (0#7, 0#4, Instr.add d a b), (0#7, 1#4, Instr.sub d a b), (0#7, 2#4, Instr.and d a b), (0#7, 3#4, Instr.or d a b),
      (0#7, 4#4, Instr.xor d a b), (0#7, 5#4, Instr.shl d a b), (0#7, 6#4, Instr.shr d a b), (0#7, 7#4, Instr.sra d a b),
      (0#7, 8#4, Instr.rotr d a b), (0#7, 9#4, Instr.min d a b), (0#7, 10#4, Instr.max d a b), (0#7, 11#4, Instr.minu d a b),
      (0#7, 12#4, Instr.maxu d a b), (0#7, 13#4, Instr.slt d a b), (0#7, 14#4, Instr.sltu d a b),
      (0#7, 15#4, Instr.seq d a b), (1#7, 0#4, .mul d a b), (1#7, 1#4, .mulh d a b), (1#7, 2#4, .mulhu d a b),
      (1#7, 3#4, .div d a b), (1#7, 4#4, .divu d a b), (1#7, 5#4, .rem d a b), (1#7, 6#4, .remu d a b),
      (1#7, 7#4, .sel d a b)],
    decode (0#2 ++ 0#1 ++ x.1 ++ d ++ a ++ b ++ x.2.1) next = .ok x.2.2) ∧
  (∀ (s : State) (d a b : BitVec 6),
     let x := s.bank.readA a.toNat
     let y := s.bank.readA b.toNat
     let n := y.toNat % 64
     let old := s.bank.readA d.toNat
     AnswersA (.add d a b) s 1 d (x + y) ∧ AnswersA (.sub d a b) s 1 d (x - y) ∧
     AnswersA (.and d a b) s 1 d (x &&& y) ∧ AnswersA (.or d a b) s 1 d (x ||| y) ∧ AnswersA (.xor d a b) s 1 d (x ^^^ y) ∧
     AnswersA (.shl d a b) s 1 d (x <<< n) ∧ AnswersA (.shr d a b) s 1 d (x >>> n) ∧
     AnswersA (.sra d a b) s 1 d (x.sshiftRight n) ∧ AnswersA (.rotr d a b) s 1 d (x.rotateRight n) ∧
     AnswersA (.min d a b) s 1 d (if x.toInt ≤ y.toInt then x else y) ∧
     AnswersA (.max d a b) s 1 d (if x.toInt ≤ y.toInt then y else x) ∧
     AnswersA (.minu d a b) s 1 d (if x.toNat ≤ y.toNat then x else y) ∧
     AnswersA (.maxu d a b) s 1 d (if x.toNat ≤ y.toNat then y else x) ∧
     AnswersA (.slt d a b) s 1 d (if x.toInt < y.toInt then 1 else 0) ∧
     AnswersA (.sltu d a b) s 1 d (if x.toNat < y.toNat then 1 else 0) ∧
     AnswersA (.seq d a b) s 1 d (if x = y then 1 else 0) ∧
     AnswersA (.mul d a b) s 1 d (BitVec.ofInt 64 (x.toInt * y.toInt)) ∧
     AnswersA (.mulh d a b) s 1 d (BitVec.ofInt 64 ((x.toInt * y.toInt) / 2 ^ 64)) ∧
     AnswersA (.mulhu d a b) s 1 d (BitVec.ofNat 64 ((x.toNat * y.toNat) / 2 ^ 64)) ∧
     AnswersA (.div d a b) s 1 d (if y = 0 then BitVec.allOnes 64 else BitVec.ofInt 64 (x.toInt.tdiv y.toInt)) ∧
     AnswersA (.divu d a b) s 1 d (if y = 0 then BitVec.allOnes 64 else x / y) ∧
     AnswersA (.rem d a b) s 1 d (if y = 0 then x else BitVec.ofInt 64 (x.toInt.tmod y.toInt)) ∧
     AnswersA (.remu d a b) s 1 d (if y = 0 then x else x % y) ∧
     AnswersA (.sel d a b) s 1 d (if old = 0 then y else x))

/-- The one-operand instructions of R96, in the words of format R3 under major 0x02: for SEXT and ZEXT the b field holds one less
than the width, and for the others it must be 0. The bit-field instructions of R97, in the words of format I under majors 0x03 and 0x04: p is
the low 6 bits of the immediate and w its next 6; where p + w + 1 is at most 64 and the immediate lies in 0 to 4,095 the field is
moved, and otherwise OPERAND_ILLEGAL is raised. -/
def Obligations.BitsAndFields : Prop :=
  (∀ (d a n : BitVec 6) (next : Option IWord), ∀ x ∈ [
      (0#6, 0#4, Instr.clz d a), (0#6, 1#4, .ctz d a), (0#6, 2#4, .popc d a), (n, 3#4, .sext d a n), (n, 4#4, .zext d a n),
      (0#6, 5#4, .bswap d a)],
    decode (0#2 ++ 0#1 ++ 2#7 ++ d ++ a ++ x.1 ++ x.2.1) next = .ok x.2.2) ∧
  (∀ (d a b : BitVec 6) (next : Option IWord), b ≠ 0 → ∀ f ∈ [0#4, 1#4, 2#4, 5#4],
    decode (0#2 ++ 0#1 ++ 2#7 ++ d ++ a ++ b ++ f) next = .error .undef) ∧
  (∀ (d a : BitVec 6) (im : BitVec 10) (il : BitVec 30) (next : Option IWord),
    decode (0#2 ++ 0#1 ++ 3#7 ++ d ++ a ++ im) next = .ok (.bfx d a im) ∧
    decode (0#2 ++ 0#1 ++ 4#7 ++ d ++ a ++ im) next = .ok (.bfi d a im) ∧
    decode (0#2 ++ 1#1 ++ 3#7 ++ d ++ a ++ 0#10) (some (3#2 ++ il)) = .ok (.bfxL d a il) ∧
    decode (0#2 ++ 1#1 ++ 4#7 ++ d ++ a ++ 0#10) (some (3#2 ++ il)) = .ok (.bfiL d a il)) ∧
  (∀ (s : State) (d a n : BitVec 6),
     let x := s.bank.readA a.toNat
     (∃ c, AnswersA (.clz d a) s 1 d (BitVec.ofNat 64 c) ∧ c ≤ 64 ∧ (∀ i, i < c → x.getMsbD i = false) ∧ (c < 64 → x.getMsbD c = true)) ∧
     (∃ c, AnswersA (.ctz d a) s 1 d (BitVec.ofNat 64 c) ∧ c ≤ 64 ∧ (∀ i, i < c → x.getLsbD i = false) ∧ (c < 64 → x.getLsbD c = true)) ∧
     AnswersA (.popc d a) s 1 d (BitVec.ofNat 64 ((List.range 64).filter x.getLsbD).length) ∧
     (∃ r : Word, AnswersA (.sext d a n) s 1 d r ∧ ∀ i, i < 64 → r.getLsbD i = x.getLsbD (min i n.toNat)) ∧
     (∃ r : Word, AnswersA (.zext d a n) s 1 d r ∧ ∀ i, i < 64 → r.getLsbD i = (decide (i ≤ n.toNat) && x.getLsbD i)) ∧
     (∃ r : Word, AnswersA (.bswap d a) s 1 d r ∧ ∀ i, i < 8 → r.extractLsb' (8 * i) 8 = x.extractLsb' (56 - 8 * i) 8)) ∧
  (∀ (s : State) (d a : BitVec 6) (v : Word) (len : Nat) (bfx bfi : Instr),
     (∃ im : BitVec 10, v = im.signExtend 64 ∧ len = 1 ∧ bfx = .bfx d a im ∧ bfi = .bfi d a im) ∨
       (∃ im : BitVec 30, v = im.signExtend 64 ∧ len = 2 ∧ bfx = .bfxL d a im ∧ bfi = .bfiL d a im) →
     let p := v.toNat % 64
     let n := v.toNat / 64 + 1
     let x := s.bank.readA a.toNat
     let old := s.bank.readA d.toNat
     (v.toNat < 4096 ∧ p + n ≤ 64 →
       (∃ r : Word, AnswersA bfx s len d r ∧ ∀ i, i < 64 → r.getLsbD i = (decide (i < n) && x.getLsbD (p + i))) ∧
       (∃ r : Word, AnswersA bfi s len d r ∧
         ∀ i, i < 64 → r.getLsbD i = if p ≤ i ∧ i < p + n then x.getLsbD (i - p) else old.getLsbD i)) ∧
     (s.faultless → ¬ (v.toNat < 4096 ∧ p + n ≤ 64) →
       (∃ t, exec bfx s = .next t ∧ Raised s t 0 .operandIllegal s.bank.sr.pca) ∧
       (∃ t, exec bfi s = .next t ∧ Raised s t 0 .operandIllegal s.bank.sr.pca)))

/-- The immediate instructions of R98, in both forms: the immediate is sign-extended, and a shift count outside 0 to 63 is
OPERAND_ILLEGAL.  LSET of R100 in both forms: the sum is cut to 0 to 2^32 − 1; a code above 7 is OPERAND_ILLEGAL (R34). -/
def Obligations.Immediates : Prop :=
  (∀ (s : State) (d a : BitVec 6) (im : BitVec 10) (il : BitVec 30),
     let x := s.bank.readA a.toNat
     let v : Word := im.signExtend 64
     let u : Word := il.signExtend 64
     (AnswersA (.addi d a im) s 1 d (x + v) ∧ AnswersA (.addiL d a il) s 2 d (x + u)) ∧
     (AnswersA (.andi d a im) s 1 d (x &&& v) ∧ AnswersA (.andiL d a il) s 2 d (x &&& u)) ∧
     (AnswersA (.ori d a im) s 1 d (x ||| v) ∧ AnswersA (.oriL d a il) s 2 d (x ||| u)) ∧
     (AnswersA (.xori d a im) s 1 d (x ^^^ v) ∧ AnswersA (.xoriL d a il) s 2 d (x ^^^ u)) ∧
     (AnswersA (.muli d a im) s 1 d (x * v) ∧ AnswersA (.muliL d a il) s 2 d (x * u)) ∧
     (AnswersA (.slti d a im) s 1 d (if x.toInt < im.toInt then 1 else 0) ∧
       AnswersA (.sltiL d a il) s 2 d (if x.toInt < il.toInt then 1 else 0)) ∧
     (AnswersA (.sltiu d a im) s 1 d (if x.toNat < v.toNat then 1 else 0) ∧
       AnswersA (.sltiuL d a il) s 2 d (if x.toNat < u.toNat then 1 else 0)) ∧
     (AnswersA (.seqi d a im) s 1 d (if x = v then 1 else 0) ∧ AnswersA (.seqiL d a il) s 2 d (if x = u then 1 else 0)) ∧
     (v.toNat < 64 → AnswersA (.shli d a im) s 1 d (x <<< v.toNat) ∧ AnswersA (.shri d a im) s 1 d (x >>> v.toNat) ∧
       AnswersA (.srai d a im) s 1 d (x.sshiftRight v.toNat)) ∧
     (u.toNat < 64 → AnswersA (.shliL d a il) s 2 d (x <<< u.toNat) ∧ AnswersA (.shriL d a il) s 2 d (x >>> u.toNat) ∧
       AnswersA (.sraiL d a il) s 2 d (x.sshiftRight u.toNat)) ∧
     (s.faultless → 64 ≤ v.toNat → ∀ i ∈ [Instr.shli d a im, .shri d a im, .srai d a im],
       ∃ t, exec i s = .next t ∧ Raised s t 0 .operandIllegal s.bank.sr.pca) ∧
     (s.faultless → 64 ≤ u.toNat → ∀ i ∈ [Instr.shliL d a il, .shriL d a il, .sraiL d a il],
       ∃ t, exec i s = .next t ∧ Raised s t 0 .operandIllegal s.bank.sr.pca)) ∧
  (∀ (s : State) (d a : BitVec 6) (len : Nat) (k : Int) (i : Instr),
     (∃ im : BitVec 10, i = .lset d a im ∧ len = 1 ∧ k = im.toInt) ∨ (∃ im : BitVec 30, i = .lsetL d a im ∧ len = 2 ∧ k = im.toInt) →
     let v := max 0 (min ((s.bank.readA a.toNat).toInt + k) (2 ^ 32 - 1))
     (d.toNat < 8 → ∃ t, exec i s = .next t ∧ WroteLc s t len d.toNat (BitVec.ofInt 32 v)) ∧
     (8 ≤ d.toNat → s.faultless → ∃ t, exec i s = .next t ∧ Raised s t 0 .operandIllegal s.bank.sr.pca))

/-- LI and LIH (R99): the words of format W under majors 0x13 and 0x14 are these instructions, and they write a[d] with the
sign-extended immediate, or with a[d] << 16 plus it.  The rule's three words are its example. -/
def Obligations.LoadImmediate : Prop :=
  (∀ (d : BitVec 6) (im : BitVec 16) (next : Option IWord),
    decode (BitVec.ofNat 32 (0x13 * 2 ^ 22 + d.toNat * 2 ^ 16 + im.toNat)) next = .ok (.li d im) ∧
    decode (BitVec.ofNat 32 (0x14 * 2 ^ 22 + d.toNat * 2 ^ 16 + im.toNat)) next = .ok (.lih d im)) ∧
  (∀ (s : State) (d : BitVec 6) (im : BitVec 16),
    AnswersA (.li d im) s 1 d (im.signExtend 64) ∧
    AnswersA (.lih d im) s 1 d ((s.bank.readA d.toNat <<< 16) + im.setWidth 64)) ∧
  (decode 0x04C50040#32 none = .ok (.li 5 0x40) ∧ decode 0x05050000#32 none = .ok (.lih 5 0) ∧
    decode 0x0505FF00#32 none = .ok (.lih 5 0xFF00) ∧
    ((((0x40#16).signExtend 64 <<< 16) + (0#16).setWidth 64) <<< 16) + (0xFF00#16).setWidth 64 = 0x000000400000FF00#64)

/-- XLI and XLIH (R160): the words of format W under majors 0x04 and 0x05 of the X stream are these instructions, and they write
x[d] with the sign-extended immediate, or with x[d] << 16 plus it, modulo 2^64; a code above 31 is OPERAND_ILLEGAL (R35). -/
def Obligations.LoadImmediateX : Prop :=
  (∀ (d : BitVec 6) (im : BitVec 16) (next : Option IWord),
    decode (BitVec.ofNat 32 (2 ^ 30 + 0x04 * 2 ^ 22 + d.toNat * 2 ^ 16 + im.toNat)) next = .ok (.xli d im) ∧
    decode (BitVec.ofNat 32 (2 ^ 30 + 0x05 * 2 ^ 22 + d.toNat * 2 ^ 16 + im.toNat)) next = .ok (.xlih d im)) ∧
  (∀ (s : State) (d : BitVec 6) (im : BitVec 16),
    (d.toNat < 32 → AnswersX (.xli d im) s 1 d (im.signExtend 64) ∧
      AnswersX (.xlih d im) s 1 d ((s.bank.readX d.toNat <<< 16) + im.setWidth 64)) ∧
    (s.faultless → 32 ≤ d.toNat → ∀ i ∈ [Instr.xli d im, .xlih d im],
      ∃ t, exec i s = .next t ∧ Raised s t 1 .operandIllegal s.bank.sr.pcx))

/-- VPERM (R172): its words under major 0x37; each active lane i takes lane q of v[a], where q is the unsigned lane i of v[b],
and all-zero bits where q is not below n; no flag is set and the other lanes keep their bits. It waits for the tile-engine
operations on its tile (R157). The model's choices: log entry 45. -/
def Obligations.Permute : Prop :=
  (∀ (d a b : BitVec 6) (p : BitVec 4) (next : Option IWord),
    decode (BitVec.ofNat 32 (2 ^ 30 + 0x37 * 2 ^ 22 + d.toNat * 2 ^ 16 + a.toNat * 2 ^ 10 + b.toNat * 2 ^ 4 + p.toNat)) next =
      .ok (.vperm d a b p)) ∧
  (∀ (s : State) (d a b : BitVec 6) (p : BitVec 4),
    let n := s.bank.lanes
    let q := fun (j : Nat) => s.bank.lane b j
    BothForms (fun i len ty _ => ∀ t, opType s ty = some t →
        (s.windowFree → AnswersLanes i s len d (s.bank.active p) (fun j => (if q j < n then s.bank.lane a (q j) else 0, 0)) 0) ∧
        (s.tileHeld (s.bank.sr.vwin.toNat / 128) = true → ∃ u, exec i s = .next u ∧ Waits s u .x))
      (.vperm d a b p) (fun ty _ => .vpermL d a b p ty))

/-! ## Queues and memory instructions of the A stream -/

/-- The scalar queues (R82, R83, R102, R103, R161). QPUSH appends a scalar to qx[d], and QPOPA takes the head of qa[a]; XQPUSH
appends to qa[d], and XQPOP takes a scalar at the head of qx[a]. A push to a full queue and a pop of an empty one, or of a
reserved head, wait; XQPOP of a row is OPERAND_FORMAT, and a code out of range OPERAND_ILLEGAL. The model's choices: log entry
34. -/
def Obligations.ScalarQueues : Prop :=
  ∀ (s : State) (d a : BitVec 6),
    (d.toNat < 4 → (s.bank.qx d.toNat).length < 8 → ∃ t, exec (.qpush d a) s = .next t ∧
      t.bank.qx d.toNat = s.bank.qx d.toNat ++ [.scalar (s.bank.readA a.toNat)] ∧
      (∀ q, q ≠ d.toNat → t.bank.qx q = s.bank.qx q) ∧ t.bank.q.qa = s.bank.q.qa ∧ QueueStep s t 1 0 0) ∧
    (d.toNat < 4 → 8 ≤ (s.bank.qx d.toNat).length → ∃ t, exec (.qpush d a) s = .next t ∧ Waits s t .a) ∧
    (a.toNat < 2 → ∀ v rest, s.bank.qa a.toNat = v :: rest → ∃ t, exec (.qpopa d a) s = .next t ∧
      t.bank.qa a.toNat = rest ∧ (∀ q, q ≠ a.toNat → t.bank.qa q = s.bank.qa q) ∧ t.bank.q.qx = s.bank.q.qx ∧
      QueueStep s t 1 d.toNat v) ∧
    (a.toNat < 2 → s.bank.qa a.toNat = [] → ∃ t, exec (.qpopa d a) s = .next t ∧ Waits s t .a) ∧
    (d.toNat < 2 → a.toNat < 32 → (s.bank.qa d.toNat).length < 16 → ∃ t, exec (.xqpush d a) s = .next t ∧
      t.bank.qa d.toNat = s.bank.qa d.toNat ++ [s.bank.readX a.toNat] ∧ (∀ q, q ≠ d.toNat → t.bank.qa q = s.bank.qa q) ∧
      t.bank.q.qx = s.bank.q.qx ∧ SameRegs s t ∧ RetiredX s t 1 ∧ SameMemory s t) ∧
    (d.toNat < 2 → a.toNat < 32 → 16 ≤ (s.bank.qa d.toNat).length → ∃ t, exec (.xqpush d a) s = .next t ∧ Waits s t .x) ∧
    (d.toNat < 32 → a.toNat < 4 → ∀ v rest, s.bank.qx a.toNat = .scalar v :: rest → ∃ t, exec (.xqpop d a) s = .next t ∧
      t.bank.qx a.toNat = rest ∧ (∀ q, q ≠ a.toNat → t.bank.qx q = s.bank.qx q) ∧ t.bank.q.qa = s.bank.q.qa ∧
      (t.bank.readX d.toNat = if d.toNat = 0 then 0 else v) ∧ SameXRegsBut s t d.toNat ∧ RetiredX s t 1 ∧ SameMemory s t) ∧
    (d.toNat < 32 → a.toNat < 4 → (s.bank.qx a.toNat = [] ∨ ∃ ps r rest, s.bank.qx a.toNat = .pending ps r :: rest) →
      ∃ t, exec (.xqpop d a) s = .next t ∧ Waits s t .x) ∧
    (s.faultless →
      (d.toNat < 32 → a.toNat < 4 → ∀ r rest, s.bank.qx a.toNat = .row r :: rest →
        ∃ t, exec (.xqpop d a) s = .next t ∧ Raised s t 1 .operandFormat 0) ∧
      (4 ≤ d.toNat → ∃ t, exec (.qpush d a) s = .next t ∧ Raised s t 0 .operandIllegal s.bank.sr.pca) ∧
      (2 ≤ a.toNat → ∃ t, exec (.qpopa d a) s = .next t ∧ Raised s t 0 .operandIllegal s.bank.sr.pca) ∧
      (2 ≤ d.toNat ∨ 32 ≤ a.toNat → ∃ t, exec (.xqpush d a) s = .next t ∧ Raised s t 1 .operandIllegal s.bank.sr.pcx) ∧
      (32 ≤ d.toNat ∨ 4 ≤ a.toNat → ∃ t, exec (.xqpop d a) s = .next t ∧ Raised s t 1 .operandIllegal s.bank.sr.pcx))

/-- The scalar loads LDS, LDC, LDG and LDR in both forms (R9, R31, R104, R106 to R108): where the checks pass, the bytes at the
effective address, little-endian and zero-extended, go to a[t]; where a check fails, its fault is raised and nothing else
changes. A load annotated at GANG scope does so while every device of the gang is in reach (R360). The model's choices: log
entries 10, 62 and 146. -/
def Obligations.ScalarLoads : Prop :=
  ∀ (s : State) (i : Instr) (f : MemForm), loadForm s.bank i = some f → s.unreachable s.ctxNo = none →
    (∀ ps, s.resolve f.sp { Access.load s.level with annotated := f.marked } f.ea f.n = .ok ps → s.clean ps →
      AnswersA i s f.len f.reg (BitVec.ofNat 64 (natOfBytes (s.peekParts ps)))) ∧
    (∀ c g, s.faultless → s.resolve f.sp { Access.load s.level with annotated := f.marked } f.ea f.n = .error (.fault c g) →
      ∃ t, exec i s = .next t ∧ Raised s t 0 c g)

/-- The scalar stores STS, STC, STG and STR in both forms (R9, R31, R104, R106 to R108): where the checks pass, the low bytes of
a[t] are in memory at the effective address, no other byte of memory changes, and no register but the A stream's own PC and
counts; where a check fails, its fault is raised and nothing is written. The model's choices: log entries 10, 62 and 146. -/
def Obligations.ScalarStores : Prop :=
  ∀ (s : State) (i : Instr) (f : MemForm), s.mem.wf = true → storeForm s.bank i = some f → s.unreachable s.ctxNo = none →
    (∀ ps, s.resolve f.sp { Access.store s.level with annotated := f.marked } f.ea f.n = .ok ps → s.storePoison ps = none →
      ∃ t, exec i s = .next t ∧ StoredA s t f.len ps (bytesOfWord64 (s.bank.readA f.reg.toNat) f.n) ∧ SameRegs s t ∧
        ∀ p, ps = [p] → memRead t.mem p.key p.len = (bytesOfWord64 (s.bank.readA f.reg.toNat) f.n).take p.len) ∧
    (∀ c g, s.faultless → s.resolve f.sp { Access.store s.level with annotated := f.marked } f.ea f.n = .error (.fault c g) →
      ∃ t, exec i s = .next t ∧ Raised s t 0 c g)

/-- The atomics AMOG, AMOS, CASG and CASS in both forms (R113, R114): a[t] receives the old value; AMO stores its sum, AND, OR
or unsigned maximum with a[t]; CAS stores a[t + 1] when the old value equals a[t], and nothing otherwise. An effective address
that is not a multiple of the width is ALIGN. The model's choices: log entries 10, 67 and 146. -/
def Obligations.Atomics : Prop :=
  ∀ (s : State) (i : Instr) (f : MemForm), s.mem.wf = true → s.unreachable s.ctxNo = none →
    (∀ op ps, amoForm s.bank i = some (f, op) → f.ea.toNat % 8 = 0 → s.resolve f.sp (Access.atomic s.level) f.ea 8 = .ok ps →
      s.clean ps → s.storePoison ps = none →
      let old : Word := BitVec.ofNat 64 (natOfBytes (s.peekParts ps))
      let v := s.bank.readA f.reg.toNat
      let new : Word := if op = 0#2 then old + v else if op = 1#2 then old &&& v else if op = 2#2 then old ||| v
        else if old.toNat < v.toNat then v else old
      ∃ t, exec i s = .next t ∧ StoredA s t f.len ps (bytesOfWord64 new 8) ∧ SameRegsBut s t f.reg.toNat ∧
        t.bank.readA f.reg.toNat = if f.reg.toNat = 0 then 0 else old) ∧
    (∀ ps, casForm s.bank i = some f → f.ea.toNat % f.n = 0 → s.resolve f.sp (Access.atomic s.level) f.ea f.n = .ok ps →
      s.clean ps → s.storePoison ps = none →
      let old := natOfBytes (s.peekParts ps)
      ∃ t, exec i s = .next t ∧ SameRegsBut s t f.reg.toNat ∧
        (t.bank.readA f.reg.toNat = if f.reg.toNat = 0 then 0 else BitVec.ofNat 64 old) ∧
        (if old = (s.bank.readA f.reg.toNat).toNat % 2 ^ (8 * f.n) then
          StoredA s t f.len ps (bytesOfWord64 (s.bank.readA (f.reg.toNat + 1)) f.n)
        else RetiredA s t f.len ∧ SameDevice s t)) ∧
    (s.faultless →
      (∀ op, amoForm s.bank i = some (f, op) → f.ea.toNat % 8 ≠ 0 → ∃ t, exec i s = .next t ∧ Raised s t 0 .align f.ea) ∧
      (casForm s.bank i = some f → f.ea.toNat % f.n ≠ 0 → ∃ t, exec i s = .next t ∧ Raised s t 0 .align f.ea))

/-- LDVQ and STVQ (R82, R110, R111, R219). LDVQ reserves an entry of qx[t] for the 512 bytes at the effective address, which the
fill completes; its first-fault form takes the bytes before the first page that fails and sets a[b] past them; a full queue
waits, before the pages of the row are checked, but not before those of a first-fault form. STVQ stores a[t] at every 8-byte
offset of the row. An address that is not a multiple of 64 is ALIGN, a row outside its window ACCESS_RANGE, and LDVQ with t
above 3 OPERAND_ILLEGAL. An entry is filled, oldest first, by the bytes that it was reserved for, wherever its bank is held. The
model's choices: log entry 66. -/
def Obligations.RowQueues : Prop :=
  (∀ (s : State) (i : Instr) (f : MemForm) (sz : BitVec 2), rowForm s.bank i = some (f, sz) → s.unreachable s.ctxNo = none →
    (isLdvq i = true → f.reg.toNat < 4 → f.ea.toNat % 64 = 0 →
      (∀ ps, sz ≠ 3#2 → s.resolve f.sp { Access.load s.level with annotated := f.marked } f.ea 512 = .ok ps →
        (s.bank.qx f.reg.toNat).length < 8 → ∃ t, exec i s = .next t ∧
          t.bank.qx f.reg.toNat = s.bank.qx f.reg.toNat ++ [.pending ps (rowOfBytes (s.peekParts ps))] ∧
          (∀ q, q ≠ f.reg.toNat → t.bank.qx q = s.bank.qx q) ∧ t.bank.q.qa = s.bank.q.qa ∧ QueueStep s t f.len 0 0) ∧
      (∀ m, rowInWindow sz f.ea = true → rowLength s sz { Access.load s.level with annotated := f.marked } f.ea = .ok m →
        8 ≤ (s.bank.qx f.reg.toNat).length → ∃ t, exec i s = .next t ∧ Waits s t .a) ∧
      (s.faultless → rowInWindow sz f.ea = false → ∃ t, exec i s = .next t ∧ Raised s t 0 .accessRange f.ea)) ∧
    (isStvq i = true → s.mem.wf = true → f.ea.toNat % 64 = 0 →
      ∀ ps, s.resolve f.sp { Access.store s.level with annotated := f.marked } f.ea 512 = .ok ps → s.storePoison ps = none →
        ∃ t, exec i s = .next t ∧ SameRegs s t ∧
          StoredA s t f.len ps ((List.range 64).flatMap fun _ => bytesOfWord64 (s.bank.readA f.reg.toNat) 8)) ∧
    (s.faultless → f.ea.toNat % 64 ≠ 0 → (isLdvq i = true → f.reg.toNat < 4) →
      ∃ t, exec i s = .next t ∧ Raised s t 0 .align f.ea) ∧
    (s.faultless → isLdvq i = true → 4 ≤ f.reg.toNat → ∃ t, exec i s = .next t ∧ Raised s t 0 .operandIllegal s.bank.sr.pca)) ∧
  (∀ (s : State) (t b : BitVec 6) (o : BitVec 8) (m : Nat) (ps : List RowPart),
    let ea := s.bank.readA b.toNat + BitVec.ofNat 64 (o.toNat * 64)
    t.toNat < 4 → ea.toNat % 64 = 0 → 0x10000 ≤ ea.toNat → ea.toNat + 512 ≤ 0xFFFF0000000000 →
    rowLength s 3#2 (Access.load s.level) ea = .ok m →
    s.resolve .g (Access.load s.level) ea m = .ok ps → (s.bank.qx t.toNat).length < 8 →
      ∃ u, exec (.ldvq t b 3#2 o) s = .next u ∧
        u.bank.qx t.toNat = s.bank.qx t.toNat ++ [.pending ps (rowOfBytes (s.peekParts ps))] ∧
        QueueStep s u 1 b.toNat (ea + BitVec.ofNat 64 m)) ∧
  (∀ (s : State) (c q : Nat) (pre rest : List QEntry) (ps : List RowPart) (r : Row), c < 256 → q < 4 →
    pre.any QEntry.waits = false → s.clean ps →
    (∀ p x b, (s.places c).find? (fun e => (s.bankIn e.1 e.2 c).any fun d => (d.qx q).any QEntry.waits) = some (p, x) →
      s.bankIn p x c = some b → b.qx q = pre ++ .pending ps r :: rest →
      exec (.ldvqFill c q) s = .next (s.setBankIn p x c (b.setQx q (pre ++ .row r :: rest)))) ∧
    ((s.cellAt c).active.ctl.owner ≠ none → (s.cellAt c).active.qx q = pre ++ .pending ps r :: rest →
      ∃ t, exec (.ldvqFill c q) s = .next t ∧ (t.cellAt c).active.qx q = pre ++ .row r :: rest ∧
        (∀ p, p ≠ q → (t.cellAt c).active.qx p = (s.cellAt c).active.qx p) ∧
        (∀ d, d ≠ c → t.cellAt d = s.cellAt d) ∧ SameMemory s t))

/-- Instructions that only advance (R112, R236, R237): CPRE; FENCE and PROMOTE at a scope that they take, FENCE ENG once the
shard's engine operations have completed and waiting until then. A scope that they do not take is OPERAND_ILLEGAL. At GANG scope
they do so while every device of the gang is in reach; where one is not, a FENCE or BXWAIT at that scope retires and its task
takes LINK as an engine fault, sr.fva holding the lowest such device (R360). The model's choices: log entries 10 and 146. -/
def Obligations.FencesAndPrefetch : Prop :=
  ∀ (s : State),
    (∀ d, s.unreachable s.ctxNo = some d → s.faultless → s.bank.shardOf s.ctxNo = true → (s.ctxAt s.ctxNo).state = .active →
      let linked := fun (t : State) => t.bank.ctl.fault = some ⟨2, .link, BitVec.ofNat 64 d, 2, s.bank.sr.seqa, none⟩ ∧
        t.bank.sr.seqa = s.bank.sr.seqa + 1 ∧ SameRegs s t ∧ SameUnits s t ∧ SameMemory s t
      (∀ k, ∃ t, exec (.fence 4#3 k 0#1) s = .next t ∧ linked t) ∧
      (∀ (x : BitVec 5) z (p : BitVec 6), (s.bank.readA p.toNat).toNat / 2 = 0 → (s.bank.barrier x.toNat).live = true →
        (s.bank.barrier x.toNat).scope = 4 → (s.bank.barrier x.toNat).phase ≠ (s.bank.readA p.toNat).getLsbD 0 →
        ∃ t, exec (.bxwait x 0#1 z p) s = .next t ∧ linked t)) ∧
    (∀ b o, ∃ t, exec (.cpre b o) s = .next t ∧ OnlyRetiredA s t 1) ∧
    (∀ b off, ∃ t, exec (.cpreL b 0#3 0#2 off) s = .next t ∧ OnlyRetiredA s t 2) ∧
    (s.unreachable s.ctxNo = none →
      (∀ sz k e, sz.toNat < 5 → e = 0#1 ∨ s.bank.enginesDone = true →
        ∃ t, exec (.fence sz k e) s = .next t ∧ OnlyRetiredA s t 1) ∧
      (∀ sz, sz ≠ 0#3 → sz.toNat < 5 → ∃ t, exec (.promote sz) s = .next t ∧ OnlyRetiredA s t 1)) ∧
    (∀ sz k, sz.toNat < 5 → s.bank.enginesDone = false → ∃ t, exec (.fence sz k 1#1) s = .next t ∧ Waits s t .a) ∧
    (s.faultless →
      (∀ sz k e, 5 ≤ sz.toNat → ∃ t, exec (.fence sz k e) s = .next t ∧ Raised s t 0 .operandIllegal s.bank.sr.pca) ∧
      (∀ sz, sz = 0#3 ∨ 5 ≤ sz.toNat → ∃ t, exec (.promote sz) s = .next t ∧ Raised s t 0 .operandIllegal s.bank.sr.pca))

/-- NOP has no effect; WFE waits while the 8 bytes at a[a], read with acquire, equal a[v], and writes them to a[v] when they
differ; the wait is a stall that the watchdog counts; an address that is not a multiple of 8 is ALIGN; YIELDCTX retires at once
(R352). The model's choices: log entry 133. -/
def Obligations.WaitForEvent : Prop :=
  ∀ (s : State),
    (∃ t, exec .nop s = .next t ∧ OnlyRetiredA s t 1) ∧ (∃ t, exec .yieldctx s = .next t ∧ OnlyRetiredA s t 1) ∧
    ∀ (v a : BitVec 6),
      let ea := s.bank.readA a.toNat
      let acc : Access := { Access.load s.level with annotated := true }
      (s.faultless → ea.toNat % 8 ≠ 0 → ∃ t, exec (.wfe v a) s = .next t ∧ Raised s t 0 .align ea) ∧
      (ea.toNat % 8 = 0 →
        (∀ ps, s.resolve .g acc ea 8 = .ok ps → s.clean ps →
          let w : Word := BitVec.ofNat 64 (natOfBytes (s.peekParts ps))
          (w ≠ s.bank.readA v.toNat → AnswersA (.wfe v a) s 1 v w) ∧
          (w = s.bank.readA v.toNat → ∃ t, exec (.wfe v a) s = .next t ∧ Waits s t .a ∧
            (s.bank.ctl.waitX = true → t.bank.ctl.wdog = s.bank.ctl.wdog + 1))) ∧
        (∀ c g, s.faultless → s.resolve .g acc ea 8 = .error (.fault c g) →
          ∃ t, exec (.wfe v a) s = .next t ∧ Raised s t 0 c g))

/-- Stream descriptors, versioned loads and nest levels (R101, R109, R192, R193, R200).  SDSET loads sd[d] from 32 bytes of S space and
SDGET stores it; LDGV loads once the tensor that a[t] names has reached the version there, and waits until then; NSET writes one
level of the half of the nest table that is not active. -/
def Obligations.Descriptors : Prop :=
  (∀ (s : State) (d a : BitVec 6) (im : BitVec 10),
    let ea := s.bank.readA a.toNat + im.signExtend 64 * 32
    (d.toNat < 16 → ea.toNat % 32 = 0 → ∀ ps, s.resolve .s (Access.load s.level) ea 32 = .ok ps → s.clean ps →
      ∃ t, exec (.sdset d a im) s = .next t ∧ t.bank.readSd d.toNat = BitVec.ofNat 256 (natOfBytes (s.peekParts ps)) ∧
        (∀ r, r ≠ d.toNat → t.bank.readSd r = s.bank.readSd r) ∧ t.bank.af.a = s.bank.af.a ∧ t.bank.af.lc = s.bank.af.lc ∧
        t.bank.xf = s.bank.xf ∧ SameUnits s t ∧ RetiredA s t 1 ∧ SameDevice s t) ∧
    (s.mem.wf = true → d.toNat < 16 → ea.toNat % 32 = 0 → ∀ ps, s.resolve .s (Access.store s.level) ea 32 = .ok ps →
      s.storePoison ps = none →
      ∃ t, exec (.sdget d a im) s = .next t ∧ SameRegs s t ∧ StoredA s t 1 ps (bytesOfNat 32 (s.bank.readSd d.toNat).toNat)) ∧
    (s.faultless → ∀ i ∈ [Instr.sdset d a im, .sdget d a im],
      (16 ≤ d.toNat → ∃ t, exec i s = .next t ∧ Raised s t 0 .operandIllegal s.bank.sr.pca) ∧
      (d.toNat < 16 → ea.toNat % 32 ≠ 0 → ∃ t, exec i s = .next t ∧ Raised s t 0 .align ea))) ∧
  (∀ (s : State) (i : Instr) (t : BitVec 6) (len : Nat) (ea : Word) (n : Nat) (marked : Bool),
    (∃ b sz o, i = .ldgv t b sz o ∧ len = 1 ∧ n = 2 ^ sz.toNat ∧ ea = s.bank.readA b.toNat + BitVec.ofNat 64 (o.toNat * n) ∧
      marked = false) ∨
    (∃ b sz sc od off, i = .ldgvL t b sz sc od off ∧ sc.toNat < 5 ∧ (od = 0#2 ∨ od = 1#2) ∧ len = 2 ∧ n = 2 ^ sz.toNat ∧
      ea = s.bank.readA b.toNat + off.signExtend 64 ∧ marked = (od != 0#2)) →
    s.unreachable s.ctxNo = none →
    let v := s.bank.readA t.toNat
    (s.faultless → v.toNat / 2 ^ 48 ≠ 0 → ∃ u, exec i s = .next u ∧ Raised s u 0 .operandFormat 0) ∧
    (v.toNat / 2 ^ 48 = 0 → ∀ d, s.useDesc (v.toNat / 2 ^ 32 % 65536) .any true = .ok d →
      (d.version < v.toNat % 2 ^ 32 → ∃ u, exec i s = .next u ∧ Waits s u .a) ∧
      (v.toNat % 2 ^ 32 ≤ d.version → ∀ ps,
        s.resolve .g { Access.load s.level with annotated := marked } ea n = .ok ps → s.clean ps →
        AnswersA i s len t (BitVec.ofNat 64 (natOfBytes (s.peekParts ps)))))) ∧
  (∀ (s : State) (i : Instr) (l : BitVec 3) (a : BitVec 6) (len : Nat) (lc : Option Nat) (trip : Nat),
    (∃ n : BitVec 8, i = .nset l n a ∧ len = 1 ∧ lc = none ∧ trip = n.toNat) ∨
    (∃ c : BitVec 8, i = .nsetLc l c a ∧ len = 1 ∧ lc = some c.toNat ∧ trip = 0) ∨
    (∃ n : BitVec 30, i = .nsetL l a n ∧ len = 2 ∧ lc = none ∧ trip = n.toNat) →
    let v := s.bank.readA a.toNat
    let h : Fin 2 := if s.bank.eng.activeHalf = 0 then 1 else 0
    (l.toNat < 6 → lc.getD 0 < 8 → ∃ t, exec i s = .next t ∧
      vget t.bank.eng.nests[h] l.toNat .reset =
        ⟨lc, trip, (v.extractLsb' 0 24).toInt, (v.extractLsb' 24 24).toInt, (v.extractLsb' 48 16).toInt⟩ ∧
      (∀ (g : Fin 2) (m : Nat), (g ≠ h ∨ m ≠ l.toNat) → vget t.bank.eng.nests[g] m .reset = vget s.bank.eng.nests[g] m .reset) ∧
      ({ t.bank.eng with nests := s.bank.eng.nests } : Engines) = s.bank.eng ∧ SameRegs s t ∧ t.bank.q = s.bank.q ∧
      t.bank.sync = s.bank.sync ∧ RetiredA s t len ∧ SameDevice s t) ∧
    (s.faultless → 6 ≤ l.toNat ∨ 8 ≤ lc.getD 0 → ∃ t, exec i s = .next t ∧ Raised s t 0 .operandIllegal s.bank.sr.pca))

/-! ## Control -/

/-- The private transfers (R80, R93, R115 to R118): B and CALL go to pc + 4 × offset, CALL with a63 := pc + 4; BC goes there
when its condition holds on a[a] and a[b], and on otherwise; RET and JI go to a[a], JI with a[d] := pc + 4; BQP counts lc[a]
down and goes to its target while lc[a] is not 0. An lc code above 7 is OPERAND_ILLEGAL. The model's choices: log entry 31. -/
def Obligations.PrivateTransfers : Prop :=
  ∀ (s : State),
    (∀ o : BitVec 22,
      (∃ t, exec (.b o) s = .next t ∧ Transferred s t 1 0 0 (s.bank.sr.pca + o.signExtend 64 * 4)) ∧
      (∃ t, exec (.call o) s = .next t ∧ Transferred s t 1 63 (s.bank.sr.pca + 4) (s.bank.sr.pca + o.signExtend 64 * 4))) ∧
    (∀ d a : BitVec 6,
      (∃ t, exec (.ret a) s = .next t ∧ Transferred s t 1 0 0 (s.bank.readA a.toNat)) ∧
      (∃ t, exec (.ji d a) s = .next t ∧ Transferred s t 1 d.toNat (s.bank.sr.pca + 4) (s.bank.readA a.toNat))) ∧
    (∀ (i : Instr) (len : Nat) (off : Word) (c : BitVec 4) (a b : BitVec 6),
      (∃ o : BitVec 6, i = .bc c a b o ∧ len = 1 ∧ off = o.signExtend 64 * 4) ∨
      (∃ o : BitVec 30, i = .bcL c a b o ∧ len = 2 ∧ off = o.signExtend 64 * 4) →
      (branchTaken c.toNat (s.bank.readA a.toNat) (s.bank.readA b.toNat) →
        ∃ t, exec i s = .next t ∧ Transferred s t len 0 0 (s.bank.sr.pca + off)) ∧
      (¬ branchTaken c.toNat (s.bank.readA a.toNat) (s.bank.readA b.toNat) → ∃ t, exec i s = .next t ∧ OnlyRetiredA s t len)) ∧
    (∀ (i : Instr) (len : Nat) (off : Word) (a : BitVec 6),
      (∃ o : BitVec 6, i = .bqp a o ∧ len = 1 ∧ off = o.signExtend 64 * 4) ∨
      (∃ o : BitVec 30, i = .bqpL a o ∧ len = 2 ∧ off = o.signExtend 64 * 4) →
      (a.toNat < 8 → s.bank.readLc a.toNat = 0 → ∃ t, exec i s = .next t ∧ OnlyRetiredA s t len) ∧
      (a.toNat < 8 → s.bank.readLc a.toNat ≠ 0 → ∃ t, exec i s = .next t ∧
        SameRegsButLc s t (some (a.toNat, s.bank.readLc a.toNat - 1)) ∧ SameUnits s t ∧ SameDevice s t ∧
        RetiredAt s t (s.bank.sr.pca + off) (s.bank.walk.wa + len +
          Int.fdiv (((s.bank.sr.pca + off).toNat : Int) - (s.bank.sr.pca + BitVec.ofNat 64 (4 * len)).toNat) 4)) ∧
      (8 ≤ a.toNat → s.faultless → ∃ t, exec i s = .next t ∧ Raised s t 0 .operandIllegal s.bank.sr.pca))

/-- The shared transfers BQ, LOOP and ENDL (R80, R84, R119, R120). The producer puts its word's address and the outcome into the
slot of bq that its count of shared control instructions names, and waits while the slot is occupied; the other stream takes the
outcome from the slot that its own count names, and waits until the outcome of that count is there; an entry of another address
is OPERAND_FORMAT. Both go to the target when the outcome is true, and their walk counts move by the word's own words. The
model's choices: log entry 38. -/
def Obligations.SharedTransfers : Prop :=
  ∀ (s : State) (i : Instr) (f : SharedForm), sharedForm s.bank s.turn i = some f →
    let st := s.turn
    let n := match st with | .a => s.bank.q.kA | .x => s.bank.q.kX
    let k := n % 64
    let next := s.bank.pc st + BitVec.ofNat 64 (4 * f.len)
    let counted := fun (t : State) => (t.bank.q.kA = s.bank.q.kA + (if st = .a then 1 else 0)) ∧
      (t.bank.q.kX = s.bank.q.kX + (if st = .x then 1 else 0)) ∧ t.bank.q.qx = s.bank.q.qx ∧ t.bank.q.qa = s.bank.q.qa
    (st = f.producer →
      (vget s.bank.q.bq k none = none → ∃ t, exec i s = .next t ∧
        (∃ taken : Bool, (taken = true ↔ f.taken) ∧ t.bank.q.bq = vset s.bank.q.bq k (some ⟨n, s.bank.pc st, taken⟩) ∧
          RetiredTo s t st f.len (if taken then f.target else next)) ∧
        counted t ∧ SameRegsButLc s t f.lc ∧ t.bank.sync = s.bank.sync ∧ t.bank.eng = s.bank.eng ∧ SameMemory s t) ∧
      (vget s.bank.q.bq k none ≠ none → ∃ t, exec i s = .next t ∧ Waits s t st)) ∧
    (st ≠ f.producer →
      ((∀ e, vget s.bank.q.bq k none = some e → e.k ≠ n) → ∃ t, exec i s = .next t ∧ Waits s t st) ∧
      ∀ e, vget s.bank.q.bq k none = some e → e.k = n →
        (e.addr = s.bank.pc st → ∃ t, exec i s = .next t ∧ t.bank.q.bq = vset s.bank.q.bq k none ∧ counted t ∧
          RetiredTo s t st f.len (if e.taken then f.target else next) ∧ SameRegs s t ∧ t.bank.sync = s.bank.sync ∧
          t.bank.eng = s.bank.eng ∧ SameMemory s t) ∧
        (e.addr ≠ s.bank.pc st → s.faultless →
          ∃ t, exec i s = .next t ∧ Raised s t (match st with | .a => 0 | .x => 1) .operandFormat 0))

/-- The shared words SYNC, WIN, FPC and HALT (R39, R40, R50, R81, R121 to R123, R305). SYNC retires in both streams when the
partner stands at a SYNC, and waits until then; WIN sets the window and FPC the floating-point controls of the executing stream;
a value outside its range is OPERAND_ILLEGAL in both streams, once they have both reached the word. HALT waits for the partner
and for the bank to drain; it then ends the pass, and the next pass of the shard starts, or the shard has halted and a shard
that TYIELD set aside for it comes back (R293); in a supervisor task, which has no group, it ends the task, and in a handler the
context (R340, R346). The model's choices: log entry 39. -/
def Obligations.SharedWords : Prop :=
  ∀ (s : State),
    let st := s.turn
    (s.standsAt st.other syncWord = true → ∃ t, exec .sync s = .next t ∧ SameRegs s t ∧ SameUnits s t ∧ SameMemory s t ∧
      t.bank.sr = { s.bank.sr with pca := s.bank.sr.pca + 4, pcx := s.bank.sr.pcx + 4, seqa := s.bank.sr.seqa + 1,
                                   seqx := s.bank.sr.seqx + 1 } ∧
      t.bank.walk.wa = s.bank.walk.wa + 1 ∧ t.bank.walk.wx = s.bank.walk.wx + 1) ∧
    (s.standsAt st.other syncWord = false → ∃ t, exec .sync s = .next t ∧ Waits s t st) ∧
    (∀ n : BitVec 16, 1 ≤ n.toNat → n.toNat ≤ 4096 → ∃ t, exec (.win n) s = .next t ∧
      RetiredWith s t st fun r => match st with
        | .a => { r with windowA := n.setWidth 64 }
        | .x => { r with windowX := n.setWidth 64 }) ∧
    (∀ (i : Instr) (v : Word),
      (∃ z f r, i = .fpcAll z f r ∧ r ≠ 0#3 ∧ r ≠ 7#3 ∧ v = BitVec.ofNat 64 (16 * z.toNat + 8 * f.toNat + r.toNat)) ∨
      (∃ r, i = .fpcRm r ∧ r ≠ 0#3 ∧ r ≠ 7#3 ∧ v = (s.bank.fpc st &&& ~~~7#64) ||| r.setWidth 64) ∨
      (∃ z f, i = .fpcDazFtz z f ∧ v = (s.bank.fpc st &&& ~~~0x18#64) ||| BitVec.ofNat 64 (16 * z.toNat + 8 * f.toNat)) →
      ∃ t, exec i s = .next t ∧ RetiredWith s t st fun r => match st with
        | .a => { r with fpcA := v }
        | .x => { r with fpcX := v }) ∧
    (∀ i : Instr, (∃ n, i = .win n ∧ (n = 0#16 ∨ 4096 < n.toNat)) ∨ (∃ z f r, i = .fpcAll z f r ∧ (r = 0#3 ∨ r = 7#3)) ∨
        (∃ r, i = .fpcRm r ∧ (r = 0#3 ∨ r = 7#3)) ∨ (∃ c o, (i = .loop c o ∨ i = .endl c o) ∧ (8 ≤ c.toNat ∨ o = 0#16)) ∨
        (∃ c a b o, i = .bq c a b o ∧ 8 ≤ c.toNat ∧ (32 ≤ a.toNat ∨ 32 ≤ b.toNat)) ∨
        (∃ c a b o, i = .bqL c a b o ∧ 8 ≤ c.toNat ∧ (32 ≤ a.toNat ∨ 32 ≤ b.toNat)) →
      (s.bank.sr.pca = s.bank.sr.pcx → s.faultless →
        ∃ t, exec i s = .next t ∧ Raised s t 3 .operandIllegal (s.bank.pc st)) ∧
      (s.bank.sr.pca ≠ s.bank.sr.pcx → ∃ t, exec i s = .next t ∧ Waits s t st)) ∧
    (s.standsAt st.other haltWord = false ∨ s.bank.drained = false → ∃ t, exec .halt s = .next t ∧ Waits s t st) ∧
    (s.standsAt st.other haltWord = true → s.bank.drained = true → s.bank.ctl.status = .running →
      ∀ g k, s.curGroup = some g → (s.ctxAt s.ctxNo).kernels.find? (fun k => k.slot == s.bank.ctl.kslot) = some k →
      ∃ t, exec .halt s = .next t ∧ SameMemory s t ∧
        (s.bank.ctl.pass + 1 < kindProduct (groupLevels k g.exts) .temporal →
          t.bank = nextPass s.bank.endPass (shardBank (s.ctxAt s.ctxNo) k g s.bank.ctl.shardNo (s.bank.ctl.pass + 1))) ∧
        (kindProduct (groupLevels k g.exts) .temporal ≤ s.bank.ctl.pass + 1 →
          (s.bank.ctl.yielding = false →
            t.bank.ctl.status = .halted ∧ t.bank.sr.seqa = s.bank.sr.seqa + 1 ∧ t.bank.sr.seqx = s.bank.sr.seqx + 1 ∧
            t.bank.q.qx = Vector.replicate 4 [] ∧ t.bank.q.qa = Vector.replicate 2 [] ∧
            t.groupAt g.id = some { g with halted := setAt g.halted s.bank.ctl.shardNo true }) ∧
          (s.bank.ctl.yielding = true → s.bank.ctl.owner = some s.ctxNo →
            t.bank = s.cell.shadow ∧ t.cell.shadow = .reset ∧
            (t.groupAt g.id).map (·.halted) = some (setAt g.halted s.bank.ctl.shardNo true)))) ∧
    (s.standsAt st.other haltWord = true → s.bank.drained = true → s.bank.ctl.status = .running → s.curGroup = none → s.ctxNo < 64 →
      ∃ t, exec .halt s = .next t ∧ SameMemory s t ∧ t.bank.ctl.status = .idle ∧ t.bank.ctl.owner = some s.ctxNo ∧
        t.bank.sync = s.bank.sync ∧ t.bank.af = s.bank.af ∧ (t.ctxAt s.ctxNo).svTask = false) ∧
    (s.standsAt st.other haltWord = true → s.bank.drained = true → s.bank.ctl.status = .handler → s.ctxNo < 64 →
      ∃ t, exec .halt s = .next t ∧ (t.ctxAt s.ctxNo).state = .retired)

/-! ## System registers and exceptions -/

/-- SRD and SWR (R38, R39, R41, R351). A read returns the register, sr.cyc a clock that has moved on; a read at task level of a
register of 0x20 to 0x25 is PRIV, and a number that R38 does not list OPERAND_ILLEGAL. A write of sr.seed and sr.seed_ctr takes
the low 32 bits, one of sr.fflags clears the bits that are written as 1; sr.fpc, sr.window and sr.vwin are OPERAND_ILLEGAL; any
other is PRIV at task level and ignored at supervisor level. A register that the X stream owns waits until the streams meet. The
model's choices: log entries 5, 12, 32 and 33. -/
def Obligations.SystemRegisters : Prop :=
  ∀ (s : State) (d : BitVec 6) (n : BitVec 8),
    (∀ v, sysValue s n.toNat = some v → (n.toNat < 0x20 ∨ s.level = .supervisor) → metFor s n.toNat →
      ∃ t, exec (.srd d n) s = .next t ∧ ReadSys s t d.toNat v) ∧
    (n = 7#8 → ∃ t, exec (.srd d n) s = .next t ∧ ReadSys s t d.toNat (s.cell.cyc + Config.elapsed s.freeCtr) ∧
      t.cell.cyc = s.cell.cyc + Config.elapsed s.freeCtr) ∧
    (ownedByX n.toNat → (n.toNat < 0x20 ∨ s.level = .supervisor) → s.xMeets = false →
      ∃ t, exec (.srd d n) s = .next t ∧ Waits s t .a) ∧
    (s.faultless →
      (s.level = .task → 0x20 ≤ n.toNat → n.toNat ≤ 0x25 → ∃ t, exec (.srd d n) s = .next t ∧ Raised s t 0 .priv s.bank.sr.pca) ∧
      (sysValue s n.toNat = none → n ≠ 7#8 →
        (∃ t, exec (.srd d n) s = .next t ∧ Raised s t 0 .operandIllegal s.bank.sr.pca) ∧
        (∃ t, exec (.swr d n) s = .next t ∧ Raised s t 0 .operandIllegal s.bank.sr.pca)) ∧
      (n = 0#8 ∨ n = 2#8 ∨ n = 3#8 → ∃ t, exec (.swr d n) s = .next t ∧ Raised s t 0 .operandIllegal s.bank.sr.pca) ∧
      (s.level = .task → (n = 7#8 ∨ (3 < n.toNat ∧ n ≠ 5#8 ∧ n ≠ 6#8 ∧ sysValue s n.toNat ≠ none)) →
        ∃ t, exec (.swr d n) s = .next t ∧ Raised s t 0 .priv s.bank.sr.pca)) ∧
    (metFor s n.toNat →
      let v := s.bank.readA d.toNat
      let wrote := fun (t : State) (f : SysRegs → SysRegs) => t.bank.sr =
          { (f s.bank.sr) with pca := s.bank.sr.pca + 4, seqa := s.bank.sr.seqa + 1 } ∧
        SameRegs s t ∧ t.bank.q = s.bank.q ∧ t.bank.sync = s.bank.sync ∧ SameMemory s t
      (n = 5#8 → ∃ t, exec (.swr d n) s = .next t ∧ wrote t (fun r => { r with seed := v &&& 0xFFFFFFFF#64 })) ∧
      (n = 6#8 → ∃ t, exec (.swr d n) s = .next t ∧ wrote t (fun r => { r with seedCtr := v &&& 0xFFFFFFFF#64 })) ∧
      (n = 1#8 → ∃ t, exec (.swr d n) s = .next t ∧
        wrote t (fun r => { r with fflags := r.fflags &&& (~~~(v.setWidth 6)).setWidth 64 })) ∧
      (s.level = .supervisor → (n = 7#8 ∨ (3 < n.toNat ∧ n ≠ 5#8 ∧ n ≠ 6#8 ∧ sysValue s n.toNat ≠ none)) →
        ∃ t, exec (.swr d n) s = .next t ∧ wrote t id))

/-- TRAP and BRK (R89, R346, R348, R349): TRAP, and BRK while DEBUG is 1, retire and stop the A stream with KIND 3 or 4, the
code and cause 0; while a fault of the X stream runs its cut, they retire, are the A stream's cut and are taken after that
fault. BRK retires as NOP while DEBUG is 0. At supervisor level both are PRIV, and at task level so is ERET. The model's
choices: log entry 36. -/
def Obligations.Traps : Prop :=
  ∀ (s : State) (c : BitVec 16) (f : BitVec 6),
    let trapped := fun (i : Instr) (kind : Nat) => ∃ t g, exec i s = .next t ∧ t.bank.ctl.fault = some g ∧ g.kind = kind ∧
      g.stream = 0 ∧ g.code = c.setWidth 64 ∧ g.word = 0 ∧ g.fva = 0 ∧ t.bank.ctl.atCut = false ∧
      t.bank.sr = { s.bank.sr with pca := s.bank.sr.pca + 4, seqa := s.bank.sr.seqa + 1 } ∧
      t.bank.walk.wa = s.bank.walk.wa + 1 ∧ SameRegs s t ∧ SameUnits s t ∧ SameDevice s t
    (s.level = .task → s.faultless → trapped (.trap c) 3) ∧
    (s.level = .task → s.faultless → (s.ctxAt s.ctxNo).debug = true → trapped (.brk c) 4) ∧
    (s.level = .task → (s.ctxAt s.ctxNo).debug = false → ∃ t, exec (.brk c) s = .next t ∧ OnlyRetiredA s t 1) ∧
    (s.level = .task → ∀ h, s.bank.ctl.fault = some h → ∃ t g, exec (.trap c) s = .next t ∧ t.bank.ctl.fault = some h ∧
      t.bank.ctl.second = s.bank.ctl.second ++ [g] ∧ g.kind = 3 ∧ g.stream = 0 ∧ g.code = c.setWidth 64 ∧ t.bank.ctl.atCut = true ∧
      t.bank.sr = { s.bank.sr with pca := s.bank.sr.pca + 4, seqa := s.bank.sr.seqa + 1 } ∧ SameRegs s t ∧ SameUnits s t ∧
      SameDevice s t) ∧
    (s.faultless →
      (s.level = .supervisor → ∀ i ∈ [Instr.trap c, .brk c], ∃ t, exec i s = .next t ∧ Raised s t 0 .priv s.bank.sr.pca) ∧
      (s.level = .task → ∃ t, exec (.eret f) s = .next t ∧ Raised s t 0 .priv s.bank.sr.pca))

/-- Taking an exception on a cell whose shadow bank is free (R336, R337, R342, R344, R346). The frame of the trapped bank is
written at its save slot; a fault freezes the context, counts it and writes the composite record, a trap freezes nothing; the
trapped bank is the shadow bank, its cell's sr.cyc has gone on, and the active one runs the handler at ENTRY of SVSLOT's kernel,
at supervisor level, with the frame's address in a1, KIND in a2 and the cause in sr.cause and sr.fva. Where the frame cannot be
written the context is LOST with REASON 1, and where SVSLOT holds no kernel that may run, with REASON 4. The model's choices:
log entries 124 and 128. -/
def Obligations.HandlerEntry : Prop :=
  ∀ (s : State) (x cell : Nat) (f : FaultInfo), x < 64 → cell < 256 → (s.cellAt cell).shadow.ctl.owner = none →
    let c := s.ctxAt x
    let s0 := s.passTime cell
    let b := (s.cellAt cell).active.mapCtl fun t => { t with lkeep := true, latA := [], latX := [] }
    let frame := slotAddr c cell
    let bytes := frameBytes b (s0.cellAt cell) cell f.kind f.word f.fva f.code
    let tcb := f.device.getD b.sr.task
    let fseq := if f.kind = 2 then f.code else if f.stream = 1 then b.sr.seqx else b.sr.seqa
    let fcell := if f.device.isSome then noCell else cell
    let u := s.enterHandler x cell f
    let entered := fun (k : Kernel) (froze : Bool) =>
      let h := (u.cellAt cell).active
      (u.cellAt cell).shadow = b ∧ h.ctl.status = .handler ∧ h.ctl.level = .supervisor ∧ h.ctl.owner = some x ∧
      h.ctl.froze = froze ∧ h.ctl.frame = BitVec.ofNat 64 frame ∧ h.readA 1 = BitVec.ofNat 64 frame ∧
      h.readA 2 = BitVec.ofNat 64 f.kind ∧ (∀ r, 3 ≤ r → h.readA r = 0) ∧ (∀ r, h.readX r = 0) ∧
      h.sr.cause = f.word ∧ h.sr.fva = f.fva ∧ h.sr.task = tcb ∧ h.sr.pca = k.textG + BitVec.ofNat 64 k.entry ∧
      h.sr.pcx = h.sr.pca ∧ (∀ d, d ≠ cell → u.cellAt d = s.cellAt d) ∧
      (u.cellAt cell).cyc = (s.cellAt cell).cyc + Config.elapsed s.freeCtr
    (∀ s1, s0.saveWrite x frame bytes = .ok s1 →
      (∀ k, f.kind = 3 ∨ f.kind = 4 → c.runnable c.svslot = some k →
        entered k false ∧ u.ctxAt x = c ∧ u.mem = s1.mem) ∧
      (f.kind = 1 ∨ f.kind = 2 →
        let s2 := (s1.setCtx x { c with state := .frozen, faults := c.faults + 1 }).setCell cell { s1.cellAt cell with active := b }
        ∀ s3, s2.saveWrite x c.recBase (s2.recordBytes x f.word f.fva fcell f.kind 0 fseq tcb (BitVec.ofNat 64 frame)) = .ok s3 →
          (∀ k, c.runnable c.svslot = some k →
            entered k true ∧ u.ctxAt x = { c with state := .frozen, faults := c.faults + 1 } ∧ u.mem = s3.mem) ∧
          (c.runnable c.svslot = none → (u.ctxAt x).state = .lost ∧ (u.ctxAt x).reason = 4))) ∧
    (∀ g, c.state ≠ .free → c.state ≠ .retired → s0.saveWrite x frame bytes = .error g →
      (u.ctxAt x).state = .lost ∧ (u.ctxAt x).reason = 1)

/-- CELL_FAULT_TAKEN (R89, R342, R346, R349): the recorded fault of the cell's active bank is taken once its partner has reached
the cut; a trap enters its handler while the context is ACTIVE and no tile-engine operation before it is outstanding; a fault
freezes the context and enters once none of its engines runs an entry; a fault of a handler loses the context with REASON 3;
while the partner runs to its cut nothing happens. The model's choices: log entries 35 and 123. -/
def Obligations.FaultTaken : Prop :=
  ∀ (s : State) (x cell : Nat) (h : cell < 256) (f : FaultInfo), x < 64 →
    let b := (s.cellAt cell).active
    let s0 : State := { s with cur := ⟨cell, h⟩ }
    let back := fun (t : State) => ({ t with cur := s.cur } : State)
    b.ctl.owner = some x → b.ctl.fault = some f →
    (2 ≤ f.stream ∨ b.ctl.atCut = true →
      (f.kind = 3 ∨ f.kind = 4 → b.ctl.status ≠ .handler → (s.ctxAt x).state = .active → (s.ctxAt x).swapping = false →
        (b.tileBelow = false → exec (.cellFaultTaken cell) s = .next (back (s0.enterHandler x cell f))) ∧
        (b.tileBelow = true → exec (.cellFaultTaken cell) s = .next s)) ∧
      (f.kind = 1 ∨ f.kind = 2 → (∀ c, s.handlerOn x c = false) → (s.ctxAt x).state = .active → (s.ctxAt x).swapping = false →
        (∀ c, c < 256 → (s.ctxAt x).part.getLsbD c = true → ∀ e, s.bankOf x c = some e → e.engineBusy = false) →
        exec (.cellFaultTaken cell) s = .next (back ((s0.freeze x).enterHandler x cell f))) ∧
      (b.ctl.status = .handler → ∃ t, exec (.cellFaultTaken cell) s = .next t ∧
        (b.sr.ctx = BitVec.ofNat 64 x → (s.ctxAt x).state ≠ .free → (s.ctxAt x).state ≠ .retired → (t.ctxAt x).state = .lost ∧ (t.ctxAt x).reason = 3))) ∧
    (f.stream < 2 → b.ctl.atCut = false → (s.cellAt cell).shadow.ctl.owner = none → (∀ e ∈ s.saved, e.cell ≠ cell) →
      exec (.cellFaultTaken cell) s = .next s)

/-- ERET (R337, R342, R350). With ACTION 0 the trapped bank comes back in place of the handler's with its registers, counts and
PCs from the frame, its fault done, and a context that the entry froze is ACTIVE again; with ACTION 1 the context ends. It waits
until the handler's accesses and engine operations are done. An address other than the frame's, an ACTION above 1 and a value of
the frame that breaks its register's range are OPERAND_FORMAT. The model's choices: log entry 127. -/
def Obligations.ExceptionReturn : Prop :=
  ∀ (s : State) (f : BitVec 6), s.level = .supervisor → s.bank.ctl.status = .handler →
    let g := s.bank.readA f.toNat
    let trapped := s.cell.shadow
    (s.faultless → g ≠ s.bank.ctl.frame → ∃ t, exec (.eret f) s = .next t ∧ Raised s t 0 .operandFormat 0) ∧
    (g = s.bank.ctl.frame → ∀ act, s.rd .g true (g + 1) 1 = .ok act →
      (s.faultless → 1 < natOfBytes act → ∃ t, exec (.eret f) s = .next t ∧ Raised s t 0 .operandFormat 0) ∧
      ∀ fr, natOfBytes act ≤ 1 → s.rd .g false g 0x8000 = .ok fr →
        (s.faultless → natOfBytes act = 0 → frameBreaks fr = true →
          ∃ t, exec (.eret f) s = .next t ∧ Raised s t 0 .operandFormat 0) ∧
        (natOfBytes act = 1 ∨ frameBreaks fr = false →
          (s.bank.drained = false → ∃ t, exec (.eret f) s = .next t ∧ Waits s t .a) ∧
          (s.bank.drained = true → byteAt fr 1 = 1 → s.ctxNo < 64 →
            ∃ t, exec (.eret f) s = .next t ∧ (t.ctxAt s.ctxNo).state = .retired) ∧
          (s.bank.drained = true → byteAt fr 1 = 0 → trapped.ctl.pend = none → trapped.ctl.second = [] →
            trapped.ctl.yielding = false → ∃ t, exec (.eret f) s = .next t ∧ SameMemory s t ∧
              (∀ r, r < 64 → t.bank.readA r = if r = 0 then 0 else wordAt fr (0x100 + 8 * r)) ∧
              (∀ r, r < 32 → t.bank.readX r = if r = 0 then 0 else wordAt fr (0x300 + 8 * r)) ∧
              (∀ r, r < 8 → t.bank.readLc r = BitVec.ofNat 32 (leAt fr (0x600 + 4 * r) 4)) ∧
              t.bank.xf.acc = trapped.xf.acc ∧ t.bank.xf.tags = trapped.xf.tags ∧
              t.bank.sr.pca = wordAt fr 0x20 ∧ t.bank.sr.pcx = wordAt fr 0x28 ∧ t.bank.sr.seqa = wordAt fr 0x30 ∧
              t.bank.sr.seqx = wordAt fr 0x38 ∧ t.bank.sr.task = trapped.sr.task ∧ t.bank.sr.ctx = trapped.sr.ctx ∧
              t.bank.ctl.fault = none ∧ t.bank.ctl.status = trapped.ctl.status ∧
              (s.bank.ctl.froze = true → s.ctxNo < 64 → (t.ctxAt s.ctxNo).state = .active))))

/-! ## Pages -/

/-- INVR, INVA, PROBE and FREPLAY (R222 to R225). An invalidation drops the translations that it covers from every cell's TLB,
retires when every use of its range is settled, and waits until then; its operands keep R223, and an ASID other than the
context's own, or a confidential context, is PRIV. PROBE reports a walk. FREPLAY frees the replay slot of its token. At task
level all but PROBE are PRIV. The model's choices: log entries 59, 61 and 69. -/
def Obligations.PageInstructions : Prop :=
  ∀ (s : State) (a n im : BitVec 6),
    let g := (s.bank.readA a.toNat).toNat
    let len := (s.bank.readA n.toNat).toNat
    let v := s.bank.readA im.toNat
    let c := s.ctxAt s.ctxNo
    let invalidates := fun (i : Instr) (r : InvRange) =>
      (s.bank.ctl.invAck = true ∨ (s.dropTlb r).settled s.ctxNo r = true →
        ∃ t, exec i s = .next t ∧ SameRegs s t ∧ SameUnits s t ∧ SameMemory s t ∧
          t.bank.sr = { s.bank.sr with pca := s.bank.sr.pca + 4, seqa := s.bank.sr.seqa + 1 } ∧
          (∀ d e, d < 256 → (e ∈ (t.cellAt d).tlb ↔ e ∈ (s.cellAt d).tlb ∧ r.covers e = false))) ∧
      (s.bank.ctl.invAck = false → (s.dropTlb r).settled s.ctxNo r = false →
        ∃ t, exec i s = .next t ∧ Waits s t .a ∧
          (∀ d e, d < 256 → (e ∈ (t.cellAt d).tlb ↔ e ∈ (s.cellAt d).tlb ∧ r.covers e = false)))
    (s.level = .supervisor → v = s.bank.sr.asid → v.toNat < 65536 → c.conf = false →
      (g % 65536 = 0 → len % 65536 = 0 → len ≠ 0 → g + len ≤ 2 ^ 56 → invalidates (.invr a n im) ⟨v.toNat, g, g + len⟩) ∧
      invalidates (.inva im) ⟨v.toNat, 0, 2 ^ 56⟩ ∧
      (s.faultless → g % 65536 ≠ 0 ∨ len % 65536 ≠ 0 ∨ len = 0 ∨ 2 ^ 56 < g + len →
        ∃ t, exec (.invr a n im) s = .next t ∧ Raised s t 0 .operandFormat 0)) ∧
    (s.level = .supervisor → s.faultless → ∀ i ∈ [Instr.invr a n im, .inva im],
      (65536 ≤ v.toNat → ∃ t, exec i s = .next t ∧ Raised s t 0 .operandFormat 0) ∧
      (v.toNat < 65536 → v ≠ s.bank.sr.asid ∨ c.conf = true → ∃ t, exec i s = .next t ∧ Raised s t 0 .priv 0)) ∧
    (0x10000 ≤ g → g < 0xFFFF0000000000 → (∀ k, s.lookup (some s.cellNo) s.ctxNo g ≠ .lost k) → ∃ w : Word, AnswersA (.probe n a) s 1 n w ∧
      (s.lookup (some s.cellNo) s.ctxNo g = .notPresent → w = 0x100) ∧
      (s.lookup (some s.cellNo) s.ctxNo g = .malformed → w = 0x200) ∧
      ∀ x, s.lookup (some s.cellNo) s.ctxNo g = .leaf x → x.ord < 4 → x.size < 4 →
        w.extractLsb' 62 2 = BitVec.ofNat 2 x.ord ∧ w.extractLsb' 8 2 = (if x.ord = 3 then 3#2 else 0#2) ∧
        w.extractLsb' 6 2 = BitVec.ofNat 2 x.size ∧ w.getLsbD 5 = x.pin ∧ w.getLsbD 4 = x.ex ∧ w.getLsbD 3 = x.wr ∧
        w.getLsbD 2 = x.rd ∧ w.getLsbD 1 = x.task ∧ w.getLsbD 0 = x.far ∧
        (s.level = .task ∨ c.conf = true → w.extractLsb' 16 36 = 0#36) ∧
        (s.level = .supervisor → c.conf = false → w.extractLsb' 16 36 = BitVec.ofNat 36 ((x.key + g % 65536) / 65536))) ∧
    (g < 0x10000 ∨ 0xFFFF0000000000 ≤ g → AnswersA (.probe n a) s 1 n 0x400) ∧
    (s.level = .supervisor → s.ctxNo < 64 → ∀ e, c.replays.find? (fun e => e.token == v.toNat) = some e → v.toNat < 2 ^ 32 →
      s.replayed s.ctxNo e.cell e.token = none → ∀ i ∈ [Instr.freplayResume im, .freplayAbort im],
        ∃ t, exec i s = .next t ∧ SameRegs s t ∧ RetiredA s t 1 ∧ SameMemory s t ∧
          (t.ctxAt s.ctxNo).replays = c.replays.filter fun r => r.token != e.token) ∧
    (s.level = .supervisor → s.ctxNo < 64 → ∀ e p k o, c.replays.find? (fun e => e.token == v.toNat) = some e → v.toNat < 2 ^ 32 →
      s.replayed s.ctxNo e.cell e.token = some (p, k, o) →
      (∃ t, exec (.freplayResume im) s = .next t ∧
        (∃ d, t.bankIn p s.ctxNo e.cell = some d ∧ (k < (d.channel 2).length → ((d.channel 2)[k]?).map (·.phase) = some .running)) ∧
        (t.ctxAt s.ctxNo).replays = c.replays.filter fun r => r.token != e.token) ∧
      ∃ t, exec (.freplayAbort im) s = .next t ∧ (t.ctxAt s.ctxNo).replays = c.replays.filter fun r => r.token != e.token) ∧
    (s.level = .supervisor → s.faultless → 2 ^ 32 ≤ v.toNat ∨ c.replays.find? (fun e => e.token == v.toNat) = none →
      ∀ i ∈ [Instr.freplayResume im, .freplayAbort im], ∃ t, exec i s = .next t ∧ Raised s t 0 .operandFormat 0) ∧
    (s.level = .task → s.faultless → ∀ i ∈ [Instr.invr a n im, .inva im, .freplayResume im, .freplayAbort im],
      ∃ t, exec i s = .next t ∧ Raised s t 0 .priv s.bank.sr.pca)

/-! ## The X stream -/

/-- The three-register instructions of the X stream (R94, R95, R158): the result of each and its frame, and OPERAND_ILLEGAL where
a code is above 31 (R35). -/
def Obligations.XAluResults : Prop :=
  ∀ (s : State) (d a b : BitVec 6),
    let x := s.bank.readX a.toNat
    let y := s.bank.readX b.toNat
    let n := y.toNat % 64
    let old := s.bank.readX d.toNat
    (d.toNat < 32 → a.toNat < 32 → b.toNat < 32 →
      AnswersX (.xadd d a b) s 1 d (x + y) ∧ AnswersX (.xsub d a b) s 1 d (x - y) ∧
      AnswersX (.xand d a b) s 1 d (x &&& y) ∧ AnswersX (.xior d a b) s 1 d (x ||| y) ∧ AnswersX (.xeor d a b) s 1 d (x ^^^ y) ∧
      AnswersX (.xshl d a b) s 1 d (x <<< n) ∧ AnswersX (.xshr d a b) s 1 d (x >>> n) ∧
      AnswersX (.xsra d a b) s 1 d (x.sshiftRight n) ∧ AnswersX (.xrotr d a b) s 1 d (x.rotateRight n) ∧
      AnswersX (.xmin d a b) s 1 d (if x.toInt ≤ y.toInt then x else y) ∧
      AnswersX (.xmax d a b) s 1 d (if x.toInt ≤ y.toInt then y else x) ∧
      AnswersX (.xminu d a b) s 1 d (if x.toNat ≤ y.toNat then x else y) ∧
      AnswersX (.xmaxu d a b) s 1 d (if x.toNat ≤ y.toNat then y else x) ∧
      AnswersX (.xslt d a b) s 1 d (if x.toInt < y.toInt then 1 else 0) ∧
      AnswersX (.xsltu d a b) s 1 d (if x.toNat < y.toNat then 1 else 0) ∧
      AnswersX (.xseq d a b) s 1 d (if x = y then 1 else 0) ∧
      AnswersX (.xmul d a b) s 1 d (BitVec.ofInt 64 (x.toInt * y.toInt)) ∧
      AnswersX (.xmulh d a b) s 1 d (BitVec.ofInt 64 ((x.toInt * y.toInt) / 2 ^ 64)) ∧
      AnswersX (.xmulhu d a b) s 1 d (BitVec.ofNat 64 ((x.toNat * y.toNat) / 2 ^ 64)) ∧
      AnswersX (.xdiv d a b) s 1 d (if y = 0 then BitVec.allOnes 64 else BitVec.ofInt 64 (x.toInt.tdiv y.toInt)) ∧
      AnswersX (.xdivu d a b) s 1 d (if y = 0 then BitVec.allOnes 64 else x / y) ∧
      AnswersX (.xrem d a b) s 1 d (if y = 0 then x else BitVec.ofInt 64 (x.toInt.tmod y.toInt)) ∧
      AnswersX (.xremu d a b) s 1 d (if y = 0 then x else x % y) ∧
      AnswersX (.xsel d a b) s 1 d (if old = 0 then y else x)) ∧
    (s.faultless → 32 ≤ d.toNat ∨ 32 ≤ a.toNat ∨ 32 ≤ b.toNat →
      ∀ i ∈ [Instr.xadd d a b, .xsub d a b, .xand d a b, .xior d a b, .xeor d a b, .xshl d a b, .xshr d a b, .xsra d a b,
          .xrotr d a b, .xmin d a b, .xmax d a b, .xminu d a b, .xmaxu d a b, .xslt d a b, .xsltu d a b, .xseq d a b,
          .xmul d a b, .xmulh d a b, .xmulhu d a b, .xdiv d a b, .xdivu d a b, .xrem d a b, .xremu d a b, .xsel d a b],
        ∃ t, exec i s = .next t ∧ Raised s t 1 .operandIllegal s.bank.sr.pcx)

/-- The immediate instructions of the X stream (R159, R160), with OPERAND_ILLEGAL where a code is above 31. VWIN (R182): sr.vwin
is w and the tile w / 128 takes the tag that the code names, no bit of a row changing; it waits for the tile-engine operations
on that tile when it retags, and a code above 4 or a w that is no multiple of 64 up to 4,032 is OPERAND_ILLEGAL. The model's
choices: log entry 44. -/
def Obligations.XImmediates : Prop :=
  (∀ (s : State) (d a k : BitVec 6) (im : BitVec 10) (il : BitVec 30),
     let x := s.bank.readX a.toNat
     let n := k.toNat
     (d.toNat < 32 → a.toNat < 32 →
       AnswersX (.xaddi d a im) s 1 d (x + im.signExtend 64) ∧ AnswersX (.xaddiL d a il) s 2 d (x + il.signExtend 64) ∧
       AnswersX (.xshli d a k) s 1 d (x <<< n) ∧ AnswersX (.xshliL d a k) s 2 d (x <<< n) ∧
       AnswersX (.xshri d a k) s 1 d (x >>> n) ∧ AnswersX (.xshriL d a k) s 2 d (x >>> n) ∧
       AnswersX (.xsrai d a k) s 1 d (x.sshiftRight n) ∧ AnswersX (.xsraiL d a k) s 2 d (x.sshiftRight n) ∧
       AnswersX (.xroti d a k) s 1 d (x.rotateRight n) ∧ AnswersX (.xrotiL d a k) s 2 d (x.rotateRight n)) ∧
     (s.faultless → 32 ≤ d.toNat ∨ 32 ≤ a.toNat →
       ∀ i ∈ [Instr.xaddi d a im, .xaddiL d a il, .xshli d a k, .xshliL d a k, .xshri d a k, .xshriL d a k, .xsrai d a k,
           .xsraiL d a k, .xroti d a k, .xrotiL d a k],
         ∃ t, exec i s = .next t ∧ Raised s t 1 .operandIllegal s.bank.sr.pcx)) ∧
  (∀ (s : State) (c : BitVec 3) (w : BitVec 16),
     let tile := w.toNat / 128
     (c.toNat ≤ 4 → w.toNat % 64 = 0 → w.toNat ≤ 4032 →
       (c = 0 ∨ s.tileHeld tile = false → ∃ t, exec (.vwin c w) s = .next t ∧
         t.bank.sr = { s.bank.sr with vwin := w.setWidth 64, pcx := t.bank.sr.pcx, seqx := t.bank.sr.seqx } ∧
         (∀ n, n < 32 → vget t.bank.xf.tags n .i32 =
           if n = tile ∧ c ≠ 0 then (match c.toNat with | 1 => .f32 | 2 => .i32 | 3 => .bf16 | _ => .f16)
           else vget s.bank.xf.tags n .i32) ∧
         t.bank.xf.acc = s.bank.xf.acc ∧ t.bank.xf.x = s.bank.xf.x ∧ t.bank.xf.p = s.bank.xf.p ∧ t.bank.af = s.bank.af ∧
         SameUnits s t ∧ RetiredX s t 1 ∧ SameDevice s t) ∧
       (c ≠ 0 → s.tileHeld tile = true → ∃ t, exec (.vwin c w) s = .next t ∧ Waits s t .x)) ∧
     (s.faultless → 4 < c.toNat ∨ w.toNat % 64 ≠ 0 ∨ 4032 < w.toNat →
       ∃ t, exec (.vwin c w) s = .next t ∧ Raised s t 1 .operandIllegal s.bank.sr.pcx))

/-- The rounding lane instructions of R162 and R163 in both forms, on each operation type that the tag accepts: every active
lane takes its result and the other lanes keep their bits, with the flags of the active lanes and, under stochastic rounding,
one draw for every lane (R153 to R156). An integer type is OPERAND_FORMAT where R162 or R163 allows none, a type that the tag
does not accept is OPERAND_FORMAT, and rounding code 7 OPERAND_ILLEGAL. The model's choices: log entries 41 and 45. -/
def Obligations.LaneArithmetic : Prop :=
  ∀ (s : State) (d a b c : BitVec 6) (p : BitVec 4),
    let law := fun (floats : Bool) (third : BitVec 6) (f : Controls → Machine.Num → Machine.Num → Machine.Num → Exact) (g : Int → Int → Int → Int)
        (i : Instr) (len : Nat) (ty : Option (BitVec 4)) (rnd : BitVec 3) =>
      let k := s.bank.controlsX rnd.toNat
      (∀ t, opType s ty = some t → rnd ≠ 7 → s.windowFree → (floats = true → t.fmt?.isSome = true) →
        AnswersLanes i s len d (s.bank.active p)
          (fun j =>
            let n := fun (r : BitVec 6) => s.bank.lane r j
            let v := fun (r : BitVec 6) => decodeElem t k.daz (n r)
            laneValue t k j (f k (v a) (v b) (v third)) (g (n a) (n b) (n third)))
          (drawCount k t.fmt?.isSome s.bank.lanes)) ∧
      (∀ t, opType s ty = some t → rnd ≠ 7 → s.tileHeld (s.bank.sr.vwin.toNat / 128) = true →
        (floats = true → t.fmt?.isSome = true) → ∃ u, exec i s = .next u ∧ Waits s u .x) ∧
      (s.faultless →
        (rnd = 7 → ∃ u, exec i s = .next u ∧ Raised s u 1 .operandIllegal s.bank.sr.pcx) ∧
        (∀ t, floats = true → opType s ty = some t → rnd ≠ 7 → t.fmt? = none →
          ∃ u, exec i s = .next u ∧ Raised s u 1 .operandFormat s.bank.sr.pcx) ∧
        (∀ e t, ty = some e → ElemTy.ofCode e.toNat = some t → tagAccepts s.bank.tag t = false → rnd ≠ 7 →
          ∃ u, exec i s = .next u ∧ Raised s u 1 .operandFormat s.bank.sr.pcx))
    let unary := fun (f : Machine.Num → Exact) => law true a (fun _ x _ _ => f x) (fun x _ _ => x)
    BothForms (law false d (fun k x y _ => addNum k.rdn x y) (fun x y _ => x + y)) (.vadd d a b p) (.vaddL d a b p) ∧
    BothForms (law false d (fun k x y _ => addNum k.rdn x y.negate) (fun x y _ => x - y)) (.vsub d a b p) (.vsubL d a b p) ∧
    BothForms (law false d (fun _ x y _ => mulNum x y) (fun x y _ => x * y)) (.vmul d a b p) (.vmulL d a b p) ∧
    law false d (fun k x y z => fmaNum k.rdn x y z) (fun x y z => x * y + z) (.vfma d a b p) 1 none 0 ∧
    law false d (fun k x y z => fmaNum k.rdn x y z.negate) (fun x y z => x * y - z) (.vfms d a b p) 1 none 0 ∧
    law false d (fun k x y z => fmaNum k.rdn x.negate y z) (fun x y z => z - x * y) (.vfnma d a b p) 1 none 0 ∧
    (∀ ty rnd,
      law false c (fun k x y z => fmaNum k.rdn x y z) (fun x y z => x * y + z) (.vfmaL d a b p c ty rnd) 2 (some ty) rnd ∧
      law false c (fun k x y z => fmaNum k.rdn x y z.negate) (fun x y z => x * y - z) (.vfmsL d a b p c ty rnd) 2 (some ty) rnd ∧
      law false c (fun k x y z => fmaNum k.rdn x.negate y z) (fun x y z => z - x * y) (.vfnmaL d a b p c ty rnd) 2 (some ty) rnd) ∧
    BothForms (law true d (fun _ x y _ => divNum x y) (fun x _ _ => x)) (.vdiv d a b p) (.vdivL d a b p) ∧
    BothForms (unary sqrtNum) (.vsqrt d a p) (.vsqrtL d a p) ∧
    BothForms (unary exp2Num) (.exp2 d a p) (.exp2L d a p) ∧
    ∀ ty rnd, unary log2Num (.log2 d a p ty rnd) 2 (some ty) rnd ∧ unary rcpNum (.rcp d a p ty rnd) 2 (some ty) rnd ∧
      unary rsqrtNum (.rsq d a p ty rnd) 2 (some ty) rnd ∧ unary tanhNum (.tanh d a p ty rnd) 2 (some ty) rnd ∧
      unary sigmNum (.sigm d a p ty rnd) 2 (some ty) rnd

/-- The exact values behind the lanes (R155, R162), for finite operands m × 2^e: the sum, the product and the fused form are
exact, an exact zero sum of operands of unlike signs is +0, or −0 under RDN, a quotient and a root are exact or enclosed between
neighbours of at least 64 bits, and the maximum and minimum order −0 below +0. Rounding to a floating type (R10, R127, R128),
for a finite nonzero value m × 2^e, or one so enclosed between m and m + 1, and a mode that is not stochastic: a value of the
type is stored exactly with no flag; otherwise, where the result is finite and no subnormal is flushed, no value of the type
lies strictly between the value and what is stored, the stored value lies on the side that the mode names, to the nearest modes
nothing lies closer, and NX is set. The model's choices: log entries 41 and 42. -/
def Obligations.LaneValues : Prop :=
  (let val := fun (n : Bool) (m : Nat) (e : Int) => ((if n = true then -1 else 1) * (m : ℚ) * (2 : ℚ) ^ e)
   ∀ (rdn : Bool) (na nb nc : Bool) (ma mb mc : Nat) (ea eb ec : Int),
     let a : Machine.Num := .fin na ma ea false
     let b : Machine.Num := .fin nb mb eb false
     let c : Machine.Num := .fin nc mc ec false
     (∃ n m e, addNum rdn a b = ⟨.fin n m e false, 0⟩ ∧ val n m e = val na ma ea + val nb mb eb ∧
       (m = 0 → n = if ma = 0 ∧ mb = 0 ∧ na = nb then na else rdn)) ∧
     (∃ n m e, mulNum a b = ⟨.fin n m e false, 0⟩ ∧ n = (na != nb) ∧ val n m e = val na ma ea * val nb mb eb) ∧
     (∃ n m e, fmaNum rdn a b c = ⟨.fin n m e false, 0⟩ ∧ val n m e = val na ma ea * val nb mb eb + val nc mc ec) ∧
     (mb ≠ 0 → ∃ m e r, divNum a b = ⟨.fin (na != nb) m e r, 0⟩ ∧ (0 < ma → mb < 2 ^ 64 → 2 ^ 64 ≤ m) ∧
       (r = false → val false m e = val false ma ea / val false mb eb) ∧
       (r = true → val false m e < val false ma ea / val false mb eb ∧ val false ma ea / val false mb eb < val false (m + 1) e)) ∧
     (mb = 0 → divNum a b = if ma = 0 then ⟨.nan, flNV⟩ else ⟨.inf (na != nb), flDZ⟩) ∧
     (0 < ma → na = false → ∃ m e r, sqrtNum a = ⟨.fin false m e r, 0⟩ ∧ 2 ^ 64 ≤ m ∧
       (r = false → val false m e * val false m e = val na ma ea) ∧
       (r = true → val false m e * val false m e < val na ma ea ∧ val na ma ea < val false (m + 1) e * val false (m + 1) e)) ∧
     (0 < ma → na = true → sqrtNum a = ⟨.nan, flNV⟩) ∧ (ma = 0 → sqrtNum a = ⟨.fin na 0 0 false, 0⟩) ∧
     (maxNum a b = if val na ma ea < val nb mb eb ∨ (val na ma ea = val nb mb eb ∧ na = true) then b else a) ∧
     (minNum a b = if val na ma ea < val nb mb eb ∨ (val na ma ea = val nb mb eb ∧ na = true) then a else b)) ∧
  (∀ (t : ElemTy) (f : FloatFmt) (ieee : Bool) (rm : Rm) (neg : Bool) (m : Nat) (e : Int) (st : Bool) (x : ℚ), t.fmt? = some f → 0 < m → (∀ u, rm ≠ .sto u) →
     (st = false → x = (m : ℚ) * (2 : ℚ) ^ e) →
     (st = true → 2 ^ 64 ≤ m ∧ (m : ℚ) * (2 : ℚ) ^ e < x ∧ x < ((m : ℚ) + 1) * (2 : ℚ) ^ e) →
     let v : ℚ := (if neg = true then -1 else 1) * x
     let r := roundElem t ieee false rm (.fin neg m e st)
     let is := fun (b : Nat) (q : ℚ) => b < 2 ^ t.width ∧
       ∃ n k c, decodeElem t false b = .fin n k c false ∧ q = (if n = true then -1 else 1) * (k : ℚ) * (2 : ℚ) ^ c
     (∀ b, is b v → ∃ q, is r.bits q ∧ q = v ∧ r.flags = 0) ∧
     ((∀ b, ¬ is b v) → r.flags.getLsbD 2 = false →
       r.flags.getLsbD 0 = true ∧ ∃ q, is r.bits q ∧
         (∀ b w, is b w → ¬ (v < w ∧ w < q) ∧ ¬ (q < w ∧ w < v)) ∧
         (rm = .rtz → |q| < |v|) ∧ (rm = .rdn → q < v) ∧ (rm = .rup → v < q) ∧
         (rm = .rne ∨ rm = .rna → ∀ b w, is b w → |v - q| ≤ |v - w|)))

/-- The lane instructions that copy, choose or change a sign (R162, R174, R181): VMIN and VMAX, by value and with FTZ on a
floating result; VABS and VNEG, which change the sign bit only and make a NaN canonical; VMOV, VSEL and VBCAST of a lane, which
copy bit patterns; VQPOP, which takes the lanes of a complete row at the head of qx[a], waits for one, and is OPERAND_FORMAT at
a scalar. The generators (R174, R178 to R180): VBCAST of an x register, rounded on bf16 and f16; VIOTA, the integers from x[a]
on, as values or under RAW as bit patterns; VLDI, m × 2^e rounded; VRNG, the counter generator's 24 bits as a value in [0, 1),
or under RAW its low bits, with one draw for every lane under every mode. The model's choices: log entry 40. -/
def Obligations.QuietLanes : Prop :=
  (∀ (s : State) (d a b : BitVec 6) (p : BitVec 4),
     let w := s.bank.laneBits
     let law := fun (ok : Prop) (all : Bool) (f : ElemTy → Nat → Nat × Flags) (i : Instr) (len : Nat) (ty : Option (BitVec 4)) (_ : BitVec 3) =>
       (∀ t, opType s ty = some t → s.windowFree → ok →
         AnswersLanes i s len d (fun j => all || s.bank.active p j) (f t) 0) ∧
       (∀ t, opType s ty = some t → s.tileHeld (s.bank.sr.vwin.toNat / 128) = true → ok →
         ∃ u, exec i s = .next u ∧ Waits s u .x) ∧
       (s.faultless → ¬ ok → ∃ u, exec i s = .next u ∧ Raised s u 1 .operandIllegal s.bank.sr.pcx)
     let n := fun (r : BitVec 6) (j : Nat) => s.bank.lane r j
     let k := s.bank.controlsX 0
     let choose := fun (g : Machine.Num → Machine.Num → Machine.Num) (least : Prop) (_ : Decidable least) (t : ElemTy) (j : Nat) =>
       if t.fmt?.isSome = true then laneRound t k j ⟨g (decodeElem t k.daz (n a j)) (decodeElem t k.daz (n b j)), 0⟩
       else (if laneInt t (n a j) ≤ laneInt t (n b j) ↔ least then (n a j, 0) else (n b j, 0))
     let sign := fun (g h u : Nat → Nat) (t : ElemTy) (j : Nat) =>
       match t.fmt? with
       | some f => (if (decodeElem t false (n a j)).isNan = true then f.nanPat else g (n a j), (0 : Flags))
       | none => (if t = .i32 then h (n a j) else u (n a j), (0 : Flags))
     let x := (s.bank.readX b.toNat).toNat
     BothForms (law True false (choose minNum True inferInstance)) (.vmin d a b p) (fun ty _ => .vminL d a b p ty) ∧
     BothForms (law True false (choose maxNum False inferInstance)) (.vmax d a b p) (fun ty _ => .vmaxL d a b p ty) ∧
     BothForms (law True false (sign (fun v => v % 2 ^ (w - 1)) (fun v => (sextNat v 32).natAbs) id)) (.vabs d a p)
       (fun ty _ => .vabsL d a p ty) ∧
     BothForms (law True false (sign (fun v => if v < 2 ^ (w - 1) then v + 2 ^ (w - 1) else v - 2 ^ (w - 1))
       (fun v => (2 ^ 32 - v) % 2 ^ 32) (fun v => (2 ^ 32 - v) % 2 ^ 32))) (.vneg d a p) (fun ty _ => .vnegL d a p ty) ∧
     BothForms (law True false fun _ j => (n a j, 0)) (.vmov d a p) (fun ty _ => .vmovL d a p ty) ∧
     BothForms (law True true fun _ j => (if s.bank.active p j = true then n a j else n b j, 0)) (.vsel d a b p)
       (fun ty _ => .vselL d a b p ty) ∧
     (∀ ty, law (b.toNat < 32) false (fun _ _ => (if x < s.bank.lanes then n a x else 0, 0)) (.vbcastLane d a b p ty) 2 (some ty) 0) ∧
     BothForms (fun i len ty _ => ∀ t, opType s ty = some t → s.windowFree → a.toNat < 4 →
         (∀ r rest, s.bank.qx a.toNat = .row r :: rest → ∃ u row, exec i s = .next u ∧
           (∀ j, j < s.bank.lanes → rowElem row w j = rowElem (if s.bank.active p j = true then r else s.bank.readV d.toNat) w j) ∧
           u.bank.qx a.toNat = rest ∧ (∀ q, q ≠ a.toNat → u.bank.qx q = s.bank.qx q) ∧
           WroteV (s.setBank (s.bank.setQx a.toNat rest)) u len d.toNat row 0 0) ∧
         (s.bank.qx a.toNat = [] ∨ (∃ ps r rest, s.bank.qx a.toNat = .pending ps r :: rest) →
           ∃ u, exec i s = .next u ∧ Waits s u .x) ∧
         (∀ v rest, s.faultless → s.bank.qx a.toNat = .scalar v :: rest →
           ∃ u, exec i s = .next u ∧ Raised s u 1 .operandFormat 0))
       (.vqpop d a p) (fun ty _ => .vqpopL d a p ty)) ∧
  (∀ (s : State) (d a : BitVec 6) (p : BitVec 4) (m : BitVec 12),
     let w := s.bank.laneBits
     let law := fun (ok : Prop) (f : ElemTy → Controls → Nat → Nat × Flags) (rounds : ElemTy → Bool)
         (i : Instr) (len : Nat) (ty : Option (BitVec 4)) (rnd : BitVec 3) =>
       let k := s.bank.controlsX rnd.toNat
       (∀ t, opType s ty = some t → s.windowFree → rnd ≠ 7 → ok →
         AnswersLanes i s len d (s.bank.active p) (f t k) (drawCount k (rounds t) s.bank.lanes)) ∧
       (s.faultless → rnd = 7 ∨ ¬ ok → ∃ u, exec i s = .next u ∧ Raised s u 1 .operandIllegal s.bank.sr.pcx)
     let x := s.bank.readX a.toNat
     let narrow := fun (t : ElemTy) => t == .bf16 || t == .f16
     let value := fun (t : ElemTy) (k : Controls) (j : Nat) (v : Int) =>
       if t.fmt?.isSome = true then laneRound t k j ⟨.ofInt v, 0⟩ else ((v % 2 ^ w).toNat, 0)
     let h := fun (j : Nat) => counterGen (s.bank.sr.seed.toNat % 2 ^ 32) (s.bank.sr.seedCtr.toNat % 2 ^ 32 + j)
     let uniform := fun (t : ElemTy) (j : Nat) =>
       (if t.fmt?.isSome = true then (roundElem t true false .rtz (.fin false (h j / 256) (-24) false)).bits else h j / 256, (0 : Flags))
     let ctr := fun (i : Instr) (len : Nat) (ty : Option (BitVec 4)) (f : ElemTy → Nat → Nat × Flags) =>
       ∀ t, opType s ty = some t → s.windowFree → AnswersLanes i s len d (s.bank.active p) (f t) s.bank.lanes
     BothForms (law (a.toNat < 32)
       (fun t k j => if narrow t = true then laneRound t k j ⟨decodeElem .f32 k.daz (x.toNat % 2 ^ 32), 0⟩ else (x.toNat % 2 ^ 32, 0))
       narrow) (.vbcast d a p) (.vbcastL d a p) ∧
     law (a.toNat < 32) (fun t k j => value t k j (x.toInt + j)) (fun t => t.fmt?.isSome) (.viota d a p) 1 none 0 ∧
     (∀ ty rnd,
       law (a.toNat < 32) (fun t k j => value t k j (x.toInt + j)) (fun t => t.fmt?.isSome) (.viotaL d a p ty rnd 0) 2 (some ty) rnd ∧
       law (a.toNat < 32) (fun _ _ j => (((x.toInt + j) % 2 ^ w).toNat, 0)) (fun _ => false) (.viotaL d a p ty rnd 1) 2 (some ty) rnd) ∧
     law True (fun t k j => laneRound t k j ⟨.ofInt m.toInt, 0⟩) (fun _ => true) (.vldi d m p) 1 none 0 ∧
     (∀ ty rnd e, law True (fun t k j => laneRound t k j ⟨(Machine.Num.ofInt m.toInt).scale e.toInt, 0⟩) (fun _ => true)
       (.vldiL d m p ty rnd e) 2 (some ty) rnd) ∧
     ctr (.vrng d p) 1 none uniform ∧ (∀ ty, ctr (.vrngL d p ty) 2 (some ty) uniform) ∧
     ∀ ty, ctr (.vrngRaw d p ty) 2 (some ty) fun _ j => (h j % 2 ^ w, 0))

/-- Predicates (R41, R154, R164 to R166): VCMP compares the lanes that are active and below the count limit, with NaNs and flags as
R164 says, and writes every other bit 0; PAND, POR and PNOT combine predicates under the same limit; PCNT counts the true lanes
and PFIRST finds the first. -/
def Obligations.Predicates : Prop :=
  ∀ (s : State) (d a b : BitVec 6) (p : BitVec 4) (m : BitVec 5),
    let n := s.bank.lanes
    let live := fun (lim : BitVec 5) (i : Nat) =>
      decide (i < n) && s.bank.active p i && (lim == 0#5 || decide (i < (s.bank.readX lim.toNat).toNat))
    let holds := fun (t : ElemTy) (c : Nat) (i : Nat) =>
      let daz := (s.bank.controlsX 0).daz
      let x := decodeElem t daz (s.bank.lane a i)
      let y := decodeElem t daz (s.bank.lane b i)
      let un := x.isNan || y.isNan
      let o := if t.fmt?.isSome = true then Machine.Num.cmp x y else compare (laneInt t (s.bank.lane a i)) (laneInt t (s.bank.lane b i))
      match c with
      | 0 => !un && o == .eq
      | 1 => un || o != .eq
      | 2 => !un && o == .lt
      | 3 => !un && o != .gt
      | 4 => !un && o == .gt
      | 5 => !un && o != .lt
      | 6 => un
      | _ => !un
    let cmp := fun (c : Nat) (lim : BitVec 5) (i : Instr) (len : Nat) (ty : Option (BitVec 4)) =>
      (∀ t, opType s ty = some t → s.windowFree → d.toNat < 16 → ∃ u v fl, exec i s = .next u ∧ WroteP s u len d.toNat v fl ∧
        (∀ j, v.getLsbD j = (live lim j && holds t c j)) ∧
        (∀ j, fl.getLsbD j = true ↔ j = 4 ∧ 2 ≤ c ∧ c ≤ 5 ∧
          ∃ l, live lim l = true ∧ ∃ r ∈ [a, b], (decodeElem t false (s.bank.lane r l)).isNan = true)) ∧
      (s.faultless → 16 ≤ d.toNat → ∃ u, exec i s = .next u ∧ Raised s u 1 .operandIllegal s.bank.sr.pcx)
    let bits := fun (f : Bool → Bool → Bool) (ok : Prop) (lim : BitVec 5) (i : Instr) (len : Nat) (ty : Option (BitVec 4)) =>
      (∀ t, opType s ty = some t → d.toNat < 16 → a.toNat < 16 → ok → ∃ u v, exec i s = .next u ∧ WroteP s u len d.toNat v 0 ∧
        ∀ j, v.getLsbD j = (live lim j && f ((s.bank.readP a.toNat).getLsbD j) ((s.bank.readP b.toNat).getLsbD j))) ∧
      (s.faultless → 16 ≤ d.toNat ∨ 16 ≤ a.toNat ∨ ¬ ok → ∃ u, exec i s = .next u ∧ Raised s u 1 .operandIllegal s.bank.sr.pcx)
    let is := fun (j : Nat) => decide (j < n) && s.bank.active p j && (s.bank.readP a.toNat).getLsbD j
    let count := fun (v : Nat → Prop) (i : Instr) (len : Nat) (ty : Option (BitVec 4)) =>
      (∀ t, opType s ty = some t → d.toNat < 32 → a.toNat < 16 → ∃ c, v c ∧ AnswersX i s len d (BitVec.ofNat 64 c)) ∧
      (s.faultless → 32 ≤ d.toNat ∨ 16 ≤ a.toNat → ∃ u, exec i s = .next u ∧ Raised s u 1 .operandIllegal s.bank.sr.pcx)
    cmp 0 0 (.vcmp d a b p) 1 none ∧ (∀ ty (c : BitVec 4), c.toNat < 8 → cmp c.toNat m (.vcmpL d a b p ty c m) 2 (some ty)) ∧
    bits (· && ·) (b.toNat < 16) 0 (.pand d a b p) 1 none ∧ (∀ ty, bits (· && ·) (b.toNat < 16) m (.pandL d a b p ty m) 2 (some ty)) ∧
    bits (· || ·) (b.toNat < 16) 0 (.por d a b p) 1 none ∧ (∀ ty, bits (· || ·) (b.toNat < 16) m (.porL d a b p ty m) 2 (some ty)) ∧
    bits (fun x _ => !x) True 0 (.pnot d a p) 1 none ∧ (∀ ty, bits (fun x _ => !x) True m (.pnotL d a p ty m) 2 (some ty)) ∧
    count (fun c => c = ((List.range n).filter is).length) (.pcnt d a p) 1 none ∧
    (∀ ty, count (fun c => c = ((List.range n).filter is).length) (.pcntL d a p ty) 2 (some ty) ∧
      count (fun c => c ≤ n ∧ (∀ j, j < c → is j = false) ∧ (c < n → is c = true)) (.pfirst d a p ty) 2 (some ty))

/-- The reductions of R167 in both forms. On an integer type they are the exact sum, largest, smallest and largest magnitude of
the active lanes, with the stated results where no lane is active. On a floating type they reduce the fixed tree: VRMAX, VRMIN
and VRAMAX, which round nothing, and VRSUM under every mode but the stochastic one, are the tree read from its root; VRSUM under
stochastic rounding draws once for every lane.  VSCAN (R155, R168): a strictly sequential sum from the carry in x[b], which is
converted to the type under RNE once; each active lane takes the sum so far, rounded at its own counter; on an integer type the
sums are modulo 2^32. -/
def Obligations.Reductions : Prop :=
  (∀ (s : State) (d a : BitVec 6) (p : BitVec 4),
     let ints := fun (r : ElemTy → List Int → Int) (i : Instr) (len : Nat) (ty : Option (BitVec 4)) (rnd : BitVec 3) =>
       ∀ t, opType s ty = some t → t.fmt? = none → s.windowFree → rnd ≠ 7 → d.toNat < 32 →
         AnswersX i s len d (BitVec.ofInt 64 (r t (activeInts s.bank t a p)))
     let floats := fun (sums : Bool) (leaf : Machine.Num → Option Machine.Num)
         (f : Controls → Machine.Num × Flags → Machine.Num × Flags → Machine.Num × Flags) (none_ : Machine.Num)
         (i : Instr) (len : Nat) (ty : Option (BitVec 4)) (rnd : BitVec 3) =>
       let k := s.bank.controlsX rnd.toNat
       ∀ t, opType s ty = some t → t.fmt?.isSome = true → s.windowFree → rnd ≠ 7 → d.toNat < 32 →
         ∃ u v fl, exec i s = .next u ∧ WroteXF s u len d.toNat (BitVec.ofNat 64 v) fl (drawCount k sums s.bank.lanes) ∧
           ((sums = true → k.rm ≠ 6) →
             let r := (halvesReduce (f k)
               (fun j => if j < s.bank.lanes ∧ s.bank.active p j = true then
                 (leaf (decodeElem t k.daz (s.bank.lane a j))).map (·, (0 : Flags)) else none) 8 0).getD (none_, 0)
             v = (roundElem .f32 true false .rne r.1).bits ∧ fl = r.2)
     let sum := fun (k : Controls) (x y : Machine.Num × Flags) =>
       let o := laneRound .f32 k 0 (addNum k.rdn x.1 y.1)
       (decodeElem .f32 false o.1, x.2 ||| y.2 ||| o.2)
     let pick := fun (g : Machine.Num → Machine.Num → Machine.Num) (_ : Controls) (x y : Machine.Num × Flags) => (g x.1 y.1, (0 : Flags))
     let size := fun (x : Machine.Num) => if x.isNan = true then none else some x.abs
     let illegal := fun (i : Instr) (_ : Nat) (_ : Option (BitVec 4)) (rnd : BitVec 3) =>
       s.faultless → 32 ≤ d.toNat ∨ rnd = 7 → ∃ u, exec i s = .next u ∧ Raised s u 1 .operandIllegal s.bank.sr.pcx
     let quietly := fun (P : Instr → Nat → Option (BitVec 4) → BitVec 3 → Prop) (i : Instr) (len : Nat) (ty : Option (BitVec 4))
       (_ : BitVec 3) => P i len ty 0
     BothForms (ints fun _ l => l.sum) (.vrsum d a p) (.vrsumL d a p) ∧
     BothForms (floats true some sum .zero) (.vrsum d a p) (.vrsumL d a p) ∧ BothForms illegal (.vrsum d a p) (.vrsumL d a p) ∧
     BothForms (quietly (ints fun t l => l.foldl max (if t = .i32 then -(2 ^ 31) else 0))) (.vrmax d a p) (fun ty _ => .vrmaxL d a p ty) ∧
     BothForms (quietly (floats false some (pick maxNum) .nan)) (.vrmax d a p) (fun ty _ => .vrmaxL d a p ty) ∧
     BothForms (quietly (ints fun t l => l.foldl min (if t = .i32 then 2 ^ 31 - 1 else 2 ^ 32 - 1))) (.vrmin d a p)
       (fun ty _ => .vrminL d a p ty) ∧
     BothForms (quietly (floats false some (pick minNum) .nan)) (.vrmin d a p) (fun ty _ => .vrminL d a p ty) ∧
     BothForms (quietly (ints fun _ l => (l.map fun v => (v.natAbs : Int)).foldl max 0)) (.vramax d a p) (fun ty _ => .vramaxL d a p ty) ∧
     BothForms (quietly (floats false size (pick maxNum) .zero)) (.vramax d a p) (fun ty _ => .vramaxL d a p ty)) ∧
  (∀ (s : State) (d a b : BitVec 6) (p : BitVec 4),
     let old := fun (j : Nat) => rowElem (s.bank.readV d.toNat) s.bank.laneBits j
     let carry := (s.bank.readX b.toNat).toNat % 2 ^ 32
     BothForms (fun i len ty rnd =>
         let k := s.bank.controlsX rnd.toNat
         (∀ t, opType s ty = some t → s.windowFree → rnd ≠ 7 → b.toNat < 32 → t.fmt? = none →
           ∃ c : Nat → Nat, c 0 = carry ∧
             (∀ j, c (j + 1) = if s.bank.active p j = true then (c j + s.bank.lane a j) % 2 ^ 32 else c j) ∧
             AnswersLanes i s len d (s.bank.active p) (fun j => (c (j + 1), 0)) 0) ∧
         (∀ t, opType s ty = some t → s.windowFree → rnd ≠ 7 → b.toNat < 32 → t.fmt?.isSome = true →
           let x := decodeElem .f32 k.daz carry
           let r := roundElem t true k.ftz .rne x
           ∃ (c : Nat → Machine.Num) (u : State) (row : Row) (fl : Flags),
             c 0 = (if t = .f32 then x else decodeElem t false r.bits) ∧
             (∀ j, c (j + 1) = if s.bank.active p j = true then
               decodeElem t false (laneRound t k j (addNum k.rdn (c j) (decodeElem t k.daz (s.bank.lane a j)))).1 else c j) ∧
             exec i s = .next u ∧ WroteV s u len d.toNat row fl (drawCount k true s.bank.lanes) ∧
             (∀ j, j < s.bank.lanes → rowElem row s.bank.laneBits j = if s.bank.active p j = true then
               (laneRound t k j (addNum k.rdn (c j) (decodeElem t k.daz (s.bank.lane a j)))).1 % 2 ^ s.bank.laneBits else old j) ∧
             (∀ n, fl.getLsbD n = true ↔ (t ≠ .f32 ∧ r.flags.getLsbD n = true) ∨
               ∃ j, j < s.bank.lanes ∧ s.bank.active p j = true ∧
                 (laneRound t k j (addNum k.rdn (c j) (decodeElem t k.daz (s.bank.lane a j)))).2.getLsbD n = true)) ∧
         (s.faultless → 32 ≤ b.toNat ∨ rnd = 7 → ∃ u, exec i s = .next u ∧ Raised s u 1 .operandIllegal s.bank.sr.pcx))
       (.vscan d a b p) (.vscanL d a b p))

/-- VSORTK and VMERGEK (R169 to R171): the active lanes, keys with their payloads, are the stable sort of the input in the order
of R169, then come the inactive lanes in their order; VMERGEK writes its second half to v[c] when c differs from d. An odd code
is OPERAND_ILLEGAL.  VCVT (R124, R130, R131, R156, R173): E elements of the source type, from part g where it is the narrower,
are rounded to the destination type, to part g where that is the narrower, under SAT for e4m3 and e5m2; each slot whose element
is active is written, a pair of a 4-bit type as its even element says, and every other bit of v[d] is kept. A pair of types
below 16 bits and a part beyond the ratio are OPERAND_FORMAT. -/
def Obligations.SortsAndConversion : Prop :=
  (∀ (s : State) (d a b c : BitVec 6) (p : BitVec 4),
     let n := s.bank.lanes
     let w := s.bank.laneBits
     let pairs := fun (r : BitVec 6) (want : Bool) => ((List.range n).filter fun i => s.bank.active p i == want).map fun i =>
       (s.bank.lane r i, rowElem (s.bank.readV (r.toNat + 1)) w i)
     let rows := fun (r : BitVec 6) (l : List (Nat × Nat)) =>
       [(r.toNat, rowOfLanes w (l.map (·.1))), (r.toNat + 1, rowOfLanes w (l.map (·.2)))]
     let sort := fun (asc : Bool) (i : Instr) (len : Nat) (ty : Option (BitVec 4)) =>
       (∀ t, opType s ty = some t → s.windowFree → d.toNat % 2 = 0 → a.toNat % 2 = 0 →
         ∃ u key l, exec i s = .next u ∧ OrdersKeys t key ∧ StablySorted key asc (pairs a true) l ∧
           WroteRows s u len (rows d (l ++ pairs a false))) ∧
       (s.faultless → d.toNat % 2 = 1 ∨ a.toNat % 2 = 1 → ∃ u, exec i s = .next u ∧ Raised s u 1 .operandIllegal s.bank.sr.pcx)
     let merge := fun (third : BitVec 6) (asc : Bool) (i : Instr) (len : Nat) (ty : Option (BitVec 4)) =>
       (∀ t, opType s ty = some t → s.windowFree → (∀ r ∈ [d, a, b, third], r.toNat % 2 = 0) →
         ∃ u key l, exec i s = .next u ∧ OrdersKeys t key ∧ StablySorted key asc (pairs a true ++ pairs b true) l ∧
           let m := l ++ pairs a false ++ pairs b false
           WroteRows s u len (rows d (m.take n) ++ if third = d then [] else rows third (m.drop n))) ∧
       (s.faultless → (∃ r ∈ [d, a, b, third], r.toNat % 2 = 1) →
         ∃ u, exec i s = .next u ∧ Raised s u 1 .operandIllegal s.bank.sr.pcx)
     sort false (.vsortk d a p) 1 none ∧
     (∀ ty asc, sort (asc == 1#1) (.vsortkL d a p ty asc) 2 (some ty)) ∧
     merge d false (.vmergek d a b p) 1 none ∧
     ∀ ty asc, merge c (asc == 1#1) (.vmergekL d a b p c ty asc) 2 (some ty)) ∧
  (∀ (s : State) (d a : BitVec 6) (p ty sty : BitVec 4) (rnd g : BitVec 3) (dt st : ElemTy),
     ElemTy.ofCode ty.toNat = some dt → ElemTy.ofCode sty.toNat = some st → rnd ≠ 7 →
     let big := max st.width dt.width
     let fits := 16 ≤ big ∧ g.toNat < big / min st.width dt.width
     let n := 4096 / big
     let k := s.bank.controlsX rnd.toNat
     let src := if dt.width ≤ st.width then 0 else g.toNat * n
     let dst := if dt.width ≤ st.width then g.toNat * n else 0
     let old := s.bank.readV d.toNat
     let x := fun (j : Nat) => rowValue st k.daz (s.bank.readV a.toNat) (src + j)
     (fits → s.windowFree → ∃ t row fl, exec (.vcvt d a p ty rnd sty g) s = .next t ∧
       WroteV s t 2 d.toNat row fl (drawCount k true n) ∧
       (dt.width ≠ 4 →
         (∀ j, j * dt.width < 4096 → rowElem row dt.width j =
           if dst ≤ j ∧ j < dst + n ∧ s.bank.active p (j - dst) = true then
             (roundElem dt false k.ftz (k.rmAt (j - dst)) (x (j - dst))).bits % 2 ^ dt.width
           else rowElem old dt.width j) ∧
         (∀ b, fl.getLsbD b = true ↔ ∃ j, j < n ∧ s.bank.active p j = true ∧
           (roundElem dt false k.ftz (k.rmAt j) (x j)).flags.getLsbD b = true)) ∧
       (dt.width = 4 →
         let pair := fun (j : Nat) => roundPair dt k (2 * j) (2 * j + 1) (x (2 * j)) (x (2 * j + 1))
         (∀ j, j < 512 → rowElem row 8 j =
           if dst / 2 ≤ j ∧ j < dst / 2 + n / 2 ∧ s.bank.active p (2 * (j - dst / 2)) = true then (pair (j - dst / 2)).byte % 256
           else rowElem old 8 j) ∧
         (∀ b, fl.getLsbD b = true ↔ ∃ j, j < n / 2 ∧ s.bank.active p (2 * j) = true ∧ (pair j).flags.getLsbD b = true))) ∧
     (s.faultless → ¬ fits → ∃ t, exec (.vcvt d a p ty rnd sty g) s = .next t ∧ Raised s t 1 .operandFormat s.bank.sr.pcx))

/-- VQNT and VDQNT (R144 to R146, R175 to R177), where the operands and the shift array pass their checks. VDQNT reads each
active lane's element, ETS and nibble and writes q × 2^(ETS − k), rounded. VQNT gives each block its shift, rounds each active
lane × 2^(k − E) to the packed range and every other lane as 0, writes ETS and the nibbles and nothing else in memory, and
presents the active lanes; where more elements saturate than RESCTH allows it is RESCALE and writes nothing. The model's
choices: log entries 43 and 56. -/
def Obligations.Quantising : Prop :=
  ∀ (s : State) (d a b : BitVec 6) (p : BitVec 4) (pos : BitVec 3) (ty : Option (BitVec 4)) (rnd : BitVec 3) (q dq : Instr) (len : Nat),
    (ty = none ∧ rnd = 0 ∧ pos = 0 ∧ q = .vqnt d a b p ∧ dq = .vdqnt d a b p ∧ len = 1) ∨
      (∃ c, ty = some c ∧ q = .vqntL d a b p c rnd pos ∧ dq = .vdqntL d a b p c rnd pos ∧ len = 2) →
    let k := s.bank.controlsX rnd.toNat
    let n := s.bank.lanes
    let x := (s.bank.readX b.toNat).toNat
    let b0 := x / 65536
    let act := s.bank.active p
    let va := s.bank.readV a.toNat
    let old := s.bank.readV d.toNat
    ∀ (t : ElemTy) (ds : Desc), opType s ty = some t → t.fmt?.isSome = true → s.windowFree → rnd ≠ 7 → b.toNat < 32 →
      ds.ty.blockScaled = true → 64 * pos.toNat + n * ds.ty.width / 8 ≤ 512 → b0 + n / 32 ≤ ds.blocks →
    let w := ds.ty.width
    (s.useDesc (x % 65536) .any false = .ok ds →
      ∀ (parts : List (Nat × List RowPart)) (get : Nat → Nat),
        let used := (List.range (n / 32)).filter fun j => (List.range 32).any fun i => act (32 * j + i)
        s.shiftBytes false (if used.isEmpty then [] else ds.shiftAddrs (used.map (b0 + ·))) = .ok parts →
        (∀ e ∈ parts, s.clean e.2) → (∀ e ∈ parts, get e.1 = natOfBytes (s.peekParts e.2)) →
        AnswersLanes dq s len d act
          (fun i =>
            let blk := b0 + i / 32
            let sh := get (ds.shifts + 8 + blk / 2) / 16 ^ (blk % 2) % 16
            laneRound t k i ⟨(rowValue ds.ty false va (512 * pos.toNat / w + i)).scale (sextNat (get ds.shifts) 8 - (sh : Int)), 0⟩)
          (drawCount k true n)) ∧
    (s.useDesc (x % 65536) .ws false = .ok ds →
      ∀ parts : List (Nat × List RowPart),
        s.shiftBytes true (ds.shiftAddrs ((List.range (n / 32)).map (b0 + ·))) = .ok parts →
        (∀ e ∈ parts, s.clean e.2) → s.mem.wf = true →
        parts.Pairwise (fun e f => ∀ m, inParts e.2 m → ¬ inParts f.2 m) →
        let val := fun (i : Nat) => decodeElem t k.daz (s.bank.lane a i)
        let et := scaleExp ds (s.snapshotOf ds.record)
        let shift := fun (j : Nat) =>
          blockShift ds.ty et (((List.range 32).map (32 * j + ·)).filterMap fun i => if act i then some (val i) else none)
        let scaled := fun (i : Nat) => if act i then (val i).scale ((shift (i / 32) : Int) - et) else .zero
        let one := fun (i : Nat) => roundElem ds.ty ds.ieee k.ftz (k.rmAt i) (scaled i)
        let pair := fun (i : Nat) => roundPair ds.ty k (2 * i) (2 * i + 1) (scaled (2 * i)) (scaled (2 * i + 1))
        let code := fun (i : Nat) => if w = 4 then (pair (i / 2)).byte / 16 ^ (i % 2) % 16 else (one i).bits % 2 ^ w
        let sat := fun (i : Nat) => if w = 4 then (if i % 2 = 0 then (pair (i / 2)).sat0 else (pair (i / 2)).sat1) else (one i).sat
        let fits := ds.rescth = 255 ∨ ((List.range n).filter sat).length ≤ ds.rescth
        let shown := ((List.range n).filter act).map fun i => (val i, sat i)
        let blocks := (List.range (n / 32)).map (b0 + ·)
        (s.faultless → ¬ fits → ∃ u, exec q s = .next u ∧ Raised s u 1 .rescale 0) ∧
        (fits → ∃ (u : State) (row : Row) (fl : Flags), exec q s = .next u ∧
          u.bank.xf.acc = rowPut s.bank.xf.acc (s.bank.sr.vwin.toNat + d.toNat) row ∧
          (∀ i, i < n → field row (512 * pos.toNat + w * i) w = code i) ∧
          (∀ i, i < 512 * pos.toNat ∨ 512 * pos.toNat + n * w ≤ i → row.getLsbD i = old.getLsbD i) ∧
          (∀ e ∈ parts, natOfBytes (u.peekParts e.2) =
            if e.1 = ds.shifts then (et % 256).toNat
            else
              let lo := 2 * (e.1 - (ds.shifts + 8))
              let was := natOfBytes (s.peekParts e.2)
              (if lo ∈ blocks then shift (lo - b0) else was % 16) + 16 * (if lo + 1 ∈ blocks then shift (lo + 1 - b0) else was / 16)) ∧
          (∀ m, (∀ e ∈ parts, ¬ inParts e.2 m) → memGet u.mem m = memGet s.mem m) ∧
          (∀ g h, s.curGroup = some g → s.graphAt g.graph = some h →
            (u.graphAt g.graph).map (·.partials) = some (addPartial h.partials h.id ((s.ctxAt g.ctx).tcbIndex g.tcb)
              (dieOf s.cellNo) ds.record (recordOf ds.hbase shown))) ∧
          u.bank.xf.x = s.bank.xf.x ∧ u.bank.xf.p = s.bank.xf.p ∧ u.bank.xf.tags = s.bank.xf.tags ∧ u.bank.af = s.bank.af ∧
          u.bank.sr = { s.bank.sr with
            pcx := s.bank.sr.pcx + BitVec.ofNat 64 (4 * len), seqx := s.bank.sr.seqx + 1,
            fflags := s.bank.sr.fflags ||| fl.setWidth 64,
            seedCtr := BitVec.ofNat 64 ((s.bank.sr.seedCtr.toNat % 2 ^ 32 + drawCount k true n) % 2 ^ 32) } ∧
          (∀ m, fl.getLsbD m = true ↔ ∃ i, i < n ∧
            (if w = 4 then (pair (i / 2)).flags else (one i).flags).getLsbD m = true) ∧
          SameUnits s u))

/-! ## Barriers and copies -/

/-- A barrier after an arrival or a byte adjustment for its open phase is in range (R238, R240): the counts are added, and the
phase that they meet completes, after which the held items are the new phase's. The barrier instructions on the cell's own
barriers and rings (R228, R238 to R246). BXINIT sets a barrier up; BXEXP and BXARR apply a byte adjustment and an arrival, raise
BARRIER_OVER where they leave the range and wait where the barrier holds 15 items; BXWAIT waits while the phase bit is the one
given, and in its ring form until the stage is reached; BXTEST reads a barrier or a ring; RINGSET sets up and takes down a ring
with its stage barriers. The model's choices: log entries 72, 73, 74, 75 and 77. -/
def Obligations.Barriers : Prop :=
  (∀ (b : Barrier) (cnt : Nat) (bytes : Int) (par : Bool),
     let inRange := fun (v : Int) => -(2 ^ 36 : Int) ≤ v ∧ v ≤ 2 ^ 36 - 1
     let sum := b.held.foldl (fun (a : Nat × Int) h => (a.1 + h.cnt, a.2 + h.bytes)) (0, 0)
     (par = b.phase → (b.arrived + cnt ≤ b.expect ∧ inRange (b.pending + bytes) →
         (b.arrived + cnt ≠ b.expect ∨ b.pending + bytes ≠ 0 →
           b.item cnt bytes par = .applied { b with arrived := b.arrived + cnt, pending := b.pending + bytes }) ∧
         (b.arrived + cnt = b.expect ∧ b.pending + bytes = 0 → ¬ (sum.1 = b.expect ∧ sum.2 = 0) →
           b.item cnt bytes par = .applied
             { b with phase := !b.phase, arrived := sum.1, pending := sum.2, held := [], phases := b.phases + 1 }) ∧
         (b.arrived + cnt = b.expect ∧ b.pending + bytes = 0 → sum.1 = b.expect ∧ sum.2 = 0 →
           b.item cnt bytes par = .applied { b with arrived := 0, pending := 0, held := [], phases := b.phases + 2 })) ∧
       (¬ (b.arrived + cnt ≤ b.expect ∧ inRange (b.pending + bytes)) → b.item cnt bytes par = .beyond)) ∧
     (par ≠ b.phase →
       (15 ≤ b.held.length → b.item cnt bytes par = .full) ∧
       (b.held.length < 15 → sum.1 + cnt ≤ b.expect ∧ inRange (sum.2 + bytes) →
         b.item cnt bytes par = .applied { b with held := b.held ++ [⟨cnt, bytes⟩] }) ∧
       (b.held.length < 15 → ¬ (sum.1 + cnt ≤ b.expect ∧ inRange (sum.2 + bytes)) → b.item cnt bytes par = .beyond))) ∧
  ((∀ (s : State) (x : BitVec 5) (z : BitVec 3) (e : BitVec 6),
     let v := (s.bank.readA e.toNat).toNat
     let b := s.bank.barrier x.toNat
     let held := b.live = true ∧ (b.ring = true ∨ b.arrived ≠ 0 ∨ b.pending ≠ 0 ∨ b.held ≠ [] ∨ s.copyNames x.toNat = true)
     (z.toNat < 5 → 1 ≤ v → v ≤ 2047 → ¬ held → ∃ t, exec (.bxinit x z e) s = .next t ∧ SyncStep s t ∧
       t.bank.barrier x.toNat = ⟨true, false, false, z.toNat, 0, v, 0, [], 0⟩ ∧
       (∀ n, n ≠ x.toNat → t.bank.barrier n = s.bank.barrier n) ∧ t.bank.sync.handles = s.bank.sync.handles ∧
       t.bank.sync.rings = s.bank.sync.rings) ∧
     (s.faultless → z.toNat < 5 → v = 0 ∨ 2047 < v ∨ held →
       ∃ t, exec (.bxinit x z e) s = .next t ∧ Raised s t 0 .operandFormat 0) ∧
     (s.faultless → 5 ≤ z.toNat → ∃ t, exec (.bxinit x z e) s = .next t ∧ Raised s t 0 .operandIllegal s.bank.sr.pca)) ∧
   (∀ (s : State) (x : BitVec 5) (g z p : BitVec 1) (c : BitVec 3) (a : BitVec 6) (i : Instr),
     i = .bxexp x g z p c a ∨ i = .bxarr x g z p c a →
     let w := s.bank.readA a.toNat
     let cnt := w.toNat / 2 % 2048
     let bytes := sextNat (w.toNat / 2 ^ 12 % 2 ^ 37) 37
     let r := s.bank.ring x.toNat
     let stage := if z = 1#1 then r.rc - 1 else r.rp
     let n := if g = 1#1 then (if z = 1#1 then r.eb else r.fb) + stage % r.n else x.toNat
     let par := if g = 1#1 then stage / r.n % 2 == 1 else w.getLsbD 0
     let formed := w.toNat / 2 ^ 49 = 0 ∧ (cnt ≠ 0 ↔ i = .bxarr x g z p c a)
     let known := p = 0#1 ∧ (g = 1#1 → r.isSet = true ∧ (z = 1#1 → r.rc ≠ 0)) ∧ (s.bank.barrier n).live = true
     (formed → known → n < 32 → (s.bank.barrier n).scope ≠ 4 ∨ s.unreachable s.ctxNo = none →
       (∀ v, (s.bank.barrier n).item cnt bytes par = .applied v → ∃ t, exec i s = .next t ∧ SyncStep s t ∧
         t.bank.barrier n = v ∧ (∀ m, m ≠ n → t.bank.barrier m = s.bank.barrier m) ∧ t.bank.sync.handles = s.bank.sync.handles ∧
         t.bank.sync.rings = (s.bank.putBarrier n v).sync.rings) ∧
       ((s.bank.barrier n).item cnt bytes par = .full → ∃ t, exec i s = .next t ∧ Waits s t .a) ∧
       (s.faultless → (s.bank.barrier n).item cnt bytes par = .beyond →
         ∃ t, exec i s = .next t ∧ Raised s t 0 .barrierOver 0)) ∧
     (s.faultless → (p = 0#1 → ¬ (formed ∧ known) → ∃ t, exec i s = .next t ∧ Raised s t 0 .operandFormat 0) ∧
       (p = 1#1 → g = 1#1 → ∃ t, exec i s = .next t ∧ Raised s t 0 .operandIllegal s.bank.sr.pca)) ∧
     (formed → p = 1#1 → g = 0#1 → s.unreachable s.ctxNo = none →
       let cell := peerCell s.cellNo c.toNat
       (cell = s.cellNo → (s.ctxAt s.ctxNo).part.getLsbD cell = true → (s.bank.barrier x.toNat).live = true →
         (s.bank.barrier x.toNat).ring = false → (s.bank.barrier x.toNat).scope ≠ 0 →
         ∀ v, (s.bank.barrier x.toNat).item cnt bytes (w.getLsbD 0) = .applied v → ∃ t, exec i s = .next t ∧ SyncStep s t ∧
           t.bank.barrier x.toNat = v) ∧
       (cell ≠ s.cellNo → s.bankPlace s.ctxNo cell = .saved → ∃ t, exec i s = .next t ∧
         ((s.ctxAt s.ctxNo).part.getLsbD cell = true → Waits s t .a)) ∧
       (cell ≠ s.cellNo → (s.ctxAt s.ctxNo).part.getLsbD cell = true → s.bankPlace s.ctxNo cell ≠ .saved →
       ∀ b v, s.bankOf s.ctxNo cell = some b → (b.barrier x.toNat).live = true → (b.barrier x.toNat).ring = false →
         (b.barrier x.toNat).scope ≠ 0 → (b.barrier x.toNat).item cnt bytes (w.getLsbD 0) = .applied v →
         ∃ t, exec i s = .next t ∧ SameRegs s t ∧ SameUnits s t ∧ RetiredA s t 1 ∧ SameMemory s t ∧
           t.bankOf s.ctxNo cell = some (b.putBarrier x.toNat v)))) ∧
   (∀ (s : State) (x : BitVec 5) (z : BitVec 1) (p d : BitVec 6),
     let b := s.bank.barrier x.toNat
     let r := s.bank.ring x.toNat
     let v := s.bank.readA p.toNat
     (v.toNat / 2 = 0 → b.live = true →
       (b.phase ≠ v.getLsbD 0 → b.scope ≠ 4 ∨ s.unreachable s.ctxNo = none → ∃ t, exec (.bxwait x 0 z p) s = .next t ∧ OnlyRetiredA s t 1) ∧
       (b.phase = v.getLsbD 0 → ∃ t, exec (.bxwait x 0 z p) s = .next t ∧ Waits s t .a)) ∧
     (r.isSet = true → x.toNat < 8 →
       let done := if z = 1#1 then r.waitCons + 1 ≤ r.rc else r.waitProd + 1 ≤ r.rp
       (done → r.scope ≠ 4 ∨ s.unreachable s.ctxNo = none → ∃ t, exec (.bxwait x 1 z p) s = .next t ∧ SyncStep s t ∧ t.bank.sync.handles = s.bank.sync.handles ∧
         t.bank.sync.barriers = s.bank.sync.barriers ∧
         (∀ k, t.bank.ring k = if k = x.toNat then
             (if z = 1#1 then { r with waitCons := r.waitCons + 1 } else { r with waitProd := r.waitProd + 1 }) else s.bank.ring k)) ∧
       (¬ done → ∃ t, exec (.bxwait x 1 z p) s = .next t ∧ Waits s t .a)) ∧
     (s.faultless → (v.toNat / 2 ≠ 0 ∨ b.live = false → ∃ t, exec (.bxwait x 0 z p) s = .next t ∧ Raised s t 0 .operandFormat 0) ∧
       (r.isSet = false → ∃ t, exec (.bxwait x 1 z p) s = .next t ∧ Raised s t 0 .operandFormat 0)) ∧
     (let bit := fun (q : Bool) (k : Nat) => if q = true then 2 ^ k else 0
      AnswersA (.bxtest x 0 d) s 1 d (BitVec.ofNat 64 (bit b.phase 63 + b.scope * 2 ^ 60 + bit b.live 59 + bit b.ring 58 +
       b.arrived * 2 ^ 47 + b.expect * 2 ^ 36 + b.held.length * 2 ^ 32 + (b.pending % 2 ^ 32).toNat))) ∧
     AnswersA (.bxtest x 1 d) s 1 d (if r.isSet = true then
       BitVec.ofNat 64 (2 ^ 63 + (r.n - 1) * 2 ^ 32 + r.rp % 65536 * 65536 + r.rc % 65536) else 0)) ∧
   (∀ (s : State) (k : BitVec 3) (c : BitVec 6),
     let w := (s.bank.readA c.toNat).toNat
     let v := (s.bank.readA (c.toNat + 1)).toNat
     let n := w / 2 ^ 34 % 16 + 1
     let fb := w / 2 ^ 38 % 32
     let eb := w / 2 ^ 43 % 32
     let was := (s.bank.ring k.toNat).stages
     let r : Ring := ⟨true, w / 2 ^ 48 % 8, 64 * (w % 2 ^ 17), 64 * (w / 2 ^ 17 % 2 ^ 17), n, fb, eb, 0, 0, 0, 0⟩
     let formed := w / 2 ^ 51 = 0 ∧ v / 2 ^ 22 = 0 ∧ 2 ≤ n ∧ r.slot ≠ 0 ∧ r.scope ≤ 4 ∧ v % 2048 ≠ 0 ∧ v / 2048 % 2048 ≠ 0
     let placed := fb + n ≤ 32 ∧ eb + n ≤ 32 ∧ (fb + n ≤ eb ∨ eb + n ≤ fb) ∧
       (∀ m ∈ r.stages, s.stageFree k.toNat m = true) ∧ (∀ m ∈ was, (s.bank.barrier m).quiet = true) ∧ s.bank.copyNamesRing k.toNat = false
     (c.toNat % 2 = 0 → w = 0 → v = 0 → ∃ t, exec (.ringset k c) s = .next t ∧ SyncStep s t ∧ (t.bank.ring k.toNat).isSet = false ∧
       (∀ j, j ≠ k.toNat → t.bank.ring j = s.bank.ring j) ∧ t.bank.sync.handles = s.bank.sync.handles ∧
       (∀ m, m < 32 → (m ∈ was → (t.bank.barrier m).live = false) ∧ (m ∉ was → t.bank.barrier m = s.bank.barrier m))) ∧
     (c.toNat % 2 = 0 → formed → r.base + n * r.slot ≤ 0x600000 → placed → ∃ t, exec (.ringset k c) s = .next t ∧ SyncStep s t ∧
       t.bank.ring k.toNat = r ∧ (∀ j, j ≠ k.toNat → t.bank.ring j = s.bank.ring j) ∧ t.bank.sync.handles = s.bank.sync.handles ∧
       (∀ i, i < n → t.bank.barrier (fb + i) = ⟨true, true, false, r.scope, 0, v % 2048, 0, [], 0⟩ ∧
         t.bank.barrier (eb + i) = ⟨true, true, false, r.scope, 0, v / 2048 % 2048, 0, [], 0⟩) ∧
       (∀ m, m < 32 → m ∉ r.stages → (m ∈ was → (t.bank.barrier m).live = false) ∧ (m ∉ was → t.bank.barrier m = s.bank.barrier m))) ∧
     (s.faultless →
       (c.toNat % 2 = 1 → ∃ t, exec (.ringset k c) s = .next t ∧ Raised s t 0 .operandIllegal s.bank.sr.pca) ∧
       (c.toNat % 2 = 0 → (w ≠ 0 ∨ v ≠ 0) → ¬ formed → ∃ t, exec (.ringset k c) s = .next t ∧ Raised s t 0 .operandFormat 0) ∧
       (c.toNat % 2 = 0 → formed → 0x600000 < r.base + n * r.slot →
         ∃ t, exec (.ringset k c) s = .next t ∧ Raised s t 0 .accessRange 0x600000) ∧
       (c.toNat % 2 = 0 → formed → r.base + n * r.slot ≤ 0x600000 → ¬ placed →
         ∃ t, exec (.ringset k c) s = .next t ∧ Raised s t 0 .operandFormat 0))))

/-- The copy instructions and the handle instructions (R251, R255, R256, R262 to R266). A copy whose descriptor passes its
checks and whose handle is FREE makes the handle FILLING with its channel and total, and stands last in its channel, its
descriptor, indices and slot captured; one whose handle is in use is HANDLE_STATE; one whose channel holds 16, or whose handle
drains, waits. HWAIT waits for FULL, HWAITP for a byte count, HREL releases, HSTAT reads. The model's choices: log entries 79,
80 and 84. -/
def Obligations.Copies : Prop :=
  (∀ (s : State) (h a : BitVec 6) (x : BitVec 5) (e p f : BitVec 1) (k : CopyKind) (ch : Nat) (i : Instr),
    (∃ c : BitVec 2, ch = c.toNat ∧ (i = .cpy h a x e c p f ∧ k = .cpy ∨ i = .gath h a x e c p f ∧ k = .gath ∨
      i = .scat h a x e c p f ∧ k = .scat)) ∨ (i = .cpyf h a x e p f ∧ k = .cpyf ∧ ch = 2) →
    let illegal := e = 1#1 ∧ f = 1#1 ∨ k ≠ .cpyf ∧ ch = 2
    let place := s.bank.readA a.toNat
    (s.faultless → illegal → ∃ t, exec i s = .next t ∧ Raised s t 0 .operandIllegal s.bank.sr.pca) ∧
    (s.faultless → ¬ illegal → place.toNat % 128 ≠ 0 → ∃ t, exec i s = .next t ∧ Raised s t 0 .align place) ∧
    (¬ illegal → place.toNat % 128 = 0 → ∀ bs, s.rd .s false place 128 = .ok bs →
      let d := copyDescOf bs
      (s.faultless → d.formOk k ch (e == 1#1) (f == 1#1) = false → ∃ t, exec i s = .next t ∧ Raised s t 0 .operandFormat 0) ∧
      (d.formOk k ch (e == 1#1) (f == 1#1) = true → (d.ver = true → ∃ q, s.useDesc d.tidx .any false = .ok q) →
        ∀ shown bar idx base,
          (d.pres = false → shown = none) →
          (d.pres = true → ∃ q, s.useDesc d.didx .w false = .ok q ∧ d.presOk q = true ∧ shown = some (q.record, q.hbase, q.ty)) →
          s.copyBarrier d (e == 1#1) (f == 1#1) x.toNat (p == 1#1) = .ok bar → s.copyPlace d k = .ok (idx, base) →
          let v := s.bank.handle h.toNat
          let new : CopyOp := ⟨k, h.toNat, ch, bs, idx, bar, base, d.total, 0, .queued, [], [], shown, [], s.bank.sr.seqa⟩
          (v.state = .free → (s.bank.channel ch).length < 16 → ∃ t, exec i s = .next t ∧
            t.bank.channel ch = s.bank.channel ch ++ [new] ∧
            (∀ c, c ≠ ch → t.bank.channel c = s.bank.channel c) ∧ t.bank.handle h.toNat = ⟨.filling, ch, 0, d.total⟩ ∧
            (∀ n, n ≠ h.toNat → t.bank.handle n = s.bank.handle n) ∧ t.bank.sync.barriers = s.bank.sync.barriers ∧
            t.bank.sync.rings = s.bank.sync.rings ∧ ({ t.bank.eng with channels := s.bank.eng.channels } : Engines) = s.bank.eng ∧
            SameRegs s t ∧ t.bank.q = s.bank.q ∧ RetiredA s t 1 ∧ SameDevice s t) ∧
          (v.state = .draining ∨ v.state = .free ∧ 16 ≤ (s.bank.channel ch).length → ∃ t, exec i s = .next t ∧ Waits s t .a) ∧
          (s.faultless → v.state = .filling ∨ v.state = .full → ∃ t, exec i s = .next t ∧ Raised s t 0 .handleState 0)))) ∧
  (∀ (s : State) (h b d : BitVec 6),
    let v := s.bank.handle h.toNat
    let n := (s.bank.readA b.toNat).toNat
    let w : Word := BitVec.ofNat 64 ((match v.state with | .free => 0 | .filling => 1 | .full => 2 | .draining => 3) * 2 ^ 62 +
      v.ch * 2 ^ 60 + v.wp)
    (v.state = .full → ∃ t, exec (.hwait h) s = .next t ∧ OnlyRetiredA s t 1) ∧
    (v.state = .filling → ∃ t, exec (.hwait h) s = .next t ∧ Waits s t .a) ∧
    (v.state = .filling ∨ v.state = .full →
      (n ≤ v.wp → n ≤ v.total → ∃ t, exec (.hwaitp h b) s = .next t ∧ OnlyRetiredA s t 1) ∧
      (v.wp < n → n ≤ v.total → ∃ t, exec (.hwaitp h b) s = .next t ∧ Waits s t .a) ∧
      (s.faultless → v.total < n → ∃ t, exec (.hwaitp h b) s = .next t ∧ Raised s t 0 .operandFormat 0) ∧
      ∃ t, exec (.hrel h) s = .next t ∧ SyncStep s t ∧
        t.bank.handle h.toNat = { v with state := if v.state = .full then .free else .draining } ∧
        (∀ m, m ≠ h.toNat → t.bank.handle m = s.bank.handle m) ∧ t.bank.sync.barriers = s.bank.sync.barriers ∧
        t.bank.sync.rings = s.bank.sync.rings) ∧
    (d.toNat % 2 = 0 → ∃ t, exec (.hstat h d) s = .next t ∧
      (∀ r, t.bank.readA r = if r = 0 then 0 else if r = d.toNat then w else if r = d.toNat + 1 then BitVec.ofNat 64 v.total
        else s.bank.readA r) ∧
      t.bank.af.lc = s.bank.af.lc ∧ t.bank.af.sd = s.bank.af.sd ∧ t.bank.xf = s.bank.xf ∧ SameUnits s t ∧ RetiredA s t 1 ∧
      SameDevice s t) ∧
    (s.faultless →
      (v.state = .free ∨ v.state = .draining → ∀ i ∈ [Instr.hwait h, .hwaitp h b, .hrel h],
        ∃ t, exec i s = .next t ∧ Raised s t 0 .handleState 0) ∧
      (d.toNat % 2 = 1 → ∃ t, exec (.hstat h d) s = .next t ∧ Raised s t 0 .operandIllegal s.bank.sr.pca)))

/-- The steps of a copy in the active bank of a cell (R251, R254, R257, R258, R263). The first copy that has not begun starts
once its version is reached; the bytes of a copy between places of S space go, in box order, from each source address to its
destination address, and nowhere else, while the write pointers follow; a copy whose bytes are all there leaves its channel, its
barrier takes an arrival where it is still LIVE (R240), and its handle becomes FULL, or FREE if it drains. The model's choices:
log entries 78, 81, 82 and 85. -/
def Obligations.CopySteps : Prop :=
  ∀ (s : State) (cell ch x : Nat) (pre post : List CopyOp) (o : CopyOp), cell < 256 → ch < 4 → o.handle < 64 →
    let b := (s.cellAt cell).active
    let d := copyDescOf o.desc
    b.ctl.owner = some x → b.channel ch = pre ++ o :: post →
    (s.mayBegin (.active, x) b = true → (∀ c ∈ pre, c.phase ≠ .queued) → o.phase = .queued →
      (d.ver = false ∨ o.total = 0 ∨ ∃ t, s.readDesc x d.tidx true = .ok t ∧ d.expver ≤ t.version) →
      ∃ t, exec (.copyStart cell ch) s = .next t ∧
        (t.cellAt cell).active = b.setChannel ch (pre ++ { o with phase := .running } :: post) ∧
        t = s.setCell cell { s.cellAt cell with active := (t.cellAt cell).active }) ∧
    (∀ n, s.mem.wf = true → (∀ c ∈ pre, c.total ≤ c.wp ∧ c.phase = .running) → o.wp < o.total → o.phase = .running ∨ o.phase = .waiting →
      o.bar = none → o.shown = none → o.kind ≠ .cpyf → d.sspace = 0 → d.dspace = 0 ∨ d.dspace = 2 → s.dev.poisoned = [] →
      let m := min n (o.total - o.wp)
      let src := fun (j : Nat) => d.srcAddr o.kind o.idx (o.wp + j)
      let dst := fun (j : Nat) => d.dstAddr o.kind o.idx o.slotBase (o.wp + j)
      (∀ j, j < m → s.imageHeld x cell (src j) = true ∧ s.imageHeld x cell (dst j) = true ∧ src j < 0x600000 ∧ dst j < 0x600000) →
      (∀ j l, j < m → l < m → dst j = dst l → j = l) →
      ∃ t, exec (.copyBytesDelivered cell ch n false) s = .next t ∧
        (∀ j, j < m → memGet t.mem (spadKey x cell (dst j)) = memGet s.mem (spadKey x cell (src j))) ∧
        (∀ k, (∀ j, j < m → k ≠ spadKey x cell (dst j)) → memGet t.mem k = memGet s.mem k) ∧
        (t.cellAt cell).active.channel ch = pre ++ { o with wp := o.wp + m, phase := .running, written := [] } :: post ∧
        (t.cellAt cell).active.handle o.handle = { b.handle o.handle with wp := o.wp + m } ∧
        (t.cellAt cell).active.sr = b.sr ∧ (t.cellAt cell).active.af = b.af ∧ (t.cellAt cell).active.xf = b.xf) ∧
    (pre = [] → o.wp = o.total → o.phase = .running ∨ o.phase = .waiting → o.shown = none →
      let left := { b.handle o.handle with
        state := if (b.handle o.handle).state = .draining then .free else .full,
        wp := if (b.handle o.handle).state = .draining then (b.handle o.handle).wp else (b.handle o.handle).total }
      let done := fun (t : State) =>
        let u := (t.cellAt cell).active
        u.channel ch = post ∧ u.handle o.handle = left ∧ vget u.eng.chSeq ch 0 = vget b.eng.chSeq ch 0 + 1 ∧ u.sr = b.sr ∧ u.af = b.af ∧
        u.xf = b.xf ∧ SameMemory s t
      (o.bar = none → ∃ t, exec (.copyComplete cell ch) s = .next t ∧ done t ∧ (t.cellAt cell).active.sync.barriers = b.sync.barriers) ∧
      (∀ r, o.bar = some r → r.cell = cell → r.bx < 32 →
        ((b.barrier r.bx).live = false →
          ∃ t, exec (.copyComplete cell ch) s = .next t ∧ done t ∧ (t.cellAt cell).active.sync.barriers = b.sync.barriers) ∧
        (∀ v, (b.barrier r.bx).live = true → (b.barrier r.bx).scope ≠ 4 ∨ s.unreachable x = none →
          (b.barrier r.bx).item 1 0 r.par = .applied v →
          ∃ t, exec (.copyComplete cell ch) s = .next t ∧ done t ∧ (t.cellAt cell).active.barrier r.bx = v)))

/-! ## The matrix engine -/

/-- The matrix instructions and the steps of the engine (R157, R185 to R187, R192, R194, R196, R198 to R203). MMA captures the
levels of the half that becomes active and joins the queue; MZERO and MWB join it; a full queue waits; a failed check is its
fault. The head starts when its waits are over; a K-step adds each row's products to its lanes, the integer sums modulo 2^32,
and no row outside changes; a completed operation leaves, its flags held at its walk count: MZERO zeroes its rows and MWB writes
its bytes. The model's choices: log entries 45, 50 and 58. -/
def Obligations.MatrixEngine : Prop :=
  (∀ (s : State) (a b : BitVec 4) (m : BitVec 2) (n d : BitVec 3) (x : BitVec 6),
    let half : Fin 2 := if s.bank.eng.activeHalf = 0 then 1 else 0
    let o : MmaOp := ⟨s.bank.readSd a.toNat, s.bank.readSd b.toNat, 32 * 2 ^ m.toNat, 16 * (n.toNat + 1), s.bank.readA x.toNat,
      s.bank.captureLevels half d.toNat, (s.bank.controlsA 0).daz, (s.bank.controlsA 0).ftz, 0, 0⟩
    let fits := m ≠ 3 ∧ 1 ≤ d.toNat ∧ d.toNat ≤ 6
    (fits → s.checkMma o = .ok () →
      (s.bank.eng.tileQ.length < 2 → ∃ t, exec (.mma a b m n d x) s = .next t ∧
        t.bank.eng = { s.bank.eng with activeHalf := half, tileQ := s.bank.eng.tileQ ++ [⟨s.bank.walk.wa, false, .mma o, 0⟩] } ∧
        SameRegs s t ∧ t.bank.q = s.bank.q ∧ t.bank.sync = s.bank.sync ∧ RetiredA s t 1 ∧ SameDevice s t) ∧
      (2 ≤ s.bank.eng.tileQ.length → ∃ t, exec (.mma a b m n d x) s = .next t ∧ Waits s t .a)) ∧
    (s.faultless → (∀ c g, fits → s.checkMma o = .error (.fault c g) → ∃ t, exec (.mma a b m n d x) s = .next t ∧ Raised s t 0 c g) ∧
      (¬ fits → ∃ t, exec (.mma a b m n d x) s = .next t ∧ Raised s t 0 .operandIllegal s.bank.sr.pca)) ∧
    (∀ l, l < 6 → l < d.toNat → o.levels[l]? = some (match (vget s.bank.eng.nests[half] l .reset).lc with
      | some r => { vget s.bank.eng.nests[half] l .reset with lc := none, trip := (s.bank.readLc r).toNat }
      | none => vget s.bank.eng.nests[half] l .reset))) ∧
  (∀ (s : State) (a : BitVec 6),
    let v := (s.bank.readA a.toNat).toNat
    let first := v % 4096
    let count := v / 4096 % 8192
    let fits := count ≠ 0 ∧ v / 2 ^ 25 = 0 ∧ first + count ≤ 4096
    (fits → s.bank.eng.tileQ.length < 2 → ∃ t, exec (.mzero a) s = .next t ∧
      t.bank.eng = { s.bank.eng with tileQ := s.bank.eng.tileQ ++ [⟨s.bank.walk.wa, false, .mzero first count, 0⟩] } ∧
      SameRegs s t ∧ t.bank.q = s.bank.q ∧ t.bank.sync = s.bank.sync ∧ RetiredA s t 1 ∧ SameDevice s t) ∧
    (fits → 2 ≤ s.bank.eng.tileQ.length → ∃ t, exec (.mzero a) s = .next t ∧ Waits s t .a) ∧
    (s.faultless → ¬ fits → ∃ t, exec (.mzero a) s = .next t ∧ Raised s t 0 .operandFormat 0)) ∧
  (∀ (s : State) (raw : Bool) (d : BitVec 4) (m : BitVec 2) (n : BitVec 3) (z b : BitVec 6) (i : Instr),
    (raw = false ∧ i = .mwb d m n z b) ∨ (raw = true ∧ b = 0 ∧ i = .mwbRaw d m n z) →
    let sd := s.bank.readSd d.toNat
    let w := s.bank.readA z.toNat
    let rows := 32 * 2 ^ m.toNat
    let cols := 16 * (n.toNat + 1)
    let k := s.bank.controlsA (field w 24 3)
    (s.faultless → m = 3 → ∃ t, exec i s = .next t ∧ Raised s t 0 .operandIllegal s.bank.sr.pca) ∧
    (m ≠ 3 → quantising sd raw = false → mwbPlaceOk w rows cols false b.toNat (s.bank.readA b.toNat) = true → k.rm ≠ 6 →
      (raw = true → sdTv sd = false ∧ sdBgeom sd = 0) →
      ∀ desc parts, s.checkSd sd (storedRows sd rows cols).2 .w = .ok desc →
        s.mwbParts sd rows cols (storedRows sd rows cols).1 = .ok parts →
        let o : MwbOp := ⟨sd, w, rows, cols, raw, k.rm, k.daz, k.ftz, (desc.map (·.ieee)).getD false, framesOf parts,
          desc.map fun t => (t.record, t.hbase)⟩
        (s.bank.eng.tileQ.length < 2 → ∃ t, exec i s = .next t ∧
          t.bank.eng = { s.bank.eng with tileQ := s.bank.eng.tileQ ++ [⟨s.bank.walk.wa, false, .mwb o, 0⟩] } ∧
          SameRegs s t ∧ t.bank.q = s.bank.q ∧ t.bank.sync = s.bank.sync ∧ RetiredA s t 1 ∧ SameDevice s t) ∧
        (2 ≤ s.bank.eng.tileQ.length → ∃ t, exec i s = .next t ∧ Waits s t .a))) ∧
  (∀ (s : State) (cell : Nat) (h : cell < 256) (w : Int) (st : Bool) (work : TileWork) (f : Flags) (rest : List TileOp),
    let u : State := { s with cur := ⟨cell, h⟩ }
    let b := u.bank
    let after := fun (t : State) => (t.cellAt cell).active
    b.eng.tileQ = ⟨w, st, work, f⟩ :: rest → u.linesReady = true →
    (st = false → u.enginesRun = true → u.xPending w work.tiles = false → u.versionsOf u.ctxNo work = .ok true →
      ∃ t, exec (.tileEngineOpStart cell) s = .next t ∧ after t = { b with eng := { b.eng with tileQ := ⟨w, true, work, f⟩ :: rest } } ∧
        t = s.setCell cell { s.cellAt cell with active := after t }) ∧
    (∀ o, st = true → work = .mma o → o.finished = false → (s.ctxAt u.ctxNo).swapping = false → stepPoison u u.ctxNo cell o o.stepLen = none →
      let k := kStep (sdTy o.sdb).width
      let as := operandA u u.ctxNo cell b o k o.stepLen
      let bs := operandB u u.ctxNo cell o o.stepLen
      let row := (placeCrow o.place : Int) + offsetAt (·.sc) o.levels o.iter
      let first := placeClane o.place
      0 ≤ row → first + o.n ≤ 128 → rowsAscend b.xf.acc = true →
      ∃ t fl, exec (.matrixKStep cell) s = .next t ∧
        (∀ i j, i < o.m → j < 128 →
          let old := rowElem (b.readRow (row.toNat + i)) 32 j
          let pairs : List (Machine.Num × Machine.Num) := (as.getD i []).zip (bs.getD (j - first) [])
          rowElem ((after t).readRow (row.toNat + i)) 32 j =
            if first ≤ j ∧ j < first + o.n then
              (if placeInt o.place = true then
                (((old : Int) + (pairs.map fun (p : Machine.Num × Machine.Num) => numInt p.1 * numInt p.2).sum) % 2 ^ 32).toNat
              else (laneStep false (o.daz && o.step == 0) o.ftz old pairs).1 % 2 ^ 32)
            else old) ∧
        (∀ r : Nat, (r : Int) < row ∨ row + o.m ≤ r → (after t).readRow r = b.readRow r) ∧
        (after t).eng = { b.eng with tileQ := ⟨w, true, .mma o.advance, f ||| fl⟩ :: rest, narrow := s.dev.alarm } ∧ (after t).af = b.af ∧ (after t).sr = b.sr ∧
        (after t).xf.x = b.xf.x ∧ (after t).xf.p = b.xf.p ∧ (after t).xf.tags = b.xf.tags ∧ SameMemory s t) ∧
    (st = true →
      let left := fun (t : State) (fl : Flags) => (after t).eng =
        { b.eng with tileQ := rest, tileFlags := b.eng.tileFlags ++ [(w, f ||| fl)], engSeq := b.eng.engSeq + 1 }
      (∀ o, work = .mma o → o.finished = true → ∃ t, exec (.tileEngineOpComplete cell) s = .next t ∧ left t 0 ∧
        (after t).xf = b.xf ∧ (after t).af = b.af ∧ (after t).sr = b.sr ∧ SameMemory s t) ∧
      (∀ r n, work = .mzero r n → rowsAscend b.xf.acc = true → ∃ t, exec (.tileEngineOpComplete cell) s = .next t ∧ left t 0 ∧
        (∀ q, (after t).readRow q = if r ≤ q ∧ q < r + n then 0 else b.readRow q) ∧ (after t).xf.x = b.xf.x ∧
        (after t).xf.p = b.xf.p ∧ (after t).xf.tags = b.xf.tags ∧ (after t).af = b.af ∧ (after t).sr = b.sr ∧ SameMemory s t) ∧
      (∀ o, work = .mwb o → o.shown = none → s.dev.poisoned = [] → o.poison b = none →
        let codes := o.codes b fun _ _ => -(sdEts o.sd)
        let ws := o.writes u.ctxNo cell codes
        s.mem.wf = true → (ws.map (·.1)).Nodup →
        ∃ t fl, exec (.tileEngineOpComplete cell) s = .next t ∧ left t fl ∧ (∀ p ∈ ws, memGet t.mem p.1 = p.2) ∧
          (∀ k, k ∉ ws.map (·.1) → memGet t.mem k = memGet s.mem k) ∧ (after t).xf = b.xf ∧ (after t).af = b.af ∧
          (after t).sr = b.sr)))

/-! ## Tensors and tasks -/

/-- The record, version and link-status instructions (R141 to R143, R148 to R151, R368). TREC stores the task's snapshot; TREC
CLR clears a record once the engines are idle and waits until then; TFOLD of a single shard folds what its shard presented and
passes; TVER publishes a larger version and TVWAIT waits for one; LSTAT reads a port. The model's choices: log entries 51, 52,
53 and 55. -/
def Obligations.TensorRecords : Prop :=
  ∀ (s : State),
    (∀ (b im : BitVec 6) (d : Desc) (ps : List RowPart),
      let idx := (s.bank.readA im.toNat).toNat
      let ea := s.bank.readA b.toNat
      idx < 65536 → s.useDesc idx .s false = .ok d →
      (s.mem.wf = true → (s.snapshotOf d.record).hist.length = 48 → ea.toNat % 64 = 0 → s.resolve .s (Access.store s.level) ea 256 = .ok ps → s.storePoison ps = none →
        ∃ t, exec (.trec b im) s = .next t ∧ SameRegs s t ∧ StoredA s t 1 ps (snapshotBytes (s.snapshotOf d.record))) ∧
      (s.faultless → ea.toNat % 64 ≠ 0 → ∃ t, exec (.trec b im) s = .next t ∧ Raised s t 0 .align ea)) ∧
    (∀ (im : BitVec 6) (d : Desc) (g : Group),
      let idx := (s.bank.readA im.toNat).toNat
      idx < 65536 → s.useDesc idx .c false = .ok d → s.curGroup = some g →
      (s.bank.enginesDone = true → g.ctx = s.ctxNo → s.ctxNo < 64 → ∃ t, exec (.trecClr im) s = .next t ∧ SameRegs s t ∧ SameUnits s t ∧ SameMemory s t ∧
        recordAt (t.ctxAt g.ctx).records d.record =
          { StatRecord.blank with gen := (recordAt (s.ctxAt g.ctx).records d.record).gen + 1 } ∧
        (∀ j, j ≠ d.record → recordAt (t.ctxAt g.ctx).records j = recordAt (s.ctxAt g.ctx).records j) ∧
        t.bank.sr = { s.bank.sr with pca := s.bank.sr.pca + 4, seqa := s.bank.sr.seqa + 1 }) ∧
      (s.bank.enginesDone = false → ∃ t, exec (.trecClr im) s = .next t ∧ Waits s t .a)) ∧
    (∀ (im : BitVec 6) (d : Desc) (g : Group),
      let idx := (s.bank.readA im.toNat).toNat
      idx < 65536 → s.useDesc idx .s false = .ok d → s.curGroup = some g →
      (s.bank.ctl.foldDone + 1 ≤ g.folds → ∃ t, exec (.tfold im) s = .next t ∧ t.bank.ctl.foldDone = s.bank.ctl.foldDone + 1 ∧
        SameRegs s t ∧ SameUnits s t ∧ SameMemory s t ∧
        t.bank.sr = { s.bank.sr with pca := s.bank.sr.pca + 4, seqa := s.bank.sr.seqa + 1 }) ∧
      (g.folds < s.bank.ctl.foldDone + 1 → g.cells = [s.cellNo] → g.halted = [false] → g.ctx = s.ctxNo →
        s.bankPlace s.ctxNo s.cellNo = .active → s.bank.walk.wa ≤ s.bank.walk.wx → s.bank.enginesDone = true →
        ∃ t, exec (.tfold im) s = .next t ∧ t.bank.ctl.foldDone = s.bank.ctl.foldDone + 1 ∧ SameRegs s t ∧ SameUnits s t ∧ SameMemory s t ∧
          (t.groupAt g.id).map (fun h => (h.folds, recordAt h.snapshot d.record)) = some (g.folds + 1,
            (g.gone.filter fun p => p.2.1 == d.record).foldl (fun r p => r.fold p.2.2)
              ((s.bank.ctl.presented.filter fun p =>
                  p.2.1 == d.record && (match p.1 with | none => true | some w => decide (w < s.bank.walk.wa))).foldl
                (fun r p => r.fold p.2.2) (recordAt g.snapshot d.record))))) ∧
    (∀ (im v : BitVec 6) (z : BitVec 3) (d : Desc),
      let idx := (s.bank.readA im.toNat).toNat
      let w := (s.bank.readA v.toNat).toNat
      (z = 3#3 ∨ z = 4#3) → s.unreachable s.ctxNo = none → idx < 65536 → w < 2 ^ 32 →
      (s.useDesc idx .v true = .ok d →
        (d.version < w → s.bank.enginesDone = true → ∀ ps,
          s.resolveG none s.ctxNo { Access.store .supervisor with annotated := true } ((s.ctxAt s.ctxNo).descAddr idx + 0x2C) 4 = .ok ps →
          s.storePoison ps = none → s.mem.wf = true →
          ∃ t, exec (.tver im v z) s = .next t ∧ SameRegs s t ∧ StoredA s t 1 ps (bytesOfNat 4 w)) ∧
        (d.version < w → s.bank.enginesDone = false → ∃ t, exec (.tver im v z) s = .next t ∧ Waits s t .a) ∧
        (s.faultless → w ≤ d.version → ∃ t, exec (.tver im v z) s = .next t ∧ Raised s t 0 .operandFormat 0)) ∧
      (s.useDesc idx .any true = .ok d →
        (w ≤ d.version → ∃ t, exec (.tvwait im v z) s = .next t ∧ OnlyRetiredA s t 1) ∧
        (d.version < w → ∃ t, exec (.tvwait im v z) s = .next t ∧ Waits s t .a))) ∧
    (∀ (d p : BitVec 6),
      let n := (s.bank.readA p.toNat).toNat
      (n ≤ 17 → AnswersA (.lstat d p) s 1 d ((s.port n).word (decide (2 ≤ n)))) ∧
      (s.faultless → 17 < n → ∃ t, exec (.lstat d p) s = .next t ∧ Raised s t 0 .operandFormat 0)) ∧
    (s.faultless → ∀ (b im v : BitVec 6) (z : BitVec 3),
      (65536 ≤ (s.bank.readA im.toNat).toNat → ∀ i ∈ [Instr.trec b im, .trecClr im, .tfold im],
        ∃ t, exec i s = .next t ∧ Raised s t 0 .operandFormat 0) ∧
      (z ≠ 3#3 → z ≠ 4#3 → ∀ i ∈ [Instr.tver im v z, .tvwait im v z],
        ∃ t, exec i s = .next t ∧ Raised s t 0 .operandIllegal s.bank.sr.pca))

/-- The task instructions (R274 to R276, R280, R284 to R290, R293, R294), where the TCB can be read and written. TSPAWN CREATE
writes the image with STATE CREATED and the device's own fields cleared, once the issuing cell's counter has registered (R308);
TSPAWN ARM makes a CREATED task with predecessors WAITING and one without READY; TEDGE adds a successor and a predecessor; TDONE
waits for a terminal STATE and reads it; TCANCEL marks a CREATED or WAITING task and reports; TYIELD that yields nothing
retires; TGUARD stores the guard word. The model's choices: log entries 94 and 97. -/
def Obligations.TaskInstructions : Prop :=
  (∀ (img : List Byte) (n k : Nat), img.length = 128 → k < 128 → n < 2 ^ 32 →
    (spawnedTcb img n)[k]? =
      if k = 0 then some 1#8 else if k < 8 ∨ k = 0x22 ∨ k = 0x23 ∨ (0x48 ≤ k ∧ k < 0x68) then some 0#8
      else if 0x70 ≤ k ∧ k < 0x74 then some (BitVec.ofNat 8 (n / 256 ^ (k - 0x70))) else img[k]?) ∧
  ∀ (s : State) (im z d : BitVec 6),
    let x := s.ctxNo
    let i := (s.bank.readA im.toNat).toNat
    let ea := s.bank.readA z.toNat
    let tcb := fun (j : Nat) => (s.ctxAt x).tcbBase + 128 * j
    let ok := fun (j : Nat) => j < 2 ^ 20 ∧ j < (s.ctxAt x).tcbCount
    (ok i → s.level = .task → ea.toNat % 128 = 0 → ∀ img b g, s.rd .s false ea 128 = .ok img → imageOk img = true → s.readTcb x i = .ok b →
      (tcbState b = 0 ∨ 6 ≤ tcbState b ∧ tcbState b ≤ 8 ∧ s.graphOf x i = none) → s.curGraph = some g →
      (g.registered (.cell s.cellNo) = true → ∀ u, s.agentWrite x (tcb i) (spawnedTcb img g.graphNo) true = .ok u →
        ∃ t, exec (.tspawnCreate im z) s = .next t ∧ t.mem = u.mem ∧ SameRegs s t ∧ SameUnits s t ∧ RetiredA s t 1 ∧
          (t.graphAt g.id).map (fun h => h.tasks) = some (g.tasks ++ [(i, some (.cell s.cellNo))])) ∧
      (g.registered (.cell s.cellNo) = false → ∀ j ∈ [Instr.tspawn im z, .tspawnCreate im z],
        ∃ t, exec j s = .next t ∧ Waits s t .a ∧ t.bank.ctl.spawning = true)) ∧
    (ok i → s.level = .task → ∀ c b v, s.createTask i ea = .ok (some c) → c.readTcb x i = .ok b → tcbState b = 1 → tcbPred b ≠ 0 →
      c.agentWrite x (tcb i) (withState b 2 (tcbCxl b)) true = .ok v →
      ∃ t, exec (.tspawn im z) s = .next t ∧ t.mem = v.mem ∧ SameRegs s t ∧ SameUnits s t ∧ RetiredA s t 1) ∧
    (ok i → s.level = .task → ∀ b, s.readTcb x i = .ok b →
      (tcbState b = 1 → tcbPred b ≠ 0 → ∀ u, s.agentWrite x (tcb i) (withState b 2 (tcbCxl b)) true = .ok u →
        ∃ t, exec (.tspawnArm im) s = .next t ∧ t.mem = u.mem ∧ SameRegs s t ∧ SameUnits s t ∧ RetiredA s t 1) ∧
      (tcbState b = 1 → tcbPred b = 0 → tcbCxl b = false → ∀ u, s.makeReady x i (s.cellNo / 64) = .ok u →
        ∃ t, exec (.tspawnArm im) s = .next t ∧ t.mem = u.mem ∧ SameRegs s t ∧ RetiredA s t 1 ∧ t.sched = u.sched) ∧
      (s.faultless → tcbState b ≠ 1 → ∃ t, exec (.tspawnArm im) s = .next t ∧ Raised s t 0 .taskState (BitVec.ofNat 64 (tcb i)))) ∧
    (∀ p : BitVec 6,
      let j := (s.bank.readA p.toNat).toNat
      let n := (s.bank.readA z.toNat).toNat
      ok j → ok n → ∀ bp bt, s.readTcb x j = .ok bp → s.readTcb x n = .ok bt →
        (tcbState bt = 1 → tcbState bp = 6 ∨ tcbState bp = 7 → ∃ t, exec (.tedge p z) s = .next t ∧ SameMemory s t ∧ SameRegs s t ∧ RetiredA s t 1) ∧
        (tcbState bt = 1 → tcbState bp ≠ 0 → tcbState bp ≠ 6 → tcbState bp ≠ 7 → tcbNsucc bp ≠ 8 + tcbSuccCap bp → tcbPred bt ≠ 2 ^ 32 - 1 →
          ∀ u v w, s.agentWrite x (if tcbNsucc bp < 8 then tcb j + 0x48 + 4 * tcbNsucc bp else tcbSuccPtr bp + 4 * (tcbNsucc bp - 8))
              (bytesOfNat 4 n) true = .ok u →
            u.agentWrite x (tcb j + 0x22) (bytesOfNat 2 (tcbNsucc bp + 1)) true = .ok v →
            v.agentWrite x (tcb n + 8) (bytesOfNat 4 (tcbPred bt + 1)) true = .ok w →
            ∃ t, exec (.tedge p z) s = .next t ∧ t.mem = w.mem ∧ SameRegs s t ∧ SameUnits s t ∧ RetiredA s t 1) ∧
        (s.faultless →
          (tcbState bt ≠ 1 → ∃ t, exec (.tedge p z) s = .next t ∧ Raised s t 0 .taskState (BitVec.ofNat 64 (tcb n))) ∧
          (tcbState bt = 1 → tcbState bp = 0 → ∃ t, exec (.tedge p z) s = .next t ∧ Raised s t 0 .taskState (BitVec.ofNat 64 (tcb j))))) ∧
    (ok i → ∀ b, s.readTcb x i = .ok b →
      let st := tcbState b
      (6 ≤ st → st ≤ 8 → AnswersA (.tdone d im) s 1 d (BitVec.ofNat 64 st)) ∧
      (st ≠ 0 → ¬ (6 ≤ st ∧ st ≤ 8) → ∃ t, exec (.tdone d im) s = .next t ∧ Waits s t .a) ∧
      (s.faultless → st = 0 → ∃ t, exec (.tdone d im) s = .next t ∧ Raised s t 0 .taskState (BitVec.ofNat 64 (tcb i))) ∧
      (st = 0 → AnswersA (.tcancel d im) s 1 d 3) ∧
      (st ≠ 0 → tcbCxl b = true ∨ st = 7 → AnswersA (.tcancel d im) s 1 d 2) ∧
      (tcbCxl b = false → 4 ≤ st → st ≠ 7 → AnswersA (.tcancel d im) s 1 d 1) ∧
      (tcbCxl b = false → st = 1 ∨ st = 2 → ∀ u, s.agentWrite x (tcb i) (withState b st true) true = .ok u →
        ∃ t, exec (.tcancel d im) s = .next t ∧ t.mem = u.mem ∧ (t.bank.readA d.toNat = 0) ∧ SameRegsBut s t d.toNat ∧ RetiredA s t 1)) ∧
    (s.yieldsTo = none → ∃ t, exec .tyield s = .next t ∧ OnlyRetiredA s t 1) ∧
    (s.level = .task → ∀ gr g u, s.curGroup = some gr → s.curGraph = some g → i < 256 → i < g.nguard → (∀ e ∈ g.guards, e.1 ≠ i) →
      s.wr .g true (g.guardBase + BitVec.ofNat 64 (8 * i)) (bytesOfWord64 (s.bank.readA z.toNat) 8) = .ok u →
      ∃ t, exec (.tguard im z) s = .next t ∧ t.mem = u.mem ∧ SameRegs s t ∧ SameUnits s t ∧ RetiredA s t 1 ∧
        (t.graphAt g.id).map (·.guards) = some (g.guards ++ [(i, (s.ctxAt x).tcbIndex gr.tcb, s.bank.readA z.toNat)])) ∧
    (s.faultless →
      (s.level = .supervisor → ∀ j ∈ [Instr.tspawn im z, .tspawnCreate im z, .tspawnArm im, .tguard im z],
        ∃ t, exec j s = .next t ∧ Raised s t 0 .priv s.bank.sr.pca) ∧
      (¬ ok i → s.level = .task → ∀ j ∈ [Instr.tspawn im z, .tspawnCreate im z, .tspawnArm im, .tedge im z, .tdone d im, .tcancel d im],
        ∃ t, exec j s = .next t ∧ Raised s t 0 .operandFormat 0))

/-! ## Futures and collectives -/

/-- FNEW, FREG, FRES and FFAIL (R283, R284, R286, R291, R292). The table of R284 gives a future's state word and value after an
event, or FUT_DOUBLE, and the task whose PRED is decremented. The instruction writes the 16 bytes, FREG answers the state word
before them, and a decrement follows; every fault leaves the future and the TCB as they were. The model's choices: log entries
93 and 95. -/
def Obligations.Futures : Prop :=
  (∀ (w v x : Word) (n c : Nat),
    let st := w.toNat / 2 ^ 62
    let cont := w.toNat % 2 ^ 20
    let code := w.toNat / 2 ^ 48 % 256
    let word : Nat → Nat → Nat → Nat → Word := fun state reg code cont => BitVec.ofNat 64 (state * 2 ^ 62 + reg * 2 ^ 61 + code * 2 ^ 48 + cont)
    futStep w v .new = (if st = 1 then .double else .write 0 0 none) ∧
    (w.getLsbD 61 = true → futStep w v (.reg n) = .double) ∧
    (w.getLsbD 61 = false → st = 0 → futStep w v (.reg n) = .write (word 1 1 0 n) v none) ∧
    (w.getLsbD 61 = false → 2 ≤ st → futStep w v (.reg n) = .write (word st 1 code n) v (some n)) ∧
    (st = 0 → futStep w v (.res x) = .write (word 2 0 0 0) x none ∧ futStep w v (.fail c) = .write (word 3 0 c 0) v none) ∧
    (st = 1 → futStep w v (.res x) = .write (word 2 1 0 cont) x (some cont) ∧
      futStep w v (.fail c) = .write (word 3 1 c cont) v (some cont)) ∧
    (2 ≤ st → futStep w v (.res x) = .double ∧ futStep w v (.fail c) = .double)) ∧
  ∀ (s : State) (f d v n : BitVec 6) (i : Instr) (act : FutAct) (dest : Nat),
    let at_ := s.bank.readA f.toNat
    let task := (s.bank.readA n.toNat).toNat
    let code := (s.bank.readA v.toNat).toNat
    let x := s.ctxNo
    (i = .fnew f ∧ act = .new ∧ dest = 0) ∨
      (i = .freg d f n ∧ act = .reg task ∧ dest = d.toNat ∧ task < 2 ^ 20 ∧ task < (s.ctxAt x).tcbCount) ∨
      (i = .fres f v ∧ act = .res (s.bank.readA v.toNat) ∧ dest = 0) ∨
      (i = .ffail f v ∧ act = .fail code ∧ dest = 0 ∧ 1 ≤ code ∧ code ≤ 254) →
    (s.faultless → at_.toNat % 16 ≠ 0 → ∃ t, exec i s = .next t ∧ Raised s t 0 .align at_) ∧
    (s.faultless → at_.toNat % 16 = 0 → ∀ c g, s.resolve .g (Access.atomic s.level) at_ 16 = .error (.fault c g) →
      ∃ t, exec i s = .next t ∧ Raised s t 0 c g) ∧
    (at_.toNat % 16 = 0 → ∀ ps, s.resolve .g (Access.atomic s.level) at_ 16 = .ok ps → s.clean ps → s.mem.wf = true →
      let old := s.peekParts ps
      let word : List Byte → Word := fun l => BitVec.ofNat 64 (natOfBytes l)
      let w := word (old.take 8)
      let answer := if dest = 0 then (0 : Word) else w
      (s.faultless → futStep w (word (old.drop 8)) act = .double → ∃ t, exec i s = .next t ∧ Raised s t 0 .futDouble at_) ∧
      (∀ w' v', futStep w (word (old.drop 8)) act = .write w' v' none →
        ∃ t, exec i s = .next t ∧ StoredA s t 1 ps (bytesOfNat 8 w'.toNat ++ bytesOfNat 8 v'.toNat) ∧ SameRegsBut s t dest ∧
          t.bank.readA dest = answer) ∧
      (∀ w' v' k u r, futStep w (word (old.drop 8)) act = .write w' v' (some k) →
        s.writeParts ps (bytesOfNat 8 w'.toNat ++ bytesOfNat 8 v'.toNat) = .ok u → u.decPred x k (s.cellNo / 64) = .ok r →
        (s.faultless → r = .bad → ∃ t, exec i s = .next t ∧ Raised s t 0 .taskState at_) ∧
        (∀ u', r = .done u' → ∃ t, exec i s = .next t ∧ t.mem = u'.mem ∧ t.sched = u'.sched ∧ SameRegsBut s t dest ∧
          t.bank.readA dest = answer ∧ SameUnits s t ∧ RetiredA s t 1))) ∧
    (s.faultless →
      (¬ (task < 2 ^ 20 ∧ task < (s.ctxAt x).tcbCount) → ∃ t, exec (.freg d f n) s = .next t ∧ Raised s t 0 .operandFormat 0) ∧
      (¬ (1 ≤ code ∧ code ≤ 254) → ∃ t, exec (.ffail f v) s = .next t ∧ Raised s t 0 .operandFormat 0))

/-- COLL and the completion of a collective (R362 to R365). COLL reads its descriptor, passes its checks and joins the cell's
queue of four, or waits there; a misaligned or broken descriptor faults and queues nothing. Results: integers are combined
modulo 2^w or by order in rank order, ALLGATHER gives the sources one after another, BROADCAST gives the root's. Once every
participant here has the data it is written, and a written collective arrives at its barrier, where it is LIVE, and leaves. The
model's choices: log entries 144 and 145. -/
def Obligations.Collectives : Prop :=
  (∀ (l : List Nat), l ≠ [] → (∀ v ∈ l, v < 2 ^ 32) →
    reduceElem .n32 0 l = l.sum % 2 ^ 32 ∧ (reduceElem .n32 1 l ∈ l ∧ ∀ v ∈ l, v ≤ reduceElem .n32 1 l) ∧
    (reduceElem .n32 2 l ∈ l ∧ ∀ v ∈ l, reduceElem .n32 2 l ≤ v)) ∧
  (∀ (d : CollDesc) (r : Nat) (srcs : List (List Byte)),
    let w := d.ty.width / 8
    (d.op = 0 → d.result r srcs = (List.range d.count).flatMap fun e =>
      bytesOfNat w (reduceElem d.ty d.red (srcs.map fun x => natOfBytes ((x.drop (w * e)).take w)))) ∧
    (d.op = 2 → d.result r srcs = (srcs.map fun x => x.take (w * d.count)).flatten) ∧
    (d.op = 3 → ∀ x, srcs[d.root]? = some x → d.result r srcs = x.take (w * d.count))) ∧
  (∀ (s : State) (a : BitVec 6) (k : BitVec 5) (p : BitVec 1),
    let at_ := s.bank.readA a.toNat
    (s.faultless → at_.toNat % 64 ≠ 0 → ∃ t, exec (.coll a k p) s = .next t ∧ Raised s t 0 .align at_) ∧
    (at_.toNat % 64 = 0 → ∀ bs g, s.rd .s false at_ 64 = .ok bs → s.curGroup = some g →
      let d := collDescOf bs
      let n := s.collRanks g d.scope
      let b := s.bank.barrier k.toNat
      (s.faultless → d.ok n (s.inGang s.ctxNo) = false → ∃ t, exec (.coll a k p) s = .next t ∧ Raised s t 0 .operandFormat 0) ∧
      (s.faultless → d.ok n (s.inGang s.ctxNo) = true → d.pres = false → b.live = false ∨ b.ring = true →
        ∃ t, exec (.coll a k p) s = .next t ∧ Raised s t 0 .operandFormat 0) ∧
      (d.ok n (s.inGang s.ctxNo) = true → ∀ shown sf df, s.collShown d = .ok shown → b.live = true → b.ring = false →
        s.collBuffer d.srcG (Access.load s.level) d.src (d.srcBytes n) = .ok sf →
        s.collBuffer d.dstG (Access.store s.level) d.dst (d.dstBytes n) = .ok df →
        (s.faultless → d.apart n = false → ∃ t, exec (.coll a k p) s = .next t ∧ Raised s t 0 .operandFormat 0) ∧
        (d.apart n = true →
          (4 ≤ s.bank.eng.collQ.length → ∃ t, exec (.coll a k p) s = .next t ∧ Waits s t .a) ∧
          (s.bank.eng.collQ.length < 4 → ∃ t, exec (.coll a k p) s = .next t ∧ SameRegs s t ∧ t.bank.q = s.bank.q ∧
            t.bank.sync = s.bank.sync ∧ RetiredA s t 1 ∧ SameDevice s t ∧
            t.bank.eng = { s.bank.eng with
              collIssued := s.bank.eng.collIssued + 1
              collQ := s.bank.eng.collQ ++ [{ desc := bs, bx := k.toNat, par := p == 1#1, ordinal := s.bank.eng.collIssued, digest := d.digest, srcFrames := sf, dstFrames := df, shown := shown, done := false, seqa := s.bank.sr.seqa }] }))))) ∧
  (∀ (s : State) (cell x : Nat) (remote : List RemoteSource) (pl : BankPlace) (b : Bank) (g : Group) (o : CollOp) (rest : List CollOp),
    cell < 256 → s.placeWhere cell s.canCollect = some (pl, x) → s.bankIn pl x cell = some b → b.eng.collQ = o :: rest →
    b.ctl.group.bind s.groupAt = some g →
    (o.done = true →
      let left := { b.eng with collQ := rest, collSeq := b.eng.collSeq + 1 }
      ((b.barrier o.bx).live = false → exec (.collectiveComplete cell remote) s = .next (s.setBankIn pl x cell { b with eng := left })) ∧
      ((b.barrier o.bx).live = true →
        (∀ v, (b.barrier o.bx).scope ≠ 4 ∨ s.unreachable x = none → (b.barrier o.bx).item 1 0 o.par = .applied v →
          exec (.collectiveComplete cell remote) s = .next (s.setBankIn pl x cell { b.putBarrier o.bx v with eng := left })) ∧
        ((b.barrier o.bx).item 1 0 o.par = .full → exec (.collectiveComplete cell remote) s = .next s))) ∧
    (o.done = false →
      let d := collDescOf o.desc
      let n := s.collRanks g d.scope
      let locals := s.collLocals g d.scope b.ctl.shardNo
      let ps := locals.filterMap (s.partOf g o.ordinal)
      (ps.length < locals.length → exec (.collectiveComplete cell remote) s = .next s) ∧
      (ps.length = locals.length → d.scope ≠ 4 → n = locals.length → (∀ r, r < n → locals.any (·.1 == r) = true) →
        (∀ q ∈ ps, q.op.digest = d.digest ∧ s.partHeld g.ctx n q = true) →
        ∀ u, s.moveAll g.ctx n ps remote = .ok u →
          exec (.collectiveComplete cell remote) s = .next (u.finishColl pl x cell))))

/-! ## Events at a stream and at a cell -/

/-- What happens to the moving stream between its instructions (R28, R47, R49, R50): it skips an instruction of one or two words
that is not tagged for it, without counting it; a word that fails a check of decoding faults at its point, a shared one once in
both streams when both have reached it, and until then the stream waits. What the device does at a cell (R24, R25, R62, R69 to
R75, R213, R217, R219, R223, R341, R343, R346, R398). Data that arrive correctable are counted, and data that cannot be
corrected lose the context; the watchdog, once its count has reached 2^WDSHIFT, faults a bank whose streams both wait, ends a
cut, and loses the context of a handler; a walk leaves its leaf in the cell's TLB, and what an instruction was about to raise
there is a pending fault while a swap runs; an invalidation is acknowledged once every use is settled; a translated region is
entered, with an entry of the next generation in the galley where it holds none, and a bad chunk and a third failed attempt are
TRANSLATE; a dead galley entry that no stream remains in leaves. The model's choices: log entries 13, 15, 16, 37 and 151. -/
def Obligations.EventsAtCells : Prop :=
  (∀ (s : State),
     let st := s.turn
     let pc := s.bank.pc st
     (∀ (two : Bool) (w : IWord) (next : Option IWord), s.wordHere = some (w, next) →
       let held := s.bank.window st ≤ s.bank.lead st
       let meets := st = .x ∧ meetsX w = true ∧ s.bank.walk.wmaxa ≤ s.bank.walk.wx
       (taggedFor w st = true ∨ (tagOf w ≠ 3#2 ∧ longOf w ≠ two) → exec (.streamSkip two) s = .next s) ∧
       (taggedFor w st = false → tagOf w = 3#2 ∨ longOf w = two → held → exec (.streamSkip two) s = .next (s.slipStall st)) ∧
       (¬ held → s.faultless → tagOf w = 3#2 → ∃ t, exec (.streamSkip two) s = .next t ∧ Raised s t (streamCode st) .fetchMalformed pc) ∧
       (¬ held → tagOf w ≠ 3#2 → taggedFor w st = false → longOf w = two →
         (meets → ∃ t, exec (.streamSkip two) s = .next t ∧ Waits s t st) ∧
         (¬ meets → ∃ t, exec (.streamSkip two) s = .next t ∧
           t.bank.pc st = pc + (if two then 8 else 4) ∧ t.bank.w st = s.bank.w st + (if two then 2 else 1) ∧
           t.bank.pc st.other = s.bank.pc st.other ∧ t.bank.w st.other = s.bank.w st.other ∧
           t.bank.sr.seqa = s.bank.sr.seqa ∧ t.bank.sr.seqx = s.bank.sr.seqx ∧ SameRegs s t ∧ SameUnits s t ∧ SameDevice s t))) ∧
     (∀ fva : Word, s.canRun st = true → s.faultless →
       (∃ t, exec (.opcodeUndef false) s = .next t ∧ Raised s t (streamCode st) .opcodeUndef pc) ∧
       (pc = s.bank.pc st.other → ∃ t, exec (.opcodeUndef true) s = .next t ∧ Raised s t 3 .opcodeUndef pc) ∧
       (pc ≠ s.bank.pc st.other → ∃ t, exec (.opcodeUndef true) s = .next t ∧ Waits s t st) ∧
       (∃ t, exec (.fetchMalformed fva) s = .next t ∧ Raised s t (streamCode st) .fetchMalformed fva)) ∧
     (∀ (fva : Word) (b : Bool), s.canRun st = false → exec (.opcodeUndef b) s = .next s ∧ exec (.fetchMalformed fva) s = .next s)) ∧
  ((∀ (s : State) (cell : Nat) (h : cell < 256),
     let u : State := { s with cur := ⟨cell, h⟩ }
     let b := u.bank
     let after := fun (t : State) => (t.cellAt cell).active
     (∀ (addr x : Nat), b.ctl.owner = some x → x < 64 →
       (addr / 8 * 8 ∉ s.dev.poisoned → exec (.loadDataArrival cell addr .clean) s = .next s) ∧
       (exec (.loadDataArrival cell addr .correctable) s = .next { s with dev := { s.dev with bg :=
         if addr < 2 ^ 52 then { s.dev.bg with dramCorrected := min (s.dev.bg.dramCorrected + 1) (2 ^ 64 - 1) }
         else { s.dev.bg with sramCorrected := min (s.dev.bg.sramCorrected + 1) (2 ^ 64 - 1) } } }) ∧
       ((s.ctxAt x).state ≠ .free → (s.ctxAt x).state ≠ .retired →
         ∃ t, exec (.loadDataArrival cell addr .uncorrectable) s = .next t ∧ (t.ctxAt x).state = .lost ∧ (t.ctxAt x).reason = 2 ∧
           (∀ c, (t.cellAt c).active.ctl.owner ≠ some x ∧ (t.cellAt c).shadow.ctl.owner ≠ some x))) ∧
     (∀ x, b.ctl.owner = some x → (s.ctxAt x).state ≠ .lost → b.watched = true → 2 ^ (s.ctxAt x).wdshift ≤ b.ctl.wdog →
       (b.ctl.status = .running → ∃ t, exec (.watchdogExpiry cell) s = .next t ∧
         SameMemory s t ∧ after t = { b with ctl :=
           if b.ctl.fault = none then
             { b.ctl with fault := some ⟨0, .watchdog, 0, 1, 0, none⟩, atCut := true, wdog := 0,
                          wdogCut := b.ctl.wdogCut || (s.ctxAt x).state == .spilling }
           else { b.ctl with atCut := true, wdogCut := true, wdog := 0 } }) ∧
       (b.ctl.status = .handler → u.ctxNo < 64 → (s.ctxAt u.ctxNo).state ≠ .free → (s.ctxAt u.ctxNo).state ≠ .retired →
         ∃ t, exec (.watchdogExpiry cell) s = .next t ∧ (t.ctxAt u.ctxNo).state = .lost ∧ (t.ctxAt u.ctxNo).reason = 3)) ∧
     ((∀ q ∈ s.places cell, ∀ d, s.bankIn q.1 q.2 cell = some d → d.watched = false ∨ d.ctl.wdog < 2 ^ (s.ctxAt q.2).wdshift) →
       exec (.watchdogExpiry cell) s = .next s) ∧
     (∀ (x : Nat) (g : Word), b.ctl.owner = some x → inG g.toNat 1 = true →
       let due := b.ctl.ahead.find? fun f => f.fva.toNat / 65536 == g.toNat / 65536
       ((s.ctxAt x).swapping = false ∨ due = none →
         (∀ l, s.walk x g.toNat = .leaf l → ∃ t, exec (.pageWalkComplete cell g) s = .next t ∧
           (⟨(s.ctxAt x).asid, g.toNat / 65536, l⟩ : TlbEntry) ∈ (t.cellAt cell).tlb ∧ (t.cellAt cell).tlb.length ≤ 512 ∧
           after t = b ∧ t.mem = s.mem) ∧
         ((∀ l, s.walk x g.toNat ≠ .leaf l) → exec (.pageWalkComplete cell g) s = .next s)) ∧
       (∀ f, (s.ctxAt x).swapping = true → b.ctl.fault = none → b.ctl.pend = none → due = some f →
         ∃ t, exec (.pageWalkComplete cell g) s = .next t ∧
           after t = { b with ctl := { b.ctl with pend := some f } } ∧ t.mem = s.mem)) ∧
     (∀ r, b.ctl.invWait = some r → s.settled u.ctxNo r = true → ∃ t, exec (.invalidationAck cell) s = .next t ∧
       after t = { b with ctl := { b.ctl with invAck := true } } ∧ t.mem = s.mem) ∧
     (b.ctl.invWait = none → exec (.invalidationAck cell) s = .next s) ∧
     (∀ (st : Stream), u.needsRegion st = none → (∀ p, exec (.regionTranslationComplete cell st p) s = .next s) ∧
       exec (.compositorFailure cell st) s = .next s) ∧
     (∀ (st : Stream) (x i : Nat) (k : Kernel) (key : GalleyKey), u.needsRegion st = some (x, k, i, key) → u.textCheck k i (b.pc st) = none →
       let faulted := fun (t : State) => (after t).ctl.fault = some ⟨streamCode st, .translate, b.pc st, 1, 0, none⟩ ∧ t.mem = s.mem
       (u.chunkBad key = false → ∃ t e, exec (.regionTranslationComplete cell st (true, true)) s = .next t ∧
         (after t).ctl.entered st = some e ∧ e.base = (b.pc st).toNat ∧ e.key = key ∧
         e.code = (k.text.drop i).take (regionLen k.text k.textG.toNat i) ∧
         (∃ g ∈ (vget t.sched.galleys (cell / 64) ⟨[], 0⟩).entries, g.key = key ∧ g.gen = e.gen ∧ g.dead = false) ∧ t.mem = s.mem) ∧
       (b.ctl.fault = none → ∀ c ∈ s.sched.chunks, c.ctx = key.ctx →
         (c.leaf = key.leaf → ∀ q, ∃ t, exec (.regionTranslationComplete cell st (false, q)) s = .next t ∧ faulted t) ∧
         (key.leaf2 = some c.leaf → ∀ p, ∃ t, exec (.regionTranslationComplete cell st (p, false)) s = .next t ∧ faulted t)) ∧
       (b.ctl.tries st (b.pc st).toNat < 2 → ∃ t, exec (.compositorFailure cell st) s = .next t ∧ t.mem = s.mem ∧
         (after t).ctl.tries st (b.pc st).toNat = b.ctl.tries st (b.pc st).toNat + 1 ∧ (after t).ctl.fault = b.ctl.fault) ∧
       (2 ≤ b.ctl.tries st (b.pc st).toNat → b.ctl.fault = none → ∃ t, exec (.compositorFailure cell st) s = .next t ∧ faulted t))) ∧
   (∀ (s : State) (die words : Nat) (key : GalleyKey), die < 4 →
     let r := s.enterGalley die key words
     let gen := (vget s.sched.galleys die ⟨[], 0⟩).gen
     (∃ e ∈ (vget r.1.sched.galleys die ⟨[], 0⟩).entries, e.key = key ∧ e.gen = r.2 ∧ e.dead = false) ∧
     (∀ h, s.galleyHit die key = some h → r.2 = h.gen ∧ (vget r.1.sched.galleys die ⟨[], 0⟩).gen = gen) ∧
     (s.galleyHit die key = none → r.2 = gen + 1 ∧ (vget r.1.sched.galleys die ⟨[], 0⟩).gen = gen + 1 ∧
       ∀ x slot k, x < 64 → s.kernelIn x slot = some k → k.state = .resident → key.leaf ∈ k.leaves → key.ctx = s.keyCtx x →
         (r.1.kernelIn x slot).map (·.state) = some .translated)) ∧
   (∀ (s : State) (die x slot : Nat) (k : Kernel) (failed : List (Stream × Nat)), die < 4 → x < 64 → s.kernelIn x slot = some k →
     (k.eager = true → k.state = .resident ∨ k.state = .translated → k.eagerDone.getLsbD die = false →
       ∃ t, exec (.eagerTranslationComplete die x ⟨slot, failed⟩) s = .next t ∧ t.mem = s.mem ∧ t.cells = s.cells ∧
         (t.kernelIn x slot).map (·.eagerDone) = some (k.eagerDone ||| BitVec.ofNat 4 (2 ^ die))) ∧
     (k.eager = false ∨ k.eagerDone.getLsbD die = true → exec (.eagerTranslationComplete die x ⟨slot, failed⟩) s = .next s)) ∧
   (∀ (s : State) (die n : Nat) (e : GalleyEntry), die < 4 →
     let g := vget s.sched.galleys die ⟨[], 0⟩
     g.entries[n]? = some e →
     (e.dead = true → s.entryHeld die e.gen = false → ∃ t, exec (.galleyEntryReclaim die n) s = .next t ∧
       vget t.sched.galleys die ⟨[], 0⟩ = { g with entries := g.entries.eraseIdx n } ∧ t.mem = s.mem ∧ t.cells = s.cells) ∧
     (e.dead = false ∨ s.entryHeld die e.gen = true → exec (.galleyEntryReclaim die n) s = .next s)))

/-! ## The device -/

/-- Power and starts (R19, R21 to R23). POWER_APPLIED begins a cold start, or recovery after three failed starts; a host's
commands begin a cold or a warm start in the states that take them; START_COMPLETE zeroes memory but for the far pool and makes
the device READY once the service firmware verifies and no port trains; a failure counts, and the third leads to recovery; a
service image is installed with what its signatures say, a recovery image when both verify; the alarm and the power limit set
the controllers' lines. Background work of a READY device (R20, R23 to R26): each event adds to its 64-bit saturating counters;
a scrub poisons a word that it cannot correct, in the accumulator files and the die buffers too, and abandons a correction that
a store overtakes; no pause is longer than 2 microseconds; the service firmware reads and writes no confidential context's
memory. The model's choices: log entries 15, 135, 136, 139, 166 and 171. -/
def Obligations.DeviceEvents : Prop :=
  (∀ (s : State) (recOk ed ml : Bool),
     let n := s.dev.failedStarts
     let st := s.dev.state
     (st = .off →
       (n ≤ 2 → ∃ t, exec (.powerApplied recOk) s = .next t ∧ StartBegun s t true n) ∧
       (2 < n → ∃ t, exec (.powerApplied recOk) s = .next t ∧ Recovering s t recOk n) ∧
       exec (.powerLost recOk) s = .next s) ∧
     (st ≠ .off → exec (.powerApplied recOk) s = .next s) ∧
     (st = .starting → ∀ e ∈ [Instr.powerLost recOk, .startStepFailure recOk, .startTimeout recOk],
       ∃ t, exec e s = .next t ∧ StartFailed s t recOk) ∧
     (st ≠ .starting → exec (.startStepFailure recOk) s = .next s ∧ exec (.startTimeout recOk) s = .next s ∧
       exec .startComplete s = .next s) ∧
     (st = .ready ∨ st = .recovery ∨ st = .stopped → ∃ t, exec (.powerLost recOk) s = .next t ∧ t.dev.state = .off ∧
       t.dev.alarm = false ∧ (∀ x, t.ctxAt x = .reset) ∧ ∀ p, p < 18 → (vget t.net.ports p .reset).state = .down) ∧
     (st = .ready ∨ st = .starting → ∃ t, exec .hostColdStart s = .next t ∧ StartBegun s t true n) ∧
     (st = .recovery → ∃ t, exec .hostColdStart s = .next t ∧ StartBegun s t true (if s.dev.installed = true then 0 else n)) ∧
     (st = .off ∨ st = .stopped → exec .hostColdStart s = .next s) ∧
     (st = .ready → ∃ t, exec .hostWarmStart s = .next t ∧ StartBegun s t false n) ∧
     (st ≠ .ready → exec .hostWarmStart s = .next s) ∧
     (st = .starting → s.dev.service.verifies = true → (∀ p, p < 18 → (vget s.net.ports p .reset).state ≠ .training) → s.mem.wf = true →
       ∃ t, exec .startComplete s = .next t ∧ t.dev.state = .ready ∧ t.dev.failedStarts = 0 ∧ t.sched.chunks = [] ∧
         (∀ d, d < 4 → (vget t.sched.galleys d ⟨[], 0⟩).entries = []) ∧ (s.dev.cold = true → t.sched.plates = []) ∧
         (∀ p ∈ t.sched.plates, p.conf = false ∧ p.digestOf = p.digest) ∧
         ∀ k, memGet t.mem k = if tierOf k = .far then memGet s.mem k else 0) ∧
     (st = .starting → s.dev.service.verifies = false ∨ (∃ p, p < 18 ∧ (vget s.net.ports p .reset).state = .training) →
       exec .startComplete s = .next s) ∧
     (st = .recovery ∨ st = .ready → exec (.firmwareInstall ed ml) s = .next { s with
         dev := { s.dev with service := ⟨s.freeCtr + 1, ed && ml⟩, installed := true }, outbox := s.outbox ++ [.firmware (ed && ml)] }) ∧
     (st ≠ .recovery → st ≠ .ready → exec (.firmwareInstall ed ml) s = .next s) ∧
     (st = .stopped →
       (ed = true → ml = true → ∃ t, exec (.recoveryImageInstall ed ml) s = .next t ∧ t.dev.recovery = ⟨s.freeCtr + 1, true⟩ ∧
         (3, s.freeCtr + 1) ∈ t.dev.measured ∧
         t.dev.state = .recovery ∧ t.dev.installed = false ∧ t.outbox = s.outbox ++ [.firmware true]) ∧
       (¬ (ed = true ∧ ml = true) → exec (.recoveryImageInstall ed ml) s = .next { s with outbox := s.outbox ++ [.firmware false] })) ∧
     (st ≠ .stopped → exec (.recoveryImageInstall ed ml) s = .next s) ∧
     (st ≠ .off → exec .powerAlarmAssert s = .next { s with dev := { s.dev with alarm := true } }) ∧
     exec .powerAlarmClear s = .next { s with dev := { s.dev with alarm := false, inhibit := false } } ∧
     (s.dev.alarm = true → exec .powerLimitExceeded s = .next { s with dev := { s.dev with inhibit := true } }) ∧
     (s.dev.alarm = false → exec .powerLimitExceeded s = .next s) ∧
     exec .powerLimitRecovered s = .next { s with dev := { s.dev with inhibit := false } }) ∧
  (∀ (s : State), s.dev.state = .ready →
     let bg := s.dev.bg
     let add := fun (n k : Nat) => min (n + k) (2 ^ 64 - 1)
     let put := fun (b : Background) => ({ s with dev := { s.dev with bg := b } } : State)
     let bad := fun (k : Nat) => if k / 8 * 8 ∈ s.dev.poisoned then s.dev.poisoned else s.dev.poisoned ++ [k / 8 * 8]
     (∀ (k : Nat) (between : Bool), tierOf k = .near ∨ tierOf k = .mid ∨ tierOf k = .device → k / 8 * 8 ≠ 0x1DFFFFFFFF8 →
       exec (.dramPatrolScrub k .clean between) s = .next s ∧
       exec (.dramPatrolScrub k .correctable true) s = .next s ∧
       exec (.dramPatrolScrub k .correctable false) s = .next (put { bg with dramCorrected := add bg.dramCorrected 1 }) ∧
       exec (.dramPatrolScrub k .uncorrectable between) s = .next { s with dev := { s.dev with
         poisoned := bad k, bg := { bg with dramUncorrectable := add bg.dramUncorrectable 1 } } }) ∧
     (∀ between, exec (.dramPatrolScrub 0x1DFFFFFFFF8 .clean between) s = .next (put { bg with scrubPass := add bg.scrubPass 1 })) ∧
     (∀ (w : SramWord) (between : Bool),
       (∃ k, w = .scratchpad k ∧ 2 ^ 52 ≤ k ∧ k < 2 ^ 56 ∨ w = .dieBuffer k ∧ tierOf k ≠ .hole) ∨
         (∃ c b r i, w = .accumulator c b r i ∧ c < 256 ∧ r < 4096 ∧ i < 64) →
       exec (.sramPatrolScrub w .clean between) s = .next s ∧
       exec (.sramPatrolScrub w .correctable true) s = .next s ∧
       exec (.sramPatrolScrub w .correctable false) s = .next (put { bg with sramCorrected := add bg.sramCorrected 1 }) ∧
       (∀ k, w = .scratchpad k ∨ w = .dieBuffer k → exec (.sramPatrolScrub w .uncorrectable between) s = .next { s with dev :=
         { s.dev with poisoned := bad k, bg := { bg with sramUncorrectable := add bg.sramUncorrectable 1 } } }) ∧
       (∀ c b r i, w = .accumulator c b r i → ∃ t, exec (.sramPatrolScrub w .uncorrectable between) s = .next t ∧
         t.dev = { s.dev with bg := { bg with sramUncorrectable := add bg.sramUncorrectable 1 } } ∧ t.mem = s.mem ∧
         64 * r + i ∈ (if b = true then (t.cellAt c).shadow else (t.cellAt c).active).xf.bad)) ∧
     (∀ (x : Nat) (g n a : Nat) (bs : List Byte) (e : Word),
       ((s.ctxAt x).conf = true → State.firmware s (.serviceRead x g n) = s.send (.serviceRead x none) ∧
         State.firmware s (.serviceWrite x g bs) = s.send (.serviceWrote x false)) ∧
       ((s.ctxAt x).conf = false → State.firmware s (.rootTable x a e) = s)) ∧
     (∀ (p us : Nat),
       (p < 18 → us ≤ 2 → exec (.linkRecalibration p us) s =
         .next (put { bg with linkRecal := add bg.linkRecal 1, linkRecalUs := add bg.linkRecalUs us })) ∧
       (us ≤ 2 → exec (.dramRecalibration us) s =
         .next (put { bg with dramRecal := add bg.dramRecal 1, dramRecalUs := add bg.dramRecalUs us })) ∧
       exec (.flashWearManagement p us) s =
         .next (put { bg with flashErase := add bg.flashErase p, flashRetired := add bg.flashRetired us })) ∧
     exec (.telemetrySample true) s = .next (put { bg with telemetrySamples := add bg.telemetrySamples 1 }) ∧
     exec (.telemetrySample false) s = .next (put { bg with telemetryDropped := add bg.telemetryDropped 1 }))

/-! ## Contexts -/

/-- The life of a context (R330 to R337, R339, R340, R343, R346, R350). A good creation request gives a LOADING context and a
bad one changes nothing, and the save slots of the new context read 0 while every other byte stands; set-up makes it READY and a
grant ACTIVE, an idle or a set-aside bank on each of its cells; a pre-emption stops it, the swap moves its banks to the shadow
banks and a resumption brings them back; a spill writes them to the save slots and sets them aside there, or loses the context
where a write fails, and a restore brings them back from the frame and the rows there; a line's images change places; the end
retires the context and, once its engines have stopped, frees it; and the supervisor task starts for posted events. The model's
choices: log entries 115, 116, 118, 119, 130 and 159. -/
def Obligations.ContextLife : Prop :=
  (∀ (s : State) (req : List Byte) (root : Option Nat),
    let x := byteAt req 0
    let conf := byteAt req 1 % 2 = 1
    let cleared := fun (k : Nat) => ∃ p ∈ partsOf (leAt req 0x10 8) ((partCells (BitVec.ofNat 256 (leAt req 0x50 32))).length * 0x820000),
      let key := keyIn p.1 (walkFrom ⟨s.mem, s.dev.poisoned, []⟩ p.1 (leAt req 8 8) walkLevels)
      key ≤ k ∧ k < key + p.2
    (s.createOk req root = true → s.mem.wf = true → ∃ t, exec (.contextCreate req root) s = .next t ∧
      (let c := t.ctxAt x
       c.state = .loading ∧ (c.conf = true ↔ conf) ∧ (conf → c.debug = false) ∧ c.asid = leAt req 2 2 ∧ c.nqueue = byteAt req 4 ∧
       c.wdshift = byteAt req 5 ∧ c.svslot = leAt req 6 2 ∧ c.ptroot = leAt req 8 8 ∧ c.saveBase = leAt req 0x10 8 ∧
       c.qdesc = leAt req 0x18 8 ∧ c.tcbBase = leAt req 0x20 8 ∧ c.tcbCount = leAt req 0x28 4 ∧ c.ttable = leAt req 0x30 8 ∧
       c.recBase = leAt req 0x38 8 ∧ c.evtBase = leAt req 0x40 8 ∧ c.replayBase = leAt req 0x48 8 ∧ c.kernels = [] ∧
       (conf → c.session = root ∧ root.isSome)) ∧
      t.outbox = s.outbox ++ [.created x true] ∧ t.cells = s.cells ∧
      ∀ k, (cleared k → memGet t.mem k = 0) ∧ (¬ cleared k → memGet t.mem k = memGet s.mem k)) ∧
    (s.createOk req root = false → exec (.contextCreate req root) s = .next { s with outbox := s.outbox ++ [.created x false] }) ∧
    (req.length ≠ 128 ∨ 64 ≤ x ∨ s.dev.state ≠ .ready ∨ (s.ctxAt x).state ≠ .free ∨
      (conf ∧ (∀ i, root = some i → s.hostSession i = false)) ∨ byteAt req 4 = 0 ∨
      (∃ y, y < 64 ∧ (s.ctxAt y).state ≠ .free ∧ (s.ctxAt y).asid = leAt req 2 2) ∨ leAt req 0x50 32 = 0 →
      exec (.contextCreate req root) s = .next { s with outbox := s.outbox ++ [.created x false] })) ∧
  (∀ (s : State) (x : Nat), x < 64 →
    let c := s.ctxAt x
    let cells := partCells c.part
    let stands := fun (t : State) (st : CtxState) (sw : Bool) => (t.ctxAt x).state = st ∧ (t.ctxAt x).swapping = sw
    let free := ∀ i ∈ cells, (s.cellAt i).free = true
    (c.state = .loading → ∀ u, (if c.conf = true then s.zeroFrames (s.mappedFrames x) else s).enableQueues x = .ok u →
      ∃ t, exec (.contextSetupComplete x) s = .next t ∧ (t.ctxAt x).state = .ready ∧ t.mem = u.mem ∧ t.cells = s.cells) ∧
    (c.state = .ready → free → (∀ e ∈ s.saved, e.ctx ≠ x) → ∃ t, exec (.contextGrant x) s = .next t ∧ (t.ctxAt x).state = .active ∧
      (∀ i ∈ cells, (t.cellAt i).active = idleBank x ∧ (t.cellAt i).shadow = (s.cellAt i).shadow) ∧ t.mem = s.mem) ∧
    (c.state = .ready → ¬ free → exec (.contextGrant x) s = .next s) ∧
    (∀ l, c.state = .active → c.swapping = false →
      ∃ t, exec (.preemptRequest x l) s = .next t ∧ stands t .active true ∧ t.mem = s.mem ∧
        (∀ i, (t.cellAt i).active.sr = (s.cellAt i).active.sr ∧ (t.cellAt i).active.af = (s.cellAt i).active.af ∧
          (t.cellAt i).active.xf = (s.cellAt i).active.xf)) ∧
    (c.swapping = true → c.state = .active → s.handled x = true → exec (.shadowSwapComplete x) s = .next s) ∧
    (c.swapping = true → c.state = .active → s.handled x = false → (∀ i ∈ cells, s.shadowFree x i = true) →
      ∃ t, exec (.shadowSwapComplete x) s = .next t ∧ stands t .shadow false ∧ t.mem = s.mem ∧
        ∀ i ∈ cells, (s.cellAt i).active.ctl.owner = some x →
          (t.cellAt i).shadow = (s.cellAt i).active ∧ (t.cellAt i).active = .reset) ∧
    (c.swapping = true → c.state = .shadow → free → ∃ t, exec (.shadowSwapComplete x) s = .next t ∧ stands t .active false ∧
      t.mem = s.mem ∧ ∀ i ∈ cells, (s.cellAt i).shadow.ctl.owner = some x → (s.cellAt i).shadow.ctl.yielding = false →
        (t.cellAt i).active = (s.liveLatches (s.cellAt i).shadow (i / 64)).deliverPend ∧ (t.cellAt i).shadow = .reset) ∧
    (c.swapping = false → c.state = .shadow → exec (.resumeRequest x) s = .next (s.setCtx x { c with swapping := true })) ∧
    (c.swapping = false → c.state = .spilled → exec (.resumeRequest x) s = .next (s.setCtx x { c with state := .restoring })) ∧
    (c.swapping = false → c.state = .shadow → exec (.spillStart x) s = .next (s.setCtx x { c with state := .spilling })) ∧
    (c.state = .spilling → s.spillReady x = true →
      (∀ u, cells.foldlM (fun t i => t.spillCell x i) s = .ok u → ∃ t, exec (.spillComplete x) s = .next t ∧
        (t.ctxAt x).state = .spilled ∧ t.mem = u.mem ∧
        ∀ i ∈ cells, (s.cellAt i).shadow.ctl.owner = some x → (t.cellAt i).shadow = .reset ∧ ⟨x, i, (s.cellAt i).shadow⟩ ∈ t.saved) ∧
      (∀ g, cells.foldlM (fun t i => t.spillCell x i) s = .error g → ∃ t, exec (.spillComplete x) s = .next t ∧
        (t.ctxAt x).state = .lost ∧ (t.ctxAt x).reason = 1)) ∧
    (c.state ≠ .spilling ∨ s.spillReady x = false → exec (.spillComplete x) s = .next s) ∧
    (∀ (i : Nat) (b : Bank) (u v w : State), s.passTime i = u →
      u.saveWrite x (slotAddr c i) (frameBytes (b.mapCtl fun k => { k with lkeep := true }) (u.cellAt i) i 5 0 0 0) = .ok v →
      v.saveWrite x (slotAddr c i + 0x8000) ((List.range 0x18000).map (Config.deviceFormat s.freeCtr)) = .ok w →
      ∀ t, b.xf.bad = [] → w.saveWrite x (slotAddr c i + 0x20000) ((List.range 4096).flatMap fun r => bytesOfRow (b.readRow r)) = .ok t →
        ∃ t', s.spillBank x i b = .ok t' ∧ t'.mem = t.mem ∧ t'.cells = u.cells) ∧
    (∀ i d bs e, c.state = .restoring → c.swapping = false → cells = [i] → (s.cellAt i).free = true →
      c.saveDigests.find? (·.1 == i) = some d → s.saved.find? (fun e => e.ctx == x && e.cell == i) = some e →
      s.saveRead x (slotAddr c i) 0x220000 = .ok bs →
      (sha3 ((bs.drop 0x8000).take 0x18000) = d.2 → ∃ t, exec (.restoreComplete x) s = .next t ∧ (t.ctxAt x).state = .active ∧
        t.mem = s.mem ∧
        (let b := (t.cellAt i).active
         (∀ r, 1 ≤ r → r < 64 → b.readA r = wordAt bs (0x100 + 8 * r)) ∧ (∀ r, 1 ≤ r → r < 32 → b.readX r = wordAt bs (0x300 + 8 * r)) ∧
         (∀ r, 1 ≤ r → r < 16 → b.readP r = BitVec.ofNat 256 (leAt bs (0x400 + 32 * r) 32)) ∧
         (∀ r, r < 8 → b.readLc r = BitVec.ofNat 32 (leAt bs (0x600 + 4 * r) 4)) ∧
         (∀ r, r < 16 → b.readSd r = BitVec.ofNat 256 (leAt bs (0x640 + 32 * r) 32)) ∧
         b.sr.pca = wordAt bs 0x20 ∧ b.sr.pcx = wordAt bs 0x28 ∧ b.sr.seqa = wordAt bs 0x30 ∧ b.sr.seqx = wordAt bs 0x38)) ∧
      (sha3 ((bs.drop 0x8000).take 0x18000) ≠ d.2 → ∃ t, exec (.restoreComplete x) s = .next t ∧
        (t.ctxAt x).state = .lost ∧ (t.ctxAt x).reason = 1)) ∧
    (∀ cell line y u bs, cell < 256 → line < 96 → vget (s.cellAt cell).lineTags line none = some y → y ≠ x →
      (s.cellAt cell).active.ctl.owner = some x → firstPoison s.dev.poisoned (spadKey y cell (line * 65536)) 65536 = none →
      s.saveWrite y (slotAddr (s.ctxAt y) cell + 0x220000 + line * 65536)
        (memRead s.mem (spadKey y cell (line * 65536)) 65536) = .ok u →
      u.saveRead x (slotAddr c cell + 0x220000 + line * 65536) 65536 = .ok bs →
      ∃ t, exec (.scratchpadLineExchange cell line x) s = .next t ∧ vget (t.cellAt cell).lineTags line none = some x ∧
        t.mem = memWrite u.mem (spadKey x cell (line * 65536)) bs ∧ (t.cellAt cell).active = (s.cellAt cell).active) ∧
    (c.state ≠ .free → c.state ≠ .retired → ∃ t, exec (.contextEndRequest x) s = .next t ∧ (t.ctxAt x).state = .retired ∧
      (t.ctxAt x).kernels = [] ∧ (∀ g ∈ t.sched.groups, g.ctx ≠ x) ∧ (∀ g ∈ t.sched.graphs, g.ctx ≠ x)) ∧
    (c.state = .free ∨ c.state = .retired → exec (.contextEndRequest x) s = .next s) ∧
    (c.state = .retired → s.enginesStopped x = true → ∃ t, exec (.contextRetireComplete x) s = .next t ∧ t.ctxAt x = .reset ∧
      (∀ i, (t.cellAt i).active.ctl.owner ≠ some x ∧ (t.cellAt i).shadow.ctl.owner ≠ some x) ∧
      (∀ i l, vget (t.cellAt i).lineTags l none ≠ some x) ∧ ∀ q ∈ t.net.qps, q.ctx ≠ x) ∧
    (c.state = .retired → s.enginesStopped x = false → exec (.contextRetireComplete x) s = .next s) ∧
    (∀ i k rest, cells = i :: rest → c.runnable c.svslot = some k → c.state = .active → c.swapping = false →
      c.evtTaken < c.evtPosted → c.svTask = false → (s.cellAt i).free = true → (s.cellAt i).held = none →
      ∃ t, exec (.supervisorTaskStart x) s = .next t ∧ (t.ctxAt x).svTask = true ∧ (t.ctxAt x).evtTaken = c.evtPosted ∧ t.mem = s.mem ∧
        (let b := (t.cellAt i).active
         b.ctl.level = .supervisor ∧ b.ctl.status = .running ∧ b.ctl.kslot = k.slot ∧ b.sr.task = 0 ∧ b.readA 1 = 0 ∧
         b.sr.ctx = BitVec.ofNat 64 x ∧ b.sr.pca = k.textG + BitVec.ofNat 64 k.entry ∧ b.sr.pcx = b.sr.pca)) ∧
    (c.evtTaken = c.evtPosted → exec (.supervisorTaskStart x) s = .next s))

/-! ## Host queues -/

/-- Host queues (R65, R67 to R69, R136, R137, R269 to R272, R285, R340). A completed packet writes its record of SEQ, STATUS and
TYPE, when COMPL is not 0, and HEAD moves past it; a bad TAIL or a packet that breaks a check stops its queue with the cause,
and RESUME makes it ACTIVE. A NOP completes; a LOAD gives the status of the first check that fails or a VERIFIED kernel, which
the loader places or drops, naming the relocation entry that ends a load; an UNLOAD, a BIND, a RETIRE and a CANCEL give their
statuses or do what they name. The model's choices: log entries 18, 27, 28, 86, 87, 88, 160 and 161. -/
def Obligations.QueuePackets : Prop :=
  (∀ (s : State) (x q len ty status : Nat) (compl seq : Word) (t : State),
    s.acceptPacket x q len ty status compl seq = .ok t ↔ ∃ u d v,
      (compl = 0 ∧ u = s ∨ compl ≠ 0 ∧ s.agentWrite x compl.toNat
        (bytesOfNat 8 seq.toNat ++ bytesOfNat 1 status ++ bytesOfNat 1 ty ++ [0, 0, 0, 0, 0, 0]) true = .ok u) ∧
      u.readQueue x q = .ok d ∧ u.agentWrite x ((u.ctxAt x).qdesc + 64 * q + 0x10) (bytesOfNat 8 (d.head + 64 * len)) false = .ok v ∧
      t = v.setCtx x { v.ctxAt x with
        tailOrder := (v.ctxAt x).tailOrder.filter fun e => e.1 != q || decide (d.head + 64 * len < e.2) }) ∧
  (∀ (s : State) (x q cause : Nat) (u : State), cause < 256 →
    s.agentWrite x ((s.ctxAt x).qdesc + 64 * q + 0x0C) [2#8, BitVec.ofNat 8 cause] false = .ok u →
    s.stopQueue x q cause = (u.dropHold x q).postEvent x .queuePacket q) ∧
  (∀ (s : State) (x q : Nat), x < 64 → q < 16 →
    let c := s.ctxAt x
    let at_ := c.qdesc + 64 * q
    (c.nqueue ≤ q → exec (.queueResume x q) s = .next s ∧ ∀ v, exec (.tailWrite x q v) s = .next s) ∧
    (q < c.nqueue → c.state ≠ .free → c.state ≠ .loading → ∀ (v : Word) u d,
      s.agentWrite x (at_ + 0x18) (bytesOfNat 8 v.toNat) false = .ok u → u.readQueue x q = .ok d →
      (d.state ≠ 1 → exec (.tailWrite x q v) s = .next u) ∧
      (d.state = 1 → v.toNat % 64 ≠ 0 ∨ v.toNat < d.head ∨ d.head + d.size < v.toNat →
        exec (.tailWrite x q v) s = .next (u.stopQueue x q 6)) ∧
      (d.state = 1 → v.toNat % 64 = 0 → d.head ≤ v.toNat → v.toNat ≤ d.head + d.size →
        exec (.tailWrite x q v) s = .next (u.setCtx x { u.ctxAt x with tailOrder := (u.ctxAt x).tailOrder ++ [(q, v.toNat)] }))) ∧
    (q < c.nqueue → ∀ d, s.readQueue x q = .ok d →
      (d.state ≠ 2 → exec (.queueResume x q) s = .next s) ∧
      (d.state = 2 → ∀ u, s.agentWrite x (at_ + 0x0C) [1, 0, 0, 0] false = .ok u → ∃ t, exec (.queueResume x q) s = .next t ∧
        t.mem = u.mem ∧ t.cells = s.cells ∧
        (d.tail % 64 = 0 → d.head < d.tail → d.tail ≤ d.head + d.size → (q, d.tail) ∈ (t.ctxAt x).tailOrder))) ∧
    (∀ e ∈ [Instr.graphPacket x q, .graphAdmission x q, .loadPacket x q, .unloadPacket x q, .bindPacket x q, .retirePacket x q,
        .cancelPacket x q, .nopPacket x q],
      (c.queueBusy q = true ∨ s.queueTurn x q = false ∨ s.parse x q = .ok .idle → exec e s = .next s) ∧
      (∀ w k, c.queueBusy q = false → s.queueTurn x q = true → s.parse x q = .ok (.stop w k) →
        (w = true ∧ s.inFlight x q = true → exec e s = .next s) ∧
        (w = false ∨ s.inFlight x q = false → exec e s = .next (s.stopQueue x q k))))) ∧
  (∀ (s : State) (x q : Nat) (p : Packet) (t : State),
    let b := p.bytes
    let ends := fun (u : State) (status : Nat) => u.acceptPacket x q p.len p.ty status p.compl p.seq = .ok t
    (AtPacket s x q 7 p → ends s 0 → exec (.nopPacket x q) s = .next t) ∧
    (AtPacket s x q 2 p → ∀ obj, s.agentRead x (leAt b 0x20 8) (leAt b 0x28 8) false = .ok obj →
      let slot := leAt b 0x30 2
      (objCode obj ≠ 0 → ends s (objCode obj) → exec (.loadPacket x q) s = .next t) ∧
      (objCode obj = 0 → (∃ k, s.kernelIn x slot = some k) → ends s 7 → exec (.loadPacket x q) s = .next t) ∧
      (objCode obj = 0 → s.kernelIn x slot = none → ∃ u k, exec (.loadPacket x q) s = .next u ∧ u.mem = s.mem ∧
        u.kernelIn x slot = some k ∧ k.state = .verified ∧ k.root = BitVec.ofNat 256 (leAt obj 0x40 32) ∧ k.leaves = objLeaves obj ∧
        k.text = objText obj ∧ k.entry = leAt obj 0x2C 4 ∧ k.packet = some (q, p.compl, p.seq))) ∧
    (AtPacket s x q 3 p →
      let slot := leAt b 0x20 2
      (s.kernelIn x slot = none → ends s 7 → exec (.unloadPacket x q) s = .next t) ∧
      (∀ k, s.kernelIn x slot = some k → k.packet = none → k.state = .resident ∨ k.state = .translated →
        exec (.unloadPacket x q) s = .next (s.setKernel x { k with
          state := if s.kernelRuns x slot = true then .stale else .unloading, packet := some (q, p.compl, p.seq) }))) ∧
    (AtPacket s x q 4 p → ∀ d, s.readDesc x (leAt b 0x20 2) true = .ok d →
      let img := (b.drop 0x40).take 64
      (d.live = true → ends s 0x11 → exec (.bindPacket x q) s = .next t) ∧
      (d.live = false → bindImageOk img = false → ends s 0x10 → exec (.bindPacket x q) s = .next t) ∧
      (d.live = false → bindImageOk img = true → ∀ u,
        s.agentWrite x ((s.ctxAt x).descAddr (leAt b 0x20 2)) (boundImage img (leAt b 0x24 4)) true = .ok u →
        let r := (descOf img).record
        let recs := (u.ctxAt x).records
        let v := u.setCtx x { u.ctxAt x with records := recordSet recs r (recordAt recs r).cleared }
        ends { v with sched := { v.sched with graphs := v.sched.graphs.map fun g =>
            if g.ctx == x then { g with partials := g.partials.filter fun p => p.idx != r } else g } } 0 →
        exec (.bindPacket x q) s = .next t)) ∧
    (AtPacket s x q 5 p → ∀ d, s.readDesc x (leAt b 0x20 2) true = .ok d →
      let idx := leAt b 0x20 2
      let c := s.ctxAt x
      c.retirePending.any (·.1 == idx) = false →
      (d.live = false → ends s 0x12 → exec (.retirePacket x q) s = .next t) ∧
      (d.live = true → s.boundNow x idx = true → exec (.retirePacket x q) s =
        .next (s.setCtx x { c with retirePending := c.retirePending ++ [(idx, q, p.compl, p.seq)] })) ∧
      (d.live = true → s.boundNow x idx = false → ∀ v u, s.agentRead x (c.descAddr idx + 0x3A) 1 true = .ok [v] →
        s.agentWrite x (c.descAddr idx + 0x3A) [v &&& 0x9F#8 ||| 0x40#8] true = .ok u → ends u 0 →
        exec (.retirePacket x q) s = .next t)) ∧
    (AtPacket s x q 6 p →
      let no := leAt b 0x20 4
      let there := ∃ g ∈ s.sched.graphs, g.ctx = x ∧ g.graphNo = no
      (¬ there → ends s 0x13 → exec (.cancelPacket x q) s = .next t) ∧
      (there → ∀ w, cancelAll x (queueDie (s.ctxAt x).part q) (s.cancelTargets x no) ⟨s, []⟩ = .ok w → w.faults = [] → ends w.s 0 →
        exec (.cancelPacket x q) s = .next t))) ∧
  (∀ (s : State) (x slot q : Nat) (k : Kernel) (compl seq : Word) (room : Option (List Nat)) (t : State), x < 64 →
    s.kernelIn x slot = some k →
    k.packet = some (q, compl, seq) →
    (k.state = .verified → (s.ctxAt x).served = true →
      let load := Instr.kernelLoadComplete x slot room
      let code := if s.slotOk x k = false then 7 else if k.relocCode ≠ 0 then k.relocCode
        else if room.any (fun f => (s.placePages x k f).isSome) = true then 0 else 8
      let told := if code = k.relocCode then (match k.relocAt with | some e => [Out.relocRejected x slot e.1 e.2] | none => []) else []
      let gone := s.dropKernel x k
      (code ≠ 0 → State.acceptPacket { gone with outbox := gone.outbox ++ told } x q 2 2 code compl seq = .ok t →
        exec load s = .next t) ∧
      (code = 0 → (s.placeKernel x k (room.getD [])).acceptPacket x q 2 2 0 compl seq = .ok t → exec load s = .next t)) ∧
    (k.state ≠ .verified → exec (.kernelLoadComplete x slot room) s = .next s) ∧
    (k.state = .unloading → (s.dropKernel x k).acceptPacket x q 1 3 0 compl seq = .ok t →
      exec (.kernelUnloadComplete x slot) s = .next t) ∧
    (k.state = .resident ∨ k.state = .translated → exec (.kernelUnloadComplete x slot) s = .next s))

/-- GRAPH packets (R138, R273, R276). One that breaks R273 stops its queue, one whose unordered tasks conflict stops it with
another cause, one that conflicts with a graph in flight that was parsed before it is held, and every other is admitted: where
the device's accesses succeed, its TCBs are written, its plate is looked up, its tasks without predecessors become READY and
HEAD moves. A held graph is admitted when nothing holds it. The model's choices: log entries 89, 90 and 91. -/
def Obligations.GraphAdmission : Prop :=
  (∀ (g : GraphIn) (j k : Nat) (img : List Byte), g.images[j]? = some img → img.length = 128 → k < 128 →
    let succ := (g.edges.filter (·.1 == j)).map fun e => g.tcb0 + e.2
    let pred := tcbPred img + (g.edges.filter (·.2 == j)).length
    (admittedTcb g j)[k]? =
      if k = 0 then some (if pred = 0 then 1#8 else 2#8)
      else if k < 8 then some 0#8
      else if k < 12 then some (BitVec.ofNat 8 (pred / 256 ^ (k - 8)))
      else if k = 0x22 ∨ k = 0x23 then some (BitVec.ofNat 8 (succ.length / 256 ^ (k - 0x22)))
      else if 0x48 ≤ k ∧ k < 0x68 then some (BitVec.ofNat 8 (succ.getD ((k - 0x48) / 4) 0 / 256 ^ ((k - 0x48) % 4)))
      else if 0x70 ≤ k ∧ k < 0x74 then some (BitVec.ofNat 8 (g.graphNo / 256 ^ (k - 0x70)))
      else img[k]?) ∧
  (∀ (s : State) (x q : Nat) (p : Packet), AtPacket s x q 1 p →
    let g := graphIn p.bytes
    let ok := graphBodyOk p (s.ctxAt x).tcbCount = true ∧ predsFit g = true
    (¬ ok → exec (.graphPacket x q) s = .next (s.stopQueue x q 4) ∧ exec (.graphAdmission x q) s = .next s) ∧
    (∀ tcbs, ok → (List.range g.nt).mapM (fun j => serving (s.localTcb x g j) (s.readTcb x (g.tcb0 + j))) = .ok tcbs →
      ((∃ j, j < g.nt ∧ s.tcbOpen x (g.tcb0 + j) (tcbs.getD j []) = false) → exec (.graphPacket x q) s = .next (s.stopQueue x q 4)) ∧
      (∀ binds key, (∀ j, j < g.nt → s.tcbOpen x (g.tcb0 + j) (tcbs.getD j []) = true) →
        (List.range g.nt).mapM (fun j => serving (s.localTcb x g j) (s.readBinds x (g.images.getD j []))) = .ok binds →
        s.shapeKey x g binds = .ok key →
        (key = none → exec (.graphPacket x q) s = .next (s.stopQueue x q 4)) ∧
        (∀ d, key = some d →
          (graphConflict g binds = true → exec (.graphPacket x q) s = .next (s.stopQueue x q 5)) ∧
          (graphConflict g binds = false → s.graphHeld x (s.parseNo x q) binds = true →
            exec (.graphPacket x q) s = .next (s.holdGraph x q) ∧ exec (.graphAdmission x q) s = .next s) ∧
          (graphConflict g binds = false → s.graphHeld x (s.parseNo x q) binds = false → ∀ s1 shapes,
            (List.range g.nt).foldlM (fun t j => do
              let t1 ← serving (s.localTcb x g j) (t.writeTcb x (g.tcb0 + j) 0 (admittedTcb g j))
              serving (s.localTcb x g j) (t1.putOverflow x g j)) s = .ok s1 →
            s1.shapesOf x binds = .ok shapes →
            let h := s1.newGraph x q p g binds d shapes
            let roots := g.images.map fun i => (s.shapeKernel x i).1
            ∀ s3 s4 t,
              State.startPlate { s1 with sched := { s1.sched with graphs := s1.sched.graphs ++ [h], nextId := h.id + 1 } } h d roots = .ok s3 →
              (List.range g.nt).foldlM (fun t j =>
                if leAt (admittedTcb g j) 8 4 = 0 then serving (s.localTcb x g j) (t.makeReady x (g.tcb0 + j) h.die) else .ok t) s3 = .ok s4 →
              (s4.dropHold x q).advanceHead x q p.len = .ok t →
              exec (.graphPacket x q) s = .next t ∧ exec (.graphAdmission x q) s = .next t))))) ∧
  (∀ (s : State) (x n : Nat) (binds : List (List (BitVec 32))), s.graphHeld x n binds = true ↔
     ∃ g ∈ s.sched.graphs, g.ctx = x ∧ g.parseNo < n ∧ ∃ b ∈ g.bindings, ∃ l ∈ binds, listsConflict b.2 l = true)

/-! ## Scheduling -/

/-- Dispatch, stealing and staging (R19, R277 to R281, R299 to R302, R306, R307, R311, R312). A cell that takes decisions takes
the first task of its highest level; a task that passes its checks asks for a group, one that fails them is FAILED, and the
arbiter gives the first request its cells once they are unheld. A steal asks a cell of the cluster and then of the die, and
takes the last task that may go; the base is the lowest that clears the others; staging copies run in order; the shards start
together; and the group's end is the task's. The model's choices: log entries 98, 99, 100, 101, 104, 106, 107 and 168. -/
def Obligations.Dispatching : Prop :=
  (∀ (used : List (Nat × Nat)) (size b : Nat), lowestBase used size = some b →
    let clear := fun (v : Nat) => v + size ≤ 0x600000 ∧ ∀ u ∈ used, ¬ (0 < u.2 ∧ 0 < size ∧ v < u.1 + u.2 ∧ u.1 < v + size)
    b % 4096 = 0 ∧ clear b ∧ ∀ v, v % 4096 = 0 → v < b → ¬ clear v) ∧
  (∀ (s : State) (g : Group), s.sched.groups.find? (fun h => h.state == .requested && s.scheduled h.ctx) = some g →
    (chooseCells (fun c => (s.cellAt c).readyCount) (s.unheld g.ctx) g.home g.p g.q = none → s.arbitrate = s) ∧
    (∀ cells, chooseCells (fun c => (s.cellAt c).readyCount) (s.unheld g.ctx) g.home g.p g.q = some cells →
      let h := { g with state := .held, cells := cells, halted := cells.map fun _ => false }
      s.arbitrate.mem = s.mem ∧ s.arbitrate.sched.groups = s.sched.groups.map (fun e => if e.id = g.id then h else e) ∧
      ∀ c, c < 256 → (s.arbitrate.cellAt c).held = if c ∈ cells then some g.id else (s.cellAt c).held)) ∧
  (∀ (s : State), s.sched.groups.find? (fun h => h.state == .requested && s.scheduled h.ctx) = none → s.arbitrate = s) ∧
  (∀ (s : State) (cell : Nat), cell < 256 →
    let c := s.cellAt cell
    let open_ := s.dev.inhibit = false ∧ s.dev.state = .ready ∧ c.held = none ∧ s.laneFirst cell = false ∧
      ∀ g ∈ s.sched.groups, g.state = .requested → g.home ≠ cell
    (¬ open_ ∨ s.headTask cell = none → exec (.taskDispatch cell) s = .next s.arbitrate) ∧
    (open_ → ∀ k, s.headTask cell = some k → ∀ b, s.readTcb k.ctx k.tcb = .ok b →
      (∀ w u, s.dispatchChecks k.ctx b = .ok none → s.failTask k.ctx k.tcb (cell / 64) = .ok w →
        w.s.passBy cell k.ctx k.tcb = .ok u →
        (∃ l tcb, w.faults = l ++ [⟨.taskState, tcb, tcb⟩] ∧ tcb = (s.ctxAt k.ctx).tcbAddr k.tcb) ∧
        exec (.taskDispatch cell) s = .next (w.faults.foldl (fun t f =>
          t.raiseDevice k.ctx f.cause (BitVec.ofNat 64 f.fva) (BitVec.ofNat 64 f.tcb)) u).arbitrate) ∧
      (∀ d u, s.dispatchChecks k.ctx b = .ok (some d) →
        let g := s.newGroup k.ctx k.tcb cell b d (s.formOrigin k.ctx k.tcb).1 (s.formOrigin k.ctx k.tcb).2
        ({ s with sched := { s.sched with groups := s.sched.groups ++ [g], nextId := s.sched.nextId + 1 } } : State).passBy
          cell k.ctx k.tcb = .ok u →
        (g.id = s.sched.nextId ∧ g.ctx = k.ctx ∧ g.tcb = (s.ctxAt k.ctx).tcbAddr k.tcb ∧ g.home = cell ∧ g.state = .requested ∧
          g.cells = [] ∧ g.args = BitVec.ofNat 64 (tcbArgs b) ∧ g.bindings = d.binds ∧ g.exts = tcbExts b ∧
          g.p = kindProduct (groupLevels d.kernel (tcbExts b)) .cells ∧ g.q = kindProduct (groupLevels d.kernel (tcbExts b)) .dies ∧
          g.stages = d.stages ∧ g.spsize = d.head.spsize ∧ g.baseOff = d.head.baseOff) ∧
        exec (.taskDispatch cell) s = .next u.arbitrate)) ∧
    (c.mayStealNow = true → c.steal.sent < 6 → ∃ t v, exec (.stealRequest cell) s = .next t ∧
      (t.cellAt cell).steal.sent = c.steal.sent + 1 ∧ (t.cellAt cell).steal.victim = some v ∧ v ≠ cell ∧
      (if c.steal.sent < 2 then v / 8 = cell / 8 else v / 64 = cell / 64) ∧ (t.cellAt cell).active = c.active ∧ t.mem = s.mem) ∧
    (c.mayStealNow = false → exec (.stealRequest cell) s = .next s) ∧
    (c.steal.victim = none → exec (.stealAnswer cell) s = .next s) ∧
    (∀ v, c.steal.victim = some v →
      let empty := (s.cellAt v).held ≠ none ∨ c.free = false ∨ c.held ≠ none
      (empty ∨ s.stealFrom cell v = none → ∃ t, exec (.stealAnswer cell) s = .next t ∧ t.mem = s.mem ∧ t.sched = s.sched ∧
        (t.cellAt cell).steal = { c.steal with victim := none, backoff := decide (6 ≤ c.steal.sent) }) ∧
      (∀ k, ¬ empty → s.stealFrom cell v = some k →
        let s1 := (s.setCell cell { c with steal := { c.steal with victim := none, sent := 0 } }).takeStolen cell (s.levelOf v k) k
        (s.mayIssue = false → exec (.stealAnswer cell) s = .next s1) ∧
        (s.mayIssue = true → ∀ u, s1.decideTask cell k.ctx k.tcb = .ok ⟨u, []⟩ →
          exec (.stealAnswer cell) s = .next u.arbitrate))) ∧
    (c.steal.backoff = true → exec (.stealBackoffExpiry cell) s =
      .next (s.setCell cell { c with steal := { c.steal with backoff := false, sent := 0 } })) ∧
    (c.steal.backoff = false → exec (.stealBackoffExpiry cell) s = .next s)) ∧
  (∀ (s : State) (n : Nat) (g : Group), s.groupAt n = some g →
    let on := s.scheduled g.ctx = true
    let base := s.baseFor g
    (g.plateBase = none → base = lowestBase (s.allocations g.cells) g.spsize) ∧
    (∀ b, g.plateBase = some b → base = if ∀ u ∈ s.allocations g.cells,
      ¬ (0 < g.spsize ∧ 0 < u.2 ∧ b < u.1 + u.2 ∧ u.1 < b + g.spsize) then some b else none) ∧
    (g.state = .held → on → base = none → exec (.stagingBaseAllocate n) s = .next s) ∧
    (g.state = .held → on → ∀ b, base = some b →
      let h := { g with base := some b, state := if g.stages = [] then .ready else .staging }
      (g.baseOff = 0xFFFF → exec (.stagingBaseAllocate n) s = .next (s.setGroup h)) ∧
      (g.baseOff ≠ 0xFFFF → ∀ u, s.agentWrite g.ctx (g.args.toNat + g.baseOff) (bytesOfNat 8 b) true = .ok u →
        exec (.stagingBaseAllocate n) s = .next (u.setGroup h))) ∧
    (g.state ≠ .held → exec (.stagingBaseAllocate n) s = .next s) ∧
    (g.state = .staging → on →
      let d := copyDescOf (g.stages.getD g.stagesDone [])
      let r := s.gather ⟨g.ctx, g.home, false, g.cells, .task⟩ d .cpy [] (g.base.getD 0) d.total 0 ⟨[], [], [], .ran⟩
      let h := { g with stagesDone := g.stagesDone + 1, state := if g.stages.length ≤ g.stagesDone + 1 then .ready else .staging }
      (d.ver = false → (d.total = 0 ∨ s.srcFault g.ctx g.home d .cpy [] = none) → r.stop = .ran →
        ∀ u, (s.setGroup h).putBytes (r.bytes.flatMap fun b => b.keys.map fun k => (k, b.val)) = .ok u →
        exec (.stagingCopyComplete n) s = .next u) ∧
      (d.ver = true → ∀ t, s.readDesc g.ctx d.tidx true = .ok t → t.live = true → (bindingOf g.bindings d.tidx).bound = true →
        s.srcFault g.ctx g.home d .cpy [] = none → d.total ≠ 0 → t.version < d.expver → exec (.stagingCopyComplete n) s = .next s)) ∧
    (g.state ≠ .staging → exec (.stagingCopyComplete n) s = .next s)) ∧
  (∀ (s : State) (n : Nat) (g : Group), s.arbitrate.groupAt n = some g →
    let s2 := s.arbitrate.holdRun g
    (g.plateBase = none → s2 = s.arbitrate) ∧
    (g.state ≠ .ready ∨ s2.scheduled g.ctx = false → exec (.shardStart n) s = .next s2) ∧
    (g.state = .ready → s2.scheduled g.ctx = true →
      ((s2.ctxAt g.ctx).runnable g.kslot = none → ∀ w, s2.failTask g.ctx ((s2.ctxAt g.ctx).tcbIndex g.tcb) (g.home / 64) = .ok w →
        exec (.shardStart n) s = .next (w.faults.foldl (fun t f =>
          t.raiseDevice g.ctx f.cause (BitVec.ofNat 64 f.fva) (BitVec.ofNat 64 f.tcb)) w.s)) ∧
      (∀ k, (s2.ctxAt g.ctx).runnable g.kslot = some k →
        let go := (∀ c ∈ g.cells, (s2.cellAt c).free = true ∧ (s2.cellAt c).held = some g.id) ∧ k.eagerReady g.cells = true
        (¬ go → exec (.shardStart n) s = .next s2) ∧
        (go → ∀ b v u, s2.readTcb g.ctx ((s2.ctxAt g.ctx).tcbIndex g.tcb) = .ok b →
          s2.writeTcb g.ctx ((s2.ctxAt g.ctx).tcbIndex g.tcb) 0 (withState b 5 false) = .ok v → s2.startGroup g k = .ok u →
          exec (.shardStart n) s = .next u ∧ u.mem = v.mem ∧
          (g.cells.Nodup → (∀ c ∈ g.cells, c < 256) → ∀ j c, g.cells[j]? = some c →
            (u.cellAt c).held = none ∧ (u.cellAt c).active =
              { shardBank (v.ctxAt g.ctx) k g j 0 with ctl :=
                { (shardBank (v.ctxAt g.ctx) k g j 0).ctl with yielding := (v.cellAt c).active.ctl.yielding } }))))) ∧
  (∀ (s : State) (n : Nat) (g : Group), s.groupAt n = some g →
    (g.state = .running → (∀ b ∈ g.halted, b = true) → ∀ w, s.completeGroup g = .ok w → w.faults = [] →
      exec (.groupCompletion n) s = .next w.s ∧ ∀ h ∈ w.s.sched.groups, h.id ≠ g.id) ∧
    (g.state ≠ .running ∨ false ∈ g.halted → exec (.groupCompletion n) s = .next s))

/-- The counter tree and the plates (R308, R309, R318 to R322, R325 to R327). A node to which an addition is on its way
registers once its parent has and adds 1 there; at 0, with no addition on its way, it combines, taking 1 from its parent, and a
graph whose root comes to 0 completes. The head of a lane counts its stall until its wait set is met, passes a JOIN, and issues
its task, and its staging may be led. Make-ready of a plate that is not in a run gives it its refined lanes, a higher GEN and
the state REFINED where they differ, and sends it to the devices that a route reaches; and the sections of other devices are
stored, where the plate stays within 16 MiB. The model's choices: log entries 105, 108, 109, 110, 111, 114 and 169. -/
def Obligations.CountersAndPlates : Prop :=
  (∀ (s : State) (n : Nat) (g : Graph) (node : CounterNode), s.graphAt n = some g →
    let parent : Option CounterNode := match node with | .cell c => some (.cluster (c / 8)) | .cluster c => some (.die (c / 8)) | .die _ => none
    let under := match parent with | some p => g.counters.any (·.1 == p) | none => true
    let moved := fun (p : CounterNode) (f : Nat → Nat) => g.counters.map fun c => if c.1 == p then (c.1, f c.2) else c
    let above := fun (c : Nat) => match node with | .cell d => c = d | .cluster k => c / 8 = k | .die d => c / 64 = d
    (s.addsBelow g node = true ↔ ∃ c b, c < 256 ∧ above c ∧ s.bankOf g.ctx c = some b ∧ b.ctl.spawning = true ∧
      ∃ h, b.ctl.group.bind s.groupAt = some h ∧ h.graph = g.id) ∧
    (s.addsBelow g node = false → exec (.counterRegister n node) s = .next s) ∧
    (s.addsBelow g node = true → exec (.counterRegister n node) s = .next (s.setGraph (g.register node)) ∧
      exec (.counterCombine n node) s = .next s) ∧
    (g.counters.any (·.1 == node) = true ∨ under = false → g.register node = g) ∧
    (g.counters.any (·.1 == node) = false → under = true →
      (parent = none → g.register node = { g with root := g.root + 1, counters := g.counters ++ [(node, 0)] }) ∧
      (∀ p, parent = some p → g.register node = { g with counters := moved p (· + 1) ++ [(node, 0)] })) ∧
    (s.addsBelow g node = false → g.counters.any (fun c => c.1 == node && c.2 == 0) = false → g.root ≠ 0 →
      exec (.counterCombine n node) s = .next (s.setGraph g)) ∧
    (s.addsBelow g node = false → g.counters.any (fun c => c.1 == node && c.2 == 0) = true →
      (∀ p, parent = some p → g.root ≠ 0 → exec (.counterCombine n node) s =
        .next (s.setGraph { g with counters := (moved p (· - 1)).filter (·.1 != node) })) ∧
      (parent = none → 2 ≤ g.root → exec (.counterCombine n node) s =
        .next (s.setGraph { g with root := g.root - 1, counters := g.counters.filter (·.1 != node) })) ∧
      (parent = none → g.root = 1 →
        let h := { g with root := 0, counters := g.counters.filter (·.1 != node) }
        ∀ u, (s.setGraph h).finishGraph h = .ok u → exec (.counterCombine n node) s = .next u))) ∧
  (∀ (s : State) (cell : Nat), cell < 256 →
    exec (.laneEntryIssue cell) s = .next ((s.sched.plates.map (·.key)).foldl (State.laneStep cell) s).arbitrate ∧
    ∀ p, s.sched.plates.find? (·.key == p.key) = some p →
      (s.headOf cell p = none → s.laneStep cell p.key = s) ∧
      (∀ h, s.headOf cell p = some h →
        let g := h.graph
        let add := fun (v : Nat) => min (v + Config.stallCycles s.freeCtr) (2 ^ 32 - 1)
        let steps := fun (u : State) => s.headStep cell h = u
        (∀ k, (s.headStep cell h).sched.plates.find? (·.key == p.key) = some k →
          ((s.headStep cell h).headOf cell k = none → s.laneStep cell p.key = s.headStep cell h) ∧
          (∀ i, (s.headStep cell h).headOf cell k = some i → s.laneStep cell p.key = (s.headStep cell h).hoistNext cell i)) ∧
        (h.plate = p ∧ p.run = some g.id ∧ s.scheduled g.ctx = true ∧ h.pos = laneCounter p g h.sect cell ∧
          (h.sect.lane cell)[h.pos]? = some h.entry ∧ h.sect.dev = s.dev.devIndex) ∧
        (s.waitMet p g h.sect h.entry = false → steps (s.mapEntry p cell h.pos fun q => { q with wstall := add q.wstall })) ∧
        (s.waitMet p g h.sect h.entry = true →
          (h.entry.loc = none → steps (s.setPlate (p.setHead cell (h.pos + 1)))) ∧
          (∀ l, h.entry.loc = some l →
            (l ∉ g.issued → s.mayIssue = true → ∀ b, s.readTcb g.ctx (g.tcb0 + l) = .ok b →
              (∀ u, s.issueEntry h cell l = .ok u → steps u) ∧
              (s.shapeOk p g h.entry b = .ok false ∨ (s.shapeOk p g h.entry b = .ok true ∧ s.dispatchChecks g.ctx b = .ok none) →
                s.issueEntry h cell l = s.handBack p g)) ∧
            (l ∈ g.issued ∨ s.mayIssue = false →
              (s.stagingOpen g l = true → steps (s.mapEntry p cell h.pos fun q => { q with sstall := add q.sstall })) ∧
              (s.stagingOpen g l = false → steps s)))) ∧
        ((∀ n e, h.pos < n → n ≤ h.pos + 3 → (h.sect.lane cell)[n]? = some e → e.loc = none ∨ ∃ l, e.loc = some l ∧ s.mayHoist h l = false) →
          s.hoistNext cell h = s))) ∧
  (∀ (s : State) (n : Nat) (p : Plate), s.sched.plates[n]? = some p →
    (p.run ≠ none ∨ p.due = false ∨ (p.state ≠ .sealed ∧ p.state ≠ .refined) → exec (.makeReady n) s = .next s) ∧
    (p.run = none → p.due = true → p.state = .sealed ∨ p.state = .refined →
      let lanes := fun (t : Section) => if t.dev = s.dev.devIndex then { t with lanes := refineLanes p.edges t.lanes } else t
      let secs := p.sections.map lanes
      let dests := (List.range s.dev.gangSize).filter fun d => d != s.dev.devIndex && s.routeUp p.conf d
      (secs.map Section.bytes = p.sections.map Section.bytes → exec (.makeReady n) s = .next (s.setPlate { p with due := false })) ∧
      (secs.map Section.bytes ≠ p.sections.map Section.bytes → ∃ r, exec (.makeReady n) s =
          .next { s.setPlate r with outbox := s.outbox ++ dests.map fun d => .plateSection d r.image } ∧
        r = { p with due := false, sections := secs, gen := p.gen + 1, state := .refined, digest := r.digest } ∧
        r.digest = Plate.digestOf r))) ∧
  (∀ (s : State) (image : List Byte),
    (plateFrom image = none → exec (.plateSectionReceive image) s = .next s) ∧
    (∀ p, plateFrom image = some p →
      ((∀ q ∈ s.sched.plates, q.key ≠ p.key) →
        (s.sched.plates.length < 4096 → exec (.plateSectionReceive image) s =
          .next { s with sched := { s.sched with plates := s.sched.plates ++ [p] } }) ∧
        (∀ l, evictPlate s.sched.plates = some l → exec (.plateSectionReceive image) s =
          .next { s with sched := { s.sched with plates := l ++ [p] } }) ∧
        (evictPlate s.sched.plates = none → exec (.plateSectionReceive image) s = .next s)) ∧
      (∀ q, s.sched.plates.find? (·.key == p.key) = some q →
        let secs := mergeSections s.dev.devIndex q.sections p.sections
        (∀ t ∈ q.sections, t.dev = s.dev.devIndex → t ∈ secs) ∧ (∀ t ∈ p.sections, t.dev ≠ s.dev.devIndex → t ∈ secs) ∧
        (0x1000000 < ({ q with sections := secs } : Plate).size → exec (.plateSectionReceive image) s = .next s) ∧
        (({ q with sections := secs } : Plate).size ≤ 0x1000000 → ∃ r, exec (.plateSectionReceive image) s = .next (s.setPlate r) ∧
          r = { q with sections := secs, digest := r.digest } ∧
          (q.state = .recording → r.digest = q.digest) ∧ (q.state ≠ .recording → r.digest = Plate.digestOf r)))))

/-! ## Links -/

/-- Host ports and queue pairs (R354 to R356). An RDMA WRITE in range stores its bytes and is acknowledged, a READ answers them,
a range that fails is a NAK that changes nothing, and an atomic is Invalid Request; a queue pair is made on a free number for a
context that is not FREE; a SEND to the management pair reaches the root firmware; a port that goes down puts its pairs in
error, the management pair too, which the root firmware makes anew; and a host port trains to eight lanes or goes down. The
model's choices: log entries 147 and 162. -/
def Obligations.HostPorts : Prop :=
  ∀ (s : State) (port num : Nat),
    let put := fun (o : Out) => ({ s with outbox := s.outbox ++ [o] } : State)
    let up := port < 2 ∧ (s.port port).state = .up
    let managed := up ∧ (s.port port).qpError = false
    (∀ (a : Word) (data : List Byte) (n : Nat), s.qpAt port num = none →
      exec (.rdmaWrite port num a data) s = .next s ∧ exec (.rdmaRead port num a n) s = .next s ∧
      (num ≠ 1 ∨ ¬ managed → exec (.rdmaAtomicRequest port num) s = .next s)) ∧
    (managed → exec (.rdmaAtomicRequest port 1) s = .next (put (.nak port 1 true))) ∧
    (¬ up → s.qpAt port num = none) ∧
    (∀ q, s.qpAt port num = some q → q ∈ s.net.qps ∧ q.port = port ∧ q.num = num ∧ q.error = false ∧ up ∧
      ∀ i, (s.ctxAt q.ctx).session = some i → s.hostSession i = true) ∧
    (∀ q (a : Word) (data : List Byte) (n : Nat), s.qpAt port num = some q →
      exec (.rdmaAtomicRequest port num) s = .next (put (.nak port num true)) ∧
      (inG a.toNat data.length = false ∨ (s.ctxAt q.ctx).state = .free →
        exec (.rdmaWrite port num a data) s = .next (put (.nak port num false))) ∧
      (inG a.toNat n = false ∨ (s.ctxAt q.ctx).state = .free → exec (.rdmaRead port num a n) s = .next (put (.nak port num false))) ∧
      ((s.ctxAt q.ctx).state ≠ .free →
        (inG a.toNat data.length = true →
          (∀ ps, s.resolveG none q.ctx (Access.store .supervisor) a.toNat data.length = .ok ps → s.storePoison ps = none →
            (s.ctxAt q.ctx).nqueue = 0 → ∃ t, exec (.rdmaWrite port num a data) s = .next t ∧ t.mem = storedBytes s.mem ps data ∧
              t.cells = s.cells ∧ t.ctxs = s.ctxs ∧ t.outbox = s.outbox ++ [.ack port num]) ∧
          (∀ e, s.resolveG none q.ctx (Access.store .supervisor) a.toNat data.length = .error e →
            exec (.rdmaWrite port num a data) s = .next (put (.nak port num false)))) ∧
        (inG a.toNat n = true →
          (∀ ps, s.resolveG none q.ctx (Access.load .supervisor) a.toNat n = .ok ps → s.clean ps →
            exec (.rdmaRead port num a n) s = .next (put (.readData port num (s.peekParts ps)))) ∧
          (∀ e, s.resolveG none q.ctx (Access.load .supervisor) a.toNat n = .error e →
            exec (.rdmaRead port num a n) s = .next (put (.nak port num false)))))) ∧
    (port < 2 →
      (∀ data, (managed → exec (.managementSend port data) s =
          .next { s with outbox := s.outbox ++ [.managed port data] ++ [.ack port 1] }) ∧
        (¬ managed → exec (.managementSend port data) s = .next s)) ∧
      (∀ x byRoot, x < 64 →
        let here := s.net.qps.filter fun q => q.port == port
        let open_ := num ≠ 1 ∧ (∀ q ∈ here, q.num = num → q.error = true) ∧ (here.filter fun q => q.num != num).length < 4095 ∧
          (s.ctxAt x).state ≠ .free ∧ byRoot = (s.ctxAt x).conf ∧ s.dev.state = .ready
        (open_ → ∃ t, exec (.qpCreate port num x true byRoot) s = .next t ∧ ⟨port, num, x, false⟩ ∈ t.net.qps ∧
          (∀ q ∈ s.net.qps, q.port ≠ port ∨ q.num ≠ num → q ∈ t.net.qps) ∧ t.mem = s.mem ∧
          t.outbox = s.outbox ++ [.qpMade port num true]) ∧
        (∀ rc, ¬ open_ ∨ rc = false → num ≠ 1 ∨ rc = false ∨ byRoot = false →
          exec (.qpCreate port num x rc byRoot) s = .next (put (.qpMade port num false))) ∧
        exec (.qpCreate port 1 x true true) s =
          .next { s.setPort port { s.port port with qpError := false } with outbox := s.outbox ++ [.qpMade port 1 true] }) ∧
      (up → ∃ t, exec (.hostPortDown port) s = .next t ∧ (t.port port).state = .down ∧ (t.port port).lanes = 0 ∧
        (t.port port).qpError = true ∧
        (∀ q ∈ t.net.qps, q.port = port → q.error = true) ∧ (∀ q ∈ s.net.qps, q.port ≠ port → q ∈ t.net.qps)) ∧
      (¬ up → exec (.hostPortDown port) s = .next s) ∧
      ((s.port port).state = .training →
        (∀ n, 8 ≤ n → ∃ t, exec (.trainingComplete port n) s = .next t ∧ (t.port port).state = .up ∧ (t.port port).lanes = 8) ∧
        (∀ n, n < 8 → ∃ t, exec (.trainingComplete port n) s = .next t ∧ (t.port port).state = .down ∧ (t.port port).retryDue = true) ∧
        (∃ t, exec (.trainingTimeout port) s = .next t ∧ (t.port port).state = .down ∧ (t.port port).retryDue = true)) ∧
      ((s.port port).state = .down → (s.port port).retryDue = true → ∃ t, exec (.trainingRetryTimer port) s = .next t ∧
        (t.port port).state = .training ∧ (t.port port).epoch = (s.port port).epoch + 1))

/-- Gang ports (R357 to R359). A flit whose check value or tag fails is answered by a NAK and one whose form fails is counted;
every type is taken in SEQ order; DATA and CONTROL are acknowledged, and delivered here or forwarded with the next link's own
SEQ, over LOCKED links where they came over one; ACK drops the flits up to the one named and NAK sends again from it; what is
sent goes in Ethernet frames. A port trains, comes up with eight lanes or degraded with four, is retried where training failed,
narrows when lanes fail, goes DOWN below four and is LOCKED by a key of a session. The model's choices: log entries 140, 141,
142, 163 and 164. -/
def Obligations.GangPorts : Prop :=
  (∀ (ty vc src dst : Nat) (seq : BitVec 32) (payload : List Byte), ty < 256 → vc < 256 → src < 256 → dst < 256 → payload.length ≤ 240 →
    let b := flitOf ty vc src dst seq payload
    b.length = 256 ∧ crcOk b = true ∧ byteAt b 0 = ty ∧ byteAt b 1 = vc ∧ byteAt b 2 = src ∧ byteAt b 3 = dst ∧
    leAt b 4 4 = seq.toNat ∧ leAt b 8 2 = payload.length ∧ leAt b 10 2 = 0 ∧ (b.drop 12).take payload.length = payload ∧
    ∀ i, 12 + payload.length ≤ i → i < 252 → byteAt b i = 0) ∧
  (∀ (s : State) (p : Nat) (f : List Byte) (ok : Bool), 2 ≤ p → p < 18 →
    let v := s.port p
    let on := v.state = .up ∨ v.state = .degraded ∨ v.state = .locked
    let put := fun (w : Port) => s.setPort p w
    let say := fun (t : State) (o : Out) => ({ t with outbox := t.outbox ++ [o] } : State)
    let events := [(1, Instr.flitData p f ok), (2, .flitAck p f ok), (3, .flitNak p f ok), (4, .flitCredit p f ok), (5, .flitControl p f ok)]
    let seq : BitVec 32 := BitVec.ofNat 32 (leAt f 4 4)
    let named : BitVec 32 := BitVec.ofNat 32 (leAt f 12 4)
    let passed := on ∧ (v.state = .locked → ok = true) ∧ crcOk f = true ∧ flitForm f = true ∧ seq = v.rxSeq
    let quiet := ∀ g ∈ s.sched.graphs, g.running = false
    let routes := s.net.routes.filter fun r => r.2 != p
    let took := put { v with rxSeq := v.rxSeq + 1 }
    (∀ (t : State) (flit : BitVec 32 → List Byte),
      let w := t.port p
      let t1 := t.setPort p { w with txSeq := w.txSeq + 1, unacked := w.unacked ++ [(w.txSeq, flit w.txSeq, 0)] }
      t.sendFlit p flit = t1.sendFlits p [flit w.txSeq] ∧
      (∀ ty named, t.sendControl p ty named =
        t.sendFlit p fun q => flitOf ty 3 t.dev.devIndex (w.peer.getD 0) q (bytesOfNat 4 named.toNat)) ∧
      (∀ l : List (List Byte), l ≠ [] → l.length ≤ 16 →
        let body := Config.frameMacs p ++ [0x88#8, 0xB5#8] ++ bytesOfNat 1 l.length ++ [0#8] ++ bytesOfNat 2 w.epoch.toNat ++
          l.flatten ++ (if w.state = .locked then Config.frameTag t.freeCtr else [])
        t.sendFlits p l = say t (.frame p (body ++ bytesOfNat 4 (crc32 body).toNat)))) ∧
    (∀ e ∈ events,
      (¬ on → exec e.2 s = .next s) ∧
      (on → (v.state = .locked ∧ ok = false) ∨ crcOk f = false → exec e.2 s = .next (s.sendControl p 3 v.rxSeq)) ∧
      (on → (v.state = .locked → ok = true) → crcOk f = true → byteAt f 0 = 0 ∨ 5 < byteAt f 0 ∨ flitForm f = false →
        exec e.2 s = .next (put { v with bad := v.bad + 1 })) ∧
      (on → (v.state = .locked → ok = true) → crcOk f = true → flitForm f = true → byteAt f 0 = e.1 → seq ≠ v.rxSeq →
        exec e.2 s = .next (s.sendControl p 3 v.rxSeq)) ∧
      (passed → 1 ≤ byteAt f 0 → byteAt f 0 ≤ 5 → byteAt f 0 ≠ e.1 → exec e.2 s = .next s)) ∧
    (∀ e ∈ [(1, Instr.flitData p f ok), (5, .flitControl p f ok)], passed → byteAt f 0 = e.1 →
      let t := took.sendControl p 2 seq
      (byteAt f 3 = s.dev.devIndex →
        exec e.2 s = .next (say t (.delivered p (byteAt f 1) ((f.drop 12).take (leAt f 8 2))))) ∧
      (byteAt f 3 ≠ s.dev.devIndex →
        (s.routeFor (decide (v.state = .locked)) (byteAt f 3) = none → exec e.2 s = .next t) ∧
        (∀ o, s.routeFor (decide (v.state = .locked)) (byteAt f 3) = some o →
          (byteAt f 3, o) ∈ s.net.routes ∧ (s.port o).state.inService = true ∧ (v.state = .locked → (s.port o).state = .locked) ∧
          exec e.2 s = .next (t.sendFlit o fun q => withCrc (f.take 4 ++ bytesOfNat 4 q.toNat ++ f.drop 8))))) ∧
    (passed → byteAt f 0 = 2 →
      (∀ i, v.unacked.findIdx? (·.1 == named) = some i →
        exec (.flitAck p f ok) s = .next (put { v with rxSeq := v.rxSeq + 1, unacked := v.unacked.drop (i + 1) })) ∧
      (v.unacked.findIdx? (·.1 == named) = none → exec (.flitAck p f ok) s = .next took)) ∧
    (passed → byteAt f 0 = 3 →
      (v.unacked.findIdx? (·.1 == named) = none → exec (.flitNak p f ok) s = .next took) ∧
      (∀ i, v.unacked.findIdx? (·.1 == named) = some i → (∀ u ∈ v.unacked.drop i, u.2.2 < 16) →
        let again := (v.unacked.drop i).map fun u => (u.1, u.2.1, u.2.2 + 1)
        exec (.flitNak p f ok) s = .next
          ((put { v with rxSeq := v.rxSeq + 1, unacked := again, retry := v.retry + again.length }).sendFlits p (again.map (·.2.1)))) ∧
      (∀ i, v.unacked.findIdx? (·.1 == named) = some i → (∃ u ∈ v.unacked.drop i, 16 ≤ u.2.2) →
        ∃ t, exec (.flitNak p f ok) s = .next t ∧ (t.port p).state = .down ∧ (t.port p).unacked = [] ∧
          (t.port p).retryDue = false ∧ t.net.routes = routes)) ∧
    (passed → byteAt f 0 = 4 → ∃ t, exec (.flitCredit p f ok) s = .next t ∧ t.mem = s.mem ∧ t.outbox = s.outbox ∧
      (t.port p).rxSeq = v.rxSeq + 1 ∧ ∀ vc, vc ≠ byteAt f 1 → (t.port p).credits[vc]? = v.credits[vc]?) ∧
    (v.state = .down ∨ v.state = .degraded ∨ (v.state = .locked ∧ s.linksUsed = false) →
      ∃ t, exec (.linkRetrainRequest p) s = .next t ∧ (t.port p).state = .training ∧ (t.port p).epoch = v.epoch + 1 ∧
        (t.port p).unacked = [] ∧ (t.port p).rxSeq = 0 ∧ (t.port p).txSeq = 0 ∧ t.net.routes = routes ∧
        (quiet → t.mem = s.mem ∧ t.cells = s.cells)) ∧
    (v.state = .up ∨ v.state = .training ∨ (v.state = .locked ∧ s.linksUsed = true) → exec (.linkRetrainRequest p) s = .next s) ∧
    (s.linksUsed = true ↔ ∃ x, x < 64 ∧ (s.ctxAt x).conf = true ∧ (s.ctxAt x).state ≠ .free) ∧
    (v.state = .training → ∀ n,
      (8 ≤ n → ∃ t, exec (.trainingComplete p n) s = .next t ∧ (t.port p).state = .up ∧ (t.port p).lanes = 8 ∧ (t.port p).epoch = v.epoch ∧
        ∀ d, (t.port p).peer = some d → (d, p) ∈ t.net.routes) ∧
      (4 ≤ n → n < 8 → ∃ t, exec (.trainingComplete p n) s = .next t ∧ (t.port p).state = .degraded ∧ (t.port p).lanes = 4) ∧
      (n < 4 → ∃ t, exec (.trainingComplete p n) s = .next t ∧ (t.port p).state = .down ∧ (t.port p).retryDue = true ∧ t.net.routes = routes)) ∧
    (v.state = .training → ∃ t, exec (.trainingTimeout p) s = .next t ∧ (t.port p).state = .down ∧ (t.port p).retryDue = true ∧
      t.net.routes = routes ∧ (quiet → t.mem = s.mem ∧ t.cells = s.cells)) ∧
    (v.state ≠ .training → exec (.trainingTimeout p) s = .next s ∧ ∀ n, exec (.trainingComplete p n) s = .next s) ∧
    (v.state = .down → v.retryDue = true → ∃ t, exec (.trainingRetryTimer p) s = .next t ∧ (t.port p).state = .training ∧
      (t.port p).epoch = v.epoch + 1) ∧
    (v.state ≠ .down ∨ v.retryDue = false → exec (.trainingRetryTimer p) s = .next s) ∧
    (∀ n, on → n < 4 → ∃ t, exec (.laneFailure p n) s = .next t ∧ (t.port p).state = .down ∧ (t.port p).retryDue = false ∧
      t.net.routes = routes) ∧
    (∀ n, 4 ≤ n → (∀ u ∈ v.unacked, u.2.2 < 16) →
      let again := v.unacked.map fun u => (u.1, u.2.1, u.2.2 + 1)
      let sent := fun (w : Port) => (put { w with unacked := again, retry := w.retry + again.length }).sendFlits p (again.map (·.2.1))
      (v.state = .up → exec (.laneFailure p n) s = .next (sent { v with state := .degraded, lanes := 4 })) ∧
      (v.state = .locked → exec (.laneFailure p n) s = .next (sent { v with lanes := 4 })) ∧
      (v.state = .degraded → exec (.laneFailure p n) s = .next s)) ∧
    (v.state = .up ∨ v.state = .degraded →
      (∀ e, s.linkSession p = some e → (e ∈ s.dev.sessions ∧ e.state = .established ∧ p ∉ e.keyed ∧ ∃ d, e.asker = .peer d ∧ v.peer = some d) ∧
        ∃ t, exec (.linkKeyInstall p) s = .next t ∧ (t.port p).state = .locked ∧ { e with keyed := e.keyed ++ [p] } ∈ t.dev.sessions ∧
          t.mem = s.mem ∧ t.cells = s.cells ∧ ∀ q, q < 18 → q ≠ p → t.port q = s.port q) ∧
      (s.linkSession p = none → exec (.linkKeyInstall p) s = .next s)) ∧
    (v.state = .down ∨ v.state = .training ∨ v.state = .locked → exec (.linkKeyInstall p) s = .next s))

/-- The SPDM responder (R366, R367) in every state but OFF, for an asker that it serves, over the management queue pair of a
host port that is UP or a route to a device: each request is answered by its response code, CHALLENGE, KEY_EXCHANGE and
MEASUREMENTS signed with both keys; the algorithms and the chain are those of R366; a measurement is that of the firmware image
measured last or of a confidential context; a session is made by KEY_EXCHANGE, established by FINISH and gone after END_SESSION,
with the keys derived from it. The model's choices: log entries 148, 149 and 164. -/
def Obligations.SpdmResponder : Prop :=
  ∀ (s : State) (a : SpdmAsker), s.dev.state ≠ .off →
    (∀ p, a = .host p → p < 2 ∧ (s.port p).state = .up ∧ (s.port p).qpError = false) →
    (∀ d, a = .peer d → d < 64 ∧ ∃ r ∈ s.net.routes, r.1 = d ∧ (s.port r.2).state.inService = true) →
    let sig : SpdmSignature := ⟨Config.edSignature s.freeCtr, 0x5A01, Config.mldsaSignature s.freeCtr⟩
    let open_ := fun (code : Nat) => SpdmBody.fields (Config.spdmBody code s.freeCtr)
    let reply := fun (code : Nat) (body : SpdmBody) (signed : Bool) => Out.spdm a ⟨code, body, if signed then some sig else none⟩
    let sends := fun (e : Instr) (o : Out) => exec e s = .next { s with outbox := s.outbox ++ [o] }
    let chain : CertChain := ⟨Config.edKey, Config.mldsaKey, Config.chainRest⟩
    sends (.getVersion a) (reply 0x04 (open_ 0x04) false) ∧ sends (.getCapabilities a) (reply 0x61 (open_ 0x61) false) ∧
    sends (.negotiateAlgorithms a) (reply 0x63 (.algorithms [.sha3_256, .ed25519, .secp384r1, .aes256Gcm]) false) ∧
    sends (.getDigests a) (reply 0x01 (.chainDigest chain) false) ∧ sends (.getCertificate a) (reply 0x02 (.chain chain) false) ∧
    sends (.challenge a) (reply 0x03 (open_ 0x03) true) ∧
    (∀ i, 1 ≤ i → i ≤ 4 →
      (∀ m, s.dev.measured.find? (·.1 == i) = some m → sends (.getMeasurements a i) (reply 0x60 (.measurement i (Config.imageDigest i m.2)) true)) ∧
      (s.dev.measured.find? (·.1 == i) = none → sends (.getMeasurements a i) (reply 0x60 (.measurement i (Config.imageDigest i 0)) true))) ∧
    (∀ x, x < 64 → (s.ctxAt x).conf = true → (s.ctxAt x).state ≠ .free →
      sends (.getMeasurements a (16 + x)) (reply 0x60 (.measurement (16 + x)
        (sha3 ((s.ctxAt x).request ++ (s.ctxAt x).loaded.flatMap digestBytes))) true)) ∧
    (∀ i, i = 0 ∨ (4 < i ∧ i < 16) ∨ 80 ≤ i ∨ (16 ≤ i ∧ i < 80 ∧ ((s.ctxAt (i - 16)).conf = false ∨ (s.ctxAt (i - 16)).state = .free)) →
      sends (.getMeasurements a i) (reply 0x7F .error false)) ∧
    (∀ id, let fresh := (∀ e ∈ s.dev.sessions, e.id ≠ id) ∧ ∀ x, x < 64 → (s.ctxAt x).session ≠ some id
      (fresh → ∃ t, exec (.keyExchange a id) s = .next t ∧ t.dev.sessions = s.dev.sessions ++ [⟨id, a, .handshake, 0, []⟩] ∧
        t.outbox = s.outbox ++ [reply 0x64 (open_ 0x64) true] ∧ t.mem = s.mem) ∧
      (¬ fresh → exec (.keyExchange a id) s = .next s)) ∧
    (∀ id n l, s.dev.sessions.find? (fun e => e.id == id && e.state == .handshake) = some ⟨id, a, .handshake, n, l⟩ →
      ∃ t, exec (.finish id) s = .next t ∧ ⟨id, a, .established, n, l⟩ ∈ t.dev.sessions ∧
        t.outbox = s.outbox ++ [reply 0x65 (open_ 0x65) false] ∧ t.mem = s.mem) ∧
    (∀ id n l, s.dev.sessions.find? (fun e => e.id == id && e.state == .established) = some ⟨id, a, .established, n, l⟩ →
      (∃ t, exec (.keyUpdate id) s = .next t ∧ ⟨id, a, .established, n + 1, l⟩ ∈ t.dev.sessions ∧
        t.outbox = s.outbox ++ [reply 0x69 (open_ 0x69) false] ∧ t.mem = s.mem) ∧
      sends (.heartbeat id) (reply 0x68 (open_ 0x68) false) ∧
      exec (.endSession id) s = .next (l.foldl (fun t p => t.dropKey p)
        { s with dev := { s.dev with sessions := s.dev.sessions.filter (·.id != id) },
                 outbox := s.outbox ++ [reply 0x6C (open_ 0x6C) false] })) ∧
    (∀ p, p < 18 →
      ((s.port p).state ≠ .locked → s.dropKey p = s) ∧
      ((s.port p).state = .locked → s.linksUsed = true → ((s.dropKey p).port p).state = .down) ∧
      ((s.port p).state = .locked → s.linksUsed = false →
        ((s.dropKey p).port p).state = if (s.port p).lanes < 8 then .degraded else .up)) ∧
    (∀ id, (∀ e ∈ s.dev.sessions, e.id = id → e.state ≠ .established) →
      exec (.keyUpdate id) s = .next s ∧ exec (.heartbeat id) s = .next s ∧ exec (.endSession id) s = .next s)
end

