-- ==== Sys2Proof/Laws/Bytes.lean ====
section
/-! SUPPORT. Byte lists and numbers (R5): each way round, and where they stand in a longer list. -/

namespace Sys2Proof.Machine

@[simp] theorem length_bytesOfNat (n : Nat) : ∀ v, (bytesOfNat n v).length = n := by
  induction n with
  | zero => intro v; rfl
  | succ n ih => intro v; rw [bytesOfNat, List.length_cons, ih]

/-- The bytes of a number hold its low part. -/
theorem natOfBytes_bytesOfNat (n : Nat) : ∀ v, natOfBytes (bytesOfNat n v) = v % 2 ^ (8 * n) := by
  induction n with
  | zero => intro v; rw [bytesOfNat, natOfBytes]; omega
  | succ n ih =>
    intro v
    rw [bytesOfNat, natOfBytes, ih, BitVec.toNat_ofNat, Nat.shiftRight_eq_div_pow, show 8 * (n + 1) = 8 + 8 * n by omega, pow_add,
      Nat.mod_mul]
    rfl

/-- A byte list holds less than its length allows. -/
theorem natOfBytes_lt (l : List Byte) : natOfBytes l < 2 ^ (8 * l.length) := by
  induction l with
  | nil => simp [natOfBytes]
  | cons b t ih =>
    have h := b.isLt
    rw [natOfBytes, List.length_cons, show 8 * (t.length + 1) = 8 + 8 * t.length by omega, pow_add]
    omega

/-- The bytes of the number that a list holds are the list. -/
theorem bytesOfNat_natOfBytes (l : List Byte) : bytesOfNat l.length (natOfBytes l) = l := by
  induction l with
  | nil => rfl
  | cons b t ih =>
    have h := b.isLt
    rw [List.length_cons, bytesOfNat, natOfBytes, Nat.shiftRight_eq_div_pow, show (b.toNat + 256 * natOfBytes t) / 2 ^ 8 = natOfBytes t by omega, ih]
    congr 1
    apply BitVec.eq_of_toNat_eq
    rw [BitVec.toNat_ofNat]; omega

/-- The number in the last bytes of a list. -/
theorem leAt_append (l m : List Byte) : leAt (l ++ m) l.length m.length = natOfBytes m := by
  rw [leAt, List.drop_left, List.take_length]

end Sys2Proof.Machine
end

