-- ==== Sys2Proof/Laws/Memory.lean ====
section
/-! SUPPORT. Memory: every operation on it keeps the canonical form, a byte written is read back, and no other byte changes. -/

namespace Sys2Proof.Machine

/-- A form from a higher key on is one from a lower key on. -/
theorem memWfFrom_mono (m : Memory) : ∀ lo hi, lo ≤ hi → memWfFrom hi m = true → memWfFrom lo m = true := by
  cases m with
  | nil => intros; rfl
  | cons e t =>
    intro lo hi h w
    simp only [memWfFrom, Bool.and_eq_true, decide_eq_true_eq] at w ⊢
    exact ⟨⟨by omega, w.1.2⟩, w.2⟩

/-- A write keeps the form. -/
theorem memWfFrom_memPut (m : Memory) (a : Nat) (b : Byte) :
    ∀ lo, lo ≤ a → memWfFrom lo m = true → memWfFrom lo (memPut m a b) = true := by
  induction m with
  | nil => intro lo h _; by_cases hb : b = memBlank <;> simp [memPut, memWfFrom, hb, h]
  | cons e t ih =>
    obtain ⟨k, v⟩ := e
    intro lo h w
    simp only [memWfFrom, Bool.and_eq_true, decide_eq_true_eq] at w
    simp only [memPut]
    split_ifs with h1 h2 h3 h4
    · simp [memWfFrom, w]
    · simp only [memWfFrom, Bool.and_eq_true, decide_eq_true_eq, bne_iff_ne, ne_eq]
      exact ⟨⟨h, h2⟩, ⟨by omega, by simpa using w.1.2⟩, w.2⟩
    · exact memWfFrom_mono t lo (k + 1) (by omega) w.2
    · simp only [memWfFrom, Bool.and_eq_true, decide_eq_true_eq, bne_iff_ne, ne_eq]
      exact ⟨⟨h, h4⟩, by simpa [h3] using w.2⟩
    · simp only [memWfFrom, Bool.and_eq_true, decide_eq_true_eq]
      exact ⟨⟨w.1.1, w.1.2⟩, ih (k + 1) (by omega) w.2⟩

/-- A key below the form's first key reads blank. -/
theorem memGet_below (m : Memory) : ∀ lo a, a < lo → memWfFrom lo m = true → memGet m a = memBlank := by
  cases m with
  | nil => intros; rfl
  | cons e t =>
    intro lo a h w
    simp only [memWfFrom, Bool.and_eq_true, decide_eq_true_eq] at w
    simp only [memGet]
    rw [if_neg (by omega), if_pos (by omega)]

/-- What a byte reads after a write: the byte written at its own key, and what it was anywhere else. -/
theorem memGet_memPut_from (m : Memory) (a : Nat) (b : Byte) (k : Nat) :
    ∀ lo, memWfFrom lo m = true → memGet (memPut m a b) k = if k = a then b else memGet m k := by
  induction m with
  | nil =>
    intro lo _
    simp only [memPut]
    by_cases hb : b = memBlank <;> by_cases hk : k = a <;> simp [memGet, hb, hk]
  | cons e t ih =>
    obtain ⟨q, v⟩ := e
    intro lo w
    simp only [memWfFrom, Bool.and_eq_true, decide_eq_true_eq] at w
    have low : ∀ x, x ≤ q → memGet t x = memBlank := fun x hx => memGet_below t (q + 1) x (by omega) w.2
    have := ih (q + 1) w.2
    simp only [memPut]
    split_ifs <;> (try simp only [memGet]) <;> (try split_ifs) <;> simp_all <;>
      first | omega | exact low _ (by omega)

/-- A write keeps the canonical form. -/
theorem memPut_wf (m : Memory) (a : Nat) (b : Byte) (w : m.wf = true) : (memPut m a b).wf = true :=
  memWfFrom_memPut m a b 0 (Nat.zero_le a) w

/-- The byte at `k` after one byte is written at `a`. -/
theorem memGet_memPut (m : Memory) (a k : Nat) (b : Byte) (w : m.wf = true) :
    memGet (memPut m a b) k = if k = a then b else memGet m k := memGet_memPut_from m a b k 0 w

/-- A write of several bytes keeps the canonical form. -/
theorem memWrite_wf (bs : List Byte) : ∀ (m : Memory) (a : Nat), m.wf = true → (memWrite m a bs).wf = true := by
  induction bs with
  | nil => intro m a w; exact w
  | cons b t ih => intro m a w; exact ih _ _ (memPut_wf m a b w)

/-- The byte at `k` after bytes are written from `a` upward. -/
theorem memGet_memWrite (bs : List Byte) : ∀ (m : Memory) (a k : Nat), m.wf = true →
    memGet (memWrite m a bs) k = if a ≤ k ∧ k < a + bs.length then bs.getD (k - a) memBlank else memGet m k := by
  induction bs with
  | nil => intro m a k _; rw [if_neg (by simp only [List.length_nil]; omega)]; rfl
  | cons b t ih =>
    intro m a k w
    rw [memWrite, ih _ _ _ (memPut_wf m a b w), memGet_memPut m a k b w]
    simp only [List.length_cons]
    by_cases h : k = a
    · subst h; rw [if_neg (by omega), if_pos rfl, if_pos (by omega)]; simp
    · by_cases h1 : a ≤ k ∧ k < a + (t.length + 1)
      · rw [if_pos (by omega), if_pos h1]
        have : k - a = (k - (a + 1)) + 1 := by omega
        rw [this]; simp
      · rw [if_neg (by omega), if_neg h, if_neg h1]

/-- A write of listed bytes keeps the canonical form. -/
theorem memWriteAll_wf (l : List (Nat × Byte)) : ∀ m : Memory, m.wf = true → (memWriteAll m l).wf = true := by
  induction l with
  | nil => intro m w; exact w
  | cons e t ih => intro m w; exact ih _ (memPut_wf m e.1 e.2 w)

/-- Dropping listed bytes keeps the form. -/
theorem memWfFrom_filter (m : Memory) (p : Nat × Byte → Bool) : ∀ lo, memWfFrom lo m = true → memWfFrom lo (m.filter p) = true := by
  induction m with
  | nil => intro lo _; rfl
  | cons e t ih =>
    obtain ⟨k, v⟩ := e
    intro lo w
    simp only [memWfFrom, Bool.and_eq_true, decide_eq_true_eq] at w
    rw [List.filter_cons]
    split
    · simp only [memWfFrom, Bool.and_eq_true, decide_eq_true_eq]
      exact ⟨w.1, ih _ w.2⟩
    · exact ih lo (memWfFrom_mono t lo (k + 1) (by omega) w.2)

/-- Dropping listed bytes keeps the canonical form. -/
theorem filter_wf (m : Memory) (p : Nat × Byte → Bool) (w : m.wf = true) : Memory.wf (m.filter p) = true := memWfFrom_filter m p 0 w

/-- Clearing a range keeps the canonical form. -/
theorem memClear_wf (m : Memory) (k n : Nat) (w : m.wf = true) : (memClear m k n).wf = true := filter_wf m _ w

/-- The byte at `k` after some keys are dropped: blank where dropped, and what it was elsewhere. -/
theorem memGet_filter (m : Memory) (p : Nat → Bool) (k : Nat) :
    ∀ lo, memWfFrom lo m = true → memGet (m.filter fun e => p e.1) k = if p k then memGet m k else memBlank := by
  induction m with
  | nil => intro lo _; simp [memGet]
  | cons e t ih =>
    obtain ⟨q, v⟩ := e
    intro lo w
    simp only [memWfFrom, Bool.and_eq_true, decide_eq_true_eq] at w
    have low : ∀ x, x ≤ q → memGet t x = memBlank := fun x hx => memGet_below t (q + 1) x (by omega) w.2
    have := ih (q + 1) w.2
    rw [List.filter_cons]
    by_cases hp : p q = true
    · rw [if_pos (by simpa using hp)]
      simp only [memGet]
      split_ifs <;> simp_all
    · rw [if_neg (by simpa using hp), this]
      simp only [memGet]
      split_ifs <;> simp_all
      all_goals exact low _ (by omega)

/-- The byte at `a` after a range is cleared. -/
theorem memGet_memClear (m : Memory) (k n a : Nat) (w : m.wf = true) :
    memGet (memClear m k n) a = if k ≤ a ∧ a < k + n then memBlank else memGet m a := by
  rw [memClear, memGet_filter m (fun x => !(decide (k ≤ x) && decide (x < k + n))) a 0 w]
  by_cases h : k ≤ a ∧ a < k + n <;> simp [h]

/-- Changing listed bytes in place, never to the blank byte, keeps the form. -/
theorem memWfFrom_map (m : Memory) (f : Nat × Byte → Byte) (h : ∀ e ∈ m, f e ≠ memBlank) :
    ∀ lo, memWfFrom lo m = true → memWfFrom lo (m.map fun e => (e.1, f e)) = true := by
  induction m with
  | nil => intro lo _; rfl
  | cons e t ih =>
    intro lo w
    simp only [memWfFrom, Bool.and_eq_true, decide_eq_true_eq] at w
    simp only [List.map_cons, memWfFrom, Bool.and_eq_true, decide_eq_true_eq, bne_iff_ne, ne_eq]
    exact ⟨⟨w.1.1, h e (by simp)⟩, ih (fun x hx => h x (by simp [hx])) _ w.2⟩

/-- A run of canonical-form-keeping operations keeps it. -/
theorem foldl_wf {α : Type} (f : Memory → α → Memory) (h : ∀ m x, m.wf = true → (f m x).wf = true) (l : List α) :
    ∀ m : Memory, m.wf = true → (l.foldl f m).wf = true := by
  induction l with
  | nil => intro m w; exact w
  | cons x t ih => intro m w; exact ih _ (h m x w)

/-- The canonical form makes equal memories equal data. -/
theorem memory_ext (m n : Memory) : ∀ lo, memWfFrom lo m = true → memWfFrom lo n = true →
    (∀ k, memGet m k = memGet n k) → m = n := by
  induction m generalizing n with
  | nil =>
    intro lo _ wn h
    cases n with
    | nil => rfl
    | cons e t =>
      have := h e.1
      simp only [memWfFrom, Bool.and_eq_true, bne_iff_ne] at wn
      simp [memGet] at this
      exact absurd this.symm wn.1.2
  | cons e t ih =>
    obtain ⟨k, v⟩ := e
    intro lo wm wn h
    simp only [memWfFrom, Bool.and_eq_true, decide_eq_true_eq, bne_iff_ne, ne_eq] at wm
    cases n with
    | nil => have := h k; simp [memGet] at this; exact absurd this wm.1.2
    | cons e' t' =>
      obtain ⟨k', v'⟩ := e'
      simp only [memWfFrom, Bool.and_eq_true, decide_eq_true_eq, bne_iff_ne, ne_eq] at wn
      have hk : k = k' := by
        rcases Nat.lt_trichotomy k k' with c | c | c
        · have := h k
          simp only [memGet] at this
          rw [if_pos trivial, if_neg (by omega), if_pos c] at this
          exact absurd this wm.1.2
        · exact c
        · have := h k'
          simp only [memGet] at this
          rw [if_pos trivial, if_neg (by omega), if_pos c] at this
          exact absurd this.symm wn.1.2
      subst hk
      have hv : v = v' := by have := h k; simpa [memGet] using this
      subst hv
      have := ih t' (k + 1) wm.2 wn.2 fun x => by
        have := h x
        simp only [memGet] at this
        by_cases hx : x ≤ k
        · rw [memGet_below t (k + 1) x (by omega) wm.2, memGet_below t' (k + 1) x (by omega) wn.2]
        · rwa [if_neg (by omega), if_neg (by omega), if_neg (by omega), if_neg (by omega)] at this
      rw [this]

/-- The memory after reset has its canonical form. -/
theorem reset_mem_wf : State.reset.mem.wf = true := rfl

end Sys2Proof.Machine
end

