-- ==== Sys2Proof/Laws/State.lean ====
section
/-! SUPPORT. One lemma per field per update of the state, so that no later proof unfolds a record update. -/

namespace Sys2Proof.Machine

open Sys2Proof

/-! ## Vectors -/

theorem vget_vset_eq {α : Type} {n : Nat} (v : Vector α n) (i : Nat) (x d : α) (h : i < n) : vget (vset v i x) i d = x := by
  simp [vget, vset, h]

theorem vget_vset_ne {α : Type} {n : Nat} (v : Vector α n) (i j : Nat) (x d : α) (h : i ≠ j) :
    vget (vset v i x) j d = vget v j d := by
  unfold vget vset
  split
  · exact Vector.getElem_setIfInBounds_ne (by assumption) h
  · rfl

theorem vset_big {α : Type} {n : Nat} (v : Vector α n) (i : Nat) (x : α) (h : n ≤ i) : vset v i x = v := by
  unfold vset
  exact Vector.setIfInBounds_eq_of_size_le h

/-! ## The moving cell -/

@[simp] theorem withCell_cell (s : State) (c : Cell) : (s.withCell c).cell = c := by simp [State.withCell, State.cell]
@[simp] theorem withCell_bank (s : State) (c : Cell) : (s.withCell c).bank = c.active := by simp [State.bank]
@[simp] theorem withCell_self (s : State) : s.withCell s.cell = s := by simp [State.withCell, State.cell]
@[simp] theorem withCell_withCell (s : State) (c d : Cell) : (s.withCell c).withCell d = s.withCell d := by simp [State.withCell]
@[simp] theorem withCell_ctxs (s : State) (c : Cell) : (s.withCell c).ctxs = s.ctxs := rfl
@[simp] theorem withCell_mem (s : State) (c : Cell) : (s.withCell c).mem = s.mem := rfl
@[simp] theorem withCell_saved (s : State) (c : Cell) : (s.withCell c).saved = s.saved := rfl
@[simp] theorem withCell_sched (s : State) (c : Cell) : (s.withCell c).sched = s.sched := rfl
@[simp] theorem withCell_net (s : State) (c : Cell) : (s.withCell c).net = s.net := rfl
@[simp] theorem withCell_dev (s : State) (c : Cell) : (s.withCell c).dev = s.dev := rfl
@[simp] theorem withCell_cur (s : State) (c : Cell) : (s.withCell c).cur = s.cur := rfl
@[simp] theorem withCell_turn (s : State) (c : Cell) : (s.withCell c).turn = s.turn := rfl
@[simp] theorem withCell_engine (s : State) (c : Cell) : (s.withCell c).engine = s.engine := rfl
@[simp] theorem withCell_agenda (s : State) (c : Cell) : (s.withCell c).agenda = s.agenda := rfl
@[simp] theorem withCell_outbox (s : State) (c : Cell) : (s.withCell c).outbox = s.outbox := rfl
@[simp] theorem withCell_freeCtr (s : State) (c : Cell) : (s.withCell c).freeCtr = s.freeCtr := rfl
@[simp] theorem withCell_cellNo (s : State) (c : Cell) : (s.withCell c).cellNo = s.cellNo := rfl

@[simp] theorem setBank_bank (s : State) (b : Bank) : (s.setBank b).bank = b := by simp [State.setBank]
@[simp] theorem setBank_self (s : State) : s.setBank s.bank = s := by
  show s.withCell s.cell = s
  simp
@[simp] theorem setBank_setBank (s : State) (a b : Bank) : (s.setBank a).setBank b = s.setBank b := by simp [State.setBank]
@[simp] theorem setBank_cell (s : State) (b : Bank) : (s.setBank b).cell = { s.cell with active := b } := by
  simp [State.setBank]
@[simp] theorem setBank_ctxs (s : State) (b : Bank) : (s.setBank b).ctxs = s.ctxs := rfl
@[simp] theorem setBank_mem (s : State) (b : Bank) : (s.setBank b).mem = s.mem := rfl
@[simp] theorem setBank_saved (s : State) (b : Bank) : (s.setBank b).saved = s.saved := rfl
@[simp] theorem setBank_sched (s : State) (b : Bank) : (s.setBank b).sched = s.sched := rfl
@[simp] theorem setBank_net (s : State) (b : Bank) : (s.setBank b).net = s.net := rfl
@[simp] theorem setBank_dev (s : State) (b : Bank) : (s.setBank b).dev = s.dev := rfl
@[simp] theorem setBank_cur (s : State) (b : Bank) : (s.setBank b).cur = s.cur := rfl
@[simp] theorem setBank_turn (s : State) (b : Bank) : (s.setBank b).turn = s.turn := rfl
@[simp] theorem setBank_engine (s : State) (b : Bank) : (s.setBank b).engine = s.engine := rfl
@[simp] theorem setBank_agenda (s : State) (b : Bank) : (s.setBank b).agenda = s.agenda := rfl
@[simp] theorem setBank_outbox (s : State) (b : Bank) : (s.setBank b).outbox = s.outbox := rfl
@[simp] theorem setBank_freeCtr (s : State) (b : Bank) : (s.setBank b).freeCtr = s.freeCtr := rfl
@[simp] theorem setBank_cellNo (s : State) (b : Bank) : (s.setBank b).cellNo = s.cellNo := rfl
@[simp] theorem setBank_ctxAt (s : State) (b : Bank) (x : Nat) : (s.setBank b).ctxAt x = s.ctxAt x := rfl

/-! ## Cells and contexts -/

@[simp] theorem setCell_ctxs (s : State) (i : Nat) (c : Cell) : (s.setCell i c).ctxs = s.ctxs := rfl
@[simp] theorem setCell_mem (s : State) (i : Nat) (c : Cell) : (s.setCell i c).mem = s.mem := rfl
@[simp] theorem setCell_saved (s : State) (i : Nat) (c : Cell) : (s.setCell i c).saved = s.saved := rfl
@[simp] theorem setCell_sched (s : State) (i : Nat) (c : Cell) : (s.setCell i c).sched = s.sched := rfl
@[simp] theorem setCell_net (s : State) (i : Nat) (c : Cell) : (s.setCell i c).net = s.net := rfl
@[simp] theorem setCell_dev (s : State) (i : Nat) (c : Cell) : (s.setCell i c).dev = s.dev := rfl
@[simp] theorem setCell_cur (s : State) (i : Nat) (c : Cell) : (s.setCell i c).cur = s.cur := rfl
@[simp] theorem setCell_turn (s : State) (i : Nat) (c : Cell) : (s.setCell i c).turn = s.turn := rfl
@[simp] theorem setCell_engine (s : State) (i : Nat) (c : Cell) : (s.setCell i c).engine = s.engine := rfl
@[simp] theorem setCell_agenda (s : State) (i : Nat) (c : Cell) : (s.setCell i c).agenda = s.agenda := rfl
@[simp] theorem setCell_outbox (s : State) (i : Nat) (c : Cell) : (s.setCell i c).outbox = s.outbox := rfl
@[simp] theorem setCell_freeCtr (s : State) (i : Nat) (c : Cell) : (s.setCell i c).freeCtr = s.freeCtr := rfl
theorem setCell_cellAt (s : State) (i : Nat) (c : Cell) (h : i < 256) : (s.setCell i c).cellAt i = c :=
  vget_vset_eq _ _ _ _ h
theorem setCell_cellAt_ne (s : State) (i j : Nat) (c : Cell) (h : i ≠ j) : (s.setCell i c).cellAt j = s.cellAt j :=
  vget_vset_ne _ _ _ _ _ h

@[simp] theorem setCtx_cells (s : State) (i : Nat) (c : Ctx) : (s.setCtx i c).cells = s.cells := rfl
@[simp] theorem setCtx_mem (s : State) (i : Nat) (c : Ctx) : (s.setCtx i c).mem = s.mem := rfl
@[simp] theorem setCtx_saved (s : State) (i : Nat) (c : Ctx) : (s.setCtx i c).saved = s.saved := rfl
@[simp] theorem setCtx_sched (s : State) (i : Nat) (c : Ctx) : (s.setCtx i c).sched = s.sched := rfl
@[simp] theorem setCtx_net (s : State) (i : Nat) (c : Ctx) : (s.setCtx i c).net = s.net := rfl
@[simp] theorem setCtx_dev (s : State) (i : Nat) (c : Ctx) : (s.setCtx i c).dev = s.dev := rfl
@[simp] theorem setCtx_cur (s : State) (i : Nat) (c : Ctx) : (s.setCtx i c).cur = s.cur := rfl
@[simp] theorem setCtx_turn (s : State) (i : Nat) (c : Ctx) : (s.setCtx i c).turn = s.turn := rfl
@[simp] theorem setCtx_engine (s : State) (i : Nat) (c : Ctx) : (s.setCtx i c).engine = s.engine := rfl
@[simp] theorem setCtx_agenda (s : State) (i : Nat) (c : Ctx) : (s.setCtx i c).agenda = s.agenda := rfl
@[simp] theorem setCtx_outbox (s : State) (i : Nat) (c : Ctx) : (s.setCtx i c).outbox = s.outbox := rfl
@[simp] theorem setCtx_freeCtr (s : State) (i : Nat) (c : Ctx) : (s.setCtx i c).freeCtr = s.freeCtr := rfl
@[simp] theorem setCtx_cell (s : State) (i : Nat) (c : Ctx) : (s.setCtx i c).cell = s.cell := rfl
@[simp] theorem setCtx_bank (s : State) (i : Nat) (c : Ctx) : (s.setCtx i c).bank = s.bank := rfl
theorem setCtx_ctxAt (s : State) (i : Nat) (c : Ctx) (h : i < 64) : (s.setCtx i c).ctxAt i = c := vget_vset_eq _ _ _ _ h
theorem setCtx_ctxAt_ne (s : State) (i j : Nat) (c : Ctx) (h : i ≠ j) : (s.setCtx i c).ctxAt j = s.ctxAt j :=
  vget_vset_ne _ _ _ _ _ h

/-! ## Banks -/

@[simp] theorem mapSr_af (b : Bank) (f : SysRegs → SysRegs) : (b.mapSr f).af = b.af := rfl
@[simp] theorem mapSr_xf (b : Bank) (f : SysRegs → SysRegs) : (b.mapSr f).xf = b.xf := rfl
@[simp] theorem mapSr_sr (b : Bank) (f : SysRegs → SysRegs) : (b.mapSr f).sr = f b.sr := rfl
@[simp] theorem mapSr_walk (b : Bank) (f : SysRegs → SysRegs) : (b.mapSr f).walk = b.walk := rfl
@[simp] theorem mapSr_q (b : Bank) (f : SysRegs → SysRegs) : (b.mapSr f).q = b.q := rfl
@[simp] theorem mapSr_sync (b : Bank) (f : SysRegs → SysRegs) : (b.mapSr f).sync = b.sync := rfl
@[simp] theorem mapSr_eng (b : Bank) (f : SysRegs → SysRegs) : (b.mapSr f).eng = b.eng := rfl
@[simp] theorem mapSr_ctl (b : Bank) (f : SysRegs → SysRegs) : (b.mapSr f).ctl = b.ctl := rfl
@[simp] theorem mapCtl_af (b : Bank) (f : Control → Control) : (b.mapCtl f).af = b.af := rfl
@[simp] theorem mapCtl_xf (b : Bank) (f : Control → Control) : (b.mapCtl f).xf = b.xf := rfl
@[simp] theorem mapCtl_sr (b : Bank) (f : Control → Control) : (b.mapCtl f).sr = b.sr := rfl
@[simp] theorem mapCtl_walk (b : Bank) (f : Control → Control) : (b.mapCtl f).walk = b.walk := rfl
@[simp] theorem mapCtl_q (b : Bank) (f : Control → Control) : (b.mapCtl f).q = b.q := rfl
@[simp] theorem mapCtl_sync (b : Bank) (f : Control → Control) : (b.mapCtl f).sync = b.sync := rfl
@[simp] theorem mapCtl_eng (b : Bank) (f : Control → Control) : (b.mapCtl f).eng = b.eng := rfl
@[simp] theorem mapCtl_ctl (b : Bank) (f : Control → Control) : (b.mapCtl f).ctl = f b.ctl := rfl

@[simp] theorem writeA_xf (b : Bank) (r : Nat) (v : Word) : (b.writeA r v).xf = b.xf := by unfold Bank.writeA; split <;> rfl
@[simp] theorem writeA_sr (b : Bank) (r : Nat) (v : Word) : (b.writeA r v).sr = b.sr := by unfold Bank.writeA; split <;> rfl
@[simp] theorem writeA_walk (b : Bank) (r : Nat) (v : Word) : (b.writeA r v).walk = b.walk := by unfold Bank.writeA; split <;> rfl
@[simp] theorem writeA_q (b : Bank) (r : Nat) (v : Word) : (b.writeA r v).q = b.q := by unfold Bank.writeA; split <;> rfl
@[simp] theorem writeA_sync (b : Bank) (r : Nat) (v : Word) : (b.writeA r v).sync = b.sync := by unfold Bank.writeA; split <;> rfl
@[simp] theorem writeA_eng (b : Bank) (r : Nat) (v : Word) : (b.writeA r v).eng = b.eng := by unfold Bank.writeA; split <;> rfl
@[simp] theorem writeA_ctl (b : Bank) (r : Nat) (v : Word) : (b.writeA r v).ctl = b.ctl := by unfold Bank.writeA; split <;> rfl
@[simp] theorem writeA_lc (b : Bank) (r : Nat) (v : Word) : (b.writeA r v).af.lc = b.af.lc := by unfold Bank.writeA; split <;> rfl
@[simp] theorem writeA_sd (b : Bank) (r : Nat) (v : Word) : (b.writeA r v).af.sd = b.af.sd := by unfold Bank.writeA; split <;> rfl

@[simp] theorem writeX_af (b : Bank) (r : Nat) (v : Word) : (b.writeX r v).af = b.af := by unfold Bank.writeX; split <;> rfl
@[simp] theorem writeX_sr (b : Bank) (r : Nat) (v : Word) : (b.writeX r v).sr = b.sr := by unfold Bank.writeX; split <;> rfl
@[simp] theorem writeX_walk (b : Bank) (r : Nat) (v : Word) : (b.writeX r v).walk = b.walk := by unfold Bank.writeX; split <;> rfl
@[simp] theorem writeX_q (b : Bank) (r : Nat) (v : Word) : (b.writeX r v).q = b.q := by unfold Bank.writeX; split <;> rfl
@[simp] theorem writeX_sync (b : Bank) (r : Nat) (v : Word) : (b.writeX r v).sync = b.sync := by unfold Bank.writeX; split <;> rfl
@[simp] theorem writeX_eng (b : Bank) (r : Nat) (v : Word) : (b.writeX r v).eng = b.eng := by unfold Bank.writeX; split <;> rfl
@[simp] theorem writeX_ctl (b : Bank) (r : Nat) (v : Word) : (b.writeX r v).ctl = b.ctl := by unfold Bank.writeX; split <;> rfl
@[simp] theorem writeX_p (b : Bank) (r : Nat) (v : Word) : (b.writeX r v).xf.p = b.xf.p := by unfold Bank.writeX; split <;> rfl
@[simp] theorem writeX_tags (b : Bank) (r : Nat) (v : Word) : (b.writeX r v).xf.tags = b.xf.tags := by
  unfold Bank.writeX; split <;> rfl
@[simp] theorem writeX_acc (b : Bank) (r : Nat) (v : Word) : (b.writeX r v).xf.acc = b.xf.acc := by
  unfold Bank.writeX; split <;> rfl

/-! ## Registers read after a write -/

/-- A write to a[r] is read there, except at a0, and nowhere else (R34). -/
theorem readA_writeA (b : Bank) (r q : Nat) (v : Word) (h : r < 64) :
    (b.writeA r v).readA q = if q = 0 then 0#64 else if q = r then v else b.readA q := by
  unfold Bank.writeA Bank.readA
  by_cases hq : q = 0
  · simp [hq]
  · by_cases hr : r = 0
    · simp [hr, hq]
    · by_cases e : q = r
      · subst e; simp [hq, vget_vset_eq _ _ _ _ h]
      · simp [hq, hr, e, vget_vset_ne _ _ _ _ _ (Ne.symm e)]

/-- A write to x[r] is read there, except at x0, and nowhere else (R35). -/
theorem readX_writeX (b : Bank) (r q : Nat) (v : Word) (h : r < 32) :
    (b.writeX r v).readX q = if q = 0 then 0#64 else if q = r then v else b.readX q := by
  unfold Bank.writeX Bank.readX
  by_cases hq : q = 0
  · simp [hq]
  · by_cases hr : r = 0
    · simp [hr, hq]
    · by_cases e : q = r
      · subst e; simp [hq, vget_vset_eq _ _ _ _ h]
      · simp [hq, hr, e, vget_vset_ne _ _ _ _ _ (Ne.symm e)]

/-! ## Retiring -/

@[simp] theorem retire_bank (s : State) (st : Stream) (n : Nat) : (s.retire st n).bank = s.bank.retire st n := by
  simp [State.retire]
@[simp] theorem retire_mem (s : State) (st : Stream) (n : Nat) : (s.retire st n).mem = s.mem := rfl
@[simp] theorem bankRetire_af (b : Bank) (st : Stream) (n : Nat) : (b.retire st n).af = b.af := by cases st <;> rfl
@[simp] theorem bankRetire_xf (b : Bank) (st : Stream) (n : Nat) : (b.retire st n).xf = b.xf := by cases st <;> rfl
@[simp] theorem bankRetire_q (b : Bank) (st : Stream) (n : Nat) : (b.retire st n).q = b.q := by cases st <;> rfl
@[simp] theorem bankRetire_sync (b : Bank) (st : Stream) (n : Nat) : (b.retire st n).sync = b.sync := by cases st <;> rfl
@[simp] theorem bankRetire_eng (b : Bank) (st : Stream) (n : Nat) : (b.retire st n).eng = b.eng := by cases st <;> rfl
@[simp] theorem bankRetire_ctl (b : Bank) (st : Stream) (n : Nat) : (b.retire st n).ctl = b.ctl.moved st := by cases st <;> rfl

end Sys2Proof.Machine
end

