-- ==== Sys2Proof/Laws/Steps.lean ====
section
/-! SUPPORT. What each shared operation can do, once: retiring, answering, stalling, faulting. -/

namespace Sys2Proof.Machine

open Sys2Proof

/-- A state that differs in the moving bank only keeps the rest of the device. -/
theorem sameDevice_setBank (s : State) (b : Bank) : SameDevice s (s.setBank b) := ⟨by simp, fun _ => rfl⟩

/-- An A instruction that retires moves only the A stream's PC, walk count and sequence number, and ends its stall. -/
theorem retiredA_retire (s : State) (b : Bank) (n : Nat)
    (hsr : b.sr = s.bank.sr) (hw : b.walk = s.bank.walk) (hc : b.ctl = s.bank.ctl) : RetiredA s (s.setBank (b.retire .a n)) n := by
  obtain ⟨af, xf, sr, walk, q, sync, eng, ctl⟩ := b
  simp only at hsr hw hc
  subst hsr hw hc
  constructor
  · constructor <;> simp [Bank.retire, Bank.advance, Bank.setPc, Bank.setW, Bank.pc, Bank.w, Bank.countSeq, Control.moved, wordOfNat]
  · simp [Bank.retire, Bank.advance, Bank.setPc, Bank.setW, Bank.pc, Bank.w, Bank.countSeq, Control.moved]
  · simp [Bank.retire, Bank.advance, Bank.setPc, Bank.setW, Bank.pc, Bank.w, Bank.countSeq, Control.moved, Control.overA]

/-- Writing an a register and retiring has the frame of `WroteA`. -/
theorem wroteA_setA (s : State) (n : Nat) (d : BitVec 6) (v : Word) : WroteA s (s.setA n d.toNat v) n d.toNat v := by
  have h64 : d.toNat < 64 := d.isLt
  constructor
  · simp only [State.setA, retire_bank, setBank_bank]
    rw [show (Bank.retire (s.bank.writeA d.toNat v) .a n).readA d.toNat = (s.bank.writeA d.toNat v).readA d.toNat from rfl,
      readA_writeA _ _ _ _ h64]
    simp
  · constructor <;> simp only [State.setA, retire_bank, setBank_bank, bankRetire_xf, writeA_xf]
    · intro r hr
      rw [show (Bank.retire (s.bank.writeA d.toNat v) .a n).readA r = (s.bank.writeA d.toNat v).readA r from rfl,
        readA_writeA _ _ _ _ h64]
      by_cases h0 : r = 0
      · simp [h0, Bank.readA]
      · simp [h0, hr]
    · simp
    · simp
  · constructor <;> simp [State.setA]
  · have := retiredA_retire s (s.bank.writeA d.toNat v) n (by simp) (by simp) (by simp)
    simpa [State.setA, State.retire] using this
  · have := sameDevice_setBank s ((s.bank.writeA d.toNat v).retire .a n)
    simpa [State.setA, State.retire] using this

/-- An instruction whose meaning writes one a register and retires completes. -/
theorem answersA_of (i : Instr) (s : State) (n : Nat) (d : BitVec 6) (v : Word) (h : exec i s = answerA s n d v) :
    AnswersA i s n d v := ⟨_, h, wroteA_setA s n d v⟩

/-- An X instruction that retires moves only the X stream's PC, walk count and sequence number, and ends its stall. -/
theorem retiredX_retire (s : State) (b : Bank) (n : Nat)
    (hsr : b.sr = s.bank.sr) (hw : b.walk = s.bank.walk) (hc : b.ctl = s.bank.ctl) : RetiredX s (s.setBank (b.retire .x n)) n := by
  obtain ⟨af, xf, sr, walk, q, sync, eng, ctl⟩ := b
  simp only at hsr hw hc
  subst hsr hw hc
  constructor <;> simp [Bank.retire, Bank.advance, Bank.setPc, Bank.setW, Bank.pc, Bank.w, Bank.countSeq, Control.moved, wordOfNat]

/-- Writing an x register and retiring has the frame of `WroteX`. -/
theorem wroteX_setX (s : State) (n : Nat) (d : BitVec 6) (v : Word) (h : d.toNat < 32) :
    WroteX s (s.setX n d.toNat v) n d.toNat v := by
  constructor
  · simp only [State.setX, retire_bank, setBank_bank]
    rw [show (Bank.retire (s.bank.writeX d.toNat v) .x n).readX d.toNat = (s.bank.writeX d.toNat v).readX d.toNat from rfl,
      readX_writeX _ _ _ _ h]
    simp
  · constructor <;> simp only [State.setX, retire_bank, setBank_bank, bankRetire_af, bankRetire_xf, writeX_af]
    · intro r hr
      rw [show (Bank.retire (s.bank.writeX d.toNat v) .x n).readX r = (s.bank.writeX d.toNat v).readX r from rfl,
        readX_writeX _ _ _ _ h]
      by_cases h0 : r = 0
      · simp [h0, Bank.readX]
      · simp [h0, hr]
    · simp
    · simp
    · simp
  · simp [State.setX, Bank.retire, Bank.advance, Bank.setPc, Bank.setW, Bank.countSeq]
  · constructor <;> simp [State.setX]
  · have := retiredX_retire s (s.bank.writeX d.toNat v) n (by simp) (by simp) (by simp)
    simpa [State.setX, State.retire] using this
  · have := sameDevice_setBank s ((s.bank.writeX d.toNat v).retire .x n)
    simpa [State.setX, State.retire] using this

/-- An X instruction whose meaning writes one x register and retires completes. -/
theorem answersX_of (i : Instr) (s : State) (n : Nat) (d : BitVec 6) (v : Word) (hd : d.toNat < 32)
    (h : exec i s = .next (s.setX n d.toNat v)) : AnswersX i s n d v := ⟨_, h, wroteX_setX s n d v hd⟩

/-- Raising a first fault records it and changes nothing else that a program sees (R43, R88). -/
theorem raised_raise (s : State) (st : Stream) (c : Cause) (f : Word) (h : s.faultless) :
    Raised s (s.raise st c f) (streamCode st) c f := by
  have e : s.raise st c f =
      s.setBank (s.bank.mapCtl fun k => { k with fault := some ⟨streamCode st, c, f, 1, 0, none⟩, atCut := false }) := by
    simp only [State.raise, State.record, State.faultless] at *
    rw [h]
  rw [e]
  constructor
  · simp
  · constructor <;> simp
  · constructor <;> simp
  · simp
  · simp
  · exact sameDevice_setBank _ _

/-- A meaning that ends in a decoding fault raises it at the stream's PC. -/
theorem raised_pcFault (i : Instr) (s : State) (st : Stream) (c : Cause) (h : s.faultless) (e : exec i s = s.pcFault st c) :
    ∃ t, exec i s = .next t ∧ Raised s t (streamCode st) c (s.bank.pc st) := ⟨_, e, raised_raise s st c _ h⟩

/-- A stall marks its stream and changes nothing else that a program sees (R12). -/
theorem waits_stall (s : State) (st : Stream) : Waits s (s.stall st) st := by
  cases st <;> constructor <;> simp [State.stall, Control.stalled, Control.tick, SameMemory] <;>
    constructor <;> simp

/-- A stall on the partner stream does too. -/
theorem waits_stallPeer (s : State) (st : Stream) : Waits s (s.stallPeer st) st := by
  cases st <;> constructor <;> simp [State.stallPeer, Control.stalled, Control.tick, SameMemory] <;>
    constructor <;> simp

end Sys2Proof.Machine
end

