-- ==== Sys2Proof/Tests/Slice0.lean ====
section
/-! SUPPORT. Tests of the model: words of the spec's examples, the well-formedness checks, single steps with the results that
the spec works out, and for each statement a state and operands that meet its hypotheses. -/

namespace Sys2Proof.Tests

open Sys2Proof Sys2Proof.Machine

set_option Elab.async false

/-! ## Words of the spec's examples -/

/-- R94: ADD a3, a1, a2 and SRA a3, a1, a2. -/
theorem test_decode_alu : decode 0x00030420#32 none = .ok (.add 3 1 2) ∧ decode 0x00030427#32 none = .ok (.sra 3 1 2) := ⟨rfl, rfl⟩
/-- R31: ADDI a3, a2, -5 and ADDI a4, a3, 100000. -/
theorem test_decode_addi : decode 0x02030BFB#32 none = .ok (.addi 3 2 (-5)) ∧
    decode 0x22040C00#32 (some 0xC00186A0#32) = .ok (.addiL 4 3 100000) := ⟨rfl, rfl⟩
/-- R99: LI a5, 0x40; LIH a5, 0xFF00. -/
theorem test_decode_li : decode 0x04C50040#32 none = .ok (.li 5 0x40) ∧ decode 0x0505FF00#32 none = .ok (.lih 5 0xFF00) := ⟨rfl, rfl⟩
/-- Listings of R108 and R110: LDS.d a3, [a2]; LDVQ qx1, [a5], GF. -/
theorem test_decode_load : decode 0x08030B00#32 none = .ok (.lds 3 2 3 0) ∧ decode 0x0A411700#32 none = .ok (.ldvq 1 5 3 0) := ⟨rfl, rfl⟩
/-- Listing of R120: LSET lc1, a0, 3; LOOP lc1, bot; ENDL lc1, top. -/
theorem test_decode_loop : decode 0x0E010003#32 none = .ok (.lset 1 0 3) ∧ decode 0x80410003#32 none = .ok (.loop 1 3) ∧
    decode 0x80810003#32 none = .ok (.endl 1 3) := ⟨rfl, rfl, rfl⟩
/-- R121 to R123: SYNC; FPC 0, 0b11010; HALT. -/
theorem test_decode_shared : decode 0x80C00000#32 none = .ok .sync ∧ decode 0x8140001A#32 none = .ok (.fpcAll 1 1 2) ∧
    decode 0x81800000#32 none = .ok .halt := ⟨rfl, rfl, rfl⟩
/-- R142 to R151: TREC a2, [a4]; TREC a2, CLR; TFOLD a2; TVER.dev a2, a3; TVWAIT.gang a2, a3. -/
theorem test_decode_tensor : decode 0x17040800#32 none = .ok (.trec 4 2) ∧ decode 0x17000A00#32 none = .ok (.trecClr 2) ∧
    decode 0x17400800#32 none = .ok (.tfold 2) ∧ decode 0x17800836#32 none = .ok (.tver 2 3 3) ∧
    decode 0x17C00838#32 none = .ok (.tvwait 2 3 4) := ⟨rfl, rfl, rfl, rfl, rfl⟩
/-- R30, R162: (p2) VADD v4, v5, v6 and its long form VADD.f32. -/
theorem test_decode_vadd : decode 0x44041462#32 none = .ok (.vadd 4 5 6 2) ∧
    decode 0x64041460#32 (some 0xC4000000#32) = .ok (.vaddL 4 5 6 0 0 0) := ⟨rfl, rfl⟩
/-- R33, R162, R163: VFMA.i32.rtz v4, v5, v6, v7; EXP2 v4, v4; LOG2.f32 v4, v4. -/
theorem test_decode_vfma : decode 0x64C41460#32 (some 0xC7140000#32) = .ok (.vfmaL 4 5 6 0 7 1 2) ∧
    decode 0x48041000#32 none = .ok (.exp2 4 4 0) ∧ decode 0x68041000#32 (some 0xC4002000#32) = .ok (.log2 4 4 0 0 0) :=
  ⟨rfl, rfl, rfl⟩
/-- R164, R167, R168: VCMP.f32 LT, p2, v4, v5, x7; VRSUM x3, v8; VSCAN v6, v8, x0. -/
theorem test_decode_lanes : decode 0x6A021050#32 (some 0xC2004700#32) = .ok (.vcmpL 2 4 5 0 0 2 7) ∧
    decode 0x4C032000#32 none = .ok (.vrsum 3 8 0) ∧ decode 0x4D062000#32 none = .ok (.vscan 6 8 0 0) := ⟨rfl, rfl, rfl⟩
/-- R180, R182: VRNG v4; VWIN 128; VWIN.bf16 256. -/
theorem test_decode_vrng : decode 0x50040000#32 none = .ok (.vrng 4 0) ∧ decode 0x58000080#32 none = .ok (.vwin 0 128) ∧
    decode 0x58030100#32 none = .ok (.vwin 3 256) := ⟨rfl, rfl, rfl⟩
/-- R192, R194, R199: NSET 0, 1, a0; MMA sd0, sd1, 32, 32, 1, a7; MZERO a8. -/
theorem test_decode_matrix : decode 0x0E800400#32 none = .ok (.nset 0 1 0) ∧ decode 0x0EC04247#32 none = .ok (.mma 0 1 0 1 1 7) ∧
    decode 0x0F002000#32 none = .ok (.mzero 8) := ⟨rfl, rfl, rfl⟩
/-- R222 to R225: INVR a2, a3, a4; INVA a4; PROBE a5, a6; FREPLAY a7, ABORT. -/
theorem test_decode_page : decode 0x1A020C40#32 none = .ok (.invr 2 3 4) ∧ decode 0x1A440000#32 none = .ok (.inva 4) ∧
    decode 0x1A851800#32 none = .ok (.probe 5 6) ∧ decode 0x1AC78000#32 none = .ok (.freplayAbort 7) := ⟨rfl, rfl, rfl, rfl⟩
/-- R236, R237: PROMOTE.die; FENCE.dev.acqrel ENG. -/
theorem test_decode_fence : decode 0x13D00000#32 none = .ok (.promote 2) ∧ decode 0x139F0000#32 none = .ok (.fence 3 3 1) := ⟨rfl, rfl⟩
/-- R241, R242: BXINIT.clus bx3, a2; BXEXP bx5, a4; BXARR ring1.empty, a4; BXARR bx5, a4, 6. -/
theorem test_decode_barrier : decode 0x12064200#32 none = .ok (.bxinit 3 1 2) ∧ decode 0x124A0080#32 none = .ok (.bxexp 5 0 0 0 0 4) ∧
    decode 0x12838080#32 none = .ok (.bxarr 1 1 1 0 0 4) ∧ decode 0x128A7080#32 none = .ok (.bxarr 5 0 0 1 6 4) := ⟨rfl, rfl, rfl, rfl⟩
/-- R243 to R245: BXWAIT bx5, a6; BXWAIT ring1.cons; BXTEST a7, bx5; RINGSET ring1, a10. -/
theorem test_decode_ring : decode 0x12CA00C0#32 none = .ok (.bxwait 5 0 0 6) ∧ decode 0x12C38000#32 none = .ok (.bxwait 1 1 1 0) ∧
    decode 0x130A1C00#32 none = .ok (.bxtest 5 0 7) ∧ decode 0x13494000#32 none = .ok (.ringset 1 10) := ⟨rfl, rfl, rfl, rfl⟩
/-- R255: CPY h4, [a10], ch0, bx3, 1; CPYF h5, [a10], bx2, 1; GATH h4, [a10], ch3, ring.full; SCAT h4, [a10], ch3, bx2, 0. -/
theorem test_decode_copy : decode 0x10042872#32 none = .ok (.cpy 4 10 3 1 0 1 0) ∧ decode 0x10452852#32 none = .ok (.cpyf 5 10 2 1 1 0) ∧
    decode 0x1084280D#32 none = .ok (.gath 4 10 0 0 3 0 1) ∧ decode 0x10C4285C#32 none = .ok (.scat 4 10 2 1 3 0 0) := ⟨rfl, rfl, rfl, rfl⟩
/-- R264, R265: HWAIT h4; HWAITP h4, a9; HREL h4; HSTAT a6, h4. -/
theorem test_decode_handle : decode 0x11040000#32 none = .ok (.hwait 4) ∧ decode 0x11442400#32 none = .ok (.hwaitp 4 9) ∧
    decode 0x11840000#32 none = .ok (.hrel 4) ∧ decode 0x11C41800#32 none = .ok (.hstat 4 6) := ⟨rfl, rfl, rfl, rfl⟩
/-- R47: 0x16000001 is unassigned, 0x16000000 is TYIELD; R286, R292: majors 0x55 and 0x56 are FREG and FRES. -/
theorem test_decode_task : decode 0x16000001#32 none = .error .undef ∧ decode 0x16000000#32 none = .ok .tyield ∧
    decode 0x15400000#32 none = .ok (.freg 0 0 0) ∧ decode 0x15800000#32 none = .ok (.fres 0 0) := ⟨rfl, rfl, rfl, rfl⟩
/-- R364, R368: COLL [a10], bx2, 1; LSTAT a5, a6. -/
theorem test_decode_link : decode 0x180A1400#32 none = .ok (.coll 10 2 1) ∧ decode 0x18451800#32 none = .ok (.lstat 5 6) := ⟨rfl, rfl⟩
/-- R47: the S word of major 0x07 is unassigned; R29, R49: a first word of TAG 0b11 and a long form without its second word. -/
theorem test_decode_refused : decode 0x81C00000#32 none = .error .undef ∧ decode 0xC0000000#32 none = .error .badFirst ∧
    decode 0x22040C00#32 none = .error .badExt := ⟨rfl, rfl, rfl⟩

/-! ## Well-formedness -/

/-- Every check refuses a term that breaks it: the objects of an event, and the sub-codes of an instruction. -/
theorem test_ill_formed : ∀ i ∈ [
    Instr.dramPatrolScrub 0xC00000000 .clean true, .sramPatrolScrub (.scratchpad 0) .clean true, .sramPatrolScrub (.accumulator 0 true 4096 0) .clean true, .linkRecalibration 18 0, .loadDataArrival 256 0 .clean,
    .kernelLoadComplete 64 0 (some []), .galleyEntryReclaim 4 0, .eagerTranslationComplete 0 64 ⟨0, []⟩, .ldvqFill 0 4, .copyStart 0 4,
    .tailWrite 0 16 0, .scratchpadLineExchange 0 96 0, .managementSend 2 [], .flitAck 1 [] true, .trainingComplete 18 8,
    .ldvq 1 5 1 0, .ldvqL 1 5 1 0 0 0, .stvq 1 5 1 0, .stvqL 1 5 3 0 0 0, .bc 6 0 0 0, .bcL 6 0 0 0, .cpy 4 10 3 0 0 0 0,
    .cpyf 5 10 0 0 1 0, .gath 4 10 1 0 0 0 0, .scat 4 10 1 0 0 0 0, .bxexp 8 1 0 0 0 4, .bxarr 5 0 1 0 0 4, .bxwait 8 1 0 0,
    .bxtest 8 1 7, .vcmpL 2 4 5 0 0 8 0, .bq 6 0 0 0, .bqL 14 0 0 0], i.wellFormed = false := by decide

/-- The last object of each kind is well formed. -/
theorem test_well_formed : ∀ i ∈ [
    Instr.dramPatrolScrub 0xBFFFFFFFF .clean true, .sramPatrolScrub (.scratchpad (2 ^ 52)) .clean true,
    .sramPatrolScrub (.accumulator 255 true 4095 63) .clean true, .linkRecalibration 17 0,
    .loadDataArrival 255 0 .clean, .kernelLoadComplete 63 0 (some []), .galleyEntryReclaim 3 0, .ldvqFill 0 3, .copyStart 0 3,
    .tailWrite 0 15 0, .scratchpadLineExchange 0 95 0, .managementSend 1 [], .flitAck 2 [] true, .bc 5 0 0 0, .bq 5 0 0 0,
    .vcmpL 2 4 5 0 0 7 0, .bxwait 7 1 0 0], i.wellFormed = true := by decide

/-! ## Single steps -/

/-- A running bank on cell 0: both streams of context 0 stand at NOP. -/
def st0 : State := State.reset.placeWords 0x1D000000#32 0x1D000000#32
/-- With an a register set. -/
def setA (s : State) (r : Nat) (v : Word) : State := s.setBank (s.bank.writeA r v)
/-- With an x register set. -/
def setX (s : State) (r : Nat) (v : Word) : State := s.setBank (s.bank.writeX r v)
/-- With a row of lanes set. -/
def setV (s : State) (n w : Nat) (l : List Nat) : State := s.setBank (s.bank.writeV n (rowOfLanes w l))
/-- What a next state shows; another outcome shows nothing. -/
def shows {α : Type} (f : State → α) : Result → Option α
  | .next t => some (f t)
  | _ => none
/-- The fault that a state's bank has recorded. -/
def faultOf (s : State) : Option (Nat × Cause × Word) := s.bank.ctl.fault.map fun f => (f.stream, f.cause, f.fva)

/-- R94's example: SRA with a shift operand of 68. -/
theorem test_sra : shows (fun t => (t.bank.readA 3, t.bank.sr.pca)) (exec (.sra 3 1 2) (setA (setA st0 1 0xFFFFFFFFFFFFFF00) 2 68)) =
    some (0xFFFFFFFFFFFFFFF0, 0x10004) := by decide +kernel
/-- R34: a write of a0 is discarded; R98: a sum wraps. -/
theorem test_addi_wraps : shows (fun t => t.bank.readA 4) (exec (.addi 4 1 1) (setA st0 1 0xFFFFFFFFFFFFFFFF)) = some 0 ∧
    shows (fun t => t.bank.readA 0) (exec (.addi 0 1 1) st0) = some 0 := by decide +kernel
/-- R95: a quotient by 0, and the one quotient that overflows. -/
theorem test_div : shows (fun t => t.bank.readA 3) (exec (.div 3 1 0) (setA st0 1 7)) = some 0xFFFFFFFFFFFFFFFF ∧
    shows (fun t => t.bank.readA 3) (exec (.div 3 1 2) (setA (setA st0 1 0x8000000000000000) 2 0xFFFFFFFFFFFFFFFF)) =
      some 0x8000000000000000 := by decide +kernel
/-- R99's example: the last of the three words. -/
theorem test_lih : shows (fun t => t.bank.readA 5) (exec (.lih 5 0xFF00) (setA st0 5 0x400000)) = some 0x000000400000FF00 := by
  decide +kernel
/-- The step fetches what stands at the PC: the word of R99's example. -/
theorem test_step_li : shows (fun t => t.bank.readA 5) (step (State.reset.withFetchWord 32 0x04C50040)) = some 0x40 := by decide +kernel
/-- R106's example: a load past the scratchpad's end is ACCESS_RANGE at its first byte, and a3 is unchanged. -/
theorem test_lds_range : shows (fun t => (faultOf t, t.bank.readA 3)) (exec (.lds 3 2 3 0) (setA (setA st0 2 0x5FFFFC) 3 9)) =
    some (some (0, .accessRange, 0x5FFFFC), 9) := by decide +kernel
/-- R9, R107: the last doubleword of the scratchpad, stored little-endian. -/
theorem test_sts : shows (fun t => (faultOf t, memRead t.mem (spadKey 0 0 0x5FFFF8) 8))
    (exec (.sts 7 2 3 0) (setA (setA st0 2 0x5FFFF8) 7 0x0102030405060708)) = some (none, [8, 7, 6, 5, 4, 3, 2, 1]) := by decide +kernel
/-- R119, R120: the LSET of the listing, and the ENDL that counts it down in the A stream. -/
theorem test_lset : shows (fun t => t.bank.readLc 1) (exec (.lset 1 0 3) st0) = some 3 := by decide +kernel
/-- R115: CALL links and branches. -/
theorem test_call : shows (fun t => (t.bank.readA 63, t.bank.sr.pca)) (exec (.call 5) st0) = some (0x10004, 0x10014) := by decide +kernel
/-- R123's example: FPC 0, 0b11010. -/
theorem test_fpc : shows (fun t => t.bank.sr.fpcA) (exec (.fpcAll 1 1 2) st0) = some 0x1A := by decide +kernel
/-- R98: a shift count outside 0 to 63. -/
theorem test_shli_limit : shows faultOf (exec (.shli 3 1 64) st0) = some (some (0, .operandIllegal, 0x10000)) := by decide +kernel
/-- R180's example: lane 0, and the counter after the 128 lanes. -/
theorem test_vrng : shows (fun t => (rowElem (t.bank.readV 4) 32 0, t.bank.sr.seedCtr))
    (exec (.vrng 4 0) (st0.setBank (st0.bank.mapSr fun r => { r with seedCtr := 1 }))) = some (0x3EA29C50, 129) := by decide +kernel
/-- R167's example. -/
theorem test_vrsum : shows (fun t => (t.bank.readX 3, t.bank.sr.fflags))
    (exec (.vrsum 3 8 0) (setV st0 8 32 [0x3F800000, 0x4B800000, 0x3F800000, 0xCB800000])) = some (0x3F800000, 1) := by decide +kernel
/-- R168's example. -/
theorem test_vscan : shows (fun t => (List.range 5).map (rowElem (t.bank.readV 6) 32))
    (exec (.vscan 6 8 0 0) (setV st0 8 32 [0x3F800000, 0x4B800000, 0x3F800000, 0xCB800000])) =
    some [0x3F800000, 0x4B800000, 0x4B800000, 0, 0] := by decide +kernel
/-- R163's example: EXP2 of -3.0, and of 128.0, which overflows with OF and NX. -/
theorem test_exp2 : shows (fun t => ((List.range 2).map (rowElem (t.bank.readV 4) 32), t.bank.sr.fflags))
    (exec (.exp2 4 4 0) (setV st0 4 32 [0xC0400000, 0x43000000])) = some ([0x3E000000, 0x7F800000], 5) := by decide +kernel
/-- R241, R242, the listing of R258: EXPECT 1, then PENDING 1024. -/
theorem test_bxexp : shows (fun t => ((t.bank.barrier 3).expect, (t.bank.barrier 3).pending))
    (exec (.bxexp 3 0 0 0 0 3) (setA ((shows id (exec (.bxinit 3 0 2) (setA st0 2 1))).getD st0) 3 0x400000)) = some (1, 1024) := by
  decide +kernel
/-- R245's example: the fields of RINGSET ring1, a10. -/
theorem test_ringset : shows (fun t => t.bank.ring 1) (exec (.ringset 1 10) (setA (setA st0 10 0x0000100400040400) 11 0x801)) =
    some ⟨true, 0, 0x10000, 128, 2, 0, 2, 0, 0, 0, 0⟩ := by decide +kernel
/-- R199's example: the rows that MZERO a8 names, in the queue of the engine. -/
theorem test_mzero : shows (fun t => t.bank.eng.tileQ.map (·.work)) (exec (.mzero 8) (setA st0 8 0x20100)) =
    some [.mzero 256 32] := by decide +kernel
/-- R349: TRAP at task level is KIND 3 with its code. -/
theorem test_trap : shows (fun t => t.bank.ctl.fault.map fun f => (f.kind, f.code)) (exec (.trap 5) st0) = some (some (3, 5)) := by
  decide +kernel
/-- R351: a write of a read-only register at task level is PRIV. -/
theorem test_swr_priv : shows faultOf (exec (.swr 1 8) st0) = some (some (0, .priv, 0x10000)) := by decide +kernel
/-- R368: a port above 17. -/
theorem test_lstat : shows faultOf (exec (.lstat 5 6) (setA st0 6 18)) = some (some (0, .operandFormat, 0)) := by decide +kernel
/-- R119: the X stream waits at a shared branch whose outcome the A stream has not put. -/
theorem test_loop_waits : shows (fun t => t.bank.ctl.waitX) (exec (.loop 1 3) { st0 with turn := .x }) = some true := by decide +kernel
/-- R22, R37, R38: the state after reset, and the window and rounding controls of a fresh bank. -/
theorem test_reset : State.reset.dev.state = .ready ∧ State.reset.mem = [] ∧ Bank.reset.sr.fpcA = 1 ∧ Bank.reset.sr.windowX = 4096 := by
  decide +kernel

/-! ## States and operands that meet the statements' hypotheses -/

/-- A result that shows something answers a next state. -/
theorem answers_of_shows (r : Result) (h : (shows (fun _ => ()) r).isSome = true) : Answers r := by
  cases r with
  | next t => exact ⟨t, rfl⟩
  | fault f => simp [shows] at h
  | refused f => simp [shows] at h

/-- The cell's bank with control, queue, engine or barrier state changed. -/
def setCtl (s : State) (f : Control → Control) : State := s.setBank (s.bank.mapCtl f)
/-- At supervisor level. -/
def sup (s : State) : State := setCtl s fun c => { c with level := .supervisor }
/-- A state whose context 0 maps the 1 GiB page at G 0x40000000 to the near tier with every permission (R211 to R213), keeps its
structures there, and runs at cell 0. -/
def paged : State :=
  { (st0.setCtx 0 { st0.ctxAt 0 with
      tcbBase := 0x40010000, tcbCount := 16, ttable := 0x40020000, qdesc := 0x40030000, nqueue := 2, recBase := 0x40040000,
      saveBase := 0x41000000, evtBase := 0x40050000, replayBase := 0x40060000 }) with
    mem := [(0, 1), (2, 0x10), (0x100008, 0xBF), (0x10000B, 0x80)] }

theorem witness_DecodeOfEncode : (Instr.add 3 1 2).wellFormed = true ∧ encode (.add 3 1 2) ≠ [] ∧
    (Instr.bxarr 1 1 1 0 0 4).wellFormed = true ∧ encode (.bxarr 1 1 1 0 0 4) ≠ [] := by decide
theorem witness_DecodeIsExact : decode 0x00030420#32 none = .ok (.add 3 1 2) ∧ tagOf 0xC0000000#32 = 3#2 ∧
    (tagOf 0x20000000#32 ≠ 3#2 ∧ longOf 0x20000000#32 = true) ∧ tagOf 0xBFFFFFFF#32 ≠ 3#2 := ⟨rfl, by decide⟩
theorem witness_StepRunsDecoded :
    (st0.agenda = [] ∧ st0.engine = false ∧
      ({ st0 with freeCtr := 1 } : State).fetch st0.turn = .word 0x1D000000#32 (some 0x1D000000#32)) ∧
    decode 0x1D000000#32 (some 0x1D000000#32) = .ok .nop ∧
    ({ st0 with freeCtr := 1, agenda := [], cur := ⟨0, by decide⟩, turn := .a, engine := false } : State).fetch .a =
      .word 0x1D000000#32 (some 0x1D000000#32) ∧
    ({ st0 with agenda := [.stream 0 .a] } : State).agenda = .stream 0 .a :: [] ∧
    ({ st0 with agenda := [.event .powerAlarmClear] } : State).agenda = .event .powerAlarmClear :: [] ∧
    ({ st0 with agenda := [.firmware (.serviceRead 0 0 8)] } : State).agenda = .firmware (.serviceRead 0 0 8) :: [] :=
  ⟨by decide +kernel, rfl, by decide +kernel, rfl, rfl, rfl⟩
/-- A latch entry of the NOP at the A stream's PC, which retires, and one of a FENCE ENG there, which waits for a queued MZERO;
an OPCODE_UNDEF that the stream's turn does not make, and one that it makes. -/
theorem witness_Latches :
    let l : Latch := ⟨1, 0x10000, .aReg, 0, 0, 0, 0, 0⟩
    let hold := fun (s : State) => setCtl s fun c => { c with latA := [l] }
    let eng := hold (State.reset.placeWords 0x139F0000#32 0x1D000000#32)
    let full := eng.setBank { eng.bank with walk := ⟨1, 1, 1, 1⟩, eng := { eng.bank.eng with tileQ := [⟨0, true, .mzero 0 1, 0⟩] } }
    st0.bank.latchHere .a = none ∧ (hold st0).bank.latchHere .a = some l ∧ full.bank.latchHere .a = some l ∧
    shows (fun t => t.bank.seq .a == (hold st0).bank.seq .a) (exec .nop (hold st0)) = some false ∧
    shows (fun t => t.bank.seq .a == full.bank.seq .a) (exec (.fence 3 3 1) full) = some true ∧
    st0.eventDue (.opcodeUndef false) = false ∧ (State.reset.placeWords 0x16000001#32 0x1D000000#32).eventDue (.opcodeUndef false) = true := by
  decide +kernel
/-- TEXT at G 0x400B0000, on the mapped page, and the streams there, in no galley entry. -/
def texted : State :=
  let k := { placedKernel 0x1D000000#32 0x1D000000#32 with textG := 0x400B0000 }
  setCtl ((paged.setBank (paged.bank.mapSr fun r => { r with pca := 0x400B0000, pcx := 0x400B0000 })).setCtx 0
    { paged.ctxAt 0 with kernels := [k] }) fun c => { c with galA := none, galX := none }
/-- With no kernel in the slot. -/
def unloaded (s : State) : State := s.setCtx 0 { s.ctxAt 0 with kernels := [] }
/-- Each clause: a stream that may not run; a lead equal to the window and one below it; in an entry, a word of TAG 0b11, a tagged
word and a word for the other stream; outside one, a PC past TEXT, one on an unmapped page and one where a region begins; and no
kernel, on a page that is not mapped and on one that is. -/
theorem witness_FetchReadsText :
    let k := placedKernel 0x1D000000#32 0x1D000000#32
    let led := fun (n : Int) => st0.setBank { st0.bank with walk := ⟨n, 0, n, 0⟩ }
    let off := st0.setBank (st0.bank.mapSr fun r => { r with pca := 0x10008 })
    let bad := State.reset.placeWords 0xC0000000#32 0x1D000000#32
    let out := setCtl st0 fun c => { c with galA := none }
    State.reset.canRun .a = false ∧ (st0.canRun .a = true ∧ st0.owner = some 0 ∧ st0.kernel = some k) ∧
    (led 4096).bank.window .a ≤ (led 4096).bank.lead .a ∧ (led 4095).bank.lead .a < (led 4095).bank.window .a ∧
    bad.bank.entryWord .a = some (0xC0000000#32, some 0x1D000000#32) ∧ tagOf 0xC0000000#32 = 3#2 ∧
    st0.bank.entryWord .a = some (0x1D000000#32, some 0x1D000000#32) ∧ (tagOf 0x1D000000#32 ≠ 3#2 ∧ taggedFor 0x1D000000#32 .a = true) ∧
    taggedFor 0x1D000000#32 .x = false ∧ meetsX 0x1D000000#32 = false ∧
    (off.bank.entryWord .a = none ∧ off.kernel = some k ∧ textIndex k (off.bank.pc .a) = none) ∧
    (out.bank.entryWord .a = none ∧ textIndex k (out.bank.pc .a) = some 0 ∧
      out.textCheck k 0 (out.bank.pc .a) = some (.fault .pageNotPresent 0x10000)) ∧
    (texted.canRun .a = true ∧ texted.bank.entryWord .a = none ∧ (texted.kernel.map fun k => (textIndex k (texted.bank.pc .a), k.text[0]?,
      texted.textCheck k 0 (texted.bank.pc .a), texted.chunkBad (texted.regionKey 0 .a k 0 (regionLen k.text k.textG.toNat 0)))) =
        some (some 0, some 0x1D000000#32, none, false)) ∧
    ((unloaded out).kernel = none ∧ (unloaded out).canRun .a = true ∧
      (unloaded out).textStop (out.bank.pc .a) = some (.fault .pageNotPresent 0x10000)) ∧
    (unloaded texted).textStop (texted.bank.pc .a) = none := by decide +kernel
theorem witness_NothingIsRefused :
    (∀ e rest, ({ st0 with agenda := [.event (.taskDispatch 255)] } : State).agenda = .event e :: rest → e.wellFormed = true) ∧
    (∀ c st rest, ({ st0 with agenda := [.stream 255 .x] } : State).agenda = .stream c st :: rest → c < 256) ∧
    (Instr.taskDispatch 255).wellFormed = true := by
  refine ⟨?_, ?_, rfl⟩
  · intro e rest h; injection h with h _; injection h with h; subst h; rfl
  · intro c st rest h; injection h with h _; injection h with h _; subst h; decide
theorem witness_RegistersAndMemory : Memory.wf [(1, 2), (3, 4)] = true ∧ rowsAscend [(3, 1), (5, 2)] = true := by decide +kernel
theorem witness_StepKeepsMemory : st0.mem.wf = true ∧ paged.mem.wf = true ∧ Answers (step st0) :=
  ⟨rfl, by decide +kernel, answers_of_shows _ (by decide +kernel)⟩
/-- The last access inside each window and the first one outside it; every access fault; every refused operand. -/
theorem witness_AddressSpaces :
    let a := Access.load .task
    let held := st0.setCell 0 { st0.cellAt 0 with lineTags := vset (st0.cellAt 0).lineTags 95 (some 1) }
    let both := st0.setCtx 0 { st0.ctxAt 0 with part := 3 }
    let away := both.setCell 1 { both.cellAt 1 with lineTags := vset (both.cellAt 1).lineTags 95 (some 1) }
    ((0x5FFFF8#64).toNat + 8 ≤ 0x600000 ∧ ∀ l, l < 96 → vget (st0.cellAt 0).lineTags l none = none) ∧
    (vget (held.cellAt held.cellNo).lineTags 95 none = some 1 ∧ held.ctxNo = 0 ∧ (0x5FFFF8#64).toNat / 65536 ≤ 95 ∧
      95 ≤ ((0x5FFFF8#64).toNat + 8 - 1) / 65536 ∧ ∀ m, m < 95 → vget (held.cellAt held.cellNo).lineTags m none = none) ∧
    -- C space at the last offset of its own cell and of cell 1, whose line is held there and is not
    ((0xDFFFF8#64).toNat < 2 ^ 26 ∧ (0xDFFFF8#64).toNat % 2 ^ 23 + 8 ≤ 0x600000 ∧ (0xDFFFF8#64).toNat / 2 ^ 23 % 8 = 1 ∧
      (both.ctxAt both.ctxNo).part.getLsbD 1 = true ∧ both.imageHeld 0 1 0x5FFFF8 = true ∧ both.imageHeld 0 1 0x5FFFFF = true ∧
      away.imageHeld 0 1 0x5FFFF8 = false ∧ (both.ctxAt both.ctxNo).part.getLsbD 0 = true) ∧
    -- G space: the ends of the window on one page, a leaf that passes, one that a check stops, and a table that is poisoned
    ((0x10000 : Nat) ≤ 0x40000000 ∧ 0x40000000 + 8 ≤ 0xFFFF0000000000 ∧ 0x40000000 % 65536 + 8 ≤ 65536 ∧
      (∃ x, paged.lookup (some paged.cellNo) paged.ctxNo 0x40000000 = .leaf x ∧ check3 a (.leaf x) = none ∧ check4 a (.leaf x) = none ∧
        check3 a (.leaf { x with rd := false }) = some .pagePerm ∧ check4 a (.leaf { x with ord := 3 }) = some .pageOrd) ∧
      check3 a (paged.lookup (some paged.cellNo) paged.ctxNo 0x80000000) = some .pageNotPresent ∧
      ({ paged with dev := { paged.dev with poisoned := [0] } } : State).lookup (some 0) 0 0x40000000 = .lost 0) ∧
    0x600000 < (0x5FFFF9#64).toNat + 8 ∧ 2 ^ 26 ≤ (0x4000000#64).toNat ∧ 0x600000 < (0x5FFFF9#64).toNat % 2 ^ 23 + 8 ∧
    (st0.ctxAt 0).part.getLsbD 1 = false ∧ (0xFFFF#64).toNat < 0x10000 ∧ 0xFFFF0000000000 < (0xFFFEFFFFFFFFF9#64).toNat + 8 ∧
    st0.resolve .s a 0x5FFFF8 8 = .ok [⟨none, spadKey 0 0 0x5FFFF8, 8, 0⟩] ∧ st0.faultless ∧
    (5 ≤ (5#3).toNat ∧ (2#2).toNat < 3 ∧ (1#2).toNat < 2) ∧ (1#6).toNat % 2 = 1 ∧ 8 ≤ (8#6).toNat ∧ (1#3 ≠ 0#3) := by
  refine ⟨by decide +kernel, by decide +kernel, by decide +kernel, ?_, by decide +kernel⟩
  exact ⟨by decide, by decide, by decide, ⟨⟨0, true, true, true, true, true, false, 2, 0x80000000⟩, by decide +kernel⟩, by decide +kernel,
    by decide +kernel⟩
theorem witness_BitsAndFields : (4#6 : BitVec 6) ≠ 0 ∧
    -- position 0 and width 64 fit, position 1 and width 64 do not, and neither does a negative immediate
    ((63 * 64 : BitVec 30).signExtend 64).toNat < 4096 ∧ (63 * 64) % 64 + ((63 * 64) / 64 + 1) ≤ 64 ∧
    ¬ ((63 * 64 + 1) % 64 + ((63 * 64 + 1) / 64 + 1) ≤ 64) ∧ ¬ ((0x3FF : BitVec 10).signExtend 64).toNat < 4096 ∧ st0.faultless := by
  decide +kernel
theorem witness_Immediates : ((63 : BitVec 10).signExtend 64).toNat < 64 ∧ 64 ≤ ((64 : BitVec 10).signExtend 64).toNat ∧
    64 ≤ ((0x3FF : BitVec 10).signExtend 64).toNat ∧ (7#6).toNat < 8 ∧ 8 ≤ (8#6).toNat ∧ st0.faultless := by decide +kernel
theorem witness_LoadImmediateX : (31#6).toNat < 32 ∧ 32 ≤ (32#6).toNat ∧ st0.faultless := by decide +kernel
/-- A tile of the window that no engine operation holds, and one that a queued MZERO holds. -/
def busy : State := st0.setBank { st0.bank with
  walk := ⟨1, 1, 1, 1⟩, eng := { st0.bank.eng with tileQ := [⟨0, true, .mzero 0 1, 0⟩, ⟨0, false, .mzero 0 1, 0⟩] } }
theorem witness_Permute : opType st0 none = some .f32 ∧ st0.windowFree ∧ opType busy none = some .f32 ∧
    busy.tileHeld (busy.bank.sr.vwin.toNat / 128) = true ∧ opType st0 (some 1) = none ∧ opType st0 (some 0) = some .f32 := by decide +kernel
/-- Each queue with room, full, empty, with a scalar, a row and a reserved entry at the head. -/
def queued (e : List QEntry) (a : List Word) : State :=
  st0.setBank { st0.bank with q := { st0.bank.q with qx := vset st0.bank.q.qx 3 e, qa := vset st0.bank.q.qa 1 a } }
theorem witness_ScalarQueues :
    ((queued [] []).bank.qx 3).length < 8 ∧ 8 ≤ ((queued (List.replicate 8 (.scalar 1)) []).bank.qx 3).length ∧
    ((queued [] [7]).bank.qa 1) = 7 :: [] ∧ (queued [] []).bank.qa 1 = [] ∧ ((queued [] []).bank.qa 1).length < 16 ∧
    16 ≤ ((queued [] (List.replicate 16 1)).bank.qa 1).length ∧ (queued [.scalar 5] []).bank.qx 3 = .scalar 5 :: [] ∧
    (queued [.pending [] 0] []).bank.qx 3 = .pending [] 0 :: [] ∧ (queued [.row 1] []).bank.qx 3 = .row 1 :: [] ∧
    (queued [.row 1] []).faultless ∧ (3#6).toNat < 4 ∧ 4 ≤ (4#6).toNat ∧ (1#6).toNat < 2 ∧ 2 ≤ (2#6).toNat ∧ (31#6).toNat < 32 := by
  decide +kernel
theorem witness_ScalarLoads :
    let s := setA st0 2 0x5FFFF8
    let t := setA st0 2 0x5FFFF9
    loadForm s.bank (.lds 3 2 3 0) = some ⟨.s, 1, 3, 0x5FFFF8, 8, false⟩ ∧ s.unreachable s.ctxNo = none ∧
    s.resolve .s { Access.load s.level with annotated := false } 0x5FFFF8 8 = .ok [⟨none, spadKey 0 0 0x5FFFF8, 8, 0⟩] ∧
    s.clean [⟨none, spadKey 0 0 0x5FFFF8, 8, 0⟩] ∧ loadForm t.bank (.lds 3 2 3 0) = some ⟨.s, 1, 3, 0x5FFFF9, 8, false⟩ ∧ t.faultless ∧
    t.resolve .s { Access.load t.level with annotated := false } 0x5FFFF9 8 = .error (.fault .accessRange 0x5FFFF9) ∧
    (loadForm (setA paged 2 0x40000000).bank (.ldgL 3 2 3 4 1 8)).isSome = true := by decide +kernel
theorem witness_ScalarStores :
    let s := setA st0 2 0x5FFFF8
    let t := setA st0 2 0x600000
    s.mem.wf = true ∧ storeForm s.bank (.sts 3 2 3 0) = some ⟨.s, 1, 3, 0x5FFFF8, 8, false⟩ ∧ s.unreachable s.ctxNo = none ∧
    s.resolve .s { Access.store s.level with annotated := false } 0x5FFFF8 8 = .ok [⟨none, spadKey 0 0 0x5FFFF8, 8, 0⟩] ∧
    s.storePoison [⟨none, spadKey 0 0 0x5FFFF8, 8, 0⟩] = none ∧ t.faultless ∧
    storeForm t.bank (.sts 3 2 0 0) = some ⟨.s, 1, 3, 0x600000, 1, false⟩ ∧
    t.resolve .s { Access.store t.level with annotated := false } 0x600000 1 = .error (.fault .accessRange 0x600000) := by decide +kernel
theorem witness_Atomics :
    let s := setA st0 2 0x100
    let t := setA st0 2 0x104
    s.mem.wf = true ∧ s.unreachable s.ctxNo = none ∧ amoForm s.bank (.amos 3 2 0 0) = some (⟨.s, 1, 3, 0x100, 8, false⟩, 0) ∧
    s.resolve .s (Access.atomic s.level) 0x100 8 = .ok [⟨none, spadKey 0 0 0x100, 8, 0⟩] ∧ s.clean [⟨none, spadKey 0 0 0x100, 8, 0⟩] ∧
    s.storePoison [⟨none, spadKey 0 0 0x100, 8, 0⟩] = none ∧ casForm s.bank (.cass 4 2 2 0) = some ⟨.s, 1, 4, 0x100, 4, false⟩ ∧
    s.resolve .s (Access.atomic s.level) 0x100 4 = .ok [⟨none, spadKey 0 0 0x100, 4, 0⟩] ∧ t.faultless ∧
    amoForm t.bank (.amos 3 2 0 0) = some (⟨.s, 1, 3, 0x104, 8, false⟩, 0) ∧ (0x104#64).toNat % 8 ≠ 0 ∧
    casForm t.bank (.cass 4 2 3 0) = some ⟨.s, 1, 4, 0x104, 8, false⟩ := by decide +kernel

/-- A group of one shard on cell 0 whose task binds descriptors 0 and 1 with every flag. -/
def aGroup : Group :=
  ⟨7, 0, 5, 0x40010000, 0, 0, .running, [], 1, 1, [0], [false], 0, 0, 0, 0xFFFF, [], some 0, 0, [0xF0000, 0xF0001], [], 0, [], none⟩
/-- Its graph. -/
def aGraph : Graph := {
  id := 5, parseNo := 0, ctx := 0, queue := 0, graphNo := 9, seq := 0, compl := 0, die := 0, tcb0 := 0, nt := 1, edges := [],
  guardBase := 0x40070000, nguard := 4, guards := [], tasks := [(0, none)], bindings := [], atAdmission := [], partials := [],
  root := 1, counters := [], ended := [], shape := 0, recording := false, running := false, issued := [], heldReady := [],
  shapes := [], imagePreds := [] }
/-- A paged state whose bank runs that task: descriptor 0 is a LIVE f32 tensor at version 3 and descriptor 1 a LIVE i8 one (R135,
R138). -/
def tasked : State :=
  let d : List Byte := (List.replicate 0x2C 0#8 ++ [3#8, 0, 0, 0] ++ List.replicate 10 0#8 ++ [0x20#8]) ++ List.replicate 5 0#8
  let e : List Byte := ([0, 0, 0, 0, 0, 0, 0, 0] ++ [128, 0, 0, 0] ++ List.replicate 36 0#8 ++ [0, 2, 0, 0x40, 0, 0, 0, 0x16#8] ++
    [0, 0, 0x20#8, 0, 0, 0xFF, 0, 0])
  { (setCtl paged fun c => { c with group := some 7, shardNo := 0 }) with
    mem := memWrite (memWrite paged.mem 0x80020000 d) 0x80020040 e
    sched := { paged.sched with groups := [aGroup], graphs := [aGraph] } }

theorem witness_RowQueues :
    let s := setA st0 5 0x1000
    let g := setA paged 5 0x4000FF00
    let p : List RowPart := [⟨none, spadKey 0 0 0x1000, 512, 0⟩]
    rowForm s.bank (.ldvq 1 5 0 0) = some (⟨.s, 1, 1, 0x1000, 64, false⟩, 0) ∧ s.unreachable s.ctxNo = none ∧ isLdvq (.ldvq 1 5 0 0) = true ∧
    s.resolve .s (Access.load s.level) 0x1000 512 = .ok p ∧ (s.bank.qx 1).length < 8 ∧
    8 ≤ ((queued (List.replicate 8 (.scalar 1)) []).bank.qx 3).length ∧ isStvq (.stvq 1 5 0 0) = true ∧ s.mem.wf = true ∧
    s.resolve .s (Access.store s.level) 0x1000 512 = .ok p ∧ s.storePoison p = none ∧ s.faultless ∧
    (rowForm (setA st0 5 0x1010).bank (.ldvq 1 5 0 0)).map (fun f => f.1.ea.toNat % 64) = some 16 ∧
    rowLength g 3#2 (Access.load g.level) 0x4000FF00 = .ok 512 ∧ (0x10000 ≤ 0x4000FF00 ∧ 0x4000FF00 + 512 ≤ 0xFFFF0000000000) ∧
    (rowInWindow 0#2 0x5FFE00 = true ∧ rowInWindow 0#2 0x5FFE40 = false ∧ rowInWindow 3#2 0 = false) ∧
    (let f := setA (queued (List.replicate 8 (.scalar 1)) []) 5 0x1000
     rowForm f.bank (.ldvq 3 5 0 0) = some (⟨.s, 1, 3, 0x1000, 64, false⟩, 0) ∧ rowLength f 0#2 (Access.load f.level) 0x1000 = .ok 512) ∧
    (let e : List QEntry := [.row 1, .pending [] 2, .scalar 3]
     let s := queued e []
     (s.cellAt 0).active.ctl.owner ≠ none ∧
     (s.places 0).find? (fun d => (s.bankIn d.1 d.2 0).any fun b => (b.qx 3).any QEntry.waits) = some (.active, 0) ∧
     (s.bankIn .active 0 0).map (·.qx 3) = some e ∧
     let v := (s.setCell 0 { s.cellAt 0 with active := .reset })
     let w := { v with saved := [⟨0, 0, s.bank⟩] }
     (w.places 0).find? (fun d => (w.bankIn d.1 d.2 0).any fun b => (b.qx 3).any QEntry.waits) = some (.saved, 0) ∧
     (w.bankIn .saved 0 0).map (·.qx 3) = some e) ∧
    g.resolve .g (Access.load g.level) 0x4000FF00 512 = .ok [⟨some 0x4000FF00, 0x8000FF00, 256, 2⟩, ⟨some 0x40010000, 0x80010000, 256, 2⟩] ∧
    ((queued [.row 1, .pending [] 2, .scalar 3] []).cellAt 0).active.qx 3 = [.row 1] ++ .pending [] 2 :: [.scalar 3] ∧
    [QEntry.row 1].any QEntry.waits = false ∧ st0.clean [] := by
  decide +kernel
/-- A context of a gang of two devices, and a route to the other one. -/
def ganged (s : State) (r : List (Nat × Nat)) : State :=
  let t := s.setCtx 0 { s.ctxAt 0 with gang := true }
  { t with dev := { t.dev with gangSize := 2 }, net := { t.net with routes := r } }
theorem witness_FencesAndPrefetch :
    -- the gang's other device is out of reach, and is not
    (let s := (ganged st0 []).setBank (st0.bank.putBarrier 3 ⟨true, false, true, 4, 0, 1, 0, [], 0⟩)
     s.unreachable s.ctxNo = some 1 ∧ s.faultless ∧ s.bank.shardOf s.ctxNo = true ∧ (s.ctxAt s.ctxNo).state = .active ∧
       (s.bank.readA 0).toNat / 2 = 0 ∧ (s.bank.barrier 3).live = true ∧ (s.bank.barrier 3).scope = 4 ∧
       (s.bank.barrier 3).phase ≠ (s.bank.readA 0).getLsbD 0) ∧
    (ganged st0 [(1, 2)]).unreachable 0 = none ∧ st0.unreachable st0.ctxNo = none ∧ (4#3).toNat < 5 ∧ 5 ≤ (5#3).toNat ∧ st0.bank.enginesDone = true ∧
    busy.bank.enginesDone = false ∧ st0.faultless ∧ (1#3 : BitVec 3) ≠ 0 := by decide +kernel
theorem witness_WaitForEvent :
    let s := setA paged 1 0x40000000
    let acc : Access := { Access.load s.level with annotated := true }
    (setA st0 1 0x40000004).faultless ∧ (0x40000004#64).toNat % 8 ≠ 0 ∧ s.resolve .g acc 0x40000000 8 = .ok [⟨some 0x40000000, 0x80000000, 8, 2⟩] ∧
    s.clean [⟨some 0x40000000, 0x80000000, 8, 2⟩] ∧
    natOfBytes (s.peekParts [⟨some 0x40000000, 0x80000000, 8, 2⟩]) = 0 ∧ (setA s 2 5).bank.readA 2 = 5 ∧ s.bank.readA 2 = 0 ∧
    (setCtl s fun c => { c with waitX := true }).bank.ctl.waitX = true ∧
    s.resolve .g acc 0x80000000 8 = .error (.fault .pageNotPresent 0x80000000) := by decide +kernel
theorem witness_Descriptors :
    let s := setA st0 2 0x5FFFE0
    let p : List RowPart := [⟨none, spadKey 0 0 0x5FFFE0, 32, 0⟩]
    (15#6).toNat < 16 ∧ s.resolve .s (Access.load s.level) 0x5FFFE0 32 = .ok p ∧ s.clean p ∧ s.mem.wf = true ∧
    s.resolve .s (Access.store s.level) 0x5FFFE0 32 = .ok p ∧ s.storePoison p = none ∧ s.faultless ∧ 16 ≤ (16#6).toNat ∧
    (0x5FFFE1#64).toNat % 32 ≠ 0 ∧ tasked.unreachable tasked.ctxNo = none ∧ (0x1000000000000#64).toNat / 2 ^ 48 ≠ 0 ∧
    -- the tensor at version 3: version 4 waits and version 3 does not
    (tasked.useDesc 0 .any true).map (·.version) = .ok 3 ∧
    (0x400000000#64).toNat / 2 ^ 32 % 65536 = 4 ∧ (5#3).toNat < 6 ∧ 6 ≤ (6#3).toNat ∧ (7#8).toNat < 8 ∧ 8 ≤ (8#8).toNat := by decide +kernel
theorem witness_PrivateTransfers :
    -- each condition on words that meet it and words that do not
    branchTaken 0 5 5 ∧ ¬ branchTaken 0 5 4 ∧ branchTaken 1 5 4 ∧ branchTaken 2 (-1) 0 ∧ branchTaken 3 0 (-1) ∧ branchTaken 4 0 (-1) ∧
    branchTaken 5 (-1) 0 ∧ ¬ branchTaken 4 (-1) 0 ∧ (7#6).toNat < 8 ∧ st0.bank.readLc 7 = 0 ∧
    (st0.setBank (st0.bank.writeLc 7 1)).bank.readLc 7 ≠ 0 ∧ 8 ≤ (8#6).toNat ∧ st0.faultless := by
  simp only [branchTaken]; decide +kernel
/-- The producer's slot empty and occupied; the consumer's slot empty, with an entry of its word and of another. -/
theorem witness_SharedTransfers :
    let put := fun (s : State) (b : Option BqSlot) => s.setBank { s.bank with q := { s.bank.q with bq := vset s.bank.q.bq 0 b } }
    (sharedForm st0.bank .a (.loop 1 3)).isSome = true ∧ (sharedForm st0.bank .x (.loop 7 1)).isSome = true ∧
    (sharedForm st0.bank .a (.bq 5 1 2 0)).isSome = true ∧
    (sharedForm st0.bank .a (.loop 1 3)).map (·.producer) = some .a ∧
    vget st0.bank.q.bq 0 none = none ∧ vget (put st0 (some ⟨0, 0x10000, true⟩)).bank.q.bq 0 none = some ⟨0, 0x10000, true⟩ ∧
    st0.bank.pc .x = 0x10000 ∧ (st0.bank.q.kX = 0 ∧ (64 : Nat) ≠ 0) ∧
    vget (put st0 (some ⟨64, 0x10000, true⟩)).bank.q.bq 0 none = some ⟨64, 0x10000, true⟩ ∧
    vget (put st0 (some ⟨0, 0x10004, true⟩)).bank.q.bq 0 none = some ⟨0, 0x10004, true⟩ ∧ st0.faultless := by
  refine ⟨rfl, rfl, rfl, rfl, ?_⟩; decide +kernel
/-- Streams at SYNC and HALT and apart from them; the range of WIN and FPC at its ends; a drained bank and one that is not. -/
theorem witness_SharedWords :
    let at_ := fun (w : IWord) => State.reset.placeWords w w
    (at_ 0x80C00000#32).standsAt .x syncWord = true ∧ st0.standsAt .x syncWord = false ∧ 1 ≤ (1#16).toNat ∧ (4096#16).toNat ≤ 4096 ∧
    4096 < (4097#16).toNat ∧ (1#3 : BitVec 3) ≠ 0 ∧ (6#3 : BitVec 3) ≠ 7 ∧ st0.bank.sr.pca = st0.bank.sr.pcx ∧ st0.faultless ∧
    (st0.setBank (st0.bank.mapSr fun r => { r with pca := 0x10004 })).bank.sr.pca ≠ st0.bank.sr.pcx ∧
    st0.standsAt .x haltWord = false ∧ (at_ 0x81800000#32).standsAt .x haltWord = true ∧ st0.bank.drained = true ∧ busy.bank.drained = false ∧
    st0.bank.ctl.status = .running ∧ tasked.curGroup.isSome = true ∧
    (tasked.ctxAt tasked.ctxNo).kernels.find? (fun k => k.slot == tasked.bank.ctl.kslot) =
      some (placedKernel 0x1D000000#32 0x1D000000#32) ∧ kindProduct [] .temporal ≤ 0 + 1 ∧ 0 + 1 < kindProduct [(.temporal, 2)] .temporal ∧
    -- a shard whose cell a yielded one waits for; a supervisor task, which has no group; a handler
    (tasked.bank.ctl.yielding = false ∧ (setCtl tasked fun c => { c with yielding := true }).bank.ctl.yielding = true ∧
      tasked.bank.ctl.owner = some tasked.ctxNo) ∧
    (st0.curGroup = none ∧ st0.ctxNo < 64) ∧ (setCtl st0 fun c => { c with status := .handler }).bank.ctl.status = .handler := by
  decide +kernel
theorem witness_SystemRegisters :
    sysValue st0 0x1F = none ∧ (sysValue st0 0x25).isSome = true ∧ (sysValue st0 0x15).isSome = true ∧ (0x1F : Nat) < 0x20 ∧
    (sup st0).level = .supervisor ∧ st0.level = .task ∧ metFor st0 3 ∧ metFor st0 8 ∧ ownedByX 0x23 ∧
    (st0.setBank (st0.bank.mapSr fun r => { r with pca := 0x10004 })).xMeets = false ∧ st0.faultless ∧ metFor st0 1 := by
  refine ⟨?_, ?_, ?_, ?_, ?_, ?_, ?_, ?_, ?_, ?_, ?_, ?_⟩ <;> decide +kernel
theorem witness_Traps : st0.level = .task ∧ st0.faultless ∧ (st0.ctxAt st0.ctxNo).debug = false ∧
    ((st0.setCtx 0 { st0.ctxAt 0 with debug := true }).ctxAt 0).debug = true ∧
    ((st0.raise .x .align 0).bank.ctl.fault.isSome = true) ∧ (st0.raise .x .align 0).level = .task ∧ (sup st0).level = .supervisor ∧ (sup st0).faultless := by
  decide +kernel
/-- A fault of the paged context, whose save area and handler stand, and of one whose save area does not. -/
def handled : State :=
  paged.setCtx 0 { paged.ctxAt 0 with svslot := 3, kernels := [{ placedKernel 0 0 with slot := 3 }, placedKernel 0x1D000000#32 0x1D000000#32] }
theorem witness_HandlerEntry :
    let f : FaultInfo := ⟨0, .align, 8, 1, 0, none⟩
    let b := (handled.cellAt 0).active.mapCtl fun t => { t with lkeep := true, latA := [], latX := [] }
    let bytes := List.replicate (frameBytes b (handled.cellAt 0) 0 f.kind f.word f.fva f.code).length (0 : Byte)
    (handled.cellAt 0).shadow.ctl.owner = none ∧ (match (handled.passTime 0).saveWrite 0 (slotAddr (handled.ctxAt 0) 0) bytes with
      | .ok _ => true | .error _ => false) = true ∧ ((handled.ctxAt 0).runnable 3).isSome = true ∧ (paged.ctxAt 0).runnable 5 = none ∧
    (match (st0.passTime 0).saveWrite 0 (slotAddr (st0.ctxAt 0) 0) bytes with | .ok _ => true | .error _ => false) = false ∧
    (st0.ctxAt 0).state = .active := by decide +kernel
theorem witness_FaultTaken :
    let s := setCtl st0 fun c => { c with fault := some ⟨0, .align, 8, 1, 0, none⟩, atCut := true }
    let t := setCtl st0 fun c => { c with fault := some ⟨0, .align, 0, 3, 5, none⟩, atCut := true }
    let r := setCtl st0 fun c => { c with fault := some ⟨1, .align, 8, 1, 0, none⟩ }
    let h := setCtl st0 fun c => { c with fault := some ⟨2, .align, 8, 1, 0, none⟩, status := .handler }
    (s.cellAt 0).active.ctl.owner = some 0 ∧ (s.cellAt 0).active.ctl.fault = some ⟨0, .align, 8, 1, 0, none⟩ ∧
    (s.cellAt 0).active.ctl.atCut = true ∧ (s.ctxAt 0).state = .active ∧ (s.ctxAt 0).swapping = false ∧ (s.bank.engineBusy) = false ∧
    (∀ c, c < 256 → s.handlerOn 0 c = false) ∧ (t.cellAt 0).active.ctl.status ≠ .handler ∧ (h.cellAt 0).active.ctl.status = .handler ∧
    h.bank.sr.ctx = 0 ∧ (s.ctxAt 0).state ≠ .free ∧ (t.cellAt 0).active.tileBelow = false ∧
    ((t.setBank { t.bank with walk := ⟨1, 1, 1, 1⟩, eng := { t.bank.eng with tileQ := [⟨0, false, .mzero 0 1, 0⟩] } }).cellAt 0).active.tileBelow = true ∧
    (r.cellAt 0).active.ctl.atCut = false ∧ (r.cellAt 0).shadow.ctl.owner = none ∧ r.saved = [] := by decide +kernel
/-- A handler with its frame at G 0x40000000: ACTION 0 and 1, an ACTION above 1, and the frame of another address. -/
def inHandler (action : Byte) : State :=
  let s := setCtl (setA paged 1 0x40000000) fun c => { c with level := .supervisor, status := .handler, frame := 0x40000000 }
  { s with mem := memPut s.mem 0x80000001 action }
theorem witness_ExceptionReturn :
    (inHandler 0).level = .supervisor ∧ (inHandler 0).bank.ctl.status = .handler ∧ (inHandler 0).faultless ∧
    (inHandler 0).bank.readA 2 ≠ (inHandler 0).bank.ctl.frame ∧ (inHandler 0).bank.readA 1 = (inHandler 0).bank.ctl.frame ∧
    (inHandler 1).rd .g true (0x40000000 + 1) 1 = .ok [1] ∧ (inHandler 2).rd .g true (0x40000000 + 1) 1 = .ok [2] ∧
    (match (inHandler 0).rd .g false 0x40000000 0x8000 with | .ok fr => byteAt fr 1 == 0 && frameBreaks fr | .error _ => false) = true ∧
    (inHandler 0).bank.drained = true ∧ (inHandler 0).cell.shadow.ctl.pend = none ∧ (inHandler 0).cell.shadow.ctl.second = [] ∧
    (inHandler 0).cell.shadow.ctl.yielding = false ∧ (inHandler 0).ctxNo < 64 := by decide +kernel

/-- A supervisor of the paged context whose a5, a6 and a7 hold `g`, `n` and `v`. -/
def paging (g n v : Word) : State := setA (setA (setA (sup paged) 5 g) 6 n) 7 v
/-- A LDVQ entry of the moving bank that is to read G 0x40000000. -/
def reading (s : State) : State :=
  s.setBank { s.bank with q := { s.bank.q with qx := vset s.bank.q.qx 3 [.pending [⟨some 0x40000000, 0x80000000, 512, 2⟩] 0] } }
/-- A copy of 64 bytes of S space from 0x1000 to 0x2000. -/
def copyDesc : List Byte :=
  [0, 0x10, 0, 0, 0, 0, 0, 0, 0, 0x20, 0, 0, 0, 0, 0, 0, 64] ++ List.replicate 103 0#8 ++ [0x10#8] ++ List.replicate 7 0#8
def copyOp (phase : CopyPhase) (wp : Nat) (bar : Option BarRef) : CopyOp :=
  ⟨.cpy, 3, 2, copyDesc, [], bar, 0, 64, wp, phase, [], [], none, [], 0⟩
/-- With copies in channel 2. -/
def copying (s : State) (l : List CopyOp) : State :=
  s.setBank { s.bank with eng := { s.bank.eng with channels := vset s.bank.eng.channels 2 l } }
/-- A context with a replay entry: its copy waits for it, or has gone. -/
def replaying (l : List CopyOp) : State :=
  copying ((paging 0 0 7).setCtx 0 { paged.ctxAt 0 with replays := [⟨7, 0, .pageNotPresent, 0x80000000⟩] }) l
theorem witness_PageInstructions :
    let r : InvRange := ⟨0, 0x40000000, 0x40010000⟩
    let s := paging 0x40000000 0x10000 0
    s.level = .supervisor ∧ s.bank.readA 7 = s.bank.sr.asid ∧ (s.ctxAt s.ctxNo).conf = false ∧ (s.bank.readA 5).toNat + 0x10000 ≤ 2 ^ 56 ∧
    (s.dropTlb r).settled s.ctxNo r = true ∧ s.bank.ctl.invAck = false ∧ ((reading s).dropTlb r).settled (reading s).ctxNo r = false ∧
    ((paging 0x40000001 0x10000 0).bank.readA 5).toNat % 65536 ≠ 0 ∧ 2 ^ 56 < ((paging 0xFFFFFFFFFF0000 0x20000 0).bank.readA 5).toNat + 0x20000 ∧
    65536 ≤ ((paging 0 0 65536).bank.readA 7).toNat ∧ (paging 0 0 65535).bank.readA 7 ≠ s.bank.sr.asid ∧
    s.lookup (some s.cellNo) s.ctxNo 0x80000000 = .notPresent ∧ s.lookup (some s.cellNo) s.ctxNo 0x40000000 =
      .leaf ⟨0, true, true, true, true, true, false, 2, 0x80000000⟩ ∧
    ({ s with mem := memPut s.mem 0x10000E 0x10 } : State).lookup (some s.cellNo) s.ctxNo 0x40000000 = .malformed ∧
    (((replaying []).ctxAt 0).replays.find? fun e => e.token == 7) = some ⟨7, 0, .pageNotPresent, 0x80000000⟩ ∧
    (replaying []).replayed 0 0 7 = none ∧ (replaying []).level = .supervisor ∧ (replaying []).ctxNo < 64 ∧
    (replaying [copyOp (.replay 7) 0 none]).replayed 0 0 7 = some (.active, 0, copyOp (.replay 7) 0 none) ∧
    (s.ctxAt s.ctxNo).replays.find? (fun e => e.token == 7) = none ∧ s.faultless ∧ st0.level = .task := by decide +kernel

/-- With the tag of tile 0. -/
def tagged (t : TileTag) (s : State) : State := s.setBank { s.bank with xf := { s.bank.xf with tags := vset s.bank.xf.tags 0 t } }
theorem witness_XAluResults : (31#6).toNat < 32 ∧ 32 ≤ (32#6).toNat ∧ (0#6).toNat < 32 ∧ st0.faultless := by decide +kernel
theorem witness_XImmediates : (31#6).toNat < 32 ∧ 32 ≤ (32#6).toNat ∧ (4#3).toNat ≤ 4 ∧ 4 < (5#3).toNat ∧ (4032#16).toNat % 64 = 0 ∧
    (4032#16).toNat ≤ 4032 ∧ 4032 < (4096#16).toNat ∧ (1#16).toNat % 64 ≠ 0 ∧ st0.tileHeld 31 = false ∧ busy.tileHeld 0 = true ∧
    (1#3 : BitVec 3) ≠ 0 ∧ st0.faultless := by decide +kernel
theorem witness_LaneArithmetic :
    opType st0 none = some .f32 ∧ opType st0 (some 0) = some .f32 ∧ ElemTy.f32.fmt?.isSome = true ∧ (0#3 : BitVec 3) ≠ 7 ∧ st0.windowFree ∧
    opType (tagged .i32 st0) none = some .i32 ∧ opType (tagged .i32 st0) (some 12) = some .n32 ∧ ElemTy.i32.fmt? = none ∧
    (tagged .i32 st0).windowFree ∧ (tagged .i32 st0).faultless ∧ opType (tagged .bf16 st0) none = some .bf16 ∧
    opType busy none = some .f32 ∧ busy.tileHeld (busy.bank.sr.vwin.toNat / 128) = true ∧
    ElemTy.ofCode (1#4).toNat = some .bf16 ∧ tagAccepts st0.bank.tag .bf16 = false := by decide +kernel
theorem witness_LaneValues : ElemTy.f32.fmt? ≠ none ∧ (0 : Nat) < 1 ∧ (∀ u, Rm.rne ≠ .sto u) ∧
    -- a value of f32, and one that is not: 1 and 1 + 2^-25
    (decodeElem .f32 false 0x3F800000).isNan = false ∧ (roundElem .f32 true false .rne (.fin false 1 0 false)).bits = 0x3F800000 ∧
    (roundElem .f32 true false .rup (.fin false 0x2000001 (-25) false)).bits = 0x3F800001 ∧
    (roundElem .f32 true false .rup (.fin false 0x2000001 (-25) false)).flags.getLsbD 2 = false ∧
    -- a value between 1 and 1 + 2^-64
    (((2 ^ 64 : ℕ) : ℚ) * (2 : ℚ) ^ (-64 : ℤ) < 1 + 2 ^ (-65 : ℤ) ∧ 1 + 2 ^ (-65 : ℤ) < (((2 ^ 64 : ℕ) : ℚ) + 1) * (2 : ℚ) ^ (-64 : ℤ)) :=
  ⟨by decide, by decide, fun _ => Rm.noConfusion, by decide +kernel, by decide +kernel, by decide +kernel, by decide +kernel,
    by norm_num, by norm_num⟩
theorem witness_QuietLanes :
    opType st0 none = some .f32 ∧ st0.windowFree ∧ busy.tileHeld (busy.bank.sr.vwin.toNat / 128) = true ∧ (31#6).toNat < 32 ∧
    32 ≤ (32#6).toNat ∧ st0.faultless ∧ (3#6).toNat < 4 ∧ (queued [.row 1] []).windowFree ∧ (queued [.row 1] []).bank.qx 3 = .row 1 :: [] ∧
    (queued [.pending [] 0] []).bank.qx 3 = .pending [] 0 :: [] ∧ st0.bank.qx 3 = [] ∧
    (queued [.scalar 5] []).bank.qx 3 = .scalar 5 :: [] ∧ (queued [.scalar 5] []).faultless ∧ opType (queued [.scalar 5] []) none = some .f32 ∧
    opType (tagged .bf16 st0) (some 1) = some .bf16 ∧ opType (tagged .i32 st0) none = some .i32 := by decide +kernel
theorem witness_Predicates : opType st0 none = some .f32 ∧ st0.windowFree ∧ (15#6).toNat < 16 ∧ 16 ≤ (16#6).toNat ∧ (7#4).toNat < 8 ∧
    opType (tagged .i32 st0) (some 8) = some .i32 ∧ (31#6).toNat < 32 ∧ 32 ≤ (32#6).toNat ∧ st0.faultless := by decide +kernel
theorem witness_Reductions :
    opType (tagged .i32 st0) none = some .i32 ∧ ElemTy.i32.fmt? = none ∧ (tagged .i32 st0).windowFree ∧ (6#3 : BitVec 3) ≠ 7 ∧
    (31#6).toNat < 32 ∧ opType (tagged .i32 st0) (some 8) = some .i32 ∧ opType st0 (some 0) = some .f32 ∧ ElemTy.f32.fmt?.isSome = true ∧
    st0.windowFree ∧ (st0.bank.controlsX 0).rm ≠ 6 ∧ 32 ≤ (32#6).toNat ∧ st0.faultless := by decide +kernel
theorem witness_SortsAndConversion :
    opType st0 none = some .f32 ∧ st0.windowFree ∧ (62#6).toNat % 2 = 0 ∧ (63#6).toNat % 2 = 1 ∧ opType (tagged .i32 st0) (some 12) = some .n32 ∧
    st0.faultless ∧ (∀ r ∈ [0#6, 2, 4, 62], r.toNat % 2 = 0) ∧
    -- f32 to bf16 in part 1 of 2, bf16 to f32, f32 to o4 in part 7 of 8, and what does not fit
    ElemTy.ofCode (1#4).toNat = some .bf16 ∧ ElemTy.ofCode (0#4).toNat = some .f32 ∧ (0#3 : BitVec 3) ≠ 7 ∧
    (16 ≤ max ElemTy.f32.width ElemTy.bf16.width ∧ (1#3).toNat < 32 / 16) ∧ ¬ ((2#3).toNat < 32 / 16) ∧ ElemTy.ofCode (5#4).toNat = some .o4 ∧
    ElemTy.o4.width = 4 ∧ (7#3).toNat < 32 / 4 ∧ ¬ (16 ≤ max ElemTy.e4m3.width ElemTy.o4.width) := by decide +kernel
/-- x5 names descriptor 1 at its last blocks; the parts of its shift bytes are apart from each other. -/
theorem witness_Quantising :
    let s := setX { tasked with turn := .x } 5 0x1
    let parts : List (Nat × List RowPart) := [(0x200000, []), (0x200008, []), (0x200009, [])]
    opType s none = some .f32 ∧ ElemTy.f32.fmt?.isSome = true ∧ s.windowFree ∧ (0#3 : BitVec 3) ≠ 7 ∧ (5#6).toNat < 32 ∧
    (match s.useDesc 1 .any false with | .ok d => d.ty.blockScaled && decide (64 * 6 + 128 * d.ty.width / 8 ≤ 512) && decide (0 + 128 / 32 ≤ d.blocks)
                                       | .error _ => false) = true ∧
    (match s.useDesc 1 .ws false with | .ok _ => true | .error _ => false) = true ∧ s.mem.wf = true ∧ parts.length = 3 ∧ s.faultless ∧
    (match s.useDesc 1 .ws false with
     | .ok d => (match s.shiftBytes true (d.shiftAddrs [0, 1, 2, 3]), s.shiftBytes false (d.shiftAddrs [0, 1, 2, 3]) with
       | .ok p, .ok q => p.all (fun e => e.2.all fun r => (firstPoison s.dev.poisoned r.key r.len).isNone) && p.length == 3 && p == q &&
           (p.flatMap fun e => e.2.map (·.key)).Nodup
       | _, _ => false)
     | .error _ => false) = true := by decide +kernel

/-- With a barrier of the moving bank. -/
def setBar (s : State) (n : Nat) (b : Barrier) : State := s.setBank (s.bank.putBarrier n b)
/-- A LIVE barrier of scope 1 that expects `e` arrivals and has `n`. -/
def bar (e n : Nat) (held : List HeldItem) : Barrier := ⟨true, false, false, 1, n, e, 0, held, 0⟩
/-- Cells 0 and 1 belong to the context, and cell 1's bank has a barrier. -/
def twoCells : State :=
  let s := setA st0 3 0x2
  let c := s.cellAt 1
  (s.setCtx 0 { s.ctxAt 0 with part := 3 }).setCell 1 { c with
    active := ({ c.active with ctl := { c.active.ctl with owner := some 0, status := .running } } : Bank).putBarrier 3 (bar 2 0 []) }
theorem witness_Barriers :
    -- an arrival that completes nothing, one phase, both phases, and one beyond; at the other phase held, full and beyond
    ((bar 2 0 []).item 1 0 false = .applied (bar 2 1 []) ∧ (bar 1 0 [⟨1, 0⟩]).item 1 0 false = .applied { bar 1 0 [] with phases := 2 } ∧
      (bar 2 1 [⟨1, 0⟩]).item 1 0 false = .applied { bar 2 1 [] with phase := true, phases := 1 } ∧ (bar 1 1 []).item 1 0 false = .beyond ∧
      (bar 20 0 (List.replicate 14 ⟨1, 0⟩)).item 1 0 true = .applied (bar 20 0 (List.replicate 15 ⟨1, 0⟩)) ∧
      (bar 20 0 (List.replicate 15 ⟨1, 0⟩)).item 1 0 true = .full ∧ (bar 1 0 [⟨1, 0⟩]).item 1 0 true = .beyond) ∧
    (4#3).toNat < 5 ∧ 5 ≤ (5#3).toNat ∧ ((setA st0 3 2047).bank.readA 3).toNat = 2047 ∧ 2047 < ((setA st0 3 2048).bank.readA 3).toNat ∧
    (st0.bank.barrier 3).live = false ∧ ((setBar st0 3 (bar 2 1 [])).bank.barrier 3).arrived ≠ 0 ∧ st0.faultless ∧
    -- BXARR of one arrival and BXEXP of bytes; a word of neither form
    ((0x2#64).toNat / 2 ^ 49 = 0 ∧ (0x2#64).toNat / 2 % 2048 ≠ 0) ∧ ((0x400000#64).toNat / 2 ^ 49 = 0 ∧ (0x400000#64).toNat / 2 % 2048 = 0) ∧
    (0x2000000000000#64).toNat / 2 ^ 49 ≠ 0 ∧ ((setBar st0 3 (bar 2 0 [])).bank.barrier 3).live = true ∧
    peerCell twoCells.cellNo (1#3).toNat ≠ twoCells.cellNo ∧ (twoCells.ctxAt twoCells.ctxNo).part.getLsbD 1 = true ∧
    twoCells.bankPlace twoCells.ctxNo 1 ≠ .saved ∧ (twoCells.bankOf twoCells.ctxNo 1).map (·.barrier 3) = some (bar 2 0 []) ∧
    (bar 2 0 []).item 1 0 ((twoCells.bank.readA 3).getLsbD 0) = .applied (bar 2 1 []) ∧ (bar 2 0 []).scope ≠ 0 ∧
    -- the peer form on its own cell, and on a cell whose bank is in its save slot; a barrier of GANG scope and one of another
    (peerCell twoCells.cellNo (0#3).toNat = twoCells.cellNo ∧ (twoCells.ctxAt 0).part.getLsbD 0 = true ∧
      ((setBar twoCells 3 (bar 2 0 [])).bank.barrier 3) = bar 2 0 [] ∧
      ({ twoCells.setCell 1 { twoCells.cellAt 1 with active := .reset } with saved := [⟨0, 1, .reset⟩] } : State).bankPlace 0 1 = .saved ∧
      twoCells.unreachable twoCells.ctxNo = none ∧ (bar 2 0 []).scope ≠ 4 ∧ { bar 2 0 [] with scope := 4 }.scope = 4) ∧
    -- rings: set up, at a word of another form, past S space, and with stages that do not fit
    ((2#6).toNat % 2 = 0 ∧ (3#6).toNat % 2 = 1) ∧
    (let w := 0x0000100400040400
     w / 2 ^ 51 = 0 ∧ 2 ≤ w / 2 ^ 34 % 16 + 1 ∧ 64 * (w / 2 ^ 17 % 2 ^ 17) ≠ 0 ∧ w / 2 ^ 48 % 8 ≤ 4 ∧ 0x801 % 2048 ≠ 0 ∧ 0x801 / 2048 % 2048 ≠ 0 ∧
       64 * (w % 2 ^ 17) + 2 * (64 * (w / 2 ^ 17 % 2 ^ 17)) ≤ 0x600000 ∧ w / 2 ^ 38 % 32 + 2 ≤ w / 2 ^ 43 % 32) ∧
    (0x600000 < 64 * (0x000010040005FFFF % 2 ^ 17) + 2 * (64 * (0x000010040005FFFF / 2 ^ 17 % 2 ^ 17))) ∧
    32 < 0x0000F80400040400 / 2 ^ 43 % 32 + 2 ∧ 8 ≤ 0x0008100400040400 / 2 ^ 48 ∧
    (∀ m ∈ [0, 1, 2, 3], st0.stageFree 1 m = true ∧ (st0.bank.barrier m).quiet = true) ∧ st0.bank.copyNamesRing 1 = false ∧
    (let t := (shows id (exec (.ringset 1 10) (setA (setA st0 10 0x0000100400040400) 11 0x801))).getD st0
     (t.bank.ring 1).isSet = true ∧ (t.bank.ring 1).waitProd + 1 > (t.bank.ring 1).rp ∧ (st0.bank.ring 1).isSet = false) ∧
    st0.bank.barrier 3 = .reset ∧ (bar 2 0 []).phase = false := by decide +kernel

/-- S space holds a descriptor at 0x1000, and a2 names it. -/
def placed (s : State) (d : List Byte) : State := setA { s with mem := memWrite s.mem (spadKey 0 0 0x1000) d } 2 0x1000
/-- With a handle of the moving bank. -/
def setHandle (s : State) (n : Nat) (v : Handle) : State :=
  s.setBank { s.bank with sync := { s.bank.sync with handles := vset s.bank.sync.handles n v } }
theorem witness_Copies :
    let s := placed st0 copyDesc
    let d := copyDescOf copyDesc
    ((1#1 : BitVec 1) = 1 ∧ (2#2 : BitVec 2).toNat = 2) ∧ (s.bank.readA 2).toNat % 128 = 0 ∧ (0x1001#64).toNat % 128 ≠ 0 ∧
    s.rd .s false (s.bank.readA 2) 128 = .ok copyDesc ∧ d.formOk .cpy 3 false false = true ∧ d.formOk .cpy 1 false false = false ∧
    d.ver = false ∧ d.pres = false ∧ s.copyBarrier d false false 0 false = .ok none ∧ s.copyPlace d .cpy = .ok ([], 0) ∧
    (s.bank.handle 3).state = .free ∧ (s.bank.channel 3).length < 16 ∧ s.faultless ∧
    ((setHandle s 3 ⟨.draining, 2, 0, 64⟩).bank.handle 3).state = .draining ∧ ((setHandle s 3 ⟨.filling, 2, 16, 64⟩).bank.handle 3).wp = 16 ∧
    ((setHandle s 3 ⟨.full, 2, 64, 64⟩).bank.handle 3).state = .full ∧
    16 ≤ ((copying s (List.replicate 16 (copyOp .queued 0 none))).bank.channel 2).length ∧ (62#6).toNat % 2 = 0 := by decide +kernel
theorem witness_CopySteps :
    let s := setHandle (copying st0 [copyOp .queued 0 none]) 3 ⟨.filling, 2, 0, 64⟩
    let run := copying st0 [copyOp .running 16 none]
    let d := copyDescOf copyDesc
    (s.cellAt 0).active.ctl.owner = some 0 ∧ (s.cellAt 0).active.channel 2 = [] ++ copyOp .queued 0 none :: [] ∧
    s.mayBegin (.active, 0) (s.cellAt 0).active = true ∧ d.ver = false ∧ run.mem.wf = true ∧
    (run.cellAt 0).active.channel 2 = [] ++ copyOp .running 16 none :: [] ∧ d.sspace = 0 ∧ d.dspace = 0 ∧ run.dev.poisoned = [] ∧
    (∀ j, j < 48 → run.imageHeld 0 0 (d.srcAddr .cpy [] (16 + j)) = true ∧ run.imageHeld 0 0 (d.dstAddr .cpy [] 0 (16 + j)) = true ∧
      d.srcAddr .cpy [] (16 + j) = 0x1010 + j ∧ d.dstAddr .cpy [] 0 (16 + j) = 0x2010 + j) ∧
    (copyOp .running 64 none).wp = (copyOp .running 64 none).total ∧
    ((setBar (copying st0 [copyOp .running 64 (some ⟨0, 3, false⟩)]) 3 (bar 2 0 [])).bank.barrier 3).item 1 0 false = .applied (bar 2 1 []) ∧
    (bar 2 0 []).live = true ∧ (st0.bank.barrier 3).live = false ∧ st0.unreachable 0 = none := by
  decide +kernel

/-- R198's operands: bf16 matrices at S 0x10000 and 0x11000 with PITCH 64 and TPITCH 128, and one trip of the other half. -/
def matrixState : State :=
  let sd := fun (at_ : Nat) => BitVec.ofNat 256 (at_ + 64 * 2 ^ 64 + 128 * 2 ^ 96 + 2 ^ 184)
  let s := setA (setA st0 7 0x0000200000000100) 8 0x100
  s.setBank { s.bank with
    af := { s.bank.af with sd := vset (vset (vset s.bank.af.sd 0 (sd 0x10000)) 1 (sd 0x11000)) 2 (BitVec.ofNat 256 (0x12000 + 64 * 2 ^ 64)) }
    eng := { s.bank.eng with nests := vset s.bank.eng.nests 1 (vset (vget s.bank.eng.nests 1 (Vector.replicate 6 .reset)) 0 ⟨none, 1, 0, 0, 0⟩) } }
/-- Its MMA, with its first step to come. -/
def aNest : MmaOp :=
  ⟨matrixState.bank.readSd 0, matrixState.bank.readSd 1, 32, 16, 0x0000200000000100, matrixState.bank.captureLevels 1 1, false, false, 0, 0⟩
/-- A write-back of 32 rows of 16 lanes to S 0x12000, which completes without a fault. -/
def aStore : MwbOp := ⟨matrixState.bank.readSd 2, 0x100, 32, 16, false, 1, false, false, false, [], none⟩
/-- An operation at the head of the engine's queue. -/
def heading (st : Bool) (w : TileWork) : State :=
  matrixState.setBank { matrixState.bank with eng := { matrixState.bank.eng with tileQ := [⟨0, st, w, 0⟩] } }
theorem witness_MatrixEngine :
    let s := matrixState
    let b := s.bank
    ((0#2 : BitVec 2) ≠ 3 ∧ 1 ≤ (1#3).toNat ∧ (6#3).toNat ≤ 6 ∧ ¬ (7#3).toNat ≤ 6) ∧ s.checkMma aNest = .ok () ∧ b.eng.tileQ.length < 2 ∧
    2 ≤ busy.bank.eng.tileQ.length ∧ s.checkMma { aNest with place := 0 } = .error (.fault .operandFormat 0) ∧ s.faultless ∧
    aNest.levels[0]? = some ⟨none, 1, 0, 0, 0⟩ ∧
    ((0x1FFF001#64).toNat / 2 ^ 25 = 0 ∧ (0x1000#64).toNat % 4096 + (0x1000#64).toNat / 4096 % 8192 ≤ 4096 ∧
      4096 < (0x1FFF001#64).toNat % 4096 + (0x1FFF001#64).toNat / 4096 % 8192) ∧
    quantising (b.readSd 2) false = false ∧ mwbPlaceOk (b.readA 8) 32 16 false 0 (b.readA 0) = true ∧ (b.controlsA 0).rm ≠ 6 ∧
    (sdTv (b.readSd 2) = false ∧ sdBgeom (b.readSd 2) = 0) ∧ s.checkSd (b.readSd 2) 16 .w = .ok none ∧
    (match s.mwbParts (b.readSd 2) 32 16 32 with | .ok _ => true | .error _ => false) = true ∧
    (heading false (.mma aNest)).linesReady = true ∧ (heading false (.mma aNest)).enginesRun = true ∧
    (heading false (.mma aNest)).xPending 0 (TileWork.mma aNest).tiles = false ∧
    (heading false (.mma aNest)).versionsOf 0 (.mma aNest) = .ok true ∧ aNest.finished = false ∧
    stepPoison (heading true (.mma aNest)) 0 0 aNest aNest.stepLen = none ∧ (s.ctxAt 0).swapping = false ∧
    (0 ≤ (placeCrow aNest.place : Int) + offsetAt (·.sc) aNest.levels 0 ∧ placeClane aNest.place + aNest.n ≤ 128) ∧
    rowsAscend b.xf.acc = true ∧ aStore.poison b = none ∧ aNest.advance.finished = true ∧ s.dev.poisoned = [] ∧ s.mem.wf = true ∧
    ((aStore.writes 0 0 (aStore.codes b fun _ _ => -(sdEts aStore.sd))).map (·.1)).length = 2048 ∧
    (let ks := (aStore.writes 0 0 (aStore.codes b fun _ _ => -(sdEts aStore.sd))).map (·.1); (ks.zip ks.tail).all fun p => decide (p.1 < p.2)) = true := by decide +kernel
/-- R198's example: what the step leaves in the lane, with NX. -/
theorem test_kstep :
    let one : Machine.Num := decodeElem .bf16 false 0x3F80
    let col := [decodeElem .bf16 false 0x4B80] ++ List.replicate 15 one ++ [decodeElem .bf16 false 0xCB80] ++ List.replicate 15 one
    laneStep false false false 0 ((List.replicate 32 one).zip col) = (0x41F80000, 1) := by decide +kernel

/-- The task's group at another number of folds. -/
def folded (n : Nat) : State := tasked.setGroup { aGroup with folds := n }
/-- A task's state with an engine operation outstanding. -/
def engaged (s : State) : State :=
  s.setBank { s.bank with eng := { s.bank.eng with tileQ := [⟨0, false, .mzero 0 1, 0⟩] } }
theorem witness_TensorRecords :
    let s := setA (setA tasked 5 0x1000) 6 4
    let ps : List RowPart := [⟨none, spadKey 0 0 0x1000, 256, 0⟩]
    let vs : List RowPart := [⟨some 0x4002002C, 0x8002002C, 4, 2⟩]
    (s.bank.readA 0).toNat < 65536 ∧ (s.useDesc 0 .s false).map (·.version) = .ok 3 ∧ s.mem.wf = true ∧ (s.snapshotOf 0).hist.length = 48 ∧
    (s.bank.readA 5).toNat % 64 = 0 ∧ s.resolve .s (Access.store s.level) 0x1000 256 = .ok ps ∧ s.storePoison ps = none ∧ s.faultless ∧
    (0x1020#64).toNat % 64 ≠ 0 ∧ (s.useDesc 0 .c false).map (·.version) = .ok 3 ∧ s.curGroup = some aGroup ∧ s.bank.enginesDone = true ∧
    aGroup.ctx = s.ctxNo ∧ s.ctxNo < 64 ∧ (engaged s).bank.enginesDone = false ∧ (engaged s).curGroup = some aGroup ∧
    aGroup.folds < s.bank.ctl.foldDone + 1 ∧ ((folded 1).curGroup.any fun g => (folded 1).bank.ctl.foldDone < g.folds) = true ∧
    aGroup.cells = [s.cellNo] ∧ aGroup.halted = [false] ∧ s.bankPlace s.ctxNo s.cellNo = .active ∧ s.bank.walk.wa ≤ s.bank.walk.wx ∧
    s.unreachable s.ctxNo = none ∧ (s.useDesc 0 .v true).map (·.version) = .ok 3 ∧ 3 < (s.bank.readA 6).toNat ∧ (s.bank.readA 6).toNat < 2 ^ 32 ∧
    s.resolveG none s.ctxNo { Access.store .supervisor with annotated := true } ((s.ctxAt s.ctxNo).descAddr 0 + 0x2C) 4 = .ok vs ∧
    s.storePoison vs = none ∧ (s.bank.readA 0).toNat ≤ 3 ∧ (17#64).toNat ≤ 17 ∧ 17 < (18#64).toNat ∧ 65536 ≤ (0x10000#64).toNat ∧
    (2#3 ≠ 3#3 ∧ 2#3 ≠ 4#3) := by decide +kernel

/-- A TCB of context 0 with a STATE and a PRED (R274). -/
def withTcb (s : State) (i st pred : Nat) : State :=
  { s with mem := memWrite s.mem (0x80010000 + 128 * i) ([BitVec.ofNat 8 st] ++ List.replicate 7 0 ++ bytesOfNat 4 pred) }
/-- The task's state with task 1 in STATE `st` with PRED `pred`, task 2 in `st2`, a5 naming task 1 and a6 task 2. -/
def tasks (st pred st2 : Nat) : State := setA (setA (withTcb (withTcb tasked 1 st pred) 2 st2 0) 5 1) 6 2
/-- A read of a TCB shows this STATE, PRED, NSUCC and CXL. -/
def tcbShows (s : State) (i : Nat) (v : Nat × Nat × Nat × Bool) : Bool :=
  match s.readTcb 0 i with
  | .ok b => (tcbState b, tcbPred b, tcbNsucc b, tcbCxl b) == v
  | .error _ => false
/-- Some result is no stop. -/
def succeeds {α : Type} (r : Except Stop α) : Bool := match r with | .ok _ => true | .error _ => false
theorem witness_TaskInstructions :
    let s := placed (tasks 0 0 0) (List.replicate 8 0 ++ [1, 0, 0, 0] ++ List.replicate 116 0)
    let s := setA s 2 0x1000
    (s.bank.readA 5).toNat < 2 ^ 20 ∧ (s.bank.readA 5).toNat < (s.ctxAt 0).tcbCount ∧ s.level = .task ∧ (s.bank.readA 2).toNat % 128 = 0 ∧
    (s.rd .s false (s.bank.readA 2) 128).map imageOk = .ok true ∧ tcbShows s 1 (0, 0, 0, false) = true ∧ s.curGraph = some aGraph ∧
    succeeds (s.agentWrite 0 0x40010080 (spawnedTcb (List.replicate 128 0) 9) true) = true ∧
    -- the cell's counter has registered, and has not
    ({ aGraph with counters := [(.cell 0, 0)] } : Graph).registered (.cell s.cellNo) = true ∧ aGraph.registered (.cell s.cellNo) = false ∧
    (let s := s.setGraph { aGraph with counters := [(.cell 0, 0)] }
     match s.createTask 1 (s.bank.readA 2) with
     | .ok (some u) => tcbShows u 1 (1, 1, 0, false) && succeeds (u.agentWrite 0 0x40010080 (List.replicate 8 0) true)
     | _ => false) = true := by decide +kernel
theorem witness_TaskStates :
    let c := tasks 1 1 1
    tcbShows c 1 (1, 1, 0, false) = true ∧ succeeds (c.agentWrite 0 0x40010080 (List.replicate 8 0) true) = true ∧
    tcbShows (tasks 1 0 1) 1 (1, 0, 0, false) = true ∧ succeeds ((tasks 1 0 1).makeReady 0 1 0) = true ∧ c.faultless ∧
    tcbShows (tasks 2 0 1) 1 (2, 0, 0, false) = true ∧ tcbShows c 2 (1, 0, 0, false) = true := by decide +kernel
theorem witness_TaskWrites :
    let c := tasks 1 1 1
    tcbShows (tasks 6 0 1) 1 (6, 0, 0, false) = true ∧ tcbShows (tasks 1 0 2) 2 (2, 0, 0, false) = true ∧
    tcbShows (tasks 0x12 0 1) 1 (2, 0, 0, true) = true ∧ tcbShows (tasks 4 0 1) 1 (4, 0, 0, false) = true ∧
    (match c.agentWrite 0 0x400100C8 [2, 0, 0, 0] true with
     | .ok u => (match u.agentWrite 0 0x400100A2 [1, 0] true with
       | .ok v => succeeds (v.agentWrite 0 0x40010108 [1, 0, 0, 0] true)
       | .error _ => false)
     | .error _ => false) = true ∧
    c.yieldsTo = none ∧ (c.bank.readA 5).toNat < aGraph.nguard ∧ aGraph.guards = [] ∧
    succeeds (c.wr .g true (aGraph.guardBase + 8) (List.replicate 8 0) ) = true ∧ (sup c).level = .supervisor ∧
    ¬ (16 < (c.ctxAt 0).tcbCount) ∧ (List.replicate 128 (0 : Byte)).length = 128 := by decide +kernel

/-- A future at G 0x40000100, named by a5: its state word and value. -/
def future (s : State) (w v : Word) : State :=
  setA { s with mem := memWrite (memWrite s.mem 0x80000100 (bytesOfNat 8 w.toNat)) 0x80000108 (bytesOfNat 8 v.toNat) } 5 0x40000100
theorem witness_Futures :
    let ps : List RowPart := [⟨some 0x40000100, 0x80000100, 16, 2⟩]
    let s := future (tasks 2 2 0) 0x6000000000000001 0
    let word := fun (t : State) => (BitVec.ofNat 64 (natOfBytes ((t.peekParts ps).take 8)) : Word)
    -- every word of the table
    ((0x4000000000000000#64).toNat / 2 ^ 62 = 1 ∧ (0xC000000000000000#64).toNat / 2 ^ 62 = 3 ∧ (0x2000000000000000#64).getLsbD 61 = true) ∧
    (0x40000108#64).toNat % 16 ≠ 0 ∧ (s.bank.readA 5).toNat % 16 = 0 ∧ s.faultless ∧
    (setA s 5 0x80000000).resolve .g (Access.atomic s.level) 0x80000000 16 = .error (.fault .pageNotPresent 0x80000000) ∧
    s.resolve .g (Access.atomic s.level) 0x40000100 16 = .ok ps ∧ s.clean ps ∧ s.mem.wf = true ∧ word s = 0x6000000000000001 ∧
    futStep (word s) 0 .new = .double ∧ futStep (word (future tasked 0 0)) 0 (.res 7) = .write 0x8000000000000000 7 none ∧
    futStep (word s) 0 (.res 7) = .write 0xA000000000000001 7 (some 1) ∧
    (match s.writeParts ps (List.replicate 16 0) with
     | .ok u => (match u.decPred 0 1 0 with | .ok (.done _) => true | _ => false)
     | .error _ => false) = true ∧
    (match (future (tasks 3 0 0) 0x6000000000000001 0).writeParts ps (List.replicate 16 0) with
     | .ok u => u.decPred 0 1 0 == .ok .bad
     | .error _ => false) = true ∧
    ((15#64).toNat < 2 ^ 20 ∧ (15#64).toNat < (s.ctxAt 0).tcbCount ∧ ¬ (16#64).toNat < (s.ctxAt 0).tcbCount) ∧
    (1 ≤ (254#64).toNat ∧ (254#64).toNat ≤ 254 ∧ ¬ (255#64).toNat ≤ 254) := by decide +kernel

/-- An ALLREDUCE of 16 u32 sums over a cell group, from S 0x2000 to S 0x2000 (R362). -/
def collDesc : List Byte :=
  [0, 0x20, 0, 0, 0, 0, 0, 0, 0, 0x20, 0, 0, 0, 0, 0, 0, 16, 0, 0, 0, 0, 0, 12, 2] ++ List.replicate 40 0
/-- It in the queue of the task's cell, to be done or to arrive at barrier 3. -/
def collOp (d : Bool) : CollOp := ⟨collDesc, 3, false, 0, (collDescOf collDesc).digest, [], [], none, d, 0⟩
/-- With collectives in the queue and barrier 3 LIVE. -/
def collecting (b : Barrier) (l : List CollOp) : State :=
  let s := setBar (placed tasked collDesc) 3 b
  s.setBank { s.bank with eng := { s.bank.eng with collQ := l } }
theorem witness_Collectives :
    let s := collecting (bar 2 0 []) []
    let d := collDescOf collDesc
    let t := collecting (bar 2 0 []) [collOp true]
    let u := collecting (bar 2 0 []) [collOp false]
    (s.bank.readA 2).toNat % 64 = 0 ∧ (0x1020#64).toNat % 64 ≠ 0 ∧ s.rd .s false (s.bank.readA 2) 64 = .ok collDesc ∧ s.curGroup = some aGroup ∧
    s.collRanks aGroup d.scope = 1 ∧ d.ok 1 (s.inGang s.ctxNo) = true ∧ (collDescOf (List.replicate 64 0)).ok 1 true = false ∧ d.pres = false ∧
    (st0.bank.barrier 3).live = false ∧ (s.bank.barrier 3).live = true ∧ (s.bank.barrier 3).ring = false ∧ s.collShown d = .ok none ∧
    s.collBuffer d.srcG (Access.load s.level) d.src (d.srcBytes 1) = .ok [] ∧ s.collBuffer d.dstG (Access.store s.level) d.dst (d.dstBytes 1) = .ok [] ∧
    d.apart 1 = true ∧ (collDescOf ([0, 0x20, 0, 0, 0, 0, 0, 0, 1, 0x20] ++ collDesc.drop 10)).apart 1 = false ∧ s.faultless ∧
    s.bank.eng.collQ.length < 4 ∧ 4 ≤ (collecting (bar 2 0 []) (List.replicate 4 (collOp false))).bank.eng.collQ.length ∧
    t.placeWhere 0 t.canCollect = some (.active, 0) ∧ (t.bankIn .active 0 0).map (·.eng.collQ) = some [collOp true] ∧
    t.bank.ctl.group.bind t.groupAt = some aGroup ∧ (collOp true).done = true ∧ (bar 2 0 []).scope ≠ 4 ∧ t.unreachable 0 = none ∧ (bar 2 0 []).item 1 0 false = .applied (bar 2 1 []) ∧
    (bar 20 0 (List.replicate 15 ⟨1, 0⟩)).item 1 0 true = .full ∧
    u.placeWhere 0 u.canCollect = some (.active, 0) ∧ u.collLocals aGroup d.scope 0 = [(0, 0)] ∧
    ([(0, 0)].filterMap (u.partOf aGroup 0)).length = 1 ∧ ([(0, 0)].filterMap (s.partOf aGroup 0)).length = 0 ∧
    ([(0, 0)].filterMap (u.partOf aGroup 0)).all (fun q => q.op.digest == d.digest && u.partHeld 0 1 q) = true ∧
    succeeds (u.moveAll 0 1 ([(0, 0)].filterMap (u.partOf aGroup 0)) []) = true := by decide +kernel

/-- A galley entry of die 0. -/
def entry (dead : Bool) : GalleyEntry := ⟨⟨.a, 1, 0, none, none⟩, 1, dead, 2, 0⟩
theorem witness_EventsAtCells :
    let bad := State.reset.placeWords 0xC0000000#32 0x1D000000#32
    let other := { st0 with turn := .x }
    let ahead := st0.setBank { st0.bank with walk := ⟨4096, 0, 4096, 0⟩ }
    let apart := st0.setBank (st0.bank.mapSr fun r => { r with pca := 0x10004 })
    let meets := (encode (.swr 8 0x23)).headD 0
    (bad.wordHere = some (0xC0000000#32, some 0x1D000000#32) ∧ tagOf 0xC0000000#32 = 3#2 ∧ taggedFor 0xC0000000#32 .a = false ∧ bad.faultless) ∧
    (other.wordHere = some (0x1D000000#32, some 0x1D000000#32) ∧ tagOf 0x1D000000#32 ≠ 3#2 ∧ taggedFor 0x1D000000#32 .x = false ∧
      longOf 0x1D000000#32 = false) ∧ (taggedFor 0x1D000000#32 .a = true) ∧
    (st0.bank.lead .a < st0.bank.window .a ∧ ahead.bank.window .a ≤ ahead.bank.lead .a) ∧
    (meetsX meets = true ∧ taggedFor meets .x = false ∧ st0.bank.walk.wmaxa ≤ st0.bank.walk.wx) ∧
    (st0.canRun .a = true ∧ st0.faultless) ∧ st0.bank.pc .a = st0.bank.pc .x ∧
    apart.bank.pc .a ≠ apart.bank.pc .x ∧ State.reset.canRun .a = false := by decide +kernel
/-- A poisoned arrival, the watchdog, a page that comes while its handler runs, a pending invalidation (R25, R341, R343, R219). -/
theorem witness_AgentsAtCells :
    let waits := setCtl st0 fun c => { c with waitA := true, waitX := true, wdog := 2 ^ 63 }
    let h := setCtl waits fun c => { c with status := .handler }
    let inv : InvRange := ⟨0, 0x40000000, 0x40010000⟩
    let f : FaultInfo := ⟨0, .pageNotPresent, 0x80000000, 1, 0, none⟩
    let swapping := setCtl (paged.setCtx 0 { paged.ctxAt 0 with swapping := true }) fun c => { c with ahead := [f] }
    (st0.bank.ctl.owner = some 0 ∧ 0x8000 / 8 * 8 ∉ st0.dev.poisoned ∧ (st0.ctxAt 0).state ≠ .free ∧ (st0.ctxAt 0).state ≠ .retired) ∧
    (waits.bank.ctl.owner = some 0 ∧ (waits.ctxAt 0).state ≠ .lost ∧ waits.bank.watched = true ∧
      2 ^ (waits.ctxAt 0).wdshift ≤ waits.bank.ctl.wdog ∧ waits.bank.ctl.status = .running) ∧
    (h.bank.watched = true ∧ h.bank.ctl.status = .handler ∧ h.ctxNo < 64) ∧
    ((st0.places 0).all fun q => (st0.bankIn q.1 q.2 0).all fun d => d.watched == false) = true ∧
    (inG 0x40000000 1 = true ∧ (paged.ctxAt 0).swapping = false ∧
      paged.walk 0 0x40000000 = .leaf ⟨0, true, true, true, true, true, false, 2, 0x80000000⟩ ∧ paged.walk 0 0x80000000 = .notPresent) ∧
    ((swapping.ctxAt 0).swapping = true ∧ swapping.bank.ctl.fault = none ∧ swapping.bank.ctl.pend = none ∧
      (swapping.bank.ctl.ahead.find? fun f => f.fva.toNat / 65536 == 0x80000008 / 65536) = some f) ∧
    ((setCtl paged fun c => { c with invWait := some inv }).bank.ctl.invWait = some inv ∧ paged.settled paged.ctxNo inv = true) ∧
    st0.bank.ctl.invWait = none := by decide +kernel
/-- An eager kernel, and a live and a dead galley entry (R69, R72, R75). -/
theorem witness_GalleyEvents :
    let eager := { placedKernel 0 0 with eager := true }
    let galley := fun (e : GalleyEntry) => ({ st0 with sched := { st0.sched with galleys := vset st0.sched.galleys 0 ⟨[e], 1⟩ } } : State)
    ((st0.setCtx 0 { st0.ctxAt 0 with kernels := [eager] }).kernelIn 0 0 = some eager ∧ eager.state = .resident ∧
      eager.eagerDone.getLsbD 0 = false ∧ ({ eager with eagerDone := 1 } : Kernel).eagerDone.getLsbD 0 = true) ∧
    st0.kernelIn 0 0 = some (placedKernel 0x1D000000#32 0x1D000000#32) ∧
    ((vget (galley (entry true)).sched.galleys 0 ⟨[], 0⟩).entries[0]? = some (entry true) ∧ (galley (entry true)).entryHeld 0 1 = false) ∧
    (entry false).dead = false ∧ (galley (entry false)).galleyHit 0 (entry false).key = some (entry false) ∧
    st0.galleyHit 0 (entry false).key = none ∧ st0.entryHeld 0 0 = true := by decide +kernel
/-- TEXT of two chunks, the streams at the last word of the first one. -/
def twoChunks : State :=
  let k := { placedKernel 0x1D000000#32 0x1D000000#32 with
    textG := 0x400B0000, text := List.replicate 1025 0x1D000000#32, textLen := 8192, leaves := [1, 2] }
  (texted.setBank (texted.bank.mapSr fun r => { r with pca := 0x400B0FFC, pcx := 0x400B0FFC })).setCtx 0 { texted.ctxAt 0 with kernels := [k] }
/-- A stream that needs its region, of one chunk and of two, good and bad; a kernel whose TEXT holds a new entry's leaf. -/
theorem witness_Regions :
    let chunk := fun (l : Digest) => ({ leaf := l, ctx := none, code := [], count := 1, bad := false } : Chunk)
    st0.needsRegion .a = none ∧
    (texted.needsRegion .a).map (fun r => (r.1, r.2.2.1, r.2.2.2)) = some (0, 0, ⟨.a, 0, 0, none, none⟩) ∧
    (texted.kernel.map fun k => texted.textCheck k 0 (texted.bank.pc .a)) = some none ∧
    texted.chunkBad ⟨.a, 0, 0, none, none⟩ = false ∧ texted.bank.ctl.fault = none ∧ ((chunk 0).ctx = none ∧ (chunk 0).leaf = 0) ∧
    (twoChunks.needsRegion .a).map (fun r => r.2.2.2) = some ⟨.a, 1, 1023, some 2, none⟩ ∧ (chunk 2).leaf = 2 ∧
    texted.bank.ctl.tries .a 0x400B0000 = 0 ∧ (setCtl texted fun c => { c with triesA := (0x400B0000, 2) }).bank.ctl.tries .a 0x400B0000 = 2 ∧
    (twoChunks.kernelIn 0 0).map (fun k => (k.state, k.leaves.contains 1, twoChunks.keyCtx 0)) = some (.resident, true, none) := by
  decide +kernel

/-- With the device in a state, after some failed starts. -/
def devIn (d : DevState) (n : Nat) : State := { st0 with dev := { st0.dev with state := d, failedStarts := n } }
theorem witness_DeviceEvents :
    ((devIn .off 2).dev.state = .off ∧ (devIn .off 2).dev.failedStarts ≤ 2) ∧ (2 < (devIn .off 3).dev.failedStarts) ∧ st0.dev.state ≠ .off ∧
    ((devIn .starting 0).dev.state = .starting ∧ (devIn .starting 0).dev.service.verifies = true) ∧
    ({ (devIn .starting 0) with dev := { (devIn .starting 0).dev with service := ⟨1, false⟩ } } : State).dev.service.verifies = false ∧
    (devIn .starting 0).mem.wf = true ∧ st0.dev.state = .ready ∧ (devIn .recovery 3).dev.state = .recovery ∧
    (devIn .stopped 3).dev.state = .stopped ∧ (∀ p, p < 18 → (vget st0.net.ports p .reset).state ≠ .training) ∧ st0.mem.wf = true ∧
    (vget (vset st0.net.ports 17 { Port.reset with state := .training }) 17 .reset).state = .training ∧ st0.dev.alarm = false ∧
    ({ st0 with dev := { st0.dev with alarm := true } } : State).dev.alarm = true ∧
    (tierOf 0x80000000 = .near ∧ 0x80000000 / 8 * 8 ≠ 0x1DFFFFFFFF8) ∧ (2 ^ 52 ≤ spadKey 0 0 0 ∧ spadKey 63 255 0x5FFFFF < 2 ^ 56) ∧
    (tierOf 0x80000000 ≠ .hole ∧ (255 : Nat) < 256 ∧ (4095 : Nat) < 4096 ∧ (63 : Nat) < 64) ∧ (st0.ctxAt 0).conf = false ∧
    ((st0.setCtx 0 { st0.ctxAt 0 with conf := true }).ctxAt 0).conf = true ∧
    ((17 : Nat) < 18 ∧ (2 : Nat) ≤ 2) := by decide +kernel

/-- A context as it stands in one of its states; its cell 0 holds its bank in the active bank. -/
def inState (st : CtxState) (sw : Bool) : State := paged.setCtx 0 { paged.ctxAt 0 with state := st, swapping := sw }
/-- Cell 0 holds nothing. -/
def idleCell (s : State) : State := s.setCell 0 { s.cellAt 0 with active := .reset, shadow := .reset }
/-- Its bank stands in the shadow bank. -/
def shadowed (st : CtxState) (sw : Bool) : State :=
  let s := inState st sw
  s.setCell 0 { s.cellAt 0 with active := .reset, shadow := (s.cellAt 0).active }
/-- A creation request for context 1 on cell 1 (R330): its structures stand on the page at G 0x40000000 of the table at 0. -/
def request : List Byte :=
  let w := fun (n : Nat) => bytesOfNat 8 n
  [1, 0, 1, 0, 1, 24, 0, 0] ++ w 0 ++ w 0x41000000 ++ w 0x40030000 ++ w 0x40010000 ++ [16, 0, 0, 0, 0, 0, 95, 0] ++ w 0x40400000 ++
    w 0x40040000 ++ w 0x40050000 ++ w 0x40060000 ++ [2] ++ List.replicate 47 0
/-- A context whose bank stands in its save slot. -/
def spilled (st : CtxState) : State :=
  let s := idleCell (inState st false)
  let c := { s.ctxAt 0 with saveDigests := [(0, 0)] }
  { s.setCtx 0 c with saved := [⟨0, 0, .reset⟩] }
/-- Context 1 has its image in line 3 of cell 0, and both save areas are mapped. -/
def taggedLine : State :=
  let s := paged.setCtx 1 (paged.ctxAt 0)
  s.setCell 0 { s.cellAt 0 with lineTags := vset (s.cellAt 0).lineTags 3 (some 1) }
theorem witness_ContextLife :
    let load := (inState .loading false).setCtx 0 { (inState .loading false).ctxAt 0 with nqueue := 2 }
    let sv := (idleCell paged).setCtx 0 { paged.ctxAt 0 with evtPosted := 1 }
    (paged.mem.wf = true ∧ paged.createOk request none = true) ∧ (st0.createOk [] none = false ∧ request.length = 128) ∧
    ((partsOf (leAt request 0x10 8) 0x820000).head?.map (fun p => keyIn p.1 (walkFrom ⟨paged.mem, [], []⟩ p.1 0 walkLevels)) = some 0x81000000) ∧
    (byteAt request 1 = 0 ∧ (let c : List Byte := [1, 1] ++ request.drop 2; byteAt c 1 % 2 = 1 ∧ paged.hostSession 0 = false)) ∧
    ((paged.ctxAt 0).state ≠ .free ∧ (load.ctxAt 0).conf = false ∧ succeeds (load.enableQueues 0) = true) ∧
    ((∀ i ∈ partCells ((idleCell (inState .ready false)).ctxAt 0).part, ((idleCell (inState .ready false)).cellAt i).free = true) ∧
      (idleCell (inState .ready false)).saved = []) ∧
    ((inState .ready false).cellAt 0).free = false ∧ partCells (paged.ctxAt 0).part = [0] ∧
    ((setCtl (inState .active true) fun c => { c with status := .handler }).handled 0 = true ∧ (inState .active true).handled 0 = false) ∧
    ((paged.ctxAt 0).state = .active ∧ (paged.ctxAt 0).swapping = false ∧ paged.handled 0 = false) ∧
    ((inState .active true).shadowFree 0 0 = true ∧ ((inState .active true).cellAt 0).active.ctl.owner = some 0) ∧
    (((shadowed .shadow true).cellAt 0).free = true ∧ ((shadowed .shadow true).cellAt 0).shadow.ctl.owner = some 0 ∧
      ((shadowed .shadow true).cellAt 0).shadow.ctl.yielding = false) ∧
    ((shadowed .spilling false).spillReady 0 = true ∧ ((shadowed .spilling false).cellAt 0).shadow.shardOf 0 = true) ∧
    (((spilled .restoring).cellAt 0).free = true ∧ ((spilled .restoring).ctxAt 0).saveDigests.find? (·.1 == 0) = some (0, 0) ∧
      (spilled .restoring).saved.find? (fun e => e.ctx == 0 && e.cell == 0) = some ⟨0, 0, .reset⟩) ∧
    (vget (taggedLine.cellAt 0).lineTags 3 none = some 1 ∧ (taggedLine.cellAt 0).active.ctl.owner = some 0 ∧
      firstPoison taggedLine.dev.poisoned (spadKey 1 0 (3 * 65536)) 65536 = none) ∧
    ((idleCell (inState .retired false)).enginesStopped 0 = true ∧
      (copying (inState .retired false) [copyOp .running 0 none]).enginesStopped 0 = false) ∧
    (((sv.ctxAt 0).runnable (sv.ctxAt 0).svslot).isSome = true ∧ (sv.ctxAt 0).evtTaken < (sv.ctxAt 0).evtPosted ∧ (sv.ctxAt 0).svTask = false ∧
      (sv.cellAt 0).free = true ∧ (sv.cellAt 0).held = none) ∧ (paged.ctxAt 0).evtTaken = (paged.ctxAt 0).evtPosted := by decide +kernel
/-- A read or a write of the save area is no error. -/
def saves {α : Type} (r : Except Nat α) : Bool := match r with | .ok _ => true | .error _ => false
theorem witness_SaveArea :
    saves ((spilled .restoring).saveRead 0 (slotAddr ((spilled .restoring).ctxAt 0) 0) 0x220000) = true := by decide +kernel
/-- The digests that a context keeps are no part of what a read of its save area gives. -/
theorem saveRead_digests (s : State) (l : List (Nat × Digest)) (g n : Nat) :
    (s.setCtx 0 { s.ctxAt 0 with saveDigests := l }).saveRead 0 g n = s.saveRead 0 g n := by
  have e : (s.setCtx 0 { s.ctxAt 0 with saveDigests := l }).ctxAt 0 = { s.ctxAt 0 with saveDigests := l } :=
    vget_vset_eq s.ctxs 0 _ _ (by decide)
  have w : ∀ k, (s.setCtx 0 { s.ctxAt 0 with saveDigests := l }).walk 0 k = s.walk 0 k := by
    intro k; simp only [State.walk, State.tables, e]; rfl
  unfold State.saveRead State.saveParts
  simp only [w]
  rfl
/-- One whose save area can be read keeps either digest. -/
theorem restores (s : State) (bs : List Byte) (d : Digest)
    (c : (s.ctxAt 0).state = .restoring ∧ (s.ctxAt 0).swapping = false ∧ partCells (s.ctxAt 0).part = [0] ∧ (s.cellAt 0).free = true ∧
      (s.saved.find? fun e => e.ctx == 0 && e.cell == 0).isSome = true)
    (h : s.saveRead 0 (slotAddr (s.ctxAt 0) 0) 0x220000 = .ok bs) : ∃ t : State,
    (t.ctxAt 0).state = .restoring ∧ (t.ctxAt 0).swapping = false ∧ partCells (t.ctxAt 0).part = [0] ∧ (t.cellAt 0).free = true ∧
      (t.ctxAt 0).saveDigests.find? (·.1 == 0) = some (0, d) ∧ (t.saved.find? fun e => e.ctx == 0 && e.cell == 0).isSome = true ∧
      t.saveRead 0 (slotAddr (t.ctxAt 0) 0) 0x220000 = .ok bs := by
  have k : (s.setCtx 0 { s.ctxAt 0 with saveDigests := [(0, d)] }).ctxAt 0 = { s.ctxAt 0 with saveDigests := [(0, d)] } :=
    vget_vset_eq s.ctxs 0 _ _ (by decide)
  refine ⟨s.setCtx 0 { s.ctxAt 0 with saveDigests := [(0, d)] }, ?_⟩
  rw [k]
  exact ⟨c.1, c.2.1, c.2.2.1, c.2.2.2.1, rfl, c.2.2.2.2, (saveRead_digests s _ _ _).trans h⟩
/-- A restore of a context whose device-format region has the digest of its spill, and of one that has another. -/
theorem witness_Restore : ∃ (s t : State) (d e : Nat × Digest) (bs : List Byte),
    ((s.ctxAt 0).state = .restoring ∧ (s.ctxAt 0).swapping = false ∧ partCells (s.ctxAt 0).part = [0] ∧ (s.cellAt 0).free = true ∧
      (s.ctxAt 0).saveDigests.find? (·.1 == 0) = some d ∧ (s.saved.find? fun e => e.ctx == 0 && e.cell == 0).isSome = true ∧
      s.saveRead 0 (slotAddr (s.ctxAt 0) 0) 0x220000 = .ok bs ∧ sha3 ((bs.drop 0x8000).take 0x18000) = d.2) ∧
    ((t.ctxAt 0).state = .restoring ∧ (t.ctxAt 0).swapping = false ∧ partCells (t.ctxAt 0).part = [0] ∧ (t.cellAt 0).free = true ∧
      (t.ctxAt 0).saveDigests.find? (·.1 == 0) = some e ∧ (t.saved.find? fun e => e.ctx == 0 && e.cell == 0).isSome = true ∧
      t.saveRead 0 (slotAddr (t.ctxAt 0) 0) 0x220000 = .ok bs ∧ sha3 ((bs.drop 0x8000).take 0x18000) ≠ e.2) := by
  have r := witness_SaveArea
  have c : ((spilled .restoring).ctxAt 0).state = .restoring ∧ ((spilled .restoring).ctxAt 0).swapping = false ∧
      partCells ((spilled .restoring).ctxAt 0).part = [0] ∧ ((spilled .restoring).cellAt 0).free = true ∧
      ((spilled .restoring).saved.find? fun e => e.ctx == 0 && e.cell == 0).isSome = true := by decide +kernel
  unfold saves at r
  split at r
  case h_2 => cases r
  case h_1 bs h =>
    generalize z : sha3 ((bs.drop 0x8000).take 0x18000) = d
    obtain ⟨s, hs⟩ := restores _ bs d c h
    obtain ⟨t, ht⟩ := restores _ bs (~~~d) c h
    refine ⟨s, t, (0, d), (0, ~~~d), bs, by simpa only [z, and_true] using hs, ?_⟩
    have n : d ≠ ~~~d := by
      intro q
      have := congrArg (fun v => v.getLsbD 0) q
      simp at this
    simpa only [z, ne_eq, n, not_false_eq_true, and_true] using ht
/-- The parts of a range lie in it. -/
theorem splitParts_mem (k : Nat) : ∀ g n, ∀ p ∈ splitParts k g n, g ≤ p.1 ∧ p.1 < g + n := by
  induction k with
  | zero => intro g n p h; cases h
  | succ k ih =>
    intro g n p h
    simp only [splitParts] at h
    split at h
    · cases h
    · rcases List.mem_cons.mp h with rfl | h
      · exact ⟨Nat.le_refl _, by show g < g + n; omega⟩
      · have := ih _ _ p h; omega
/-- Context 0 is that of the paged state; memory below its save slot is too, and no word is poisoned. -/
structure Slots (u : State) : Prop where
  clean : u.dev.poisoned = []
  wf : u.mem.wf = true
  below : ∀ k < 0x81000000, memGet u.mem k = memGet paged.mem k
  root : (u.ctxAt 0).ptroot = 0
  text : (u.ctxAt 0).placed = []
theorem memRead_congr (m m' : Memory) (n : Nat) : ∀ a, (∀ k, a ≤ k → k < a + n → memGet m k = memGet m' k) → memRead m a n = memRead m' a n := by
  induction n with
  | zero => intro a _; rfl
  | succ n ih => intro a h; rw [memRead, memRead, h a (Nat.le_refl a) (by omega), ih (a + 1) fun k h1 h2 => h k (by omega) (by omega)]
/-- The 1 GiB page at G 0x40000000 maps every address of it. -/
theorem walk_slots (u : State) (h : Slots u) (g : Nat) (lo : 0x40000000 ≤ g) (hi : g < 0x80000000) :
    u.walk 0 g = .leaf ⟨0, true, true, true, true, true, false, 2, 0x80000000 + (g % 2 ^ 30) / 65536 * 65536⟩ := by
  have e0 : memRead u.mem 0 8 = memRead paged.mem 0 8 := memRead_congr _ _ _ _ fun k _ h2 => h.below k (by omega)
  have e1 : memRead u.mem 0x100008 8 = memRead paged.mem 0x100008 8 := memRead_congr _ _ _ _ fun k _ h2 => h.below k (by omega)
  have b0 : bitsAt g 39 17 = 0 := by simp only [bitsAt, Nat.shiftRight_eq_div_pow]; omega
  have b1 : bitsAt g 30 9 = 1 := by simp only [bitsAt, Nat.shiftRight_eq_div_pow]; omega
  have v0 : natOfBytes (memRead paged.mem 0 8) = 0x100001 := by decide +kernel
  have v1 : natOfBytes (memRead paged.mem 0x100008 8) = 0x800000BF := by decide +kernel
  have n0 : nextTable 0x100001 [(30, 9, some 2), (21, 9, some 1), (16, 5, some 0)] = some 0x100000 := by decide
  have n1 : bitsAt 0x100001 0 1 = 1 ∧ bitsAt 0x100001 7 1 = 0 ∧ bitsAt 0x800000BF 0 1 = 1 ∧ bitsAt 0x800000BF 7 1 = 1 := by decide
  have l : leafEnd [] 0x800000BF g 30 2 =
      .leaf ⟨0, true, true, true, true, true, false, 2, 0x80000000 + (g % 2 ^ 30) / 65536 * 65536⟩ := by rfl
  unfold State.walk State.tables
  rw [h.clean, h.root, h.text, walkLevels, walkFrom]
  simp only [b0, Nat.mul_zero, Nat.add_zero, List.contains_nil, Bool.false_eq_true, if_false, e0, v0, n1, n0, zero_ne_one, one_ne_zero]
  rw [walkFrom]
  simp only [b1, List.contains_nil, Bool.false_eq_true, if_false, e1, v1, n1, one_ne_zero, if_true, List.map_nil, l]
theorem parts_slots (u : State) (h : Slots u) (g n : Nat) (lo : 0x41000000 ≤ g) (hi : g + n ≤ 0x80000000) :
    ∃ ps, u.saveParts 0 g n = .ok ps ∧ ∀ p ∈ ps, 0x81000000 ≤ p.key := by
  have w : ∀ p ∈ partsOf g n, u.walk 0 p.1 = .leaf ⟨0, true, true, true, true, true, false, 2, 0x80000000 + (p.1 % 2 ^ 30) / 65536 * 65536⟩ := by
    intro p hp
    have := splitParts_mem _ _ _ p hp
    exact walk_slots u h p.1 (by omega) (by omega)
  unfold State.saveParts
  simp only
  split
  · next p e =>
    have m := List.mem_of_find?_eq_some e
    have t := List.find?_some e
    obtain ⟨q, hq, rfl⟩ := List.mem_map.mp m
    simp only [w q hq] at t
    cases t
  · refine ⟨_, rfl, fun p hp => ?_⟩
    obtain ⟨r, hr, rfl⟩ := List.mem_map.mp hp
    obtain ⟨q, hq, rfl⟩ := List.mem_map.mp hr
    have := splitParts_mem _ _ _ q hq
    simp only [partIn, w q hq, keyIn]
    omega
theorem put_slots (ps : List RowPart) : ∀ (u : State) (bs : List Byte), Slots u → (∀ p ∈ ps, 0x81000000 ≤ p.key) →
    Slots (u.putParts ps bs) ∧ (u.putParts ps bs).cells = u.cells ∧ (u.putParts ps bs).ctxs = u.ctxs := by
  induction ps with
  | nil => intro u bs h _; exact ⟨h, rfl, rfl⟩
  | cons p ps ih =>
    intro u bs h k
    have kp := k p (List.mem_cons_self ..)
    refine ih _ _ ⟨by simp [clearPoison, h.clean], memWrite_wf _ _ _ h.wf, fun i hi => ?_, h.root, h.text⟩ fun q hq => k q (List.mem_cons_of_mem _ hq)
    show memGet (memWrite u.mem p.key (bs.take p.len)) i = _
    rw [memGet_memWrite _ _ _ _ h.wf, if_neg (by omega), h.below i hi]
/-- A store into the save slot succeeds. -/
theorem write_slots (u : State) (h : Slots u) (g : Nat) (bs : List Byte) (lo : 0x41000000 ≤ g) (hi : g + bs.length ≤ 0x80000000) :
    ∃ v, u.saveWrite 0 g bs = .ok v ∧ Slots v ∧ v.cells = u.cells ∧ v.ctxs = u.ctxs := by
  obtain ⟨ps, e, k⟩ := parts_slots u h g bs.length lo hi
  have n : ps.find? (fun p => (partialPoison u.dev.poisoned p.key p.len).isSome) = none := by
    simp [h.clean, partialPoison]
  have t := put_slots ps u bs h k
  exact ⟨u.putParts ps bs, by simp only [State.saveWrite, e, n], t⟩
theorem length_words {α : Type} (n : Nat) (f : α → List Byte) (h : ∀ i, (f i).length = n) : ∀ l : List α, (l.flatMap f).length = l.length * n := by
  intro l
  induction l with
  | nil => simp
  | cons a t ih => rw [List.flatMap_cons, List.length_append, h, ih, List.length_cons]; ring
/-- A frame without latch entries fits below 0x2000; an accumulator array has 2 MiB. -/
theorem length_frame (b : Bank) (c : Cell) (i k : Nat) (x y z : Word) (ha : b.ctl.latA = []) (hx : b.ctl.latX = []) :
    0 < (frameBytes b c i k x y z).length ∧ (frameBytes b c i k x y z).length ≤ 0x2000 := by
  have r : (frameRegs b c i).length ≤ 0x900 := by
    simp only [frameRegs, List.length_append, length_words 8 _ (fun i => length_bytesOfNat 8 _), length_words 32 _ (fun i => length_bytesOfNat 32 _),
      length_words 4 _ (fun i => length_bytesOfNat 4 _), w8, length_bytesOfNat, List.length_range, List.length_replicate]
    omega
  unfold frameBytes
  rw [ha, hx]
  generalize frameRegs b c i = regs at r
  generalize sha3 regs = d
  have ld : ∀ d : Digest, (digestBytes d).length = 32 := fun d => length_bytesOfNat 32 _
  simp only [List.length_append, length_bytesOfNat, w8, w8i, ld, List.length_replicate, List.flatMap_nil, List.length_nil, List.length_cons]
  cases b.ctl.entered .a <;> cases b.ctl.entered .x <;> simp only [ld, List.length_replicate] <;> omega
theorem length_acc (b : Bank) : (accBytes b).length = 0x200000 := by
  have e := length_words 512 (fun r => bytesOfRow (b.readRow r)) (fun _ => length_bytesOfNat 512 _) (List.range 4096)
  rw [List.length_range] at e
  exact e
/-- A bank without latch entries and without poison is written to its slot. -/
theorem bank_slots (s : State) (b : Bank) (h : Slots s) (hs : slotAddr (s.ctxAt 0) 0 = 0x41000000)
    (ha : b.ctl.latA = []) (hx : b.ctl.latX = []) (hb : b.xf.bad = []) :
    ∃ v w t y, (s.passTime 0).saveWrite 0 (slotAddr (s.ctxAt 0) 0)
        (frameBytes (b.mapCtl fun k => { k with lkeep := true }) ((s.passTime 0).cellAt 0) 0 5 0 0 0) = .ok v ∧
      v.saveWrite 0 (slotAddr (s.ctxAt 0) 0 + 0x8000) ((List.range 0x18000).map (Config.deviceFormat s.freeCtr)) = .ok w ∧
      w.saveWrite 0 (slotAddr (s.ctxAt 0) 0 + 0x20000) (accBytes b) = .ok t ∧ s.spillBank 0 0 b = .ok y := by
  have q : Slots (s.passTime 0) := ⟨h.clean, h.wf, h.below, h.root, h.text⟩
  have f := length_frame (b.mapCtl fun k => { k with lkeep := true }) ((s.passTime 0).cellAt 0) 0 5 0 0 0 ha hx
  obtain ⟨v, ev, qv, cv⟩ := write_slots _ q 0x41000000 (frameBytes (b.mapCtl fun k => { k with lkeep := true }) ((s.passTime 0).cellAt 0) 0 5 0 0 0)
    (by omega) (by omega)
  obtain ⟨w, ew, qw, cw⟩ := write_slots _ qv 0x41008000 ((List.range 0x18000).map (Config.deviceFormat s.freeCtr)) (by omega)
    (by rw [List.length_map, List.length_range]; omega)
  obtain ⟨t, et, _⟩ := write_slots _ qw 0x41020000 (accBytes b) (by omega) (by rw [length_acc]; omega)
  have z : ∃ y, s.spillBank 0 0 b = .ok y := by
    have hs' : slotAddr ((s.passTime 0).ctxAt 0) 0 = 0x41000000 := hs
    have hf : (s.passTime 0).freeCtr = s.freeCtr := rfl
    unfold State.spillBank
    simp only [hs', hf, ev, ew, et, hb, List.head?_nil]
    exact ⟨_, rfl⟩
  obtain ⟨y, ey⟩ := z
  rw [hs]
  exact ⟨v, w, t, y, ev, ew, et, ey⟩
theorem cell_slots (s t : State) (b : Bank) (e : s.spillBanks 0 0 = [b]) (h : s.spillBank 0 0 b = .ok t) :
    [0].foldlM (fun t i => t.spillCell 0 i) s = .ok (t.parkBank 0 0) := by
  simp only [List.foldlM_cons, List.foldlM_nil, State.spillCell, e, h]
  rfl
/-- A store where the save area has no leaf fails. -/
theorem write_lost (u : State) (g : Nat) (l : List Byte) (h : l ≠ []) (w : u.walk 0 g = .notPresent) : u.saveWrite 0 g l = .error g := by
  have z : l.length ≠ 0 := by simpa using h
  have p : ∃ m r, partsOf g l.length = (g, m) :: r := by
    simp only [partsOf, splitParts, z, if_false]
    exact ⟨_, _, rfl⟩
  obtain ⟨m, r, e⟩ := p
  simp only [State.saveWrite, State.saveParts, e, List.map_cons, w, List.find?_cons]
theorem cell_slots_lost (s : State) (b : Bank) (e : s.spillBanks 0 0 = [b]) (ha : b.ctl.latA = []) (hx : b.ctl.latX = [])
    (w : (s.passTime 0).walk 0 (slotAddr ((s.passTime 0).ctxAt 0) 0) = .notPresent) :
    ∃ g, [0].foldlM (fun t i => t.spillCell 0 i) s = .error g := by
  have f := length_frame (b.mapCtl fun k => { k with lkeep := true }) ((s.passTime 0).cellAt 0) 0 5 0 0 0 ha hx
  have z : s.spillBank 0 0 b = .error (slotAddr ((s.passTime 0).ctxAt 0) 0) := by
    unfold State.spillBank
    simp only [write_lost _ _ _ (List.ne_nil_of_length_pos f.1) w]
  simp only [List.foldlM_cons, List.foldlM_nil, State.spillCell, e, z]
  exact ⟨_, rfl⟩
/-- The device stores a SPILLING context's bank; it does not where the save area has no leaf. -/
theorem witness_Spill :
    let s := shadowed .spilling false
    let bad := s.setCtx 0 { s.ctxAt 0 with saveBase := 0 }
    let b := (s.cellAt 0).shadow
    ((s.ctxAt 0).state = .spilling ∧ s.spillReady 0 = true ∧ b.shardOf 0 = true ∧ b.xf.bad = [] ∧ partCells (s.ctxAt 0).part = [0]) ∧
    (∃ v w t, (s.passTime 0).saveWrite 0 (slotAddr (s.ctxAt 0) 0)
        (frameBytes (b.mapCtl fun k => { k with lkeep := true }) ((s.passTime 0).cellAt 0) 0 5 0 0 0) = .ok v ∧
      v.saveWrite 0 (slotAddr (s.ctxAt 0) 0 + 0x8000) ((List.range 0x18000).map (Config.deviceFormat s.freeCtr)) = .ok w ∧
      w.saveWrite 0 (slotAddr (s.ctxAt 0) 0 + 0x20000) (accBytes b) = .ok t) ∧
    (∃ u, [0].foldlM (fun t i => t.spillCell 0 i) s = .ok u) ∧
    ((bad.ctxAt 0).state = .spilling ∧ bad.spillReady 0 = true ∧ partCells (bad.ctxAt 0).part = [0]) ∧
    ∃ g, [0].foldlM (fun t i => t.spillCell 0 i) bad = .error g := by
  have h : Slots (shadowed .spilling false) := ⟨by decide +kernel, by decide +kernel, fun _ _ => rfl, by decide +kernel, by decide +kernel⟩
  obtain ⟨v, w, t, y, ev, ew, et, ey⟩ := bank_slots _ ((shadowed .spilling false).cellAt 0).shadow h (by decide +kernel)
    (by decide +kernel) (by decide +kernel) (by decide +kernel)
  exact ⟨by decide +kernel, ⟨v, w, t, ev, ew, et⟩, ⟨_, cell_slots _ y _ (by decide +kernel) ey⟩, by decide +kernel,
    cell_slots_lost _ ((shadowed .spilling false).cellAt 0).shadow (by decide +kernel) (by decide +kernel)
      (by decide +kernel) (by decide +kernel)⟩
/-- Above its last listed byte the memory of the paged state reads 0. -/
theorem paged_blank (k : Nat) (h : 0x10000B < k) : memGet paged.mem k = memBlank := by
  have e : paged.mem = [(0, 1), (2, 0x10), (0x100008, 0xBF), (0x10000B, 0x80)] := rfl
  rw [e]; simp only [memGet]
  repeat rw [if_neg (by omega), if_neg (by omega)]
/-- A read of blank bytes. -/
theorem memRead_blank (m : Memory) (n : Nat) : ∀ a, (∀ k, a ≤ k → memGet m k = memBlank) → memRead m a n = List.replicate n memBlank := by
  induction n with
  | zero => intro a _; rfl
  | succ n ih => intro a h; rw [memRead, h a (Nat.le_refl a), ih (a + 1) fun k hk => h k (by omega), List.replicate_succ]
/-- Blank bytes stored where memory is blank change nothing. -/
theorem memWrite_blank (m : Memory) (n a : Nat) (w : m.wf = true) (h : ∀ k, a ≤ k → memGet m k = memBlank) :
    memWrite m a (List.replicate n memBlank) = m := by
  refine memory_ext _ _ 0 (memWrite_wf _ _ _ w) w fun k => ?_
  rw [memGet_memWrite _ _ _ _ w]
  split
  · next c => rw [h k c.1]; simp [List.getD, List.getElem?_replicate]; split <;> rfl
  · rfl
theorem witness_LineExchange : ∃ u,
    taggedLine.saveWrite 1 (slotAddr (taggedLine.ctxAt 1) 0 + 0x220000 + 3 * 65536) (memRead taggedLine.mem (spadKey 1 0 (3 * 65536)) 65536) =
      .ok u ∧ saves (u.saveRead 0 (slotAddr (taggedLine.ctxAt 0) 0 + 0x220000 + 3 * 65536) 65536) = true := by
  have m : taggedLine.mem = paged.mem := rfl
  have z : memRead taggedLine.mem (spadKey 1 0 (3 * 65536)) 65536 = List.replicate 65536 memBlank :=
    memRead_blank _ _ _ fun k hk => m ▸ paged_blank k (by simp only [spadKey] at hk; omega)
  have p : taggedLine.saveParts 1 (slotAddr (taggedLine.ctxAt 1) 0 + 0x220000 + 3 * 65536) 65536 = .ok [⟨some 0x41250000, 0x81250000, 65536, 2⟩] := by
    decide +kernel
  refine ⟨taggedLine, ?_, by decide +kernel⟩
  have w := memWrite_blank taggedLine.mem 65536 0x81250000 (by decide +kernel) fun k hk => m ▸ paged_blank k (by omega)
  rw [z, State.saveWrite, List.length_replicate, p]
  simp only [State.putParts, List.take_replicate, Nat.min_self, w]
  rfl

/-- Queue 0 of the paged context stands ACTIVE at a packet of `body` at G 0x400A0000 (R269, R270), and its tail write has come. -/
def queueing (s : State) (body : List Byte) : State :=
  let n := body.length / 64 * 64
  let d := bytesOfNat 8 0x400A0000 ++ bytesOfNat 4 0x10000 ++ [1, 0, 0, 0] ++ bytesOfNat 8 0 ++ bytesOfNat 8 n
  { s.setCtx 0 { s.ctxAt 0 with tailOrder := [(0, n)] } with mem := memWrite (memWrite s.mem 0x80030000 d) 0x800A0000 body }
/-- A packet of a type: its units, and its body from 0x20. -/
def packet (ty len : Byte) (body : List Byte) : List Byte := [ty, 0, 0, 0, len, 0, 0, 0] ++ List.replicate 24 0 ++ body
/-- A body of one unit or two that begins with these bytes. -/
def filled (n : Nat) (l : List Byte) : List Byte := l ++ List.replicate (n - l.length) 0
/-- The front end stands at a packet of a type. -/
def atPacket (s : State) (ty : Nat) : Bool :=
  !((s.ctxAt 0).queueBusy 0) && s.queueTurn 0 0 && match s.parse 0 0 with
    | .ok (.packet _ p) => p.ty == ty && !p.wait
    | _ => false
/-- The front end stops the queue with a cause. -/
def atStop (s : State) (cause : Nat) : Bool :=
  !((s.ctxAt 0).queueBusy 0) && s.queueTurn 0 0 && match s.parse 0 0 with
    | .ok (.stop w k) => !w && k == cause
    | _ => false
/-- The packet completes with a status. -/
def accepts (s : State) (len ty status : Nat) : Bool := succeeds (s.acceptPacket 0 0 len ty status 0 0)
theorem atPacket_of (s : State) (ty : Nat) (h : atPacket s ty = true) : ∃ p, AtPacket s 0 0 ty p := by
  unfold atPacket at h
  simp only [Bool.and_eq_true, Bool.not_eq_eq_eq_not, Bool.not_true] at h
  obtain ⟨⟨a, b⟩, c⟩ := h
  split at c
  · next d p e =>
    simp only [Bool.and_eq_true, beq_iff_eq, Bool.not_eq_eq_eq_not, Bool.not_true] at c
    exact ⟨p, ⟨by decide, by decide⟩, ⟨a, b⟩, ⟨d, e⟩, c.1, fun h => by rw [c.2] at h; cases h⟩
  · cases c
/-- An i8 tensor of one dimension of 128 elements, as BIND brings it (R135). -/
def image : List Byte :=
  filled 56 ([0, 0, 0, 0, 0, 0, 0, 0, 128] ++ List.replicate 39 0 ++ [0, 2, 0, 0x40, 0, 0, 0, 0x16]) ++ [1, 0, 0, 0, 0, 0xFF, 0, 0]
/-- TEXT of one chunk, four NOPs. -/
def objText0 : List Byte := (List.range 4).flatMap (fun _ => bytesOfNat 4 0x1D000000) ++ List.replicate 4080 0
/-- The header of a kernel object before its ROOT (R58). -/
def objHead : List Byte :=
  bytesOfNat 4 0x314F4B42 ++ bytesOfNat 8 1 ++ bytesOfNat 4 0x80 ++ bytesOfNat 8 0x2000 ++ bytesOfNat 4 2 ++ bytesOfNat 4 0x80 ++ bytesOfNat 4 1 ++
    bytesOfNat 4 0xC0 ++ bytesOfNat 4 16 ++ bytesOfNat 20 0
/-- Its section table, chunk table and a LAUNCH section of one level of cells (R59, R60, R297). -/
def objRest (leaf : Digest) : List Byte :=
  bytesOfNat 8 1 ++ bytesOfNat 8 0x1000 ++ bytesOfNat 8 0x1000 ++ bytesOfNat 8 4096 ++ bytesOfNat 8 4 ++ bytesOfNat 8 0xE0 ++ bytesOfNat 8 32 ++
    bytesOfNat 8 1 ++ digestBytes leaf ++ (bytesOfNat 8 0x10001 ++ bytesOfNat 8 1 ++ List.replicate 3856 0)
/-- An object with a leaf, a ROOT and a META. -/
def objWith (leaf root top : Digest) : List Byte := objHead ++ (digestBytes root ++ (digestBytes top ++ (objRest leaf ++ objText0)))
/-- A good kernel object. -/
def object : List Byte :=
  let leaf := leafOf objText0 0
  objWith leaf leaf (sha3 (objHead ++ List.replicate 64 0#8 ++ objRest leaf))
theorem length_digest (d : Digest) : (digestBytes d).length = 32 := length_bytesOfNat 32 _
theorem digest_bytes (d : Digest) : BitVec.ofNat 256 (natOfBytes (digestBytes d)) = d := by
  rw [digestBytes, natOfBytes_bytesOfNat, Nat.mod_eq_of_lt d.isLt, BitVec.ofNat_toNat, BitVec.setWidth_eq]
/-- A field that stands behind `n` bytes. -/
theorem leAt_mid (l m r : List Byte) (n k : Nat) (hn : l.length = n) (hk : m.length = k) : leAt (l ++ (m ++ r)) n k = natOfBytes m := by
  rw [leAt, ← hn, List.drop_left, ← hk, List.take_left]
theorem length_head : objHead.length = 0x40 := by decide +kernel
theorem length_text : objText0.length = 0x1000 := by decide +kernel
theorem length_rest (d : Digest) : (objRest d).length = 0xF80 := by
  simp only [objRest, List.length_append, length_bytesOfNat, length_digest, List.length_replicate]
/-- What the loader finds in it, whatever its digests are. -/
theorem object_parts : objHeaderOk object = true ∧ objSectsOk object = true ∧ objKnown object = true ∧ objNotesCode object = 0 ∧
    objProfilesCode object = 0 ∧ launchSectOk object = true ∧ launchOk (objLaunch object) = true ∧
    sectOf object 1 = some ⟨1, 0, 0x1000, 0x1000, 4096, 0, true⟩ ∧ leAt object 0x20 4 = 1 ∧ leAt object 0x24 4 = 0xC0 := by decide +kernel
theorem object_top : objMetaOk object = true := by
  have h := object_parts.2.2.2.2.2.2.2.1
  unfold objMetaOk
  rw [h]
  simp only [object, objWith]
  generalize leafOf objText0 0 = f
  have z : ∀ g : Digest, List.take 64 (objHead ++ (digestBytes f ++ (digestBytes g ++ (objRest f ++ objText0)))) ++ List.replicate 64 0#8 ++
      List.drop 128 (objHead ++ (digestBytes f ++ (digestBytes g ++ (objRest f ++ objText0)))) =
      (objHead ++ List.replicate 64 0#8 ++ objRest f) ++ objText0 := by
    intro g
    have e : objHead ++ (digestBytes f ++ (digestBytes g ++ (objRest f ++ objText0))) =
        (objHead ++ digestBytes f ++ digestBytes g) ++ (objRest f ++ objText0) := by simp only [List.append_assoc]
    have l : (objHead ++ digestBytes f ++ digestBytes g).length = 128 := by
      simp only [List.length_append, length_head, length_digest]
    have t : List.take 64 (objHead ++ (digestBytes f ++ (digestBytes g ++ (objRest f ++ objText0)))) = objHead := by
      rw [← length_head, List.take_left]
    rw [t, e, ← l, List.drop_left, List.append_assoc, List.append_assoc, List.append_assoc]
  have n : (objHead ++ List.replicate 64 0#8 ++ objRest f).length = 0x1000 := by
    simp only [List.length_append, length_head, length_rest, List.length_replicate]
  have m : ∀ g : Digest, leAt (objHead ++ (digestBytes f ++ (digestBytes g ++ (objRest f ++ objText0)))) 0x60 32 = natOfBytes (digestBytes g) := by
    intro g
    have e : objHead ++ (digestBytes f ++ (digestBytes g ++ (objRest f ++ objText0))) =
        (objHead ++ digestBytes f) ++ (digestBytes g ++ (objRest f ++ objText0)) := by simp only [List.append_assoc]
    rw [e]
    exact leAt_mid _ _ _ _ _ (by simp only [List.length_append, length_head, length_digest]) (length_digest g)
  rw [z, m, digest_bytes]
  have a : List.take 4096 (objHead ++ List.replicate 64 0#8 ++ objRest f ++ objText0) = objHead ++ List.replicate 64 0#8 ++ objRest f := by
    rw [← n, List.take_left]
  have b : List.drop (4096 + 4096) (objHead ++ List.replicate 64 0#8 ++ objRest f ++ objText0) = [] := by
    apply List.drop_eq_nil_of_le
    rw [List.length_append, n, length_text]
  rw [a, b, List.append_nil, beq_self_eq_true]
theorem object_tree : objTreeOk object = true := by
  have h := object_parts.2.2.2.2.2.2.2
  have t : objLeaves object = [leafOf objText0 0] := by
    unfold objLeaves
    rw [h.1, h.2.1]
    have d : sectBytes object ⟨1, 0, 0x1000, 0x1000, 4096, 0, true⟩ = objText0 := by
      simp only [sectBytes, object, objWith]
      generalize leafOf objText0 0 = f
      generalize sha3 (objHead ++ List.replicate 64 0#8 ++ objRest f) = g
      have e : objHead ++ (digestBytes f ++ (digestBytes g ++ (objRest f ++ objText0))) =
          (objHead ++ digestBytes f ++ digestBytes g ++ objRest f) ++ objText0 := by simp only [List.append_assoc]
      have n : (objHead ++ digestBytes f ++ digestBytes g ++ objRest f).length = 4096 := by
        simp only [List.length_append, length_head, length_digest, length_rest]
      rw [e, ← n, List.drop_left, n, ← length_text, List.take_length]
    simp only [List.range_one, List.map_cons, List.map_nil, d]
  have r : leAt object 0x40 32 = natOfBytes (digestBytes (leafOf objText0 0)) := by
    simp only [object, objWith]
    exact leAt_mid _ _ _ _ _ length_head (length_digest _)
  have c : leAt object 0xC0 32 = natOfBytes (digestBytes (leafOf objText0 0)) := by
    simp only [object, objWith]
    generalize leafOf objText0 0 = f
    generalize sha3 (objHead ++ List.replicate 64 0#8 ++ objRest f) = g
    have e : objHead ++ (digestBytes f ++ (digestBytes g ++ (objRest f ++ objText0))) = (objHead ++ digestBytes f ++ digestBytes g ++
        (bytesOfNat 8 1 ++ bytesOfNat 8 0x1000 ++ bytesOfNat 8 0x1000 ++ bytesOfNat 8 4096 ++ bytesOfNat 8 4 ++ bytesOfNat 8 0xE0 ++
          bytesOfNat 8 32 ++ bytesOfNat 8 1)) ++
        (digestBytes f ++ ((bytesOfNat 8 0x10001 ++ bytesOfNat 8 1 ++ List.replicate 3856 0) ++ objText0)) := by
      simp only [objRest, List.append_assoc]
    rw [e]
    exact leAt_mid _ _ _ _ _ (by simp only [List.length_append, length_head, length_digest, length_bytesOfNat]) (length_digest f)
  unfold objTreeOk
  simp only [t, treeOf, treeAbove, List.length_singleton, Nat.le_refl, if_true, List.append_nil, List.range_one, List.map_cons, List.map_nil, h.2.2,
    Nat.mul_zero, Nat.add_zero, c, r, digest_bytes, List.getLast?_singleton, beq_self_eq_true, Bool.and_self]
/-- It passes the loader's checks of its bytes. -/
theorem test_object : objCode object = 0 := by
  simp [objCode, object_tree, object_top, object_parts]
/-- Bytes listed from an address upward. -/
def cellsOf : Nat → List Byte → Memory
  | _, [] => []
  | a, b :: t => (a, b) :: cellsOf (a + 1) t
theorem memGet_skip (l m : Memory) (a : Nat) (h : ∀ e ∈ l, e.1 < a) : memGet (l ++ m) a = memGet m a := by
  induction l with
  | nil => rfl
  | cons e t ih =>
    have := h e (List.mem_cons_self ..)
    rw [List.cons_append, memGet, if_neg (by omega), if_neg (by omega), ih fun f hf => h f (List.mem_cons_of_mem _ hf)]
theorem memRead_cells (bs : List Byte) : ∀ (l : Memory) (a : Nat), (∀ e ∈ l, e.1 < a) → memRead (l ++ cellsOf a bs) a bs.length = bs := by
  induction bs with
  | nil => intro l a _; rfl
  | cons b t ih =>
    intro l a h
    have g : memGet (l ++ cellsOf a (b :: t)) a = b := by rw [memGet_skip l _ a h, cellsOf, memGet, if_pos rfl]
    have i := ih (l ++ [(a, b)]) (a + 1) fun e he => by
      rcases List.mem_append.mp he with he | he
      · have := h e he; omega
      · rw [List.mem_singleton.mp he]; omega
    rw [List.append_assoc, List.singleton_append] at i
    rw [List.length_cons, memRead, g, cellsOf, i]
/-- LOAD packets of the object, which stands at G 0x40100000, into a slot that holds a kernel and into one that does not. -/
def loading (slot : Byte) : State :=
  let s := queueing tasked (packet 2 2 (filled 96 ([0, 0, 0x10, 0x40, 0, 0, 0, 0, 0, 0x20, 0, 0, 0, 0, 0, 0, slot])))
  { s with mem := s.mem ++ cellsOf 0x80100000 object }
theorem length_object : object.length = 0x2000 := by
  simp only [object, objWith, List.length_append, length_head, length_digest, length_rest, length_text]
theorem reads_object (slot : Byte) (h : slot = 0 ∨ slot = 1) : (loading slot).agentRead 0 0x40100000 0x2000 false = .ok object := by
  have m : (loading slot).mem = (queueing tasked (packet 2 2 (filled 96 ([0, 0, 0x10, 0x40, 0, 0, 0, 0, 0, 0x20, 0, 0, 0, 0, 0, 0, slot])))).mem ++
    cellsOf 0x80100000 object := rfl
  have k : ∀ e ∈ (queueing tasked (packet 2 2 (filled 96 ([0, 0, 0x10, 0x40, 0, 0, 0, 0, 0, 0x20, 0, 0, 0, 0, 0, 0, slot])))).mem, e.1 < 0x80100000 := by
    rcases h with rfl | rfl <;> decide +kernel
  have r := memRead_cells object _ _ k
  rw [length_object, ← m] at r
  have p : (loading slot).resolveG none 0 { Access.load .supervisor with annotated := false } 0x40100000 0x2000 =
      .ok [⟨some 0x40100000, 0x80100000, 0x2000, 2⟩] := by
    rcases h with rfl | rfl <;> decide +kernel
  have c : (loading slot).dev.poisoned = [] := by rcases h with rfl | rfl <;> decide +kernel
  unfold State.agentRead
  rw [p]
  simp only [State.readParts, c, firstPoison, List.find?_nil, r, List.append_nil]
theorem witness_Load :
    ((loading 0).agentRead 0 0x40100000 0x2000 false = .ok object ∧ (loading 1).agentRead 0 0x40100000 0x2000 false = .ok object ∧
      objCode object = 0) ∧
    (atPacket (loading 0) 2 = true ∧ ((loading 0).kernelIn 0 0).isSome = true ∧ accepts (loading 0) 2 2 7 = true) ∧
    (atPacket (loading 1) 2 = true ∧ (loading 1).kernelIn 0 1 = none) :=
  ⟨⟨reads_object 0 (.inl rfl), reads_object 1 (.inr rfl), test_object⟩, by decide +kernel, by decide +kernel⟩
theorem witness_QueuePackets :
    let q := queueing tasked
    let nop := q (packet 7 1 (filled 32 []))
    let load := q (packet 2 2 (filled 96 [0, 0, 0, 0x40, 0, 0, 0, 0, 64]))
    let unload := q (packet 3 1 (filled 32 []))
    let bind := q (packet 4 2 (filled 32 [2] ++ image))
    let live := q (packet 4 2 (filled 32 [1] ++ image))
    let held := q ([8, 1] ++ (packet 8 1 (filled 32 [])).drop 2)
    let busy := { held with sched := { held.sched with graphs := [aGraph] } }
    (succeeds (tasked.agentWrite 0 0x4003000C [2, 6] false) = true ∧ (paged.ctxAt 0).nqueue ≤ 2 ∧ 1 < (paged.ctxAt 0).nqueue) ∧
    ((64#64).toNat % 64 = 0 ∧ (64#64).toNat ≤ 0 + 0x10000 ∧ (65#64).toNat % 64 ≠ 0) ∧ succeeds (nop.readQueue 0 0) = true ∧
    ((nop.readQueue 0 0).map (·.state) = .ok 1 ∧ (paged.readQueue 0 0).map (·.state) = .ok 0) ∧
    ((q (packet 8 1 (filled 32 []))).queueTurn 0 0 = true ∧ atStop (q (packet 8 1 (filled 32 []))) 2 = true) ∧
    (held.queueTurn 0 0 = true ∧ held.parse 0 0 = .ok (.stop true 2) ∧ busy.parse 0 0 = .ok (.stop true 2) ∧ busy.queueTurn 0 0 = true ∧
      busy.inFlight 0 0 = true ∧ (busy.ctxAt 0).queueBusy 0 = false) ∧
    (paged.queueTurn 0 0 = false) ∧ (atPacket nop 7 = true ∧ accepts nop 1 7 0 = true) ∧
    (atPacket load 2 = true ∧ (load.agentRead 0 0x40000000 64 false).map objCode ≠ .ok 0 ∧ accepts load 2 2 1 = true) ∧
    (atPacket unload 3 = true ∧ (unload.kernelIn 0 0).map (fun k => (k.state, k.packet.isNone)) = some (.resident, true) ∧
      (st0.kernelIn 0 1).isNone = true ∧ accepts unload 1 3 7 = true) ∧
    (atPacket bind 4 = true ∧ (bind.readDesc 0 2 true).map (·.live) = .ok false ∧ bindImageOk image = true ∧
      succeeds (bind.agentWrite 0 0x40020080 (boundImage image 0) true) = true ∧ accepts bind 2 4 0 = true ∧
      bindImageOk (List.replicate 64 0) = false) ∧ (atPacket live 4 = true ∧ (live.readDesc 0 1 true).map (·.live) = .ok true) := by decide +kernel
theorem witness_Retire :
    let retire := queueing tasked (packet 5 1 (filled 32 [0]))
    atPacket retire 5 = true ∧ (retire.ctxAt 0).retirePending = [] ∧ retire.boundNow 0 0 = true ∧ (folded 0).boundNow 0 2 = false ∧
      succeeds (retire.agentRead 0 0x4002003A 1 true) = true ∧ succeeds (retire.agentWrite 0 0x4002003A [0x40] true) = true := by decide +kernel
/-- Kernels of a read-only page at G 0x80000000, which has no leaf, and over a mapped page. -/
theorem witness_CancelAndLoader :
    let q := queueing tasked
    let cancel := q (packet 6 1 (filled 32 [9]))
    let waiting := fun (st : KernelState) (g : Word) (code : Nat) => ({ placedKernel 0 0 with
      state := st, packet := some (0, 0, 0), textLen := 0, rodataG := g, rodata := [1, 2], relocCode := code, relocAt := some (0, 3) } : Kernel)
    let holding := fun (k : Kernel) => (q (packet 7 1 (filled 32 []))).setCtx 0 { tasked.ctxAt 0 with kernels := [k] }
    let ends := fun (k : Kernel) (len ty code : Nat) => succeeds (((holding k).dropKernel 0 k).acceptPacket 0 0 len ty code 0 0)
    let good := waiting .verified 0x80000000 0
    let frames := [0x90000000, 0x90010000, 0x90020000]
    (atPacket cancel 6 = true ∧ cancel.sched.graphs = [aGraph] ∧ aGraph.graphNo = 9 ∧ st0.sched.graphs = []) ∧
    (match cancelAll 0 (queueDie (cancel.ctxAt 0).part 0) (cancel.cancelTargets 0 9) ⟨cancel, []⟩ with
     | .ok w => w.faults.isEmpty && accepts w.s 1 6 0
     | .error _ => false) = true ∧
    ((holding good).kernelIn 0 0 = some good ∧ ((holding good).ctxAt 0).served = true ∧ (holding good).slotOk 0 good = true ∧
      ((holding good).placePages 0 good frames).isSome = true ∧
      succeeds (((holding good).placeKernel 0 good frames).acceptPacket 0 0 2 2 0 0 0) = true) ∧
    (((holding good).placePages 0 good []).isSome = false ∧ ends good 2 2 8 = true) ∧
    ((holding (waiting .verified 0x40000000 0)).slotOk 0 (waiting .verified 0x40000000 0) = false ∧ ends (waiting .verified 0x40000000 0) 2 2 7 = true) ∧
    ((holding (waiting .verified 0x80000000 6)).slotOk 0 (waiting .verified 0x80000000 6) = true ∧ ends (waiting .verified 0x80000000 6) 2 2 6 = true) ∧
    ((waiting .unloading 0 0).packet = some (0, 0, 0) ∧ (holding (waiting .unloading 0 0)).kernelIn 0 0 = some (waiting .unloading 0 0) ∧
      ends (waiting .unloading 0 0) 1 3 0 = true) ∧ (placedKernel 0 0).state = .resident := by decide +kernel
/-- The image of a task with `n` bindings at G 0x40088000. -/
def taskImage (n : Byte) : List Byte := filled 128 (List.replicate 16 0 ++ [0, 0, 8, 0x40, 0, 0, 0, 0, 0, 0x80, 8, 0x40, 0, 0, 0, 0, n])
/-- A graph of tasks whose first TCB is 1. -/
def graphPacket (images : List (List Byte)) : List Byte :=
  packet 1 (1 + 2 * BitVec.ofNat 8 images.length) (filled 32 [1, 0, 0, 0, BitVec.ofNat 8 images.length, 0, 0, 0]) ++ images.flatten
/-- A queue that stands at such a packet; its tasks bind tensor 1 for writing, and an argument header has a length. -/
def admitting (state : Nat) (images : List (List Byte)) (alen : Byte) : State :=
  let s := queueing (withTcb tasked 1 state 0) (graphPacket images)
  { s with mem := memWrite (memWrite s.mem 0x80088000 [1, 0, 4]) 0x80080009 [alen] }
/-- What the front end has found of the graph at HEAD when it decides on it. -/
def decides (s : State) (f : Packet → GraphIn → List (List (BitVec 32)) → Option Digest → Bool) : Bool :=
  match s.parse 0 0 with
  | .ok (.packet _ p) =>
    let g := graphIn p.bytes
    graphBodyOk p (s.ctxAt 0).tcbCount && predsFit g &&
      match (List.range g.nt).mapM fun j => serving (s.localTcb 0 g j) (s.readTcb 0 (g.tcb0 + j)),
          (List.range g.nt).mapM fun j => serving (s.localTcb 0 g j) (s.readBinds 0 (g.images.getD j [])) with
      | .ok tcbs, .ok binds =>
        (List.range g.nt).all (fun j => s.tcbOpen 0 (g.tcb0 + j) (tcbs.getD j [])) &&
          match s.shapeKey 0 g binds with
          | .ok k => f p g binds k
          | .error _ => false
      | _, _ => false
  | _ => false
/-- Each access of the admission succeeds. -/
def admitted (s : State) (p : Packet) (g : GraphIn) (binds : List (List (BitVec 32))) (d : Digest) : Bool :=
  match (List.range g.nt).foldlM (fun (t : State) j => do
      let t1 ← serving (s.localTcb 0 g j) (t.writeTcb 0 (g.tcb0 + j) 0 (admittedTcb g j))
      serving (s.localTcb 0 g j) (t1.putOverflow 0 g j)) s with
  | .error _ => false
  | .ok s1 =>
    match s1.shapesOf 0 binds with
    | .error _ => false
    | .ok shapes =>
      let h := s1.newGraph 0 0 p g binds d shapes
      match State.startPlate { s1 with sched := { s1.sched with graphs := s1.sched.graphs ++ [h], nextId := h.id + 1 } } h d
          (g.images.map fun i => (s.shapeKernel 0 i).1) with
      | .error _ => false
      | .ok s3 =>
        match (List.range g.nt).foldlM (fun (t : State) j =>
            if leAt (admittedTcb g j) 8 4 = 0 then serving (s.localTcb 0 g j) (t.makeReady 0 (g.tcb0 + j) h.die) else .ok t) s3 with
        | .error _ => false
        | .ok s4 => succeeds ((s4.dropHold 0 0).advanceHead 0 0 p.len)
/-- A graph with a bound task is admitted; one in flight that was parsed before holds it, one parsed after does not. -/
theorem witness_GraphAdmission :
    let s := admitting 0 [taskImage 1] 0
    let behind := fun (n : Nat) => ({ s with sched := { s.sched with
      nextId := 6, graphs := [{ aGraph with parseNo := n, bindings := [(0, [0x10001])] }] } } : State)
    (atPacket s 1 = true ∧ decides s (fun p g binds k => k.any fun d => !graphConflict g binds && !s.graphHeld 0 (s.parseNo 0 0) binds &&
      admitted s p g binds d) = true) ∧
    (atPacket (behind 3) 1 = true ∧ decides (behind 3) (fun _ g binds k => k.isSome && !graphConflict g binds &&
      (behind 3).graphHeld 0 ((behind 3).parseNo 0 0) binds) = true) ∧ (behind 7).graphHeld 0 6 [[0x40001]] = false := by decide +kernel
/-- A graph whose unordered tasks conflict, one with a long argument block, one over a TCB in use, one of no task. -/
theorem witness_GraphStops :
    let c := admitting 0 [taskImage 1, taskImage 1] 0
    let k := admitting 0 [taskImage 1] 5
    let r := admitting 3 [taskImage 0] 0
    let e := admitting 0 [] 0
    (atPacket c 1 = true ∧ decides c (fun _ g binds k => k.isSome && graphConflict g binds) = true) ∧
    (atPacket k 1 = true ∧ decides k (fun _ _ _ k => k.isNone) = true) ∧
    (atPacket r 1 = true ∧ succeeds (r.readTcb 0 1) = true ∧ (r.readTcb 0 1).map (r.tcbOpen 0 1) = .ok false) ∧ atPacket e 1 = true ∧
    (match e.parse 0 0 with | .ok (.packet _ p) => graphBodyOk p 16 | _ => true) = false ∧
    ((graphIn (graphPacket [taskImage 1])).images[0]?).map (·.length) = some 128 := by decide +kernel

/-- Cell 0 holds nothing, and task 1 of the paged context stands READY at its level 0, with an argument header at G 0x40080000 whose
BASEOFF is `off` (R311). -/
def readyTask (off : Nat) : State :=
  let s := idleCell (withTcb paged 1 3 0)
  let s := s.setCell 0 { s.cellAt 0 with ready := vset (s.cellAt 0).ready 0 [⟨0, 1, 0⟩] }
  { s with mem := memWrite (memWrite s.mem 0x80010090 [0, 0, 8, 0x40]) 0x80080006 (bytesOfNat 2 off) }
/-- What its dispatch knows. -/
def passed (k : Kernel) : Passed := ⟨k, [], ⟨0, 0, 0xFFFF, 0, true⟩, []⟩
/-- A group of the paged context in a state, with staging copies from G 0x40090000 to S 0x2000. -/
def grouped (st : GroupState) (stages : List (List Byte)) (halt : Bool) : State :=
  { (idleCell tasked) with sched := { tasked.sched with groups := [{ aGroup with state := st, stages := stages, halted := [halt] }] } }
/-- A staging copy, by the bits 15 to 8 of its CTL. -/
def stageDesc (hi : Byte) : List Byte :=
  [0, 0, 9, 0x40, 0, 0, 0, 0, 0, 0x20, 0, 0, 0, 0, 0, 0, 64] ++ List.replicate 103 0 ++ [0x13, hi] ++ List.replicate 6 0
/-- Task 1 on cell 1, of a context that holds cells 0 and 1, and cell 0 stealing there. -/
def stealing (off : Nat) : State :=
  let s := readyTask off
  let s := s.setCtx 0 { s.ctxAt 0 with part := 3 }
  let s := s.setCell 1 { s.cellAt 1 with ready := vset (s.cellAt 1).ready 0 [⟨0, 1, 0⟩] }
  s.setCell 0 { s.cellAt 0 with ready := Vector.replicate 4 [], steal := { (s.cellAt 0).steal with sent := 1, victim := some 1 } }
/-- A group of the paged context asks for `n` cells. -/
def asking (n : Nat) : State :=
  { (idleCell tasked) with sched := { tasked.sched with groups := [{ aGroup with state := .requested, cells := [], halted := [], p := n }] } }
/-- A request that the arbiter serves and one that waits for a second cell; none at all. -/
theorem witness_Arbiter :
    let choose := fun (s : State) (n : Nat) => chooseCells (fun c => (s.cellAt c).readyCount) (s.unheld 0) 0 n 1
    let first := fun (s : State) => (s.sched.groups.find? fun h => h.state == .requested && s.scheduled h.ctx).map fun g => (g.home, g.p, g.q)
    lowestBase [(0, 4096)] 8192 = some 4096 ∧ (first (asking 1) = some (0, 1, 1) ∧ choose (asking 1) 1 = some [0]) ∧
    (first (asking 2) = some (0, 2, 1) ∧ choose (asking 2) 2 = none) ∧ first tasked = none := by decide +kernel
theorem witness_Dispatching :
    let s := readyTask 0xFFFF
    let k := placedKernel 0x1D000000#32 0x1D000000#32
    let bad := readyTask 0
    (s.dev.inhibit = false ∧ s.dev.state = .ready ∧ (s.cellAt 0).held = none ∧ s.laneFirst 0 = false ∧ s.sched.groups = []) ∧
    ({ s with dev := { s.dev with inhibit := true } } : State).dev.inhibit = true ∧
    paged.headTask 0 = none ∧ s.headTask 0 = some ⟨0, 1, 0⟩ ∧ succeeds (s.readTcb 0 1) = true ∧
    (match s.readTcb 0 1 with
     | .ok b => s.dispatchChecks 0 b == .ok (some (passed k)) &&
         succeeds ((s.addGroup (s.newGroup 0 1 0 b (passed k) (s.formOrigin 0 1).1 (s.formOrigin 0 1).2)).passBy 0 0 1)
     | .error _ => false) = true ∧
    (match bad.readTcb 0 1 with
     | .ok b => bad.dispatchChecks 0 b == .ok none
     | .error _ => false) = true ∧ bad.headTask 0 = some ⟨0, 1, 0⟩ ∧ bad.mayDecide 0 = true ∧
    (match bad.failTask 0 1 0 with | .ok w => succeeds (w.s.passBy 0 0 1) | .error _ => false) = true := by decide +kernel
theorem witness_Steals :
    let t := stealing 0xFFFF
    let v := (t.cellAt 0).steal
    let free := (idleCell paged).setCell 0 { (idleCell paged).cellAt 0 with steal := ⟨1, 0, none, false⟩ }
    let rest := (idleCell paged).setCell 0 { (idleCell paged).cellAt 0 with steal := ⟨6, 0, none, true⟩ }
    ((free.cellAt 0).mayStealNow = true ∧ (free.cellAt 0).steal.sent < 6 ∧ (paged.cellAt 0).mayStealNow = false ∧
      (paged.cellAt 0).steal.victim = none ∧ (paged.cellAt 0).steal.backoff = false ∧ (rest.cellAt 0).steal.backoff = true) ∧
    ((t.cellAt 0).steal.victim = some 1 ∧ t.mayIssue = true ∧ (t.cellAt 1).held = none ∧ (t.cellAt 0).free = true ∧ (t.cellAt 0).held = none ∧
      t.stealFrom 0 1 = some ⟨0, 1, 0⟩ ∧ t.stealFrom 0 2 = none ∧ ({ t with dev := { t.dev with inhibit := true } } : State).mayIssue = false) ∧
    (match ((t.setCell 0 { t.cellAt 0 with steal := { v with victim := none, sent := 0 } }).takeStolen 0 (t.levelOf 1 ⟨0, 1, 0⟩) ⟨0, 1, 0⟩).decideTask
      0 0 1 with
     | .ok w => w.faults.isEmpty
     | .error _ => false) = true := by decide +kernel
theorem witness_Groups :
    let d := copyDescOf (stageDesc 0)
    let v := copyDescOf (stageDesc 4)
    let k := placedKernel 0x1D000000#32 0x1D000000#32
    let h := grouped .held [] false
    let full := { h with sched := { h.sched with groups := h.sched.groups ++ [{ aGroup with id := 8, base := some 0, spsize := 0x600000 }] } }
    let st := grouped .staging [stageDesc 0] false
    let run := grouped .running [] true
    let r := { aGroup with state := .ready, halted := [false] }
    let rdy := (grouped .ready [] false).setCell 0 { (grouped .ready [] false).cellAt 0 with held := some 7 }
    let bare := rdy.setCtx 0 { rdy.ctxAt 0 with kernels := [] }
    let waits := rdy.setCell 0 { rdy.cellAt 0 with active := (tasked.cellAt 0).active }
    (h.groupAt 7).isSome = true ∧ h.scheduled 0 = true ∧ h.baseFor { aGroup with spsize := 4096 } = some 0 ∧
    full.baseFor { aGroup with spsize := 4096 } = none ∧ full.baseFor { aGroup with spsize := 4096, plateBase := some 0 } = none ∧
    h.baseFor { aGroup with spsize := 4096, plateBase := some 0x2000 } = some 0x2000 ∧
    aGroup.baseOff = 0xFFFF ∧ succeeds (h.agentWrite 0 0x40080010 (List.replicate 8 0) true) = true ∧
    (st.scheduled 0 = true ∧ d.ver = false ∧ st.srcFault 0 0 d .cpy [] = none ∧ d.total = 64 ∧
      (st.gather ⟨0, 0, false, [0], .task⟩ d .cpy [] 0 64 0 ⟨[], [], [], .ran⟩).stop = .ran) ∧
    (match st.putBytes ((st.gather ⟨0, 0, false, [0], .task⟩ d .cpy [] 0 64 0 ⟨[], [], [], .ran⟩).bytes.flatMap fun b => b.keys.map fun q => (q, b.val)) with
     | .ok _ => true | .error _ => false) = true ∧
    (v.ver = true ∧ v.tidx = 0 ∧ (st.readDesc 0 0 true).map (fun t => (t.live, t.version)) = .ok (true, 3) ∧
      (bindingOf aGroup.bindings 0).bound = true ∧ (copyDescOf ((stageDesc 4).take 0x70 ++ [4] ++ (stageDesc 4).drop 0x71)).expver = 4) ∧
    (rdy.arbitrate.groupAt 7 = some r ∧ rdy.arbitrate.holdRun r = rdy ∧ rdy.kernelIn 0 0 = some k ∧ rdy.scheduled 0 = true ∧ k.eagerReady [0] = true ∧
      (rdy.ctxAt 0).runnable 0 = some k ∧ (rdy.cellAt 0).free = true ∧ (rdy.cellAt 0).held = some 7 ∧ succeeds (rdy.startGroup r k) = true) ∧
    (match rdy.readTcb 0 0 with | .ok b => succeeds (rdy.writeTcb 0 0 0 (withState b 5 false)) | .error _ => false) = true ∧
    ((bare.ctxAt 0).runnable 0 = none ∧ (match bare.failTask 0 0 0 with | .ok _ => true | .error _ => false) = true) ∧
    (waits.cellAt 0).free = false ∧ r.halted = [false] ∧
    (match run.completeGroup { aGroup with halted := [true] } with | .ok w => w.faults.isEmpty | .error _ => false) = true := by decide +kernel

/-- A SEALED plate of one lane entry, in a run of the task's graph. -/
def aPlate (run : Option Nat) (e : PlateEntry) : Plate :=
  { key := 1, digest := 0, gen := 1, state := .sealed, ndev := 1, kerns := [0], guards := [], imposition := [List.replicate 16 0], nt := 1,
    hback := 0, conf := false, ctx := 0, edges := [], sections := [⟨0, 0, [(0, [e])]⟩], run := run, heads := [], handback := false, due := true,
    lastRun := 0 }
/-- An entry of a lane. -/
def laneEntry (loc : Option Nat) (w : List (BitVec 32)) : PlateEntry := ⟨loc, 0, 0, 0xFFFF, w, 0, 0, 0, 0, 0⟩
/-- The device runs it, with tasks issued and groups in flight. -/
def running (e : PlateEntry) (issued : List Nat) (l : List Group) : State :=
  let s := readyTask 0xFFFF
  { s with sched := { tasked.sched with
      graphs := [{ aGraph with running := true, tcb0 := 1, tasks := [(1, none)], issued := issued }]
      plates := [aPlate (some 5) e], groups := l } }
/-- What a state shows of the lane of cell 0. -/
def onLane (s : State) (f : LaneHead → Bool) : Bool := (s.sched.plates.head?.bind (s.headOf 0)).any f
/-- The wait set of the lane's head is met. -/
def metAt (s : State) (h : LaneHead) : Bool := s.waitMet h.plate h.graph h.sect h.entry
/-- The nodes above cell 0 with an addition on its way, without one, and at 0. -/
theorem witness_Counters :
    let spawning := setCtl tasked fun c => { c with spawning := true }
    let at_ := fun (l : List (CounterNode × Nat)) (root : Nat) => (tasked.setGraph { aGraph with counters := l, root := root }).graphAt 5
    let g := fun (l : List (CounterNode × Nat)) => ({ aGraph with counters := l, root := 2 } : Graph)
    (tasked.graphAt 5 = some aGraph ∧ aGraph.root ≠ 0 ∧ tasked.addsBelow aGraph (.cell 0) = false ∧ spawning.addsBelow aGraph (.cell 0) = true) ∧
    (aGraph.counters.any (·.1 == .die 0) = false ∧ aGraph.counters.any (·.1 == .cluster 0) = false) ∧
    ((g [(.die 0, 1)]).counters.any (·.1 == .die 0) = true ∧ (g [(.die 0, 1)]).counters.any (·.1 == .cluster 0) = false ∧
      (g [(.die 0, 1)]).counters.any (fun c => c.1 == .die 0 && c.2 == 0) = false) ∧
    (at_ [(.die 0, 1), (.cluster 0, 0)] 2 = some (g [(.die 0, 1), (.cluster 0, 0)]) ∧
      (g [(.die 0, 1), (.cluster 0, 0)]).counters.any (fun c => c.1 == .cluster 0 && c.2 == 0) = true) ∧
    (g [(.die 0, 0)]).counters.any (fun c => c.1 == .die 0 && c.2 == 0) = true ∧
    succeeds ((tasked.setGraph { aGraph with root := 0 }).finishGraph { aGraph with root := 0 }) = true := by decide +kernel
/-- A JOIN that is met, an entry whose wait set is not, a TASK that issues, one whose task is being staged, one that a power
alarm holds, one that a guard and one that a check of dispatch hands back, and a cell without a lane. -/
theorem witness_Lanes :
    let join := running (laneEntry none []) [] []
    let late := running (laneEntry none [waitLane 0 5]) [] []
    let task := running (laneEntry (some 0) []) [] []
    let staged := running (laneEntry (some 0) []) [0] [{ aGroup with tcb := 0x40010080, state := .staging }]
    let ready := running (laneEntry (some 0) []) [0] [{ aGroup with tcb := 0x40010080, state := .ready }]
    let other := running { laneEntry (some 0) [] with kern := 1 } [] []
    let early := { task with mem := memWrite task.mem 0x80080006 [0, 0] }
    let after := fun (s : State) => onLane s fun h => ((s.headStep 0 h).sched.plates.head?.bind ((s.headStep 0 h).headOf 0)).isSome
    let reads := fun (s : State) (f : LaneHead → List Byte → Bool) => onLane s fun h => match s.readTcb 0 1 with | .ok b => f h b | .error _ => false
    (∀ s ∈ [join, late, task, staged, ready, other, early], s.sched.plates.map (·.key) = [1] ∧ onLane s (fun _ => true) = true) ∧
    paged.sched.plates = [] ∧ join.headOf 1 (aPlate (some 5) (laneEntry none [])) = none ∧
    (onLane join (fun h => metAt join h && h.entry.loc == none) = true ∧ after join = false) ∧
    (onLane late (fun h => !metAt late h) = true ∧ after late = true) ∧
    (onLane task (fun h => metAt task h && h.entry.loc == some 0 && h.graph.issued == []) = true ∧ task.mayIssue = true ∧
      onLane task (fun h => succeeds (task.issueEntry h 0 0)) = true) ∧
    (onLane staged (fun h => metAt staged h && h.graph.issued == [0] && staged.stagingOpen h.graph 0) = true) ∧
    (onLane ready (fun h => metAt ready h && h.graph.issued == [0] && !ready.stagingOpen h.graph 0) = true) ∧
    (reads other (fun h b => other.shapeOk h.plate h.graph h.entry b == .ok false) = true) ∧
    (reads early (fun h b => early.shapeOk h.plate h.graph h.entry b == .ok true && early.dispatchChecks 0 b == .ok none) = true) := by
  decide +kernel
theorem witness_MakeReady :
    let p := aPlate none (laneEntry (some 0) [])
    let e : Plate := { p with state := .sealed, kerns := [], imposition := [], nt := 0, sections := [], due := false }
    let stored := ({ e with digest := e.digestOf } : Plate)
    let at_ := fun (p : Plate) => ({ st0 with sched := { st0.sched with plates := [p] } } : State)
    ((at_ p).sched.plates[0]? = some p ∧ p.run = none ∧ p.due = true ∧ p.state = .sealed) ∧ e.due = false ∧
    (refineLanes p.edges [(0, [laneEntry (some 0) []])] = [(0, [laneEntry (some 0) []])]) ∧
    plateFrom [] = none ∧ ((plateFrom stored.image).map fun r => (r.key, r.state, r.sections)) = some (1, .sealed, []) ∧
    (st0.sched.plates = [] ∧ evictPlate st0.sched.plates = some []) ∧ (at_ p).sched.plates.find? (·.key == 1) = some p ∧
    ({ p with sections := mergeSections 0 p.sections [] } : Plate).size ≤ 0x1000000 := by decide +kernel
/-- Sections of one device and health whose lanes have the same lengths differ where their entries do. -/
theorem section_bytes_ne (t u : Section) (d : t.dev = u.dev) (v : t.health = u.health) (n : ∀ c, (t.lane c).length = (u.lane c).length)
    (h : (List.range 256).flatMap (fun c => (t.lane c).flatMap PlateEntry.bytes) ≠ (List.range 256).flatMap (fun c => (u.lane c).flatMap PlateEntry.bytes)) :
    t.bytes ≠ u.bytes := by
  intro e
  unfold Section.bytes at e
  simp only [d, v, n] at e
  exact h (List.append_cancel_left e)
/-- A lane whose second entry's staging stalled is refined. -/
theorem witness_Refined :
    let t : Section := ⟨0, 0, [(0, [laneEntry (some 0) [], { laneEntry (some 1) [] with sstall := 9 }])]⟩
    ({ t with lanes := refineLanes [] t.lanes } : Section).bytes ≠ t.bytes := by
  refine section_bytes_ne _ _ rfl rfl (fun c => ?_) (by decide +kernel)
  have e : refineLanes [] [(0, [laneEntry (some 0) [], { laneEntry (some 1) [] with sstall := 9 }])] =
      [(0, [laneEntry (some 0) [], { laneEntry (some 1) [] with sstall := 9, hoist := 1 }])] := by decide +kernel
  simp only [e, Section.lane, List.find?_cons, List.find?_nil]
  cases (0 == c) <;> rfl
/-- A full store gives up a plate, unless all are in runs. -/
theorem witness_FullStore (p : Plate) (h : p.state = .sealed) :
    (p.run = none → (evictPlate (List.replicate 4096 p)).isSome = true) ∧ (p.run = some 5 → evictPlate (List.replicate 4096 p) = none) := by
  have f : (List.replicate 4096 p).find? (·.state == .retired) = none := by
    rw [List.find?_eq_none]
    intro q hq
    rw [List.eq_of_mem_replicate hq, h]
    decide
  constructor <;> intro r
  · have k : (List.replicate 4096 p).filter (fun p => (p.state == .sealed || p.state == .refined) && p.run.isNone) = List.replicate 4096 p := by
      rw [List.filter_replicate, if_pos (by rw [h, r]; rfl)]
    rw [evictPlate, if_neg (by rw [List.length_replicate, plateMax]; omega), f, k, List.replicate_succ]
    rfl
  · have k : (List.replicate 4096 p).filter (fun p => (p.state == .sealed || p.state == .refined) && p.run.isNone) = [] := by
      rw [List.filter_replicate, if_neg (by rw [h, r]; decide)]
    rw [evictPlate, if_neg (by rw [List.length_replicate, plateMax]; omega), f, k]
/-- A plate of half a million entries passes 16 MiB. -/
theorem witness_LargePlate (p : Plate) (v : BitVec 320) (e : PlateEntry)
    (h : p.sections = [⟨0, v, [(0, List.replicate 500000 e)]⟩]) :
    0x1000000 < ({ p with sections := mergeSections 0 p.sections [] } : Plate).size := by
  have m : ∀ l : List (Nat × List PlateEntry), mergeSections 0 [⟨0, v, l⟩] [] = [⟨0, v, l⟩] := fun _ => rfl
  rw [h, m]
  simp only [Plate.size, Section.count, List.foldl_cons, List.foldl_nil, List.length_replicate]
  omega

/-- Host port 0 is UP with a queue pair of context 0. -/
def paired : State := { paged with net := { paged.net with qps := [⟨0, 5, 0, false⟩] } }
theorem witness_HostPorts :
    let s := paired.setCtx 0 { paged.ctxAt 0 with nqueue := 0 }
    let at_ := fun (v : Port) => paired.setPort 0 v
    let w : List RowPart := [⟨some 0x40000000, 0x80000000, 8, 2⟩]
    let held := { paired.setCtx 0 { paged.ctxAt 0 with session := some 4 } with
      dev := { paired.dev with sessions := [⟨4, .host 0, .established, 0, []⟩] } }
    st0.qpAt 0 5 = none ∧ paired.qpAt 0 5 = some ⟨0, 5, 0, false⟩ ∧ held.qpAt 0 5 = some ⟨0, 5, 0, false⟩ ∧
    ((0 < 2 ∧ (paired.port 0).state = .up) ∧ (paired.port 0).qpError = false) ∧ ¬ (2 < 2) ∧
    ((at_ { Port.reset with qpError := true }).port 0).qpError = true ∧ (at_ { Port.reset with state := .down }).qpAt 0 5 = none ∧
    (inG 0x40000000 8 = true ∧ inG 0 8 = false) ∧
    ((s.ctxAt 0).state ≠ .free ∧ (s.ctxAt 0).nqueue = 0 ∧ s.resolveG none 0 (Access.store .supervisor) 0x40000000 8 = .ok w ∧ s.storePoison w = none ∧
      s.resolveG none 0 (Access.store .supervisor) 0x80000000 8 = .error (.fault .pageNotPresent 0x80000000) ∧
      s.resolveG none 0 (Access.load .supervisor) 0x40000000 8 = .ok w ∧ s.clean w ∧
      s.resolveG none 0 (Access.load .supervisor) 0x80000000 8 = .error (.fault .pageNotPresent 0x80000000)) ∧
    ((6 : Nat) ≠ 1 ∧ (∀ q ∈ paired.net.qps, q.num = 6 → q.error = true) ∧ paired.net.qps.length < 4095 ∧ (paired.ctxAt 0).conf = false ∧
      paired.dev.state = .ready ∧ (st0.ctxAt 63).state = .free) ∧
    ((at_ { Port.reset with state := .training }).port 0).state = .training ∧
    (((at_ { Port.reset with state := .down, retryDue := true }).port 0).state = .down ∧
      ((at_ { Port.reset with state := .down, retryDue := true }).port 0).retryDue = true) := by decide +kernel

/-- A flit (R357): its type, its VC, its destination, its SEQ and a payload of four bytes, which name SEQ 4. -/
def flit (ty vc dest seq : Byte) : List Byte :=
  let l := filled 252 [ty, vc, 0, dest, seq, 0, 0, 0, 4, 0, 0, 0, 4, 0, 0, 0]
  l ++ bytesOfNat 4 (crc32 l).toNat
/-- The last four bytes are the check value of the others. -/
theorem crcOk_flit (ty vc dest seq : Byte) : crcOk (flit ty vc dest seq) = true := by
  have n : (filled 252 [ty, vc, 0, dest, seq, 0, 0, 0, 4, 0, 0, 0, 4, 0, 0, 0]).length = 252 := by
    rw [filled, List.length_append, List.length_replicate]; rfl
  unfold flit
  generalize filled 252 [ty, vc, 0, dest, seq, 0, 0, 0, 4, 0, 0, 0, 4, 0, 0, 0] = l at n
  have a := leAt_append l (bytesOfNat 4 (crc32 l).toNat)
  rw [n, length_bytesOfNat, natOfBytes_bytesOfNat, Nat.mod_eq_of_lt (crc32 l).isLt] at a
  have t : (l ++ bytesOfNat 4 (crc32 l).toNat).take 252 = l := by rw [← n, List.take_left]
  simp only [crcOk, List.length_append, n, length_bytesOfNat, t, a, beq_self_eq_true, Bool.and_self]
/-- Gang port 2 in a state, with two flits unacknowledged. -/
def gangPort (st : PortState) (tries : Nat) : State :=
  let v : Port := { Port.reset with state := st, unacked := [(4, flit 1 0 1 4, 0), (5, flit 1 0 1 5, tries)], retryDue := true }
  let s : State := { st0 with net := { st0.net with routes := [(1, 3)] } }
  s.setPort 2 v
theorem witness_GangPorts :
    let s := gangPort .up 0
    let lk := gangPort .locked 0
    let conf := lk.setCtx 63 { lk.ctxAt 63 with conf := true, state := .ready }
    let routed := { lk.setPort 3 { Port.reset with state := .locked } with net := { (lk.setPort 3 { Port.reset with state := .locked }).net with routes := [(1, 3)] } }
    let known := { s.setPort 2 { s.port 2 with peer := some 9 } with dev := { s.dev with sessions := [⟨4, .peer 9, .established, 0, []⟩] } }
    ((2 : Nat) ≤ 2 ∧ (17 : Nat) < 18) ∧ (s.port 2).state = .up ∧ (gangPort .down 0).port 2 ≠ s.port 2 ∧ [0#8].length ≤ 240 ∧
    (∀ ty ∈ [1, 2, 3, 4, 5], flitForm (flit ty 3 0 0) = true ∧ byteAt (flit ty 3 0 0) 0 = ty.toNat) ∧
    (flitForm (flit 1 4 0 0) = false ∧ crcOk (flit 1 0 0 0 ++ [0]) = false ∧ byteAt (flit 6 0 0 0) 0 = 6) ∧
    ((s.port 2).rxSeq = 0 ∧ s.dev.devIndex = 0 ∧ leAt (flit 1 0 0 0) 4 4 = 0 ∧ leAt (flit 1 0 0 9) 4 4 ≠ 0 ∧ byteAt (flit 1 0 0 0) 3 = 0 ∧
      byteAt (flit 1 0 1 0) 3 = 1) ∧
    (s.routeFor false 1 = some 3 ∧ s.routeFor true 1 = none ∧ routed.routeFor true 1 = some 3) ∧
    (leAt (flit 2 0 0 0) 12 4 = 4 ∧ (s.port 2).unacked.findIdx? (·.1 == 4) = some 0 ∧ ((st0.port 2).unacked.findIdx? (·.1 == 4)) = none ∧
      (∀ u ∈ (s.port 2).unacked, u.2.2 < 16) ∧ (((gangPort .up 16).port 2).unacked.drop 0).map (·.2.2) = [0, 16]) ∧
    (∀ g ∈ s.sched.graphs, g.running = false) ∧ ((gangPort .training 0).port 2).state = .training ∧
    (((gangPort .down 0).port 2).state = .down ∧ ((gangPort .down 0).port 2).retryDue = true) ∧ (lk.port 2).state = .locked ∧
    (lk.linksUsed = false ∧ conf.linksUsed = true ∧ (conf.port 2).state = .locked) ∧ ((gangPort .degraded 0).port 2).state = .degraded ∧
    (known.linkSession 2 = some ⟨4, .peer 9, .established, 0, []⟩ ∧ (known.port 2).state = .up ∧ s.linkSession 2 = none) := by decide +kernel
theorem witness_SpdmResponder :
    let s := { gangPort .up 0 with dev := { st0.dev with
      measured := [(4, 7)], sessions := [⟨1, .host 0, .handshake, 0, []⟩, ⟨2, .peer 1, .established, 3, [2]⟩] } }
    let c := s.setCtx 63 { s.ctxAt 63 with conf := true, state := .ready }
    let lk := gangPort .locked 0
    (s.dev.state ≠ .off ∧ (1 : Nat) < 2 ∧ (s.port 1).state = .up ∧ (s.port 1).qpError = false) ∧
    ((1 : Nat) < 64 ∧ s.net.routes = [(1, 3)] ∧ (s.port 3).state.inService = true) ∧
    s.dev.measured.find? (·.1 == 4) = some (4, 7) ∧ s.dev.measured.find? (·.1 == 3) = none ∧
    ((c.ctxAt 63).conf = true ∧ (c.ctxAt 63).state ≠ .free) ∧ (s.ctxAt 0).conf = false ∧
    ((∀ e ∈ s.dev.sessions, e.id ≠ 3) ∧ ∀ x ∈ List.range 64, (s.ctxAt x).session ≠ some 3) ∧
    s.dev.sessions.find? (fun e => e.id == 1 && e.state == .handshake) = some ⟨1, .host 0, .handshake, 0, []⟩ ∧
    s.dev.sessions.find? (fun e => e.id == 2 && e.state == .established) = some ⟨2, .peer 1, .established, 3, [2]⟩ ∧
    (∀ e ∈ s.dev.sessions, e.id = 1 → e.state ≠ .established) ∧
    ((s.port 2).state ≠ .locked ∧ (lk.port 2).state = .locked ∧ lk.linksUsed = false ∧
      (lk.setCtx 63 { lk.ctxAt 63 with conf := true, state := .ready }).linksUsed = true) := by decide +kernel

end Sys2Proof.Tests
end

section
/-! PROOFS. Memory keeps its canonical form.

What each function of the model does to memory: `f_mem` where it leaves memory alone, `f_wf` where it keeps the canonical form.
The lemmas stand in the order of the definitions, so each one rests on those of the functions that its own function calls. -/

namespace Sys2Proof.Machine

open Sys2Proof

/-- A chain of two computations ends well when the first gives a value from which the second ends well. -/
theorem bind_ok {ε α β : Type} (x : Except ε α) (f : α → Except ε β) (b : β) :
    (x >>= f) = .ok b ↔ ∃ a, x = .ok a ∧ f a = .ok b := by
  cases x <;> simp [bind, Except.bind]

/-- A run of steps that leave memory alone leaves it alone. -/
theorem foldl_mem {α : Type} (f : State → α → State) (hf : ∀ s x, (f s x).mem = s.mem) (l : List α) :
    ∀ s : State, (l.foldl f s).mem = s.mem := by
  induction l with
  | nil => intro s; rfl
  | cons x t ih => intro s; rw [List.foldl_cons, ih, hf]

/-- A run of steps that each keep the canonical form keeps it. -/
theorem foldl_state_wf {α : Type} (f : State → α → State) (hf : ∀ s x, s.mem.wf = true → (f s x).mem.wf = true)
    (l : List α) :
    ∀ s : State, s.mem.wf = true → (l.foldl f s).mem.wf = true := by
  induction l with
  | nil => intro s h; exact h
  | cons x t ih => intro s h; exact ih _ (hf s x h)

/-- A run of steps that may stop, each of which keeps the canonical form, keeps it. -/
theorem foldlM_wf {α ε : Type} (f : State → α → Except ε State)
    (hf : ∀ s x t, s.mem.wf = true → f s x = .ok t → t.mem.wf = true) (l : List α) :
    ∀ s t : State, s.mem.wf = true → l.foldlM f s = .ok t → t.mem.wf = true := by
  induction l with
  | nil => intro s t h e; cases e; exact h
  | cons x l ih =>
    intro s t h e
    rw [List.foldlM_cons, bind_ok] at e
    obtain ⟨u, e1, e2⟩ := e
    exact ih u t (hf s x u h e1) e2

/-- Clearing several ranges keeps the canonical form. -/
theorem memClear_foldl_wf {α : Type} (key len : α → Nat) (l : List α) (m : Memory) (h : m.wf = true) :
    (l.foldl (fun m p => memClear m (key p) (len p)) m).wf = true :=
  foldl_wf _ (fun m p => memClear_wf m (key p) (len p)) l m h

/-- Where a computation ends in a state, that state's memory has its canonical form. -/
def EndsWf {ε : Type} (r : Except ε State) : Prop := ∀ t, r = .ok t → t.mem.wf = true

theorem endsWf_ok {ε : Type} {t : State} (h : t.mem.wf = true) : EndsWf (.ok t : Except ε State) := by
  intro u e
  cases e
  exact h

theorem endsWf_error {ε : Type} {x : ε} : EndsWf (.error x) := fun _ e => nomatch e

/-- A value comes first. -/
theorem endsWf_read {ε α : Type} {x : Except ε α} {f : α → Except ε State} (hf : ∀ a, EndsWf (f a)) :
    EndsWf (x >>= f) := by
  cases x with
  | error e => exact endsWf_error
  | ok a => exact hf a

/-- A state comes first. -/
theorem endsWf_bind {ε : Type} {x : Except ε State} {f : State → Except ε State} (hx : EndsWf x)
    (hf : ∀ u, u.mem.wf = true → EndsWf (f u)) : EndsWf (x >>= f) := by
  cases x with
  | error e => exact endsWf_error
  | ok a => exact hf a (hx a rfl)

/-! ### The functions of `Machine/Access.lean` -/

@[simp] theorem setBankIn_mem (s : State) (p : BankPlace) (x c : Nat) (b : Bank) :
    (s.setBankIn p x c b).mem = s.mem := by
  unfold State.setBankIn
  split <;> simp

@[simp] theorem setBankOf_mem (s : State) (x c : Nat) (b : Bank) : (s.setBankOf x c b).mem = s.mem := by
  simp [State.setBankOf]

@[simp] theorem count_mem (s : State) (f : CellCounters → CellCounters) : (s.count f).mem = s.mem := by
  simp [State.count]

@[simp] theorem setGroup_mem (s : State) (g : Group) : (s.setGroup g).mem = s.mem := by
  simp [State.setGroup]

@[simp] theorem setGraph_mem (s : State) (g : Graph) : (s.setGraph g).mem = s.mem := by
  simp [State.setGraph]

@[simp] theorem send_mem (s : State) (o : Out) : (s.send o).mem = s.mem := by
  simp [State.send]

/-! ### The functions of `Machine/Page.lean` -/

theorem putParts_wf (ps : List RowPart) :
    ∀ (s : State) (bs : List Byte), s.mem.wf = true → (s.putParts ps bs).mem.wf = true := by
  induction ps with
  | nil => intro s bs h; exact h
  | cons p ps ih => intro s bs h; exact ih _ _ (memWrite_wf _ _ _ h)

theorem writeParts_wf {s : State} {ps : List RowPart} {bs : List Byte} {t : State} (h : s.mem.wf = true)
    (e : s.writeParts ps bs = .ok t) : t.mem.wf = true := by
  unfold State.writeParts at e
  grind [putParts_wf]

theorem agentWrite_wf {s : State} {x g : Nat} {bs : List Byte} {annotated : Bool} {t : State} (h : s.mem.wf = true)
    (e : s.agentWrite x g bs annotated = .ok t) : t.mem.wf = true := by
  unfold State.agentWrite at e
  grind [writeParts_wf]

/-! ### The functions of `Machine/Ops.lean` -/

@[simp] theorem retireTo_mem (s : State) (len : Nat) (target : Word) : (s.retireTo len target).mem = s.mem := by
  simp [State.retireTo]

@[simp] theorem retireShared_mem (s : State) (st : Stream) (len : Nat) (target : Word) :
    (s.retireShared st len target).mem = s.mem := by
  simp [State.retireShared]

theorem onCell_wf {s t : State} {c : Nat} {f : State → State} (hf : ∀ u : State, u.mem.wf = true → (f u).mem.wf = true)
    (h : s.mem.wf = true) (e : s.onCell c f = .next t) : t.mem.wf = true := by
  unfold State.onCell at e
  split at e
  · cases e; exact hf _ h
  · cases e

@[simp] theorem passTime_mem (s : State) (cell : Nat) : (s.passTime cell).mem = s.mem := by
  simp [State.passTime]

theorem saveWrite_wf {s : State} {x g : Nat} {bs : List Byte} {t : State} (h : s.mem.wf = true)
    (e : s.saveWrite x g bs = .ok t) : t.mem.wf = true := by
  unfold State.saveWrite at e
  grind [putParts_wf]

@[simp] theorem leavePlates_mem (s : State) (x : Nat) (ends : Bool) : (s.leavePlates x ends).mem = s.mem := by
  simp [State.leavePlates]

@[simp] theorem releaseCells_mem (s : State) (x : Nat) : (s.releaseCells x).mem = s.mem := by
  simp [State.releaseCells]

theorem loseCtx_wf {s : State} {x reason : Nat} {cause fva : Word} {fcell kind : Nat} {fseq tcb frame : Word}
    (h : s.mem.wf = true) : (s.loseCtx x reason cause fva fcell kind fseq tcb frame).mem.wf = true := by
  unfold State.loseCtx
  grind [setCtx_mem, saveWrite_wf, releaseCells_mem, leavePlates_mem]

@[simp] theorem stall_mem (s : State) (st : Stream) : (s.stall st).mem = s.mem := by
  simp [State.stall]

@[simp] theorem stallPeer_mem (s : State) (st : Stream) : (s.stallPeer st).mem = s.mem := by
  simp [State.stallPeer]

@[simp] theorem stallLine_mem (s : State) (st : Stream) (l : Nat) : (s.stallLine st l).mem = s.mem := by
  simp [State.stallLine]

theorem handlerFault_wf {s : State} {f : FaultInfo} (h : s.mem.wf = true) : (s.handlerFault f).mem.wf = true := by
  unfold State.handlerFault
  grind [loseCtx_wf]

@[simp] theorem record_mem (s : State) (f : FaultInfo) : (s.record f).mem = s.mem := by
  unfold State.record
  split <;> simp

@[simp] theorem raise_mem (s : State) (st : Stream) (c : Cause) (fva : Word) : (s.raise st c fva).mem = s.mem := by
  simp [State.raise]

theorem losePoison_wf {s : State} {key : Nat} (h : s.mem.wf = true) : (s.losePoison key).mem.wf = true := by
  unfold State.losePoison
  grind [loseCtx_wf]

theorem stop_wf {s : State} {st : Stream} {z : Stop} (h : s.mem.wf = true) : (s.stop st z).mem.wf = true := by
  unfold State.stop
  grind [raise_mem, stall_mem, stallPeer_mem, stallLine_mem, losePoison_wf]

theorem finish_wf {s t : State} {st : Stream} {r : Except Stop State} (hr : ∀ u, r = .ok u → u.mem.wf = true)
    (h : s.mem.wf = true) (e : finish s st r = .next t) : t.mem.wf = true := by
  unfold finish at e
  split at e
  · cases e; exact hr _ rfl
  · cases e; exact stop_wf h

theorem finish_endsWf {s t : State} {st : Stream} {r : Except Stop State} (hr : EndsWf r)
    (h : s.mem.wf = true) (e : finish s st r = .next t) : t.mem.wf = true := finish_wf hr h e

theorem pcFault_wf {s : State} {st : Stream} {c : Cause} {t : State} (h : s.mem.wf = true)
    (e : s.pcFault st c = .next t) : t.mem.wf = true := by
  unfold State.pcFault at e
  grind [raise_mem]

@[simp] theorem raiseEngine_mem (s : State) (x c : Nat) (f : FaultInfo) : (s.raiseEngine x c f).mem = s.mem := by
  unfold State.raiseEngine
  grind [setBankOf_mem]

theorem raiseEngineIn_wf {s : State} {p : BankPlace} {x c : Nat} {f : FaultInfo} (h : s.mem.wf = true) :
    (s.raiseEngineIn p x c f).mem.wf = true := by
  unfold State.raiseEngineIn
  grind [loseCtx_wf, raiseEngine_mem]

theorem gangTransfer_wf {s : State} {code : Word} (h : s.mem.wf = true) : (s.gangTransfer code).mem.wf = true := by
  unfold State.gangTransfer
  grind [raiseEngineIn_wf]

theorem gangRelease_wf {s : State} {gang : Bool} {p : BankPlace} {x c : Nat} {seqa : Word} (h : s.mem.wf = true) :
    (s.gangRelease gang p x c seqa).mem.wf = true := by
  unfold State.gangRelease
  grind [raiseEngineIn_wf]

theorem gangAfter_wf {gang : Bool} {s t : State} {r : Result} (hr : ∀ u, r = .next u → u.mem.wf = true)
    (e : gangAfter gang s r = .next t) : t.mem.wf = true := by
  unfold gangAfter at e
  split at e
  · have h := hr _ rfl
    split at e
    · cases e; exact gangTransfer_wf h
    · cases e; exact h
  · exact hr _ e

@[simp] theorem raiseDevice_mem (s : State) (x : Nat) (c : Cause) (fva tcb : Word) :
    (s.raiseDevice x c fva tcb).mem = s.mem := by
  unfold State.raiseDevice
  split <;> simp

@[simp] theorem evictShadow_mem (s : State) (cell : Nat) : (s.evictShadow cell).mem = s.mem := by
  unfold State.evictShadow
  grind [setCell_mem, setCtx_mem]

theorem enterHandler_wf {s : State} {x cell : Nat} {f : FaultInfo} (h : s.mem.wf = true) :
    (s.enterHandler x cell f).mem.wf = true := by
  unfold State.enterHandler
  extract_lets s0 c b frame freezes tcb bytes c1 fseq fcell
  have h0 : s0.mem.wf = true := h
  clear_value s0 c b frame tcb bytes c1 fseq fcell
  split
  · exact loseCtx_wf h0
  next s1 e1 =>
    have h1 : s1.mem.wf = true := saveWrite_wf h0 e1
    extract_lets cl s2 record
    have h2 : s2.mem.wf = true := h1
    have h3 : ∀ s3, record = .ok s3 → s3.mem.wf = true := by
      intro s3 e3
      unfold record at e3
      split at e3
      · exact saveWrite_wf h2 e3
      · cases e3; exact h2
    clear_value s2 record
    split
    · exact loseCtx_wf h2
    next s3 =>
      have h3 : s3.mem.wf = true := h3 s3 rfl
      split
      · exact loseCtx_wf h3
      · simpa using h3

@[simp] theorem freeze_mem (s : State) (x : Nat) : (s.freeze x).mem = s.mem := by
  unfold State.freeze
  grind [setCtx_mem, leavePlates_mem]

theorem takeFault_wf {s : State} {cell : Nat} (h : s.mem.wf = true) : (s.takeFault cell).mem.wf = true := by
  unfold State.takeFault
  grind [handlerFault_wf, enterHandler_wf, freeze_mem]

@[simp] theorem unfreeze_mem (s : State) (x : Nat) : (s.unfreeze x).mem = s.mem := by
  simp only [State.unfreeze]
  rw [foldl_mem _ fun u c => ?_]
  · rfl
  · grind [setBankOf_mem]

theorem popSaved_mem {s : State} {x c : Nat} {t} (e : s.popSaved x c = some t) : t.2.mem = s.mem := by
  unfold State.popSaved at e
  grind

@[simp] theorem returnFrom_mem (s : State) (fr : List Byte) : (s.returnFrom fr).mem = s.mem := by
  unfold State.returnFrom
  extract_lets x c b s1
  have h1 : s1.mem = s.mem := by
    unfold s1
    split
    next y t e =>
      split at e
      · simpa using popSaved_mem e
      · cases e
    · rfl
  clear_value s1 c
  split
  · exact (unfreeze_mem s1 x).trans h1
  · exact h1

/-! ### The functions of `Machine/Tile.lean` -/

theorem putBytes_wf {s t : State} {l : List (Nat × Byte)} (h : s.mem.wf = true) (e : s.putBytes l = .ok t) :
    t.mem.wf = true := by
  simp only [State.putBytes] at e
  split at e
  · cases e
  · cases e; exact memWriteAll_wf _ _ h

/-! ### The functions of `Machine/Operands.lean` -/

theorem wr_wf {s : State} {sp : Space} {annotated : Bool} {ea : Word} {bs : List Byte} {t : State}
    (h : s.mem.wf = true) (e : s.wr sp annotated ea bs = .ok t) : t.mem.wf = true := by
  unfold State.wr at e
  grind [writeParts_wf]

@[simp] theorem setA_mem (s : State) (len d : Nat) (v : Word) : (s.setA len d v).mem = s.mem := by
  simp [State.setA]

@[simp] theorem setX_mem (s : State) (len d : Nat) (v : Word) : (s.setX len d v).mem = s.mem := by
  simp [State.setX]

theorem answerA_wf {s : State} {len : Nat} {d : BitVec 6} {v : Word} {t : State} (h : s.mem.wf = true)
    (e : answerA s len d v = .next t) : t.mem.wf = true := by
  unfold answerA at e
  grind [setA_mem]

/-! ### The functions of `Machine/Fetch.lean` -/

@[simp] theorem slipStall_mem (s : State) (st : Stream) : (s.slipStall st).mem = s.mem := by
  simp [State.slipStall]

@[simp] theorem settleKernels_mem (s : State) : (s.settleKernels).mem = s.mem := by
  simp [State.settleKernels]

theorem enterGalley_mem {s : State} {die : Nat} {key : GalleyKey} {words : Nat} {t}
    (e : s.enterGalley die key words = t) : t.1.mem = s.mem := by
  unfold State.enterGalley at e
  grind [settleKernels_mem]

@[simp] theorem staleKernel_mem (s : State) (x slot : Nat) : (s.staleKernel x slot).mem = s.mem := by
  simp [State.staleKernel]

theorem enterRegion_wf {s : State} {st : Stream} {x : Nat} {k : Kernel} {i : Nat} (h : s.mem.wf = true) :
    (s.enterRegion st x k i).mem.wf = true := by
  unfold State.enterRegion
  grind [stop_wf, raise_mem, staleKernel_mem, enterGalley_mem, setBank_mem]

@[simp] theorem skip_mem (s : State) (st : Stream) (len : Nat) : (s.skip st len).mem = s.mem := by
  simp [State.skip]

@[simp] theorem sharedFault_mem (s : State) (c : Cause) (fva : Word) : (s.sharedFault c fva).mem = s.mem := by
  unfold State.sharedFault
  grind [record_mem, stallPeer_mem]

@[simp] theorem decodeFault_mem (s : State) (w : IWord) (e : DecodeErr) : (s.decodeFault w e).mem = s.mem := by
  unfold State.decodeFault
  grind [sharedFault_mem, raise_mem]

theorem fetchWord_mem {s : State} {st : Stream} {w : IWord} {next : Option IWord} {t : State}
    (e : s.fetchWord st w next = .done t) : t.mem = s.mem := by
  unfold State.fetchWord at e
  grind [raise_mem, stallPeer_mem, skip_mem]

theorem fetchEntry_wf {s : State} {st : Stream} {x : Nat} (h : s.mem.wf = true) :
    (s.fetchEntry st x).mem.wf = true := by
  unfold State.fetchEntry
  grind [raise_mem, enterRegion_wf, stop_wf]

theorem fetch_wf {s : State} {st : Stream} {t : State} (h : s.mem.wf = true) (e : s.fetch st = .done t) :
    t.mem.wf = true := by
  unfold State.fetch at e
  grind [slipStall_mem, fetchWord_mem, fetchEntry_wf]

/-! ### The functions of `Machine/Loads.lean` -/

@[simp] theorem countLoss_mem (s : State) : (s.countLoss).mem = s.mem := by
  simp [State.countLoss]

@[simp] theorem countLossWait_mem (s : State) : (s.countLossWait).mem = s.mem := by
  simp [State.countLossWait]

@[simp] theorem countFull_mem (s : State) : (s.countFull).mem = s.mem := by
  simp [State.countFull]

@[simp] theorem countEmpty_mem (s : State) : (s.countEmpty).mem = s.mem := by
  simp [State.countEmpty]

theorem execQpush_wf {d a : BitVec 6} {s t : State} (h : s.mem.wf = true) (e : execQpush d a s = .next t) :
    t.mem.wf = true := by
  unfold execQpush at e
  grind [retire_mem, setBank_mem, stallPeer_mem, countFull_mem, pcFault_wf]

theorem execQpopa_wf {d a : BitVec 6} {s t : State} (h : s.mem.wf = true) (e : execQpopa d a s = .next t) :
    t.mem.wf = true := by
  unfold execQpopa at e
  grind [setA_mem, countLoss_mem, setBank_mem, stallPeer_mem, countLossWait_mem, pcFault_wf]

theorem loadOp_wf {sp : Space} {len : Nat} {t : BitVec 6} {ea : Word} {n : Nat} {acq : Bool} {s u : State}
    (h : s.mem.wf = true) (e : loadOp sp len t ea n acq s = .next u) : u.mem.wf = true := by
  unfold loadOp at e
  grind [finish_wf, setA_mem, bind_ok]

theorem storeOp_wf {sp : Space} {len : Nat} {t : BitVec 6} {ea : Word} {n : Nat} {rel : Bool} {s u : State}
    (h : s.mem.wf = true) (e : storeOp sp len t ea n rel s = .next u) : u.mem.wf = true := by
  unfold storeOp at e
  grind [finish_wf, wr_wf, retire_mem, bind_ok]

theorem ordered_wf {o : OrderSet} {sc : BitVec 3} {od : BitVec 2} {s t : State} {r : Result}
    (hr : ∀ u, r = .next u → u.mem.wf = true)
    (h : s.mem.wf = true) (e : ordered o sc od s r = .next t) : t.mem.wf = true := by
  unfold ordered at e
  split at e
  · exact gangAfter_wf hr e
  · exact pcFault_wf h e

theorem loadShort_wf {sp : Space} {t b : BitVec 6} {sz : BitVec 2} {o : BitVec 8} {s u : State} (h : s.mem.wf = true)
    (e : loadShort sp t b sz o s = .next u) : u.mem.wf = true := by
  unfold loadShort at e
  grind [loadOp_wf]

theorem loadLong_wf {sp : Space} {t b : BitVec 6} {sz : BitVec 2} {sc : BitVec 3} {od : BitVec 2} {off : BitVec 25}
    {s u : State}
    (h : s.mem.wf = true) (e : loadLong sp t b sz sc od off s = .next u) : u.mem.wf = true :=
  ordered_wf (fun _ => loadOp_wf h) h e

theorem storeShort_wf {sp : Space} {t b : BitVec 6} {sz : BitVec 2} {o : BitVec 8} {s u : State} (h : s.mem.wf = true)
    (e : storeShort sp t b sz o s = .next u) : u.mem.wf = true := by
  unfold storeShort at e
  grind [storeOp_wf]

theorem storeLong_wf {sp : Space} {t b : BitVec 6} {sz : BitVec 2} {sc : BitVec 3} {od : BitVec 2} {off : BitVec 25}
    {s u : State}
    (h : s.mem.wf = true) (e : storeLong sp t b sz sc od off s = .next u) : u.mem.wf = true :=
  ordered_wf (fun _ => storeOp_wf h) h e

theorem ldrOp_wf {len : Nat} {t k : BitVec 6} {off : Word} {n : Nat} {acq : Bool} {s u : State} (h : s.mem.wf = true)
    (e : ldrOp len t k off n acq s = .next u) : u.mem.wf = true := by
  unfold ldrOp at e
  grind [loadOp_wf, stop_wf, pcFault_wf]

theorem strOp_wf {len : Nat} {t k : BitVec 6} {off : Word} {n : Nat} {rel : Bool} {s u : State} (h : s.mem.wf = true)
    (e : strOp len t k off n rel s = .next u) : u.mem.wf = true := by
  unfold strOp at e
  grind [storeOp_wf, stop_wf, pcFault_wf]

theorem ldvqOp_wf {len : Nat} {t b : BitVec 6} {sz : BitVec 2} {ea : Word} {acq : Bool} {s u : State}
    (h : s.mem.wf = true) (e : ldvqOp len t b sz ea acq s = .next u) : u.mem.wf = true := by
  unfold ldvqOp at e
  grind [finish_wf, retire_mem, setBank_mem, stallPeer_mem, countFull_mem, raise_mem, pcFault_wf, bind_ok]

theorem fillQueue_wf {s : State} {p : BankPlace} {x c q : Nat} (h : s.mem.wf = true) :
    (s.fillQueue p x c q).mem.wf = true := by
  unfold State.fillQueue
  grind [setBankIn_mem, loseCtx_wf]

theorem execLdvqFill_wf {cell q : Nat} {s t : State} (h : s.mem.wf = true) (e : execLdvqFill cell q s = .next t) :
    t.mem.wf = true := by
  unfold execLdvqFill at e
  grind [fillQueue_wf]

theorem stvqOp_wf {len : Nat} {t : BitVec 6} {sz : BitVec 2} {ea : Word} {rel : Bool} {s u : State}
    (h : s.mem.wf = true) (e : stvqOp len t sz ea rel s = .next u) : u.mem.wf = true := by
  unfold stvqOp at e
  grind [finish_wf, wr_wf, retire_mem, raise_mem, bind_ok]

theorem execCpre_wf {b : BitVec 6} {o : BitVec 8} {s t : State} (h : s.mem.wf = true) (e : execCpre b o s = .next t) :
    t.mem.wf = true := by
  unfold execCpre at e
  grind [retire_mem]

theorem execCpreL_wf {b : BitVec 6} {sc : BitVec 3} {od : BitVec 2} {off : BitVec 25} {s t : State}
    (h : s.mem.wf = true) (e : execCpreL b sc od off s = .next t) : t.mem.wf = true := by
  unfold execCpreL at e
  grind [retire_mem, pcFault_wf]

theorem amoOp_wf {sp : Space} {len : Nat} {t : BitVec 6} {op : BitVec 2} {ea : Word} {s u : State}
    (h : s.mem.wf = true) (e : amoOp sp len t op ea s = .next u) : u.mem.wf = true := by
  unfold amoOp at e
  grind [finish_wf, writeParts_wf, setA_mem, raise_mem, bind_ok]

theorem casOp_wf {sp : Space} {len : Nat} {t : BitVec 6} {sz : BitVec 2} {ea : Word} {s u : State}
    (h : s.mem.wf = true) (e : casOp sp len t sz ea s = .next u) : u.mem.wf = true := by
  unfold casOp at e
  grind [pcFault_wf, finish_wf, writeParts_wf, setA_mem, raise_mem, bind_ok]

/-! ### The functions of `Machine/Kernels.lean` -/

@[simp] theorem enterChunks_mem (s : State) (x : Nat) (k : Kernel) : (s.enterChunks x k).mem = s.mem := by
  simp [State.enterChunks]

@[simp] theorem leaveChunks_mem (s : State) (x : Nat) (k : Kernel) : (s.leaveChunks x k).mem = s.mem := by
  simp [State.leaveChunks]

@[simp] theorem setKernel_mem (s : State) (x : Nat) (k : Kernel) : (s.setKernel x k).mem = s.mem := by
  simp [State.setKernel]

/-- Writing a leaf writes memory only by `memWrite` and `memClear`. -/
theorem putLeaf_wf (g leaf : Nat) (ls : List (Nat × Nat × Option Nat)) :
    ∀ (m : Memory) (base : Nat) (frames : List Nat) {r : Memory × List Nat},
      m.wf = true → putLeaf g leaf m base ls frames = some r → r.1.wf = true := by
  induction ls with
  | nil => intro m base frames r _ e; cases e
  | cons l rest ih =>
    obtain ⟨lo, n, k⟩ := l
    intro m base frames r h e
    simp only [putLeaf] at e
    split at e
    · cases e; exact memWrite_wf _ _ _ h
    · split at e
      · split at e
        · exact ih _ _ _ h e
        · cases e
      · split at e
        · cases e
        · exact ih _ _ _ (memWrite_wf _ _ _ (memClear_wf _ _ _ h)) e

theorem putPages_wf (root : Nat) (ps : List PlacedPage) :
    ∀ (m : Memory) (frames : List Nat) {r : Memory}, m.wf = true → putPages root ps m frames = some r → r.wf = true := by
  induction ps with
  | nil => intro m frames r h e; cases e; exact h
  | cons p t ih =>
    intro m frames r h e
    simp only [putPages] at e
    split at e
    next m1 rest e1 => exact ih _ _ (putLeaf_wf _ _ _ _ _ _ (memWrite_wf _ _ _ (memClear_wf _ _ _ h)) e1) e
    next => cases e

theorem placePages_wf {s : State} {x : Nat} {k : Kernel} {frames : List Nat} {m : Memory} {ps : List PlacedPage}
    (h : s.mem.wf = true) (e : s.placePages x k frames = some (m, ps)) : m.wf = true := by
  unfold State.placePages at e
  split at e
  · split at e
    · cases e
    · obtain ⟨m', e', hm⟩ := Option.map_eq_some_iff.mp e
      cases hm
      exact putPages_wf _ _ _ _ h e'
  · cases e

theorem placeKernel_wf {s : State} {x : Nat} {k : Kernel} {frames : List Nat} (h : s.mem.wf = true) :
    (s.placeKernel x k frames).mem.wf = true := by
  unfold State.placeKernel
  split
  · exact h
  next m ps e => exact placePages_wf h e

theorem unmapPage_wf {s : State} {x page : Nat} (h : s.mem.wf = true) : (s.unmapPage x page).mem.wf = true := by
  simp only [State.unmapPage]
  split
  · exact memWrite_wf _ _ _ h
  · exact h

theorem dropKernel_wf {s : State} {x : Nat} {k : Kernel} (h : s.mem.wf = true) : (s.dropKernel x k).mem.wf = true := by
  have unmapped : ((k.pages.filter (·.kind != .args)).foldl (fun t p => t.unmapPage x p.page)
      (s.leaveChunks x k)).mem.wf = true :=
    foldl_state_wf _ (fun _ _ => unmapPage_wf) _ _ h
  unfold State.dropKernel
  refine memClear_foldl_wf _ _ _ _ ?_
  split
  · exact unmapped
  · exact h

theorem execGalleyEntryReclaim_wf {die entry : Nat} {s t : State} (h : s.mem.wf = true)
    (e : execGalleyEntryReclaim die entry s = .next t) : t.mem.wf = true := by
  unfold execGalleyEntryReclaim at e
  grind [settleKernels_mem]

@[simp] theorem eagerRegion_mem (s : State) (die x : Nat) (k : Kernel) (failed : List (Stream × Nat)) (st : Stream)
    (i : Nat) : (s.eagerRegion die x k failed st i).mem = s.mem := by
  unfold State.eagerRegion
  grind [enterGalley_mem]

theorem execEagerTranslationComplete_wf {die ctx : Nat} {slot : EagerLoad} {s t : State} (h : s.mem.wf = true)
    (e : execEagerTranslationComplete die ctx slot s = .next t) : t.mem.wf = true := by
  unfold execEagerTranslationComplete at e
  split at e
  · split at e
    · split at e
      · extract_lets one s1 at e
        have h1 : s1.mem.wf = true := foldl_state_wf _ (fun u i hu => by simpa [one] using hu) _ _ h
        clear_value s1
        split at e <;> cases e
        · simpa using h1
        · exact h1
      · cases e; exact h
    · cases e; exact h
  · cases e

@[simp] theorem markBad_mem (s : State) (x : Nat) (leaf : Digest) : (s.markBad x leaf).mem = s.mem := by
  simp [State.markBad]

theorem execRegionTranslationComplete_wf {cell : Nat} {st : Stream} {hashOk : Bool × Bool} {s t : State}
    (h : s.mem.wf = true) (e : execRegionTranslationComplete cell st hashOk s = .next t) : t.mem.wf = true := by
  unfold execRegionTranslationComplete at e
  grind [onCell_wf, markBad_mem, enterRegion_wf]

theorem execCompositorFailure_wf {cell : Nat} {st : Stream} {s t : State} (h : s.mem.wf = true)
    (e : execCompositorFailure cell st s = .next t) : t.mem.wf = true := by
  unfold execCompositorFailure at e
  grind [onCell_wf, setBank_mem, raise_mem]

/-! ### The functions of `Machine/Launch.lean` -/

@[simp] theorem unyield_mem (s : State) (x c : Nat) : (s.unyield x c).mem = s.mem := by
  simp only [State.unyield]
  split
  · split
    · rfl
    · split
      next e => exact popSaved_mem e
      next => rfl
    · split
      next e => exact popSaved_mem e
      next => rfl
    · rfl
  · rfl

@[simp] theorem endPass_mem (s : State) : (s.endPass).mem = s.mem := by
  unfold State.endPass
  grind [setBank_mem, unyield_mem, setGroup_mem, setCtx_mem]

/-! ### The functions of `Machine/ContextOps.lean` -/

theorem zeroFrames_wf {s : State} {l : List (Nat × Nat)} (h : s.mem.wf = true) : (s.zeroFrames l).mem.wf = true :=
  memClear_foldl_wf _ _ _ _ h

theorem execContextCreate_wf {request : List Byte} {fromRoot : Option Nat} {s t : State} (h : s.mem.wf = true)
    (e : execContextCreate request fromRoot s = .next t) : t.mem.wf = true := by
  simp only [execContextCreate] at e
  split at e
  · cases e; exact memClear_foldl_wf _ _ _ _ h
  · cases e; exact h

theorem setQueueState_wf {s : State} {x q st cause : Nat} {t : State} (h : s.mem.wf = true)
    (e : s.setQueueState x q st cause = .ok t) : t.mem.wf = true := by
  unfold State.setQueueState at e
  grind [agentWrite_wf]

theorem enableQueues_wf {s t : State} {x : Nat} (h : s.mem.wf = true) (e : s.enableQueues x = .ok t) :
    t.mem.wf = true := by
  refine foldlM_wf _ (fun u q v hu ev => ?_) _ _ _ h e
  obtain ⟨u1, e1, e2⟩ := (bind_ok _ _ _).mp ev
  exact agentWrite_wf (setQueueState_wf hu e1) e2

theorem execContextSetupComplete_wf {ctx : Nat} {s t : State} (h : s.mem.wf = true)
    (e : execContextSetupComplete ctx s = .next t) : t.mem.wf = true := by
  unfold execContextSetupComplete at e
  grind [zeroFrames_wf, enableQueues_wf, setCtx_mem]

@[simp] theorem seatBank_mem (s : State) (x c : Nat) : (s.seatBank x c).mem = s.mem := by
  unfold State.seatBank
  grind [popSaved_mem, setCell_mem]

theorem execContextGrant_wf {ctx : Nat} {s t : State} (h : s.mem.wf = true) (e : execContextGrant ctx s = .next t) :
    t.mem.wf = true := by
  have seated : ∀ l : List Nat, (l.foldl (fun t i => t.seatBank ctx i) s).mem = s.mem :=
    fun l => foldl_mem _ (fun _ _ => seatBank_mem _ _ _) l s
  simp only [execContextGrant] at e
  grind [setCtx_mem]

theorem execPreemptRequest_wf {ctx : Nat} {latches : List LatchIn} {s t : State} (h : s.mem.wf = true)
    (e : execPreemptRequest ctx latches s = .next t) : t.mem.wf = true := by
  simp only [execPreemptRequest] at e
  split at e
  · split at e
    · cases e
      rw [setCtx_mem, foldl_mem _ fun u i => ?_]
      · exact h
      · grind [setBankIn_mem]
    · cases e; exact h
  · cases e

@[simp] theorem swapOut_mem (s : State) (x c : Nat) : (s.swapOut x c).mem = s.mem := by
  unfold State.swapOut
  grind [setCell_mem]

@[simp] theorem swapIn_mem (s : State) (x c : Nat) : (s.swapIn x c).mem = s.mem := by
  unfold State.swapIn
  grind [popSaved_mem, setCell_mem, seatBank_mem]

theorem execShadowSwapComplete_wf {ctx : Nat} {s t : State} (h : s.mem.wf = true)
    (e : execShadowSwapComplete ctx s = .next t) :
    t.mem.wf = true := by
  have out : ∀ l : List Nat, (l.foldl (fun t i => t.swapOut ctx i) s).mem = s.mem :=
    fun l => foldl_mem _ (fun _ _ => swapOut_mem _ _ _) l s
  have inn : ∀ l : List Nat, (l.foldl (fun t i => t.swapIn ctx i) s).mem = s.mem :=
    fun l => foldl_mem _ (fun _ _ => swapIn_mem _ _ _) l s
  simp only [execShadowSwapComplete] at e
  grind [setCtx_mem]

theorem execResumeRequest_wf {ctx : Nat} {s t : State} (h : s.mem.wf = true) (e : execResumeRequest ctx s = .next t) :
    t.mem.wf = true := by
  unfold execResumeRequest at e
  grind [setCtx_mem]

theorem execSpillStart_wf {ctx : Nat} {s t : State} (h : s.mem.wf = true) (e : execSpillStart ctx s = .next t) :
    t.mem.wf = true := by
  unfold execSpillStart at e
  grind [setCtx_mem]

theorem spillBank_wf {s t : State} {x c : Nat} {b : Bank} (h : s.mem.wf = true) (e : s.spillBank x c b = .ok t) :
    t.mem.wf = true := by
  have write_wf : ∀ (u v : State) (y g : Nat) (bs : List Byte), u.mem.wf = true → u.saveWrite y g bs = .ok v →
      v.mem.wf = true := fun _ _ _ _ _ => saveWrite_wf
  unfold State.spillBank at e
  generalize State.saveWrite = write at write_wf e
  -- a lemma over any function for `saveWrite`: the kernel would else evaluate the length of a long list of bytes
  as_aux_lemma =>
  extract_lets s0 slot b1 dev at e
  have h0 : s0.mem.wf = true := h
  clear_value s0 slot b1 dev
  split at e
  · cases e
  next s1 e1 =>
    have h1 : s1.mem.wf = true := write_wf _ _ _ _ _ h0 e1
    split at e
    · cases e
    next s2 e2 =>
      have h2 : s2.mem.wf = true := write_wf _ _ _ _ _ h1 e2
      split at e
      · cases e
      · cases e
      next s3 _ e3 =>
        have h3 : s3.mem.wf = true := write_wf _ _ _ _ _ h2 e3
        cases e
        simpa using h3

@[simp] theorem parkBank_mem (s : State) (x c : Nat) : (s.parkBank x c).mem = s.mem := by
  unfold State.parkBank
  grind [setCell_mem]

theorem loseSave_wf {s : State} {x g : Nat} (h : s.mem.wf = true) : (s.loseSave x g).mem.wf = true := by
  unfold State.loseSave
  grind [loseCtx_wf]

theorem spillCell_wf {s t : State} {x c : Nat} (h : s.mem.wf = true) (e : s.spillCell x c = .ok t) :
    t.mem.wf = true := by
  unfold State.spillCell at e
  split at e
  next u eu =>
    have hu : u.mem.wf = true := foldlM_wf _ (fun _ _ _ => spillBank_wf) _ _ _ h eu
    cases e
    simpa using hu
  next => cases e

theorem execSpillComplete_wf {ctx : Nat} {s t : State} (h : s.mem.wf = true) (e : execSpillComplete ctx s = .next t) :
    t.mem.wf = true := by
  unfold execSpillComplete at e
  split at e
  · extract_lets c at e
    split at e
    · split at e
      next u eu =>
        have hu : u.mem.wf = true := foldlM_wf _ (fun _ _ _ => spillCell_wf) _ _ _ h eu
        cases e
        exact hu
      next => cases e; exact loseSave_wf h
    · cases e; exact h
  · cases e

theorem restoreSlot_wf {s t : State} {x c : Nat} (h : s.mem.wf = true) (e : s.restoreSlot x c = .ok t) :
    t.mem.wf = true := by
  simp only [State.restoreSlot] at e
  split at e
  next d b s1 _ ep =>
    have h1 : s1.mem.wf = true := by rw [popSaved_mem ep]; exact h
    split at e
    · cases e
    · split at e
      · cases e
      · cases e
        show Memory.wf (State.mem (Prod.snd _)) = true
        split
        next _ _ _ eq =>
          split at eq
          · rw [popSaved_mem eq]; exact h1
          · cases eq
        · exact h1
  · split at e
    · cases e; exact h
    · cases e; simpa using h

theorem execRestoreComplete_wf {ctx : Nat} {s t : State} (h : s.mem.wf = true)
    (e : execRestoreComplete ctx s = .next t) :
    t.mem.wf = true := by
  unfold execRestoreComplete at e
  split at e
  · extract_lets c cells due one at e
    have restored : ∀ (l : List Nat) (r : Except Nat State), (∀ u, r = .ok u → u.mem.wf = true) →
        ∀ u, l.foldl one r = .ok u → u.mem.wf = true := by
      intro l
      induction l with
      | nil => intro r hr; exact hr
      | cons i l ih =>
        intro r hr
        refine ih _ fun u eu => ?_
        unfold one at eu
        split at eu
        · exact restoreSlot_wf (hr _ rfl) eu
        · cases eu
    clear_value one cells
    split at e
    · split at e
      next u eu =>
        have hu : u.mem.wf = true := restored _ _ (fun v ev => by cases ev; exact h) _ eu
        cases e
        exact hu
      next => cases e; exact loseSave_wf h
    · cases e; exact h
  · cases e

theorem execScratchpadLineExchange_wf {cell line ctx : Nat} {s t : State} (h : s.mem.wf = true)
    (e : execScratchpadLineExchange cell line ctx s = .next t) : t.mem.wf = true := by
  have write_wf : ∀ (u v : State) (y g : Nat) (bs : List Byte), u.mem.wf = true → u.saveWrite y g bs = .ok v →
      v.mem.wf = true := fun _ _ _ _ _ => saveWrite_wf
  unfold execScratchpadLineExchange at e
  generalize State.saveWrite = write at write_wf e
  -- a lemma over any function for `saveWrite`: the kernel would else evaluate the length of a long list of bytes
  as_aux_lemma =>
  split at e
  · extract_lets cl at e
    split at e
    · cases e; exact h
    next y _ =>
      split at e
      · cases e; exact h
      extract_lets g0 key at e
      split at e
      · cases e; exact loseSave_wf h
      · cases e; exact loseSave_wf h
      next s1 _ e1 =>
        have h1 : s1.mem.wf = true := write_wf _ _ _ _ _ h e1
        split at e
        · cases e; exact loseSave_wf h1
        next bs _ => cases e; exact memWrite_wf bs s1.mem _ h1
  · cases e

/-- A listed byte is not the blank byte. -/
theorem ne_blank_of_mem (m : Memory) : ∀ lo, memWfFrom lo m = true → ∀ e ∈ m, e.2 ≠ memBlank := by
  induction m with
  | nil => intro lo _ e he; cases he
  | cons a t ih =>
    intro lo w e he
    simp only [memWfFrom, Bool.and_eq_true, bne_iff_ne, ne_eq] at w
    rcases List.mem_cons.mp he with rfl | he
    · exact w.1.2
    · exact ih _ w.2 e he

/-- A descriptor byte whose state field is 1 does not become 0 when its state field becomes 2. -/
theorem retired_ne_blank (v : Byte) (h : field v 5 2 = 1) : BitVec.ofNat 8 (v.toNat + 32) ≠ memBlank := by
  revert v
  decide

theorem retireTable_wf {s : State} {x : Nat} (h : s.mem.wf = true) : (s.retireTable x).mem.wf = true := by
  have listed := ne_blank_of_mem s.mem 0 h
  unfold State.retireTable
  extract_lets ps hits retire
  have onByte : ∀ e : Nat × Byte,
      (if hits e.1 then (e.1, retire e.2) else e) = (e.1, if hits e.1 then retire e.2 else e.2) := by
    intro e; split <;> rfl
  have kept : ∀ v : Byte, v ≠ memBlank → retire v ≠ memBlank := by
    intro v hv
    unfold retire
    split
    next hf => exact retired_ne_blank v hf
    next => exact hv
  simp only [onByte]
  refine memWfFrom_map _ (fun e => if hits e.1 then retire e.2 else e.2) (fun e he => ?_) 0 h
  split
  · exact kept _ (listed e he)
  · exact listed e he

theorem disableQueues_wf {s : State} {x : Nat} (h : s.mem.wf = true) : (s.disableQueues x).mem.wf = true := by
  refine foldl_state_wf _ (fun u q hu => ?_) _ _ h
  split
  next e => exact setQueueState_wf hu e
  next => exact hu

theorem endCtx_wf {s : State} {x : Nat} (h : s.mem.wf = true) : (s.endCtx x).mem.wf = true := by
  unfold State.endCtx
  extract_lets frames s1 bank ids sched s2 s3 s4 ctx
  have h2 : s2.mem.wf = true := h
  clear_value s2
  have h3 : s3.mem.wf = true := retireTable_wf (disableQueues_wf h2)
  have h4 : s4.mem.wf = true := foldl_state_wf _ (fun _ _ => dropKernel_wf) _ _ h3
  clear_value s4
  exact h4

theorem execContextEndRequest_wf {ctx : Nat} {s t : State} (h : s.mem.wf = true)
    (e : execContextEndRequest ctx s = .next t) : t.mem.wf = true := by
  unfold execContextEndRequest at e
  grind [endCtx_wf]

theorem freeCtx_wf {s : State} {x : Nat} (h : s.mem.wf = true) : (s.freeCtx x).mem.wf = true := by
  unfold State.freeCtx
  extract_lets k s1 s2 img s3
  have h1 : s1.mem.wf = true := by
    unfold s1
    split
    · exact zeroFrames_wf h
    · exact h
  exact memClear_wf s1.mem _ _ h1

theorem execContextRetireComplete_wf {ctx : Nat} {s t : State} (h : s.mem.wf = true)
    (e : execContextRetireComplete ctx s = .next t) : t.mem.wf = true := by
  unfold execContextRetireComplete at e
  grind [freeCtx_wf]

theorem execSupervisorTaskStart_wf {ctx : Nat} {s t : State} (h : s.mem.wf = true)
    (e : execSupervisorTaskStart ctx s = .next t) : t.mem.wf = true := by
  unfold execSupervisorTaskStart at e
  grind [setCtx_mem, setCell_mem]

theorem execWatchdogExpiry_wf {cell : Nat} {s t : State} (h : s.mem.wf = true)
    (e : execWatchdogExpiry cell s = .next t) : t.mem.wf = true := by
  unfold execWatchdogExpiry at e
  grind [onCell_wf, handlerFault_wf, setBankIn_mem]

@[simp] theorem tickAside_mem (s : State) (cell : Nat) : (s.tickAside cell).mem = s.mem := by
  unfold State.tickAside
  refine foldl_mem _ (fun u q => ?_) _ _
  grind [setBankIn_mem]

/-! ### The functions of `Machine/Records.lean` -/

@[simp] theorem presentTo_mem (s : State) (g : Group) (c idx : Nat) (r : StatRecord) :
    (s.presentTo g c idx r).mem = s.mem := by
  unfold State.presentTo
  split <;> simp

theorem present_mem {s : State} {b : Bank} {c : Nat} {walk : Option Int} {idx : Nat} {hbase : Int}
    {l : List (Num × Bool)} {t} (e : s.present b c walk idx hbase l = t) : t.1.mem = s.mem := by
  unfold State.present at e
  grind [presentTo_mem]

@[simp] theorem presentHere_mem (s : State) (walk : Option Int) (d : Desc) (l : List (Num × Bool)) :
    (s.presentHere walk d l).mem = s.mem := by
  unfold State.presentHere
  grind [present_mem, setBank_mem]

@[simp] theorem clearRecord_mem (s : State) (g : Group) (idx : Nat) : (s.clearRecord g idx).mem = s.mem := by
  simp only [State.clearRecord]
  rw [foldl_mem _ fun u c => ?_]
  · grind [setGroup_mem, setGraph_mem, setCtx_mem]
  · grind [setBankOf_mem]

/-! ### The functions of `Machine/Tensor.lean` -/

theorem execTrec_wf {b im : BitVec 6} {s t : State} (h : s.mem.wf = true) (e : execTrec b im s = .next t) :
    t.mem.wf = true := by
  unfold execTrec at e
  grind [finish_wf, wr_wf, retire_mem, bind_ok]

theorem execTrecClr_wf {im : BitVec 6} {s t : State} (h : s.mem.wf = true) (e : execTrecClr im s = .next t) :
    t.mem.wf = true := by
  unfold execTrecClr at e
  grind [finish_wf, retire_mem, clearRecord_mem, bind_ok]

theorem foldBank_mem (idx id : Nat) (acc : State × StatRecord) (x c : Nat) :
    (foldBank idx id acc x c).1.mem = acc.1.mem := by
  unfold foldBank
  split
  · rfl
  · simp

@[simp] theorem foldGroup_mem (s : State) (g : Group) (idx : Nat) : (s.foldGroup g idx).mem = s.mem := by
  have folded : ∀ (l : List Nat) (a : State × StatRecord),
      (l.foldl (fun acc c => foldBank idx g.id acc g.ctx c) a).1.mem = a.1.mem := by
    intro l
    induction l with
    | nil => intro a; rfl
    | cons c l ih => intro a; rw [List.foldl_cons, ih, foldBank_mem]
  exact folded g.cells (s, recordAt g.snapshot idx)

@[simp] theorem passFold_mem (s : State) : (s.passFold).mem = s.mem := by
  simp [State.passFold]

theorem execTfold_wf {im : BitVec 6} {s t : State} (h : s.mem.wf = true) (e : execTfold im s = .next t) :
    t.mem.wf = true := by
  unfold execTfold at e
  grind [finish_wf, passFold_mem, setBank_mem, stallPeer_mem, countLossWait_mem, stall_mem, raise_mem, foldGroup_mem,
    bind_ok]

theorem execTver_wf {im v : BitVec 6} {sz : BitVec 3} {s t : State} (h : s.mem.wf = true)
    (e : execTver im v sz s = .next t) : t.mem.wf = true := by
  unfold execTver at e
  grind [gangAfter_wf, finish_wf, agentWrite_wf, retire_mem, pcFault_wf, bind_ok]

theorem execTvwait_wf {im v : BitVec 6} {sz : BitVec 3} {s t : State} (h : s.mem.wf = true)
    (e : execTvwait im v sz s = .next t) : t.mem.wf = true := by
  unfold execTvwait at e
  grind [gangAfter_wf, finish_wf, retire_mem, pcFault_wf, bind_ok]

theorem ldgvOp_wf {len : Nat} {t : BitVec 6} {ea : Word} {n : Nat} {acq : Bool} {s u : State} (h : s.mem.wf = true)
    (e : ldgvOp len t ea n acq s = .next u) : u.mem.wf = true := by
  unfold ldgvOp at e
  grind [finish_wf, setA_mem, bind_ok]

theorem execLdgvL_wf {t b : BitVec 6} {sz : BitVec 2} {sc : BitVec 3} {od : BitVec 2} {off : BitVec 25} {s u : State}
    (h : s.mem.wf = true) (e : execLdgvL t b sz sc od off s = .next u) : u.mem.wf = true := by
  unfold execLdgvL at e
  grind [gangAfter_wf, ldgvOp_wf, pcFault_wf]

/-! ### The functions of `Machine/Barrier.lean` -/

theorem execBxinit_wf {x : BitVec 5} {sz : BitVec 3} {e : BitVec 6} {s t : State} (h : s.mem.wf = true)
    (e : execBxinit x sz e s = .next t) : t.mem.wf = true := by
  unfold execBxinit at e
  grind [raise_mem, retire_mem, setBank_mem, pcFault_wf]

theorem arrive_mem {s : State} {x : Nat} {t : ArriveAt} {cnt : Nat} {bytes : Int} {u : State}
    (e : s.arrive x t cnt bytes = .ok u) : u.mem = s.mem := by
  unfold State.arrive at e
  grind [setBankOf_mem]

theorem arriveHere_mem {s : State} {t : ArriveAt} {cnt : Nat} {bytes : Int} {u : State}
    (e : s.arriveHere t cnt bytes = .ok u) : u.mem = s.mem := by
  unfold State.arriveHere at e
  grind [setBank_mem, arrive_mem]

theorem arriveOp_wf {arr : Bool} {x : BitVec 5} {g sz p : BitVec 1} {c : BitVec 3} {a : BitVec 6} {s t : State}
    (h : s.mem.wf = true) (e : arriveOp arr x g sz p c a s = .next t) : t.mem.wf = true := by
  unfold arriveOp at e
  grind [pcFault_wf, raise_mem, finish_wf, arriveHere_mem, retire_mem, gangTransfer_wf, bind_ok]

theorem ringWait_wf {k : Nat} {cons : Bool} {s t : State} (h : s.mem.wf = true) (e : ringWait k cons s = .next t) :
    t.mem.wf = true := by
  unfold ringWait at e
  grind [raise_mem, retire_mem, setBank_mem, stall_mem]

theorem execBxwait_wf {x : BitVec 5} {g sz : BitVec 1} {p : BitVec 6} {s t : State} (h : s.mem.wf = true)
    (e : execBxwait x g sz p s = .next t) : t.mem.wf = true := by
  unfold execBxwait at e
  grind [gangAfter_wf, ringWait_wf, raise_mem, stall_mem, retire_mem]

theorem execRingset_wf {k : BitVec 3} {c : BitVec 6} {s t : State} (h : s.mem.wf = true)
    (e : execRingset k c s = .next t) : t.mem.wf = true := by
  unfold execRingset at e
  grind [pcFault_wf, retire_mem, setBank_mem, raise_mem]

theorem execFence_wf {sz : BitVec 3} {k : BitVec 2} {e : BitVec 1} {s t : State} (h : s.mem.wf = true)
    (e : execFence sz k e s = .next t) : t.mem.wf = true := by
  unfold execFence at e
  grind [gangAfter_wf, stall_mem, retire_mem, pcFault_wf]

theorem execPromote_wf {sz : BitVec 3} {s t : State} (h : s.mem.wf = true) (e : execPromote sz s = .next t) :
    t.mem.wf = true := by
  unfold execPromote at e
  grind [gangAfter_wf, retire_mem, pcFault_wf]

/-! ### The functions of `Machine/Copy.lean` -/

theorem copyOp_wf {k : CopyKind} {hd a : BitVec 6} {x : BitVec 5} {ev : BitVec 1} {ch : Nat} {p f : BitVec 1}
    {s t : State}
    (h : s.mem.wf = true) (e : copyOp k hd a x ev ch p f s = .next t) : t.mem.wf = true := by
  unfold copyOp at e
  split at e
  · exact pcFault_wf h e
  extract_lets word v at e
  split at e
  · cases e; simpa using h
  refine finish_endsWf (endsWf_read fun bs => ?_) h e
  extract_lets d last shown
  split
  · exact endsWf_error
  have issued : ∀ u, EndsWf (last u) := by
    intro u
    refine endsWf_read fun _ => endsWf_read fun place => ?_
    split
    split
    · exact endsWf_error
    split
    · exact endsWf_error
    exact endsWf_ok (by simpa using h)
  have presented : ∀ u, EndsWf (shown u) := by
    intro u
    unfold shown
    split
    · split
      · split
        · exact endsWf_read issued
        · exact endsWf_read issued
      · exact endsWf_read issued
    · exact endsWf_read issued
  clear_value shown
  split
  · exact endsWf_read presented
  · exact endsWf_read presented

theorem execHwait_wf {hd : BitVec 6} {s t : State} (h : s.mem.wf = true) (e : execHwait hd s = .next t) :
    t.mem.wf = true := by
  unfold execHwait at e
  grind [raise_mem, retire_mem, stall_mem]

theorem execHwaitp_wf {hd b : BitVec 6} {s t : State} (h : s.mem.wf = true) (e : execHwaitp hd b s = .next t) :
    t.mem.wf = true := by
  unfold execHwaitp at e
  grind [raise_mem, retire_mem, stall_mem]

theorem execHrel_wf {hd : BitVec 6} {s t : State} (h : s.mem.wf = true) (e : execHrel hd s = .next t) :
    t.mem.wf = true := by
  unfold execHrel at e
  grind [raise_mem, retire_mem, setBank_mem]

theorem execHstat_wf {hd d : BitVec 6} {s t : State} (h : s.mem.wf = true) (e : execHstat hd d s = .next t) :
    t.mem.wf = true := by
  unfold execHstat at e
  grind [pcFault_wf, retire_mem, setBank_mem]

/-! ### The functions of `Machine/CopyRun.lean` -/

@[simp] theorem mapBankIn_mem (s : State) (p : BankPlace) (x c : Nat) (f : Bank → Bank) :
    (s.mapBankIn p x c f).mem = s.mem := by
  unfold State.mapBankIn
  split <;> simp

theorem postEvent_wf {s : State} {x : Nat} {c : Cause} {slot : Nat} (h : s.mem.wf = true) :
    (s.postEvent x c slot).mem.wf = true := by
  unfold State.postEvent
  grind [saveWrite_wf, setCtx_mem, loseCtx_wf]

theorem stopReplay_wf {s : State} {p : BankPlace} {x c ch i : Nat} {o : CopyOp} {cause : Cause} {fva : Nat}
    (h : s.mem.wf = true) : (s.stopReplay p x c ch i o cause fva).mem.wf = true := by
  unfold State.stopReplay
  grind [agentWrite_wf, loseCtx_wf, raiseDevice_mem, setCtx_mem, postEvent_wf, mapBankIn_mem]

theorem copyFault_wf {s : State} {p : BankPlace} {x c ch i : Nat} {o : CopyOp} {cause : Cause} {fva : Nat}
    (h : s.mem.wf = true) : (s.copyFault p x c ch i o cause fva).mem.wf = true := by
  unfold State.copyFault
  grind [raiseEngineIn_wf, mapBankIn_mem]

theorem startCopy_wf {s : State} {p : BankPlace} {x c ch : Nat} (h : s.mem.wf = true) :
    (s.startCopy p x c ch).mem.wf = true := by
  unfold State.startCopy
  split <;> grind [setBankIn_mem, raiseDevice_mem, loseCtx_wf]

theorem deliver_wf {s : State} {p : BankPlace} {x c ch n : Nat} {pool : Bool} (h : s.mem.wf = true) :
    (s.deliver p x c ch n pool).mem.wf = true := by
  unfold State.deliver
  split
  · exact h
  split
  · exact h
  extract_lets d g bar
  clear_value d g bar
  split
  · exact stopReplay_wf h
  split
  · exact h
  next bar _ =>
    split
    next s1 k stop taken =>
      have h1 : s1.mem.wf = true := by
        split at taken <;> cases taken
        · exact h
        · simpa using h
      extract_lets moved o1
      split
      · exact loseCtx_wf h1
      next s2 written =>
        have h2 : s2.mem.wf = true := putBytes_wf h1 written
        extract_lets s3
        have h3 : s3.mem.wf = true := by simpa [s3] using h2
        clear_value s3
        split
        · exact copyFault_wf h3
        · simpa using h3
        · split
          · exact copyFault_wf h3
          · exact stopReplay_wf h3
          · exact loseCtx_wf h3
          · exact h3

@[simp] theorem presentCopy_mem (s : State) (p : BankPlace) (x c ch : Nat) (o : CopyOp) :
    (s.presentCopy p x c ch o).mem = s.mem := by
  unfold State.presentCopy
  grind [present_mem, setBankIn_mem]

theorem arriveCopy_wf {s : State} {p : BankPlace} {x c ch : Nat} {o : CopyOp} (h : s.mem.wf = true) :
    (s.arriveCopy p x c ch o).mem.wf = true := by
  unfold State.arriveCopy
  grind [mapBankIn_mem, gangRelease_wf, setBankIn_mem, copyFault_wf]

theorem finishCopy_wf {s : State} {p : BankPlace} {x c ch : Nat} (h : s.mem.wf = true) :
    (s.finishCopy p x c ch).mem.wf = true := by
  unfold State.finishCopy
  grind [arriveCopy_wf, presentCopy_mem]

theorem copyEvent_wf {s t : State} {cell ch : Nat} {test : BankPlace × Nat → Bank → Bool}
    {f : BankPlace → Nat → State → State}
    (hf : ∀ p x, (f p x s).mem.wf = true) (h : s.mem.wf = true)
    (e : copyEvent cell ch test f s = .next t) : t.mem.wf = true := by
  unfold copyEvent at e
  split at e
  · split at e
    · cases e; exact hf _ _
    · cases e; exact h
  · cases e

theorem execCopyStart_wf {cell ch : Nat} {s t : State} (h : s.mem.wf = true) (e : execCopyStart cell ch s = .next t) :
    t.mem.wf = true := by
  unfold execCopyStart at e
  grind [copyEvent_wf, startCopy_wf]

theorem execCopyBytesDelivered_wf {cell ch n : Nat} {poolError : Bool} {s t : State} (h : s.mem.wf = true)
    (e : execCopyBytesDelivered cell ch n poolError s = .next t) : t.mem.wf = true := by
  unfold execCopyBytesDelivered at e
  grind [copyEvent_wf, deliver_wf]

theorem execCopyComplete_wf {cell ch : Nat} {s t : State} (h : s.mem.wf = true)
    (e : execCopyComplete cell ch s = .next t) : t.mem.wf = true := by
  unfold execCopyComplete at e
  grind [copyEvent_wf, finishCopy_wf]

/-! ### The functions of `Machine/Tcb.lean` -/

theorem agentStop_wf {s : State} {x tcb : Nat} {v : Stop} (h : s.mem.wf = true) :
    (s.agentStop x tcb v).mem.wf = true := by
  unfold State.agentStop
  grind [raiseDevice_mem, loseCtx_wf]

theorem raiseFaults_mem (x : Nat) (l : List AgentFault) (s : State) :
    (l.foldl (fun t f => t.raiseDevice x f.cause (wordOfNat f.fva) (wordOfNat f.tcb)) s).mem = s.mem :=
  foldl_mem _ (fun _ _ => raiseDevice_mem _ _ _ _ _) _ _

theorem agentDo_wf {s : State} {x tcb : Nat} {r : Except Stop Work} (h : s.mem.wf = true)
    (hr : ∀ w, r = .ok w → w.s.mem.wf = true) : (s.agentDo x tcb r).mem.wf = true := by
  unfold State.agentDo
  split
  · rw [raiseFaults_mem]; exact hr _ rfl
  · exact agentStop_wf h

theorem agentDo'_wf {s : State} {x tcb : Nat} {r : Except Stop State} (h : s.mem.wf = true)
    (hr : ∀ t, r = .ok t → t.mem.wf = true) : (s.agentDo' x tcb r).mem.wf = true := by
  unfold State.agentDo'
  split
  · exact hr _ rfl
  · exact agentStop_wf h

theorem writeTcb_wf {s : State} {x i off : Nat} {bs : List Byte} {t : State} (h : s.mem.wf = true)
    (e : s.writeTcb x i off bs = .ok t) : t.mem.wf = true := by
  unfold State.writeTcb at e
  grind [agentWrite_wf]

@[simp] theorem enqueue_mem (s : State) (x i cell level : Nat) : (s.enqueue x i cell level).mem = s.mem := by
  simp [State.enqueue]

@[simp] theorem dequeue_mem (s : State) (x i : Nat) : (s.dequeue x i).mem = s.mem := by
  simp [State.dequeue]

@[simp] theorem dropGroup_mem (s : State) (g : Group) : (s.dropGroup g).mem = s.mem := by
  unfold State.dropGroup
  refine foldl_mem _ (fun u c => ?_) _ _
  grind [setCell_mem, unyield_mem]

@[simp] theorem dropForming_mem (s : State) (x i : Nat) : (s.dropForming x i).mem = s.mem := by
  unfold State.dropForming
  split <;> simp

theorem makeReady_wf {s t : State} {x i die : Nat} (h : s.mem.wf = true) (e : s.makeReady x i die = .ok t) :
    t.mem.wf = true := by
  simp only [State.makeReady, bind_ok] at e
  obtain ⟨b, -, e⟩ := e
  split at e
  · split at e <;> obtain ⟨s1, e1, e⟩ := (bind_ok _ _ _).mp e <;> cases e <;> simpa using writeTcb_wf h e1
  · obtain ⟨s1, e1, e⟩ := (bind_ok _ _ _).mp e
    cases e
    simpa using writeTcb_wf h e1

/-- Where a decrement ends in a state, its memory has its canonical form. -/
def DecEnd.Wf : DecEnd → Prop
  | .done s => s.mem.wf = true
  | .cancelled s => s.mem.wf = true
  | .bad => True

theorem decPred_wf {s : State} {x i die : Nat} {d : DecEnd} (h : s.mem.wf = true) (e : s.decPred x i die = .ok d) :
    d.Wf := by
  simp only [State.decPred, bind_ok] at e
  obtain ⟨b, -, e⟩ := e
  split at e
  · obtain ⟨s1, e1, e⟩ := (bind_ok _ _ _).mp e
    have h1 : s1.mem.wf = true := writeTcb_wf h e1
    split at e
    · split at e
      · obtain ⟨s2, e2, e⟩ := (bind_ok _ _ _).mp e
        cases e; exact writeTcb_wf h1 e2
      · obtain ⟨s2, e2, e⟩ := (bind_ok _ _ _).mp e
        cases e; exact makeReady_wf h1 e2
    · cases e; exact h1
  · cases e; trivial

/-! ### The functions of `Machine/PlateBase.lean` -/

@[simp] theorem setPlate_mem (s : State) (p : Plate) : (s.setPlate p).mem = s.mem := by
  simp [State.setPlate]

theorem handBack_wf {s t : State} {p : Plate} {g : Graph} (h : s.mem.wf = true) (e : s.handBack p g = .ok t) :
    t.mem.wf = true := by
  have dropped : ∀ l : List Group, (l.foldl State.dropGroup s).mem = s.mem := fun l => foldl_mem _ dropGroup_mem l s
  unfold State.handBack at e
  refine foldlM_wf _ (fun _ _ _ => makeReady_wf) _ _ _ ?_ e
  rw [setGraph_mem, setPlate_mem, dropped]
  exact h

/-! ### The functions of `Machine/Complete.lean` -/

theorem writeCompletion_wf {s : State} {x : Nat} {compl seq : Word} {status ty : Nat} {t : State}
    (h : s.mem.wf = true) (e : s.writeCompletion x compl seq status ty = .ok t) : t.mem.wf = true := by
  unfold State.writeCompletion at e
  grind [agentWrite_wf]

@[simp] theorem distribute_mem (s : State) (p : Plate) : (s.distribute p).mem = s.mem :=
  foldl_mem (fun t d => t.send (.plateSection d p.image)) (fun _ _ => rfl) _ _

@[simp] theorem dropRecording_mem (s : State) (g : Graph) : (s.dropRecording g).mem = s.mem := by
  unfold State.dropRecording
  grind

@[simp] theorem growPlate_mem (s : State) (g : Graph) (old new : Plate) : (s.growPlate g old new).mem = s.mem := by
  unfold State.growPlate
  split <;> simp

@[simp] theorem plateEnds_mem (s : State) (g : Graph) : (s.plateEnds g).mem = s.mem := by
  unfold State.plateEnds
  grind [distribute_mem, setPlate_mem, dropRecording_mem]

theorem finishGraph_wf {s t : State} {g : Graph} (h : s.mem.wf = true) (e : s.finishGraph g = .ok t) :
    t.mem.wf = true := by
  simp only [State.finishGraph, bind_ok] at e
  obtain ⟨s1, e1, e⟩ := e
  have h1 : s1.mem.wf = true := writeCompletion_wf (by exact h) e1
  have h2 : (s1.plateEnds g).mem.wf = true := by simpa using h1
  cases e
  exact h2

theorem putGraph_wf {s : State} {g : Graph} {t : State} (h : s.mem.wf = true) (e : s.putGraph g = .ok t) :
    t.mem.wf = true := by
  unfold State.putGraph at e
  grind [finishGraph_wf, setGraph_mem]

theorem execCounterRegister_wf {graph : Nat} {node : CounterNode} {s t : State} (h : s.mem.wf = true)
    (e : execCounterRegister graph node s = .next t) : t.mem.wf = true := by
  unfold execCounterRegister at e
  grind [setGraph_mem]

theorem execCounterCombine_wf {graph : Nat} {node : CounterNode} {s t : State} (h : s.mem.wf = true)
    (e : execCounterCombine graph node s = .next t) : t.mem.wf = true := by
  unfold execCounterCombine at e
  grind [agentDo'_wf, putGraph_wf]

theorem Work_dec_wf {w : Work} {x t die : Nat} {fault : AgentFault} {r : Work × Ending} (h : w.s.mem.wf = true)
    (e : w.dec x t die fault = .ok r) : r.1.s.mem.wf = true := by
  simp only [Work.dec, bind_ok] at e
  obtain ⟨d, e1, e⟩ := e
  have h1 := decPred_wf h e1
  cases d <;> cases e
  · exact h1
  · exact h1
  · exact h

theorem Work_decAll_wf (x die tcb : Nat) (l : List Nat) :
    ∀ {w : Work} {r : Work × Ending}, w.s.mem.wf = true → w.decAll x die tcb l = .ok r → r.1.s.mem.wf = true := by
  induction l with
  | nil => intro w r h e; cases e; exact h
  | cons t l ih =>
    intro w r h e
    simp only [Work.decAll, bind_ok] at e
    obtain ⟨a, e1, b, e2, e⟩ := e
    have hb : b.1.s.mem.wf = true := ih (Work_dec_wf h e1) e2
    cases e
    exact hb

theorem Work_settle_wf {w : Work} {x die tcb fut final : Nat} {r : Work × Ending} (h : w.s.mem.wf = true)
    (e : w.settle x die tcb fut final = .ok r) : r.1.s.mem.wf = true := by
  simp only [Work.settle] at e
  split at e
  · cases e; exact h
  · simp only [bind_ok] at e
    obtain ⟨ps, -, bs, -, e⟩ := e
    split at e
    · cases e; exact h
    · obtain ⟨s1, e1, e⟩ := (bind_ok _ _ _).mp e
      have h1 : s1.mem.wf = true := writeParts_wf h e1
      split at e
      · cases e; exact h1
      · obtain ⟨d, e2, e⟩ := (bind_ok _ _ _).mp e
        have h2 := decPred_wf h1 e2
        cases d <;> cases e
        · exact h2
        · exact h2
        · exact h

theorem countEnd_wf {s t : State} {x i final : Nat} (h : s.mem.wf = true) (e : s.countEnd x i final = .ok t) :
    t.mem.wf = true := by
  simp only [State.countEnd] at e
  split at e
  · cases e; exact h
  · refine putGraph_wf ?_ e
    split <;> simpa using h

theorem Work_complete_wf (x die : Nat) (fuel : Nat) :
    ∀ {l : Ending} {w r : Work}, w.s.mem.wf = true → Work.complete x die fuel l w = .ok r → r.s.mem.wf = true := by
  induction fuel with
  | zero => intro l w r h e; cases e; exact h
  | succ fuel ih =>
    intro l w r h e
    match l, e with
    | [], e => cases e; exact h
    | (i, final) :: rest, e =>
      simp only [Work.complete, bind_ok] at e
      obtain ⟨b, -, succ, -, w1, e1, w2, e2, s3, e3, e⟩ := e
      exact ih (countEnd_wf (Work_settle_wf (Work_decAll_wf _ _ _ _ h e1) e2) e3) e

theorem completeTask_wf {s : State} {x i final die : Nat} {t : Work} (h : s.mem.wf = true)
    (e : s.completeTask x i final die = .ok t) : t.s.mem.wf = true := Work_complete_wf _ _ _ h e

theorem endTask_wf {s : State} {x i final die : Nat} {t : Work} (h : s.mem.wf = true)
    (e : s.endTask x i final die = .ok t) : t.s.mem.wf = true := by
  simp only [State.endTask, bind_ok] at e
  obtain ⟨b, -, s1, e1, e⟩ := e
  exact completeTask_wf (writeTcb_wf h e1) e

theorem cancelStep_wf {s : State} {x i die : Nat} {r : Nat × Work} (h : s.mem.wf = true)
    (e : s.cancelStep x i die = .ok r) : r.2.s.mem.wf = true := by
  simp only [State.cancelStep, bind_ok] at e
  obtain ⟨b, -, e⟩ := e
  split at e
  · cases e; exact h
  split at e
  · cases e; exact h
  split at e
  · obtain ⟨s1, e1, e⟩ := (bind_ok _ _ _).mp e
    cases e; exact writeTcb_wf h e1
  split at e
  · obtain ⟨s1, e1, e⟩ := (bind_ok _ _ _).mp e
    have h1 : s1.mem.wf = true := writeTcb_wf (by simpa using h) e1
    obtain ⟨w, ew, e⟩ := (bind_ok _ _ _).mp e
    cases e; exact completeTask_wf h1 ew
  · cases e; exact h

theorem cancelAll_wf (x die : Nat) (l : List Nat) :
    ∀ {w r : Work}, w.s.mem.wf = true → cancelAll x die l w = .ok r → r.s.mem.wf = true := by
  induction l with
  | nil => intro w r h e; cases e; exact h
  | cons i l ih =>
    intro w r h e
    simp only [cancelAll, bind_ok] at e
    obtain ⟨a, e1, e⟩ := e
    exact ih (w := ⟨a.2.s, w.faults ++ a.2.faults⟩) (cancelStep_wf h e1) e

/-! ### The functions of `Machine/Refine.lean` -/

@[simp] theorem refinePlate_mem (s : State) (p : Plate) : (s.refinePlate p).mem = s.mem := by
  unfold State.refinePlate
  grind [distribute_mem, setPlate_mem]

theorem execMakeReady_wf {plate : Nat} {s t : State} (h : s.mem.wf = true) (e : execMakeReady plate s = .next t) :
    t.mem.wf = true := by
  unfold execMakeReady at e
  grind [refinePlate_mem]

/-! ### The functions of `Machine/Queue.lean` -/

@[simp] theorem holdGraph_mem (s : State) (x q : Nat) : (s.holdGraph x q).mem = s.mem := by
  unfold State.holdGraph
  grind [setCtx_mem]

@[simp] theorem dropHold_mem (s : State) (x q : Nat) : (s.dropHold x q).mem = s.mem := by
  simp [State.dropHold]

theorem stopQueue_wf {s : State} {x q cause : Nat} (h : s.mem.wf = true) : (s.stopQueue x q cause).mem.wf = true := by
  unfold State.stopQueue
  grind [setQueueState_wf, postEvent_wf, dropHold_mem, agentStop_wf]

theorem advanceHead_wf {s t : State} {x q len : Nat} (h : s.mem.wf = true) (e : s.advanceHead x q len = .ok t) :
    t.mem.wf = true := by
  simp only [State.advanceHead, bind_ok] at e
  obtain ⟨d, -, s1, e1, e⟩ := e
  have h1 : s1.mem.wf = true := agentWrite_wf h e1
  cases e
  exact h1

theorem acceptPacket_wf {s t : State} {x q len ty status : Nat} {compl seq : Word} (h : s.mem.wf = true)
    (e : s.acceptPacket x q len ty status compl seq = .ok t) : t.mem.wf = true := by
  simp only [State.acceptPacket, bind_ok] at e
  obtain ⟨s1, e1, e2⟩ := e
  exact advanceHead_wf (writeCompletion_wf h e1) e2

theorem packetStep_wf {s t : State} {ty x q : Nat} {act : Packet → State → State} (hf : ∀ p, (act p s).mem.wf = true)
    (h : s.mem.wf = true) (e : packetStep ty x q act s = .next t) : t.mem.wf = true := by
  unfold packetStep at e
  grind [agentStop_wf, stopQueue_wf]

theorem tailSeen_wf {s : State} {x q v : Nat} (h : s.mem.wf = true) : (s.tailSeen x q v).mem.wf = true := by
  unfold State.tailSeen
  grind [stopQueue_wf, setCtx_mem]

theorem execTailWrite_wf {ctx q : Nat} {value : Word} {s t : State} (h : s.mem.wf = true)
    (e : execTailWrite ctx q value s = .next t) : t.mem.wf = true := by
  unfold execTailWrite at e
  grind [agentWrite_wf, tailSeen_wf]

theorem resumeQueue_wf {s : State} {x q : Nat} (h : s.mem.wf = true) : (s.resumeQueue x q).mem.wf = true := by
  unfold State.resumeQueue
  grind [agentWrite_wf, setCtx_mem]

theorem execQueueResume_wf {ctx q : Nat} {s t : State} (h : s.mem.wf = true) (e : execQueueResume ctx q s = .next t) :
    t.mem.wf = true := by
  unfold execQueueResume at e
  grind [resumeQueue_wf]

theorem execNopPacket_wf {ctx q : Nat} {s t : State} (h : s.mem.wf = true) (e : execNopPacket ctx q s = .next t) :
    t.mem.wf = true := by
  unfold execNopPacket at e
  grind [packetStep_wf, agentDo'_wf, acceptPacket_wf]

theorem loadPacket_wf {s : State} {x q : Nat} {p : Packet} {t : State} (h : s.mem.wf = true)
    (e : s.loadPacket x q p = .ok t) : t.mem.wf = true := by
  unfold State.loadPacket at e
  grind [acceptPacket_wf, enterChunks_mem, setCtx_mem, bind_ok]

theorem execLoadPacket_wf {ctx q : Nat} {s t : State} (h : s.mem.wf = true) (e : execLoadPacket ctx q s = .next t) :
    t.mem.wf = true := by
  unfold execLoadPacket at e
  grind [packetStep_wf, agentDo'_wf, loadPacket_wf]

@[simp] theorem tellReloc_mem (s : State) (x : Nat) (k : Kernel) (code : Nat) : (s.tellReloc x k code).mem = s.mem := by
  unfold State.tellReloc
  grind

theorem finishLoad_wf {s : State} {x : Nat} {k : Kernel} {room : Option (List Nat)} {t : State} (h : s.mem.wf = true)
    (e : s.finishLoad x k room = .ok t) : t.mem.wf = true := by
  unfold State.finishLoad at e
  grind [placeKernel_wf, tellReloc_mem, dropKernel_wf, acceptPacket_wf]

theorem execKernelLoadComplete_wf {ctx slot : Nat} {room : Option (List Nat)} {s t : State} (h : s.mem.wf = true)
    (e : execKernelLoadComplete ctx slot room s = .next t) : t.mem.wf = true := by
  unfold execKernelLoadComplete at e
  grind [agentDo'_wf, finishLoad_wf]

theorem unloadPacket_wf {s : State} {x q : Nat} {p : Packet} {t : State} (h : s.mem.wf = true)
    (e : s.unloadPacket x q p = .ok t) : t.mem.wf = true := by
  unfold State.unloadPacket at e
  grind [acceptPacket_wf, setKernel_mem]

theorem execUnloadPacket_wf {ctx q : Nat} {s t : State} (h : s.mem.wf = true)
    (e : execUnloadPacket ctx q s = .next t) : t.mem.wf = true := by
  unfold execUnloadPacket at e
  grind [packetStep_wf, agentDo'_wf, unloadPacket_wf]

theorem finishUnload_wf {s : State} {x : Nat} {k : Kernel} {t : State} (h : s.mem.wf = true)
    (e : s.finishUnload x k = .ok t) : t.mem.wf = true := by
  unfold State.finishUnload at e
  grind [dropKernel_wf, acceptPacket_wf]

theorem execKernelUnloadComplete_wf {ctx slot : Nat} {s t : State} (h : s.mem.wf = true)
    (e : execKernelUnloadComplete ctx slot s = .next t) : t.mem.wf = true := by
  unfold execKernelUnloadComplete at e
  grind [agentDo'_wf, finishUnload_wf]

@[simp] theorem dropPartials_mem (s : State) (x r : Nat) : (s.dropPartials x r).mem = s.mem := by
  simp [State.dropPartials]

theorem bindPacket_wf {s : State} {x q : Nat} {p : Packet} {t : State} (h : s.mem.wf = true)
    (e : s.bindPacket x q p = .ok t) : t.mem.wf = true := by
  unfold State.bindPacket at e
  grind [acceptPacket_wf, agentWrite_wf, dropPartials_mem, setCtx_mem, bind_ok]

theorem execBindPacket_wf {ctx q : Nat} {s t : State} (h : s.mem.wf = true) (e : execBindPacket ctx q s = .next t) :
    t.mem.wf = true := by
  unfold execBindPacket at e
  grind [packetStep_wf, agentDo'_wf, bindPacket_wf]

theorem retireDesc_wf {s t : State} {x idx : Nat} (h : s.mem.wf = true) (e : s.retireDesc x idx = .ok t) :
    t.mem.wf = true := by
  simp only [State.retireDesc, bind_ok] at e
  obtain ⟨b, -, e⟩ := e
  exact agentWrite_wf h e

theorem retirePacket_wf {s : State} {x q : Nat} {p : Packet} (h : s.mem.wf = true) : EndsWf (s.retirePacket x q p) := by
  unfold State.retirePacket
  extract_lets idx
  refine endsWf_read fun d => ?_
  extract_lets
  split_ifs
  · exact endsWf_ok h
  · exact fun _ => acceptPacket_wf h
  · exact endsWf_ok h
  · exact endsWf_bind (fun _ => retireDesc_wf h) fun u hu _ => acceptPacket_wf hu

theorem execRetirePacket_wf {ctx q : Nat} {s t : State} (h : s.mem.wf = true) (e : execRetirePacket ctx q s = .next t) :
    t.mem.wf = true :=
  packetStep_wf (fun _ => agentDo'_wf h (retirePacket_wf h)) h e

theorem settleRetires_wf {s t : State} {x : Nat} (h : s.mem.wf = true) (e : s.settleRetires x = .ok t) :
    t.mem.wf = true := by
  refine foldlM_wf _ (fun u r v hu ev => ?_) _ _ _ h e
  split at ev
  · cases ev; exact hu
  · obtain ⟨u1, e1, ev⟩ := (bind_ok _ _ _).mp ev
    exact acceptPacket_wf (by simpa using retireDesc_wf hu e1) ev

theorem cancelPacket_wf {s : State} {x q : Nat} {p : Packet} {t : Work} (h : s.mem.wf = true)
    (e : s.cancelPacket x q p = .ok t) : t.s.mem.wf = true := by
  simp only [State.cancelPacket] at e
  split at e <;> simp only [bind_ok] at e
  · obtain ⟨w, ew, s1, e1, e⟩ := e
    cases e; exact acceptPacket_wf (cancelAll_wf _ _ _ (by exact h) ew) e1
  · obtain ⟨s1, e1, e⟩ := e
    cases e; exact acceptPacket_wf h e1

theorem execCancelPacket_wf {ctx q : Nat} {s t : State} (h : s.mem.wf = true)
    (e : execCancelPacket ctx q s = .next t) : t.mem.wf = true := by
  unfold execCancelPacket at e
  grind [packetStep_wf, agentDo_wf, cancelPacket_wf]

/-! ### The functions of `Machine/Admission.lean` -/

theorem startPlate_wf {s : State} {g : Graph} {key : Digest} {roots : List Digest} {t : State} (h : s.mem.wf = true)
    (e : s.startPlate g key roots = .ok t) : t.mem.wf = true := by
  unfold State.startPlate at e
  grind [refinePlate_mem, setGraph_mem, setPlate_mem, handBack_wf]

theorem putOverflow_wf {s : State} {x : Nat} {g : GraphIn} {j : Nat} {t : State} (h : s.mem.wf = true)
    (e : s.putOverflow x g j = .ok t) : t.mem.wf = true := by
  unfold State.putOverflow at e
  grind [agentWrite_wf]

theorem serving_ok {α : Type} {n : Nat} {x : Except Stop α} {a : α} (e : serving n x = .ok a) : x = .ok a := by
  cases x <;> cases e
  rfl

theorem admitGraph_wf {s t : State} {x q : Nat} {p : Packet} {g : GraphIn} {binds : List (List (BitVec 32))}
    {key : Digest}
    (h : s.mem.wf = true) (e : s.admitGraph x q p g binds key = .ok t) : t.mem.wf = true := by
  simp only [State.admitGraph, bind_ok] at e
  obtain ⟨s1, e1, shapes, -, s3, e3, s4, e4, e⟩ := e
  have h1 : s1.mem.wf = true := by
    refine foldlM_wf _ (fun u j v hu ev => ?_) _ _ _ h e1
    obtain ⟨w, ew, ev⟩ := (bind_ok _ _ _).mp ev
    exact putOverflow_wf (writeTcb_wf hu (serving_ok ew)) (serving_ok ev)
  have h3 : s3.mem.wf = true := startPlate_wf (by exact h1) (serving_ok e3)
  have h4 : s4.mem.wf = true := by
    refine foldlM_wf _ (fun u j v hu ev => ?_) _ _ _ h3 e4
    split at ev
    · exact makeReady_wf hu (serving_ok ev)
    · cases ev; exact hu
  exact advanceHead_wf (by simpa using h4) (serving_ok e)

/-- Where the parse of a GRAPH packet ends in an admission, the memory has its canonical form. -/
def GraphEnd.Wf : GraphEnd → Prop
  | .admitted s => s.mem.wf = true
  | _ => True

theorem graphPacket_wf {s : State} {x q : Nat} {p : Packet} {r : GraphEnd} (h : s.mem.wf = true)
    (e : s.graphPacket x q p = .ok r) : r.Wf := by
  simp only [State.graphPacket] at e
  split at e
  · cases e; trivial
  obtain ⟨tcbs, -, e⟩ := (bind_ok _ _ _).mp e
  split at e
  · cases e; trivial
  simp only [bind_ok] at e
  obtain ⟨binds, -, k, -, e⟩ := e
  split at e
  · cases e; trivial
  split at e
  · cases e; trivial
  split at e
  · cases e; trivial
  obtain ⟨u, eu, e⟩ := (bind_ok _ _ _).mp e
  cases e; exact admitGraph_wf h eu

theorem execGraphPacket_wf {ctx q : Nat} {s t : State} (h : s.mem.wf = true) (e : execGraphPacket ctx q s = .next t) :
    t.mem.wf = true := by
  refine packetStep_wf (fun p => ?_) h e
  split
  · exact agentStop_wf h
  · exact stopQueue_wf h
  · simpa using h
  next eu => exact graphPacket_wf h eu

theorem execGraphAdmission_wf {ctx q : Nat} {s t : State} (h : s.mem.wf = true)
    (e : execGraphAdmission ctx q s = .next t) :
    t.mem.wf = true := by
  refine packetStep_wf (fun p => ?_) h e
  split
  · exact agentStop_wf h
  next eu => exact graphPacket_wf h eu
  · exact h

/-! ### The functions of `Machine/Collective.lean` -/

theorem execColl_wf {a : BitVec 6} {x : BitVec 5} {p : BitVec 1} {s t : State} (h : s.mem.wf = true)
    (e : execColl a x p s = .next t) : t.mem.wf = true := by
  unfold execColl at e
  extract_lets word at e
  split at e
  · cases e; simpa using h
  refine finish_endsWf (endsWf_read fun bs => ?_) h e
  extract_lets d
  split
  · exact endsWf_error
  extract_lets n
  split
  · exact endsWf_error
  refine endsWf_read fun shown => ?_
  extract_lets
  split
  · exact endsWf_error
  refine endsWf_read fun _ => endsWf_read fun _ => endsWf_read fun sf => endsWf_read fun df => ?_
  split
  · exact endsWf_error
  split
  · exact endsWf_error
  exact endsWf_ok (by simpa using h)

theorem writePart_wf {s t : State} {x n : Nat} {srcs : List (List Byte)} {p : Part} (h : s.mem.wf = true)
    (e : s.writePart x n srcs p = .ok t) : t.mem.wf = true := by
  simp only [State.writePart, bind_ok] at e
  obtain ⟨s1, e1, e⟩ := e
  have h1 : s1.mem.wf = true := writeParts_wf h e1
  split at e
  · cases e; exact h1
  · cases e
    rw [setBankIn_mem]
    split
    · rw [present_mem rfl]; exact h1
    · exact h1

theorem abandon_wf {s : State} {x : Nat} {c : Cause} {fva : Nat} {ps : List Part} (h : s.mem.wf = true) :
    (s.abandon x c fva ps).mem.wf = true := by
  have dropped : ∀ l : List Part,
      (l.foldl (fun t p => t.mapBankIn p.place x p.cell fun b => b.dropColl p.op.ordinal) s).mem.wf = true := by
    intro l
    rw [foldl_mem _ fun _ _ => mapBankIn_mem _ _ _ _ _]
    exact h
  cases ps with
  | nil => exact h
  | cons p l => exact raiseEngineIn_wf (dropped (p :: l))

theorem moveAll_wf {s t : State} {x n : Nat} {ps : List Part} {remote : List RemoteSource} (h : s.mem.wf = true)
    (e : s.moveAll x n ps remote = .ok t) : t.mem.wf = true := by
  simp only [State.moveAll, bind_ok] at e
  obtain ⟨srcs, -, e⟩ := e
  exact foldlM_wf _ (fun _ _ _ => writePart_wf) _ _ _ h e

theorem runCollective_wf {s : State} {g : Group} {d : CollDesc} {ordinal shard : Nat} {remote : List RemoteSource}
    (h : s.mem.wf = true) : (s.runCollective g d ordinal shard remote).mem.wf = true := by
  unfold State.runCollective
  grind [abandon_wf, moveAll_wf, loseCtx_wf]

theorem finishColl_wf {s : State} {p : BankPlace} {x c : Nat} (h : s.mem.wf = true) :
    (s.finishColl p x c).mem.wf = true := by
  unfold State.finishColl
  grind [setBankIn_mem, gangRelease_wf, raiseEngineIn_wf]

theorem execCollectiveComplete_wf {cell : Nat} {remote : List RemoteSource} {s t : State} (h : s.mem.wf = true)
    (e : execCollectiveComplete cell remote s = .next t) : t.mem.wf = true := by
  unfold execCollectiveComplete at e
  grind [runCollective_wf, finishColl_wf]

/-! ### The functions of `Machine/Control.lean` -/

@[simp] theorem privateTransfer_mem (s : State) (len : Nat) (taken : Bool) (target : Word) :
    (s.privateTransfer len taken target).mem = s.mem := by
  unfold State.privateTransfer
  split <;> simp

theorem execB_wf {o : BitVec 22} {s t : State} (h : s.mem.wf = true) (e : execB o s = .next t) : t.mem.wf = true := by
  unfold execB at e
  grind [retireTo_mem]

theorem execCall_wf {o : BitVec 22} {s t : State} (h : s.mem.wf = true) (e : execCall o s = .next t) :
    t.mem.wf = true := by
  unfold execCall at e
  grind [retireTo_mem, setBank_mem]

theorem bcOp_wf {len : Nat} {c : BitVec 4} {a b : BitVec 6} {off : Word} {s t : State} (h : s.mem.wf = true)
    (e : bcOp len c a b off s = .next t) : t.mem.wf = true := by
  unfold bcOp at e
  grind [privateTransfer_mem]

theorem execRet_wf {a : BitVec 6} {s t : State} (h : s.mem.wf = true) (e : execRet a s = .next t) :
    t.mem.wf = true := by
  unfold execRet at e
  grind [retireTo_mem]

theorem execJi_wf {d a : BitVec 6} {s t : State} (h : s.mem.wf = true) (e : execJi d a s = .next t) :
    t.mem.wf = true := by
  unfold execJi at e
  grind [retireTo_mem, setBank_mem]

theorem bqpOp_wf {len : Nat} {a : BitVec 6} {off : Word} {s t : State} (h : s.mem.wf = true)
    (e : bqpOp len a off s = .next t) : t.mem.wf = true := by
  unfold bqpOp at e
  grind [setBank_mem, privateTransfer_mem, pcFault_wf]

@[simp] theorem countBq_mem (s : State) (loss : Bool) : (s.countBq loss).mem = s.mem := by
  unfold State.countBq
  split <;> simp

theorem putOutcome_wf {st : Stream} {len : Nat} {taken : Bool} {target : Word} {s t : State} (h : s.mem.wf = true)
    (e : putOutcome st len taken target s = .next t) : t.mem.wf = true := by
  unfold putOutcome at e
  grind [stall_mem, countBq_mem, setBank_mem, retireShared_mem, retire_mem]

theorem takeOutcome_wf {st : Stream} {len : Nat} {target : Word} {s t : State} (h : s.mem.wf = true)
    (e : takeOutcome st len target s = .next t) : t.mem.wf = true := by
  unfold takeOutcome at e
  grind [stallPeer_mem, countBq_mem, setBank_mem, countLoss_mem, retireShared_mem, retire_mem, raise_mem]

theorem sharedIllegal_wf {s t : State} (h : s.mem.wf = true) (e : sharedIllegal s = .next t) : t.mem.wf = true := by
  unfold sharedIllegal at e
  grind [sharedFault_mem]

theorem bqOp_wf {len : Nat} {c : BitVec 4} {a b : BitVec 6} {off : Word} {s t : State} (h : s.mem.wf = true)
    (e : bqOp len c a b off s = .next t) : t.mem.wf = true := by
  unfold bqOp at e
  grind [sharedIllegal_wf, putOutcome_wf, takeOutcome_wf]

theorem execLoop_wf {c : BitVec 6} {o : BitVec 16} {s t : State} (h : s.mem.wf = true)
    (e : execLoop c o s = .next t) : t.mem.wf = true := by
  unfold execLoop at e
  grind [putOutcome_wf, takeOutcome_wf, sharedIllegal_wf]

theorem execEndl_wf {c : BitVec 6} {o : BitVec 16} {s t : State} (h : s.mem.wf = true)
    (e : execEndl c o s = .next t) : t.mem.wf = true := by
  unfold execEndl at e
  grind [putOutcome_wf, setBank_mem, takeOutcome_wf, sharedIllegal_wf]

theorem execSync_wf {s t : State} (h : s.mem.wf = true) (e : execSync s = .next t) : t.mem.wf = true := by
  unfold execSync at e
  grind [countLoss_mem, setBank_mem, stallPeer_mem, countLossWait_mem]

theorem execWin_wf {n : BitVec 16} {s t : State} (h : s.mem.wf = true) (e : execWin n s = .next t) :
    t.mem.wf = true := by
  unfold execWin at e
  grind [retire_mem, setBank_mem, sharedIllegal_wf]

theorem setFpc_wf {v : Word} {s t : State} (h : s.mem.wf = true) (e : setFpc v s = .next t) : t.mem.wf = true := by
  unfold setFpc at e
  grind [retire_mem, setBank_mem]

theorem execFpcAll_wf {z f : BitVec 1} {r : BitVec 3} {s t : State} (h : s.mem.wf = true)
    (e : execFpcAll z f r s = .next t) : t.mem.wf = true := by
  unfold execFpcAll at e
  grind [setFpc_wf, sharedIllegal_wf]

theorem execFpcRm_wf {r : BitVec 3} {s t : State} (h : s.mem.wf = true) (e : execFpcRm r s = .next t) :
    t.mem.wf = true := by
  unfold execFpcRm at e
  grind [setFpc_wf, sharedIllegal_wf]

/-! ### The functions of `Machine/Groups.lean` -/

@[simp] theorem addGroup_mem (s : State) (g : Group) : (s.addGroup g).mem = s.mem := by
  simp [State.addGroup]

@[simp] theorem holdCells_mem (s : State) (g : Group) : (s.holdCells g).mem = s.mem :=
  foldl_mem (fun t c => t.setCell c { t.cellAt c with held := some g.id }) (fun _ _ => rfl) _ _

@[simp] theorem arbitrate_mem (s : State) : (s.arbitrate).mem = s.mem := by
  unfold State.arbitrate
  grind [holdCells_mem, setGroup_mem]

theorem failTask_wf {s : State} {x i die : Nat} {t : Work} (h : s.mem.wf = true) (e : s.failTask x i die = .ok t) :
    t.s.mem.wf = true := by
  simp only [State.failTask, bind_ok] at e
  obtain ⟨w, ew, e⟩ := e
  have hw : w.s.mem.wf = true := endTask_wf (by simpa using h) ew
  cases e; exact hw

theorem dispatch_wf {s : State} {x i home : Nat} {t : Work} (h : s.mem.wf = true) (e : s.dispatch x i home = .ok t) :
    t.s.mem.wf = true := by
  simp only [State.dispatch, bind_ok] at e
  obtain ⟨b, -, p, -, e⟩ := e
  split at e
  · exact failTask_wf h e
  · cases e; simpa using h

theorem passBy_wf {s t : State} {cell x i : Nat} (h : s.mem.wf = true) (e : s.passBy cell x i = .ok t) :
    t.mem.wf = true := by
  simp only [State.passBy] at e
  refine foldlM_wf _ (fun u y v hu ev => ?_) _ _ _ (by exact h) e
  obtain ⟨b, -, ev⟩ := (bind_ok _ _ _).mp ev
  exact writeTcb_wf hu ev

theorem decideTask_wf {s : State} {cell x i : Nat} {t : Work} (h : s.mem.wf = true)
    (e : s.decideTask cell x i = .ok t) : t.s.mem.wf = true := by
  unfold State.decideTask at e
  grind [dispatch_wf, passBy_wf, bind_ok]

theorem afterDispatch_wf {s : State} {x i : Nat} {r : Except Stop Work} (h : s.mem.wf = true)
    (hr : ∀ w, r = .ok w → w.s.mem.wf = true) : (s.afterDispatch x i r).mem.wf = true := agentDo_wf h hr

theorem execTaskDispatch_wf {cell : Nat} {s t : State} (h : s.mem.wf = true) (e : execTaskDispatch cell s = .next t) :
    t.mem.wf = true := by
  unfold execTaskDispatch at e
  grind [arbitrate_mem, afterDispatch_wf, decideTask_wf]

@[simp] theorem setSteal_mem (s : State) (c : Nat) (v : StealState) : (s.setSteal c v).mem = s.mem := by
  simp [State.setSteal]

theorem execStealRequest_wf {cell : Nat} {s t : State} (h : s.mem.wf = true) (e : execStealRequest cell s = .next t) :
    t.mem.wf = true := by
  unfold execStealRequest at e
  grind [setSteal_mem]

@[simp] theorem takeStolen_mem (s : State) (cell level : Nat) (t : ReadyTask) :
    (s.takeStolen cell level t).mem = s.mem := by
  simp [State.takeStolen]

theorem execStealAnswer_wf {cell : Nat} {s t : State} (h : s.mem.wf = true) (e : execStealAnswer cell s = .next t) :
    t.mem.wf = true := by
  unfold execStealAnswer at e
  grind [setSteal_mem, takeStolen_mem, arbitrate_mem, afterDispatch_wf, decideTask_wf]

theorem execStealBackoffExpiry_wf {cell : Nat} {s t : State} (h : s.mem.wf = true)
    (e : execStealBackoffExpiry cell s = .next t) : t.mem.wf = true := by
  unfold execStealBackoffExpiry at e
  grind [setSteal_mem]

theorem allocate_wf {s : State} {g : Group} (h : s.mem.wf = true) : EndsWf (s.allocate g) := by
  unfold State.allocate
  split
  · exact endsWf_ok h
  extract_lets jp
  have set : ∀ u : State, u.mem.wf = true → EndsWf (jp u) := fun u hu => endsWf_ok (by simpa using hu)
  split
  · exact set s h
  · exact endsWf_bind (fun _ => agentWrite_wf h) set

theorem execStagingBaseAllocate_wf {grp : Nat} {s t : State} (h : s.mem.wf = true)
    (e : execStagingBaseAllocate grp s = .next t) : t.mem.wf = true := by
  unfold execStagingBaseAllocate at e
  split at e
  · split at e <;> cases e
    · exact agentDo'_wf h (allocate_wf h)
    · exact h
  · cases e; exact h

@[simp] theorem stageFault_mem (s : State) (g : Group) (c : Cause) (fva : Nat) :
    (s.stageFault g c fva).mem = s.mem := by
  simp [State.stageFault]

theorem stageCopy_wf {s : State} {g : Group} {d : CopyDesc} (h : s.mem.wf = true) :
    (s.stageCopy g d).mem.wf = true := by
  unfold State.stageCopy
  grind [setGroup_mem, stageFault_mem, loseCtx_wf, putBytes_wf]

theorem stageNext_wf {s : State} {g : Group} (h : s.mem.wf = true) : (s.stageNext g).mem.wf = true := by
  unfold State.stageNext
  grind [agentStop_wf, stageFault_mem, stageCopy_wf]

theorem execStagingCopyComplete_wf {grp : Nat} {s t : State} (h : s.mem.wf = true)
    (e : execStagingCopyComplete grp s = .next t) : t.mem.wf = true := by
  unfold execStagingCopyComplete at e
  grind [stageNext_wf]

@[simp] theorem recordStart_mem (s : State) (g : Group) (k : Kernel) (futs : Bool) :
    (s.recordStart g k futs).mem = s.mem := by
  unfold State.recordStart
  grind [growPlate_mem]

@[simp] theorem holdRun_mem (s : State) (g : Group) : (s.holdRun g).mem = s.mem := by
  unfold State.holdRun
  split <;> simp

@[simp] theorem startShard_mem (s : State) (g : Group) (k : Kernel) (n c : Nat) :
    (s.startShard g k n c).mem = s.mem := by
  simp [State.startShard]

theorem startGroup_wf {s t : State} {g : Group} {k : Kernel} (h : s.mem.wf = true) (e : s.startGroup g k = .ok t) :
    t.mem.wf = true := by
  simp only [State.startGroup, bind_ok] at e
  obtain ⟨b, -, s1, e1, e⟩ := e
  cases e
  have started : ∀ l : List (Nat × Nat),
      (l.foldl (fun t q => t.startShard g k q.1 q.2) (s1.dequeue g.ctx ((s.ctxAt g.ctx).tcbIndex g.tcb))).mem.wf = true := by
    intro l
    rw [foldl_mem _ (fun _ _ => startShard_mem _ _ _ _ _)]
    simpa using writeTcb_wf h e1
  simpa using started _

theorem execShardStart_wf {grp : Nat} {s t : State} (h : s.mem.wf = true) (e : execShardStart grp s = .next t) :
    t.mem.wf = true := by
  unfold execShardStart at e
  grind [arbitrate_mem, holdRun_mem, agentDo_wf, failTask_wf, agentDo'_wf, startGroup_wf]

@[simp] theorem leaveCell_mem (s : State) (g : Group) (c : Nat) : (s.leaveCell g c).mem = s.mem := by
  unfold State.leaveCell
  grind [setBankIn_mem]

theorem branchGuard_wf {s : State} {g : Group} {t : State} (h : s.mem.wf = true) (e : s.branchGuard g = .ok t) :
    t.mem.wf = true := by
  unfold State.branchGuard at e
  grind [handBack_wf]

theorem completeGroup_wf {s : State} {g : Group} {t : Work} (h : s.mem.wf = true) (e : s.completeGroup g = .ok t) :
    t.s.mem.wf = true := by
  simp only [State.completeGroup, bind_ok] at e
  obtain ⟨s1, e1, w, ew, s4, e4, e⟩ := e
  have left_mem := foldl_mem (fun t c => t.leaveCell g c) (fun t c => leaveCell_mem t g c) g.cells s1
  have h2 : (g.cells.foldl (fun t c => t.leaveCell g c) s1).mem.wf = true := by
    rw [left_mem]; exact branchGuard_wf h e1
  have hw : w.s.mem.wf = true := endTask_wf (by exact h2) ew
  cases e; exact settleRetires_wf hw e4

theorem execGroupCompletion_wf {grp : Nat} {s t : State} (h : s.mem.wf = true)
    (e : execGroupCompletion grp s = .next t) : t.mem.wf = true := by
  unfold execGroupCompletion at e
  grind [agentDo_wf, completeGroup_wf]

/-! ### The functions of `Machine/Plates.lean` -/

@[simp] theorem mapEntry_mem (s : State) (p : Plate) (c n : Nat) (f : PlateEntry → PlateEntry) :
    (s.mapEntry p c n f).mem = s.mem := by
  simp [State.mapEntry]

@[simp] theorem formRun_mem (s : State) (h : LaneHead) (n i : Nat) (e : PlateEntry) (row b : List Byte) (d : Passed)
    (cell : Nat) : (s.formRun h n i e row b d cell).mem = s.mem := by
  simp [State.formRun]

theorem issueEntry_wf {s : State} {hd : LaneHead} {cell loc : Nat} {t : State} (h : s.mem.wf = true)
    (e : s.issueEntry hd cell loc = .ok t) : t.mem.wf = true := by
  unfold State.issueEntry at e
  grind [handBack_wf, formRun_mem, setGraph_mem, holdRun_mem, setGroup_mem, bind_ok]

theorem hoistNext_wf {s : State} {cell : Nat} {l : LaneHead} (h : s.mem.wf = true) :
    (s.hoistNext cell l).mem.wf = true := by
  unfold State.hoistNext
  extract_lets due
  split
  · exact h
  split
  · exact h
  extract_lets loc x i
  refine agentDo'_wf h fun t et => ?_
  obtain ⟨b, -, et⟩ := (bind_ok _ _ _).mp et
  obtain ⟨d, -, et⟩ := (bind_ok _ _ _).mp et
  split at et
  · cases et; exact h
  · cases et; simpa using h

theorem headStep_wf {s : State} {cell : Nat} {hd : LaneHead} (h : s.mem.wf = true) :
    (s.headStep cell hd).mem.wf = true := by
  unfold State.headStep
  grind [mapEntry_mem, setPlate_mem, agentDo'_wf, issueEntry_wf]

theorem laneStep_wf {cell : Nat} {s : State} {key : Digest} (h : s.mem.wf = true) :
    (State.laneStep cell s key).mem.wf = true := by
  unfold State.laneStep
  grind [headStep_wf, hoistNext_wf]

theorem execLaneEntryIssue_wf {cell : Nat} {s t : State} (h : s.mem.wf = true)
    (e : execLaneEntryIssue cell s = .next t) : t.mem.wf = true := by
  unfold execLaneEntryIssue at e
  split at e <;> cases e
  rw [arbitrate_mem]
  exact foldl_state_wf _ (fun _ _ => laneStep_wf) _ _ h

theorem checkHealth_wf {s : State} {g : Graph} (h : s.mem.wf = true) : (s.checkHealth g).mem.wf = true := by
  unfold State.checkHealth
  split
  · split
    · exact h
    split
    · exact h
    split
    · exact h
    · exact agentDo'_wf h fun _ => handBack_wf h
  · exact h

theorem checkAllHealth_wf {s : State} (h : s.mem.wf = true) : s.checkAllHealth.mem.wf = true := by
  refine foldl_state_wf _ (fun u i hu => ?_) _ _ h
  split
  · exact checkHealth_wf hu
  · exact hu

theorem execPlateSectionReceive_wf {image : List Byte} {s t : State} (h : s.mem.wf = true)
    (e : execPlateSectionReceive image s = .next t) : t.mem.wf = true := by
  unfold execPlateSectionReceive at e
  grind [setPlate_mem]

/-! ### The functions of `Machine/Link.lean` -/

@[simp] theorem setPort_mem (s : State) (p : Nat) (v : Port) : (s.setPort p v).mem = s.mem := by
  simp [State.setPort]

theorem changePort_wf {s : State} {p : Nat} {v : Port} (h : s.mem.wf = true) : (s.changePort p v).mem.wf = true := by
  unfold State.changePort
  grind [setPort_mem, checkAllHealth_wf]

theorem execLstat_wf {d p : BitVec 6} {s t : State} (h : s.mem.wf = true) (e : execLstat d p s = .next t) :
    t.mem.wf = true := by
  unfold execLstat at e
  grind [raise_mem, answerA_wf]

theorem seeTails_wf {s : State} {x addr n : Nat} (h : s.mem.wf = true) : (s.seeTails x addr n).mem.wf = true := by
  refine foldl_state_wf _ (fun u q hu => ?_) _ _ h
  grind [tailSeen_wf]

theorem seeResumes_wf {s : State} {x addr n : Nat} (h : s.mem.wf = true) : (s.seeResumes x addr n).mem.wf = true := by
  refine foldl_state_wf _ (fun u q hu => ?_) _ _ h
  grind [resumeQueue_wf]

theorem seeQueues_wf {s : State} {x addr n : Nat} (h : s.mem.wf = true) : (s.seeQueues x addr n).mem.wf = true := by
  unfold State.seeQueues
  grind [seeResumes_wf, seeTails_wf]

theorem execRdmaWrite_wf {port qp : Nat} {addr : Word} {data : List Byte} {s t : State} (h : s.mem.wf = true)
    (e : execRdmaWrite port qp addr data s = .next t) : t.mem.wf = true := by
  unfold execRdmaWrite at e
  grind [send_mem, writeParts_wf, seeQueues_wf, agentStop_wf]

theorem execRdmaRead_wf {port qp : Nat} {addr : Word} {len : Nat} {s t : State} (h : s.mem.wf = true)
    (e : execRdmaRead port qp addr len s = .next t) : t.mem.wf = true := by
  unfold execRdmaRead at e
  grind [send_mem, agentStop_wf]

theorem execManagementSend_wf {port : Nat} {data : List Byte} {s t : State} (h : s.mem.wf = true)
    (e : execManagementSend port data s = .next t) : t.mem.wf = true := by
  unfold execManagementSend at e
  grind [send_mem]

theorem execRdmaAtomicRequest_wf {port qp : Nat} {s t : State} (h : s.mem.wf = true)
    (e : execRdmaAtomicRequest port qp s = .next t) : t.mem.wf = true := by
  unfold execRdmaAtomicRequest at e
  grind [send_mem]

theorem execQpCreate_wf {port qp ctx : Nat} {rc byRoot : Bool} {s t : State} (h : s.mem.wf = true)
    (e : execQpCreate port qp ctx rc byRoot s = .next t) : t.mem.wf = true := by
  unfold execQpCreate at e
  grind [send_mem, setPort_mem]

theorem execHostPortDown_wf {port : Nat} {s t : State} (h : s.mem.wf = true) (e : execHostPortDown port s = .next t) :
    t.mem.wf = true := by
  unfold execHostPortDown at e
  grind [changePort_wf]

@[simp] theorem dropRoutes_mem (s : State) (p : Nat) : (s.dropRoutes p).mem = s.mem := by
  simp [State.dropRoutes]

theorem linkDown_wf {s : State} {p : Nat} {retry : Bool} (h : s.mem.wf = true) :
    (s.linkDown p retry).mem.wf = true := by
  unfold State.linkDown
  grind [changePort_wf, dropRoutes_mem]

theorem linkTrain_wf {s : State} {p : Nat} (h : s.mem.wf = true) : (s.linkTrain p).mem.wf = true := by
  unfold State.linkTrain
  grind [changePort_wf, dropRoutes_mem]

@[simp] theorem sendFrames_mem (p : Nat) (fuel : Nat) :
    ∀ (s : State) (l : List (List Byte)), (s.sendFrames p fuel l).mem = s.mem := by
  induction fuel with
  | zero => intro s l; rfl
  | succ fuel ih =>
    intro s l
    cases l with
    | nil => rfl
    | cons b l => exact ih _ _

@[simp] theorem sendFlits_mem (s : State) (p : Nat) (l : List (List Byte)) : (s.sendFlits p l).mem = s.mem := by
  simp [State.sendFlits]

@[simp] theorem sendFlit_mem (s : State) (p : Nat) (flit : BitVec 32 → List Byte) :
    (s.sendFlit p flit).mem = s.mem := by
  simp [State.sendFlit]

@[simp] theorem sendControl_mem (s : State) (p ty : Nat) (named : BitVec 32) :
    (s.sendControl p ty named).mem = s.mem := by
  simp [State.sendControl]

theorem resend_wf {s : State} {p : Nat} (h : s.mem.wf = true) : (s.resend p).mem.wf = true := by
  unfold State.resend
  grind [linkDown_wf, sendFlits_mem, setPort_mem]

@[simp] theorem forwardFlit_mem (s : State) (p : Nat) (b : List Byte) : (s.forwardFlit p b).mem = s.mem := by
  unfold State.forwardFlit
  split <;> simp

@[simp] theorem nakFlit_mem (s : State) (p : Nat) : (s.nakFlit p).mem = s.mem := by
  simp [State.nakFlit]

@[simp] theorem badFlit_mem (s : State) (p : Nat) : (s.badFlit p).mem = s.mem := by
  simp [State.badFlit]

theorem flitIn_wf {ty port : Nat} {flit : List Byte} {tagOk : Bool} {act : State → State} {s t : State}
    (ha : ∀ u : State, u.mem.wf = true → (act u).mem.wf = true) (h : s.mem.wf = true)
    (e : flitIn ty port flit tagOk act s = .next t) :
    t.mem.wf = true := by
  unfold flitIn at e
  split at e
  · extract_lets v at e
    split_ifs at e <;> cases e
    · exact h
    · simpa using h
    · simpa using h
    · exact h
    · simpa using h
    · exact ha _ (by simpa using h)
  · cases e

@[simp] theorem takePayload_mem (s : State) (port : Nat) (flit : List Byte) :
    (s.takePayload port flit).mem = s.mem := by
  unfold State.takePayload
  grind [sendControl_mem, send_mem, forwardFlit_mem]

theorem execFlitData_wf {port : Nat} {flit : List Byte} {tagOk : Bool} {s t : State} (h : s.mem.wf = true)
    (e : execFlitData port flit tagOk s = .next t) : t.mem.wf = true := by
  unfold execFlitData at e
  grind [flitIn_wf, takePayload_mem]

theorem execFlitAck_wf {port : Nat} {flit : List Byte} {tagOk : Bool} {s t : State} (h : s.mem.wf = true)
    (e : execFlitAck port flit tagOk s = .next t) : t.mem.wf = true := by
  unfold execFlitAck at e
  grind [flitIn_wf, setPort_mem]

theorem nakked_wf {s : State} {port : Nat} {seq : BitVec 32} (h : s.mem.wf = true) :
    (s.nakked port seq).mem.wf = true := by
  unfold State.nakked
  grind [resend_wf, setPort_mem]

theorem execFlitNak_wf {port : Nat} {flit : List Byte} {tagOk : Bool} {s t : State} (h : s.mem.wf = true)
    (e : execFlitNak port flit tagOk s = .next t) : t.mem.wf = true := by
  unfold execFlitNak at e
  grind [flitIn_wf, nakked_wf]

theorem execFlitCredit_wf {port : Nat} {flit : List Byte} {tagOk : Bool} {s t : State} (h : s.mem.wf = true)
    (e : execFlitCredit port flit tagOk s = .next t) : t.mem.wf = true := by
  unfold execFlitCredit at e
  grind [flitIn_wf, setPort_mem]

theorem execFlitControl_wf {port : Nat} {flit : List Byte} {tagOk : Bool} {s t : State} (h : s.mem.wf = true)
    (e : execFlitControl port flit tagOk s = .next t) : t.mem.wf = true := by
  unfold execFlitControl at e
  grind [flitIn_wf, takePayload_mem]

theorem execLinkRetrainRequest_wf {port : Nat} {s t : State} (h : s.mem.wf = true)
    (e : execLinkRetrainRequest port s = .next t) : t.mem.wf = true := by
  unfold execLinkRetrainRequest at e
  grind [linkTrain_wf]

theorem linkUp_wf {s : State} {p lanes : Nat} (h : s.mem.wf = true) : (s.linkUp p lanes).mem.wf = true := by
  unfold State.linkUp
  extract_lets st peer src t src2
  have ht : t.mem.wf = true := changePort_wf h
  clear_value t peer
  split
  · exact ht
  next d =>
    extract_lets u
    refine foldl_state_wf _ (fun w q hw => ?_) _ _ (show u.mem.wf = true from ht)
    split <;> simpa using hw

theorem execTrainingComplete_wf {port lanes : Nat} {s t : State} (h : s.mem.wf = true)
    (e : execTrainingComplete port lanes s = .next t) : t.mem.wf = true := by
  unfold execTrainingComplete at e
  grind [linkUp_wf, linkDown_wf]

theorem execTrainingTimeout_wf {port : Nat} {s t : State} (h : s.mem.wf = true)
    (e : execTrainingTimeout port s = .next t) : t.mem.wf = true := by
  unfold execTrainingTimeout at e
  grind [linkDown_wf]

theorem execTrainingRetryTimer_wf {port : Nat} {s t : State} (h : s.mem.wf = true)
    (e : execTrainingRetryTimer port s = .next t) : t.mem.wf = true := by
  unfold execTrainingRetryTimer at e
  grind [linkTrain_wf]

theorem execLaneFailure_wf {port lanes : Nat} {s t : State} (h : s.mem.wf = true)
    (e : execLaneFailure port lanes s = .next t) : t.mem.wf = true := by
  unfold execLaneFailure at e
  grind [linkDown_wf, resend_wf, setPort_mem]

@[simp] theorem setSession_mem (s : State) (e : Session) : (s.setSession e).mem = s.mem := by
  simp [State.setSession]

theorem execLinkKeyInstall_wf {port : Nat} {s t : State} (h : s.mem.wf = true)
    (e : execLinkKeyInstall port s = .next t) : t.mem.wf = true := by
  unfold execLinkKeyInstall at e
  grind [setSession_mem, setPort_mem]

@[simp] theorem respond_mem (s : State) (a : SpdmAsker) (code : Nat) (body : SpdmBody) (signed : Bool) :
    (s.respond a code body signed).mem = s.mem := by
  simp [State.respond]

theorem spdmReply_wf {a : SpdmAsker} {code : Nat} {body : SpdmBody} {signed : Bool} {s t : State}
    (h : s.mem.wf = true) (e : spdmReply a code body signed s = .next t) : t.mem.wf = true := by
  unfold spdmReply at e
  grind [respond_mem]

theorem execGetMeasurements_wf {asker : SpdmAsker} {index : Nat} {s t : State} (h : s.mem.wf = true)
    (e : execGetMeasurements asker index s = .next t) : t.mem.wf = true := by
  unfold execGetMeasurements at e
  grind [spdmReply_wf]

theorem execKeyExchange_wf {asker : SpdmAsker} {session : Nat} {s t : State} (h : s.mem.wf = true)
    (e : execKeyExchange asker session s = .next t) : t.mem.wf = true := by
  unfold execKeyExchange at e
  split at e
  · exact spdmReply_wf (by exact h) e
  · cases e; exact h

theorem inSession_wf {id : Nat} {st : SessionState} {act : Session → State → Result} {s t : State}
    (ha : ∀ a, act a s = .next t → t.mem.wf = true) (h : s.mem.wf = true) (e : inSession id st act s = .next t) :
    t.mem.wf = true := by
  unfold inSession at e
  split at e
  · split at e
    · exact ha _ e
    · cases e; exact h
  · cases e; exact h

theorem execFinish_wf {session : Nat} {s t : State} (h : s.mem.wf = true) (e : execFinish session s = .next t) :
    t.mem.wf = true := by
  unfold execFinish at e
  grind [inSession_wf, spdmReply_wf, setSession_mem]

theorem execKeyUpdate_wf {session : Nat} {s t : State} (h : s.mem.wf = true) (e : execKeyUpdate session s = .next t) :
    t.mem.wf = true := by
  unfold execKeyUpdate at e
  grind [inSession_wf, spdmReply_wf, setSession_mem]

theorem execHeartbeat_wf {session : Nat} {s t : State} (h : s.mem.wf = true) (e : execHeartbeat session s = .next t) :
    t.mem.wf = true := by
  unfold execHeartbeat at e
  grind [inSession_wf, spdmReply_wf]

theorem dropKey_wf {s : State} {p : Nat} (h : s.mem.wf = true) : (s.dropKey p).mem.wf = true := by
  unfold State.dropKey
  grind [linkDown_wf, setPort_mem]

theorem execEndSession_wf {session : Nat} {s t : State} (h : s.mem.wf = true) (e : execEndSession session s = .next t) :
    t.mem.wf = true := by
  refine inSession_wf (fun a ea => ?_) h e
  cases ea
  refine foldl_state_wf _ (fun _ _ => dropKey_wf) _ _ ?_
  simpa using h

/-! ### The functions of `Machine/Integer.lean` -/

theorem aluA_wf {f : Word → Word → Word} {d a b : BitVec 6} {s t : State} (h : s.mem.wf = true)
    (e : aluA f d a b s = .next t) : t.mem.wf = true := by
  unfold aluA at e
  grind [answerA_wf]

theorem unaryA_wf {f : Word → Word} {d a : BitVec 6} {s t : State} (h : s.mem.wf = true)
    (e : unaryA f d a s = .next t) : t.mem.wf = true := by
  unfold unaryA at e
  grind [answerA_wf]

theorem bfxOp_wf {len : Nat} {d a : BitVec 6} {i : Word} {s t : State} (h : s.mem.wf = true)
    (e : bfxOp len d a i s = .next t) : t.mem.wf = true := by
  unfold bfxOp at e
  grind [answerA_wf, pcFault_wf]

theorem bfiOp_wf {len : Nat} {d a : BitVec 6} {i : Word} {s t : State} (h : s.mem.wf = true)
    (e : bfiOp len d a i s = .next t) : t.mem.wf = true := by
  unfold bfiOp at e
  grind [answerA_wf, pcFault_wf]

theorem immA_wf {f : Word → Word → Word} {len : Nat} {d a : BitVec 6} {i : Word} {s t : State} (h : s.mem.wf = true)
    (e : immA f len d a i s = .next t) : t.mem.wf = true := by
  unfold immA at e
  grind [answerA_wf]

theorem shiftImmA_wf {f : Word → Word → Word} {len : Nat} {d a : BitVec 6} {i : Word} {s t : State}
    (h : s.mem.wf = true) (e : shiftImmA f len d a i s = .next t) : t.mem.wf = true := by
  unfold shiftImmA at e
  grind [immA_wf, pcFault_wf]

theorem lsetOp_wf {len : Nat} {d a : BitVec 6} {i : Int} {s t : State} (h : s.mem.wf = true)
    (e : lsetOp len d a i s = .next t) : t.mem.wf = true := by
  unfold lsetOp at e
  grind [retire_mem, setBank_mem, pcFault_wf]

theorem execSdset_wf {d a : BitVec 6} {im : BitVec 10} {s t : State} (h : s.mem.wf = true)
    (e : execSdset d a im s = .next t) : t.mem.wf = true := by
  unfold execSdset at e
  grind [finish_wf, retire_mem, setBank_mem, raise_mem, pcFault_wf, bind_ok]

/-! ### The functions of `Machine/XScalar.lean` -/

theorem answerX_wf {len : Nat} {ok : Bool} {d : BitVec 6} {v : Word} {s t : State} (h : s.mem.wf = true)
    (e : answerX len ok d v s = .next t) : t.mem.wf = true := by
  unfold answerX at e
  grind [setX_mem, pcFault_wf]

theorem aluX_wf {f : Word → Word → Word} {d a b : BitVec 6} {s t : State} (h : s.mem.wf = true)
    (e : aluX f d a b s = .next t) : t.mem.wf = true := by
  unfold aluX at e
  grind [answerX_wf]

theorem immX_wf {f : Word → Word} {len : Nat} {d a : BitVec 6} {s t : State} (h : s.mem.wf = true)
    (e : immX f len d a s = .next t) : t.mem.wf = true := by
  unfold immX at e
  grind [answerX_wf]

theorem execXqpop_wf {d a : BitVec 6} {s t : State} (h : s.mem.wf = true) (e : execXqpop d a s = .next t) :
    t.mem.wf = true := by
  unfold execXqpop at e
  grind [stallPeer_mem, countEmpty_mem, stall_mem, raise_mem, setX_mem, setBank_mem, pcFault_wf]

theorem execXqpush_wf {d a : BitVec 6} {s t : State} (h : s.mem.wf = true) (e : execXqpush d a s = .next t) :
    t.mem.wf = true := by
  unfold execXqpush at e
  grind [retire_mem, setBank_mem, stallPeer_mem, pcFault_wf]

/-! ### The functions of `Machine/Vector.lean` -/

theorem vrows_mem {s : State} {reads : List (BitVec 6)} {d : BitVec 6} {w : Nat} {act : Nat → Bool} {t : State}
    (e : s.vrows reads d w act = .ok t) : t.mem = s.mem := by
  unfold State.vrows at e
  grind [setBank_mem]

theorem vreads_mem {s : State} {reads : List (BitVec 6)} {t : State} (e : s.vreads reads = .ok t) : t.mem = s.mem := by
  unfold State.vreads at e
  grind [vrows_mem]

@[simp] theorem writeVec_mem (s : State) (len : Nat) (d : BitVec 6) (out : Row × Flags) (draws : Nat) :
    (s.writeVec len d out draws).mem = s.mem := by
  simp [State.writeVec]

theorem vlaneOp_wf {f : LaneOp} {rounds floats : Bool} {ty : VType} {rnd : BitVec 3} {d a b c : BitVec 6}
    {p : BitVec 4} {s t : State} (h : s.mem.wf = true) (e : vlaneOp f rounds floats ty rnd d a b c p s = .next t) :
    t.mem.wf = true := by
  unfold vlaneOp at e
  grind [finish_wf, vrows_mem, writeVec_mem, bind_ok]

theorem vquietOp_wf {f : ElemTy → Bank → Nat → Nat} {regs : Bool} {ty : VType} {d : BitVec 6}
    {reads : List (BitVec 6)} {act : Bank → Nat → Bool} {s t : State} (h : s.mem.wf = true)
    (e : vquietOp f regs ty d reads act s = .next t) : t.mem.wf = true := by
  unfold vquietOp at e
  grind [finish_wf, vrows_mem, writeVec_mem, bind_ok]

theorem vselOp_wf {ty : VType} {d a b : BitVec 6} {p : BitVec 4} {s t : State} (h : s.mem.wf = true)
    (e : vselOp ty d a b p s = .next t) : t.mem.wf = true := by
  unfold vselOp at e
  grind [vquietOp_wf]

theorem vpermOp_wf {ty : VType} {d a b : BitVec 6} {p : BitVec 4} {s t : State} (h : s.mem.wf = true)
    (e : vpermOp ty d a b p s = .next t) : t.mem.wf = true := by
  unfold vpermOp at e
  grind [vquietOp_wf]

theorem vgenOp_wf {f : ElemTy → Bank → Controls → Nat → LaneOut} {rounds : ElemTy → Bool} {regs : Bool} {ty : VType}
    {rnd : BitVec 3} {d : BitVec 6} {p : BitVec 4} {s t : State} (h : s.mem.wf = true)
    (e : vgenOp f rounds regs ty rnd d p s = .next t) : t.mem.wf = true := by
  unfold vgenOp at e
  grind [finish_wf, vrows_mem, writeVec_mem, bind_ok]

theorem vbcastOp_wf {ty : VType} {rnd : BitVec 3} {d a : BitVec 6} {p : BitVec 4} {s t : State} (h : s.mem.wf = true)
    (e : vbcastOp ty rnd d a p s = .next t) : t.mem.wf = true := by
  unfold vbcastOp at e
  grind [vgenOp_wf]

theorem viotaOp_wf {ty : VType} {rnd : BitVec 3} {raw : Bool} {d a : BitVec 6} {p : BitVec 4} {s t : State}
    (h : s.mem.wf = true) (e : viotaOp ty rnd raw d a p s = .next t) : t.mem.wf = true := by
  unfold viotaOp at e
  grind [vgenOp_wf]

theorem vldiOp_wf {ty : VType} {rnd : BitVec 3} {d : BitVec 6} {m : BitVec 12} {e : Int} {p : BitVec 4} {s t : State}
    (h : s.mem.wf = true) (e : vldiOp ty rnd d m e p s = .next t) : t.mem.wf = true := by
  unfold vldiOp at e
  grind [vgenOp_wf]

theorem vrngOp_wf {raw : Bool} {ty : VType} {d : BitVec 6} {p : BitVec 4} {s t : State} (h : s.mem.wf = true)
    (e : vrngOp raw ty d p s = .next t) : t.mem.wf = true := by
  unfold vrngOp at e
  grind [finish_wf, vrows_mem, writeVec_mem, bind_ok]

theorem vqpopOp_wf {ty : VType} {d a : BitVec 6} {p : BitVec 4} {s t : State} (h : s.mem.wf = true)
    (e : vqpopOp ty d a p s = .next t) : t.mem.wf = true := by
  unfold vqpopOp at e
  grind [finish_wf, stallPeer_mem, countEmpty_mem, stall_mem, vrows_mem, writeVec_mem, setBank_mem, bind_ok]

theorem execVwin_wf {t : BitVec 3} {w : BitVec 16} {s u : State} (h : s.mem.wf = true)
    (e : execVwin t w s = .next u) : u.mem.wf = true := by
  unfold execVwin at e
  grind [pcFault_wf, finish_wf, retire_mem, setBank_mem]

@[simp] theorem writePred_mem (s : State) (len : Nat) (d : BitVec 6) (v : BitVec 256) (f : Flags) :
    (s.writePred len d v f).mem = s.mem := by
  simp [State.writePred]

theorem vcmpOp_wf {ty : VType} {d a b : BitVec 6} {p : BitVec 4} {c : Nat} {m : BitVec 5} {s t : State}
    (h : s.mem.wf = true) (e : vcmpOp ty d a b p c m s = .next t) : t.mem.wf = true := by
  unfold vcmpOp at e
  grind [finish_wf, vreads_mem, writePred_mem, bind_ok]

theorem predOp_wf {f : BitVec 256 → BitVec 256 → BitVec 256} {ty : VType} {d a b : BitVec 6} {p : BitVec 4}
    {m : BitVec 5} {s t : State} (h : s.mem.wf = true) (e : predOp f ty d a b p m s = .next t) : t.mem.wf = true := by
  unfold predOp at e
  grind [finish_wf, writePred_mem, bind_ok]

theorem predCount_wf {f : Nat → List Nat → Nat} {ty : VType} {d a : BitVec 6} {p : BitVec 4} {s t : State}
    (h : s.mem.wf = true) (e : predCount f ty d a p s = .next t) : t.mem.wf = true := by
  unfold predCount at e
  grind [finish_wf, setX_mem, bind_ok]

/-! ### The functions of `Machine/VectorRows.lean` -/

theorem reduceOp_wf {r : Reducer} {rounds : Bool} {ty : VType} {rnd : BitVec 3} {d a : BitVec 6} {p : BitVec 4}
    {s t : State} (h : s.mem.wf = true) (e : reduceOp r rounds ty rnd d a p s = .next t) : t.mem.wf = true := by
  unfold reduceOp at e
  grind [finish_wf, vreads_mem, retire_mem, setBank_mem, setX_mem, bind_ok]

theorem vscanOp_wf {ty : VType} {rnd : BitVec 3} {d a b : BitVec 6} {p : BitVec 4} {s t : State} (h : s.mem.wf = true)
    (e : vscanOp ty rnd d a b p s = .next t) : t.mem.wf = true := by
  unfold vscanOp at e
  grind [finish_wf, vrows_mem, writeVec_mem, bind_ok]

theorem vpairs_mem {s u : State} {reads : List (BitVec 6)} {d : BitVec 6} (e : s.vpairs reads d = .ok u) :
    u.mem = s.mem := by
  simp only [State.vpairs, bind_ok] at e
  obtain ⟨t, e1, e2⟩ := e
  rw [vrows_mem e2, vrows_mem e1]

theorem vsortOp_wf {ty : VType} {asc : Bool} {d a : BitVec 6} {p : BitVec 4} {s t : State} (h : s.mem.wf = true)
    (e : vsortOp ty asc d a p s = .next t) : t.mem.wf = true := by
  unfold vsortOp at e
  grind [finish_wf, vpairs_mem, retire_mem, setBank_mem, bind_ok]

theorem vmergeOp_wf {ty : VType} {asc : Bool} {d a b c : BitVec 6} {p : BitVec 4} {s t : State} (h : s.mem.wf = true)
    (e : vmergeOp ty asc d a b c p s = .next t) : t.mem.wf = true := by
  unfold vmergeOp at e
  grind [finish_wf, vpairs_mem, retire_mem, setBank_mem, bind_ok]

theorem execVcvt_wf {d a : BitVec 6} {p ty : BitVec 4} {rnd : BitVec 3} {sty : BitVec 4} {part : BitVec 3} {s t : State}
    (h : s.mem.wf = true) (e : execVcvt d a p ty rnd sty part s = .next t) : t.mem.wf = true := by
  have xFault : ∀ c : Cause, EndsWf (s.xFault c : Except Stop State) := fun _ => endsWf_error
  refine finish_endsWf ?_ h e
  split
  next dt st _ _ =>
    split
    · exact xFault _
    extract_lets ws wd big g
    split
    · exact xFault _
    refine endsWf_read fun _ => ?_
    extract_lets
    refine endsWf_bind (fun u eu => ?_) fun u hu => endsWf_ok (by simpa using hu)
    rw [vrows_mem eu]
    exact h
  · exact xFault _

/-! ### The functions of `Machine/Quant.lean` -/

theorem writeShifts_wf (d : Desc) (et : Int) (ks : List (Nat × Nat)) (l : List (Nat × List RowPart)) :
    ∀ {s t : State}, s.mem.wf = true → s.writeShifts d et ks l = .ok t → t.mem.wf = true := by
  induction l with
  | nil => intro s t h e; cases e; exact h
  | cons a l ih =>
    intro s t h e
    simp only [State.writeShifts] at e
    split at e
    · cases e
    · split at e
      · cases e
      next e1 => exact ih (writeParts_wf h e1) e

theorem vqntOp_wf {ty : VType} {rnd pos : BitVec 3} {d a b : BitVec 6} {p : BitVec 4} {s t : State}
    (h : s.mem.wf = true)
    (e : vqntOp ty rnd pos d a b p s = .next t) : t.mem.wf = true := by
  refine finish_endsWf (endsWf_read fun _ => endsWf_read fun _ => endsWf_read fun q => ?_) h e
  extract_lets n blocks
  refine endsWf_read fun parts => ?_
  extract_lets _ _ _ _ _ _ _ _
  split
  · exact endsWf_error
  refine endsWf_bind (fun u eu => ?_) fun u hu => ?_
  · rw [vrows_mem eu]; exact h
  extract_lets _
  exact endsWf_bind (fun _ => writeShifts_wf _ _ _ _ hu) fun v hv => endsWf_ok (by simpa using hv)

theorem vdqntOp_wf {ty : VType} {rnd pos : BitVec 3} {d a b : BitVec 6} {p : BitVec 4} {s t : State}
    (h : s.mem.wf = true)
    (e : vdqntOp ty rnd pos d a b p s = .next t) : t.mem.wf = true := by
  refine finish_endsWf (endsWf_read fun _ => endsWf_read fun _ => endsWf_read fun q => ?_) h e
  extract_lets n act used
  refine endsWf_read fun parts => endsWf_read fun read => ?_
  extract_lets et k
  refine endsWf_bind (fun u eu => ?_) fun u hu => endsWf_ok (by simpa using hu)
  rw [vrows_mem eu]
  exact h

/-! ### The functions of `Machine/Matrix.lean` -/

theorem nsetOp_wf {len : Nat} {l : BitVec 3} {lc : Option Nat} {trip : Nat} {a : BitVec 6} {s t : State}
    (h : s.mem.wf = true) (e : nsetOp len l lc trip a s = .next t) : t.mem.wf = true := by
  unfold nsetOp at e
  grind [retire_mem, setBank_mem, pcFault_wf]

theorem execMma_wf {a b : BitVec 4} {m : BitVec 2} {n d : BitVec 3} {x : BitVec 6} {s t : State} (h : s.mem.wf = true)
    (e : execMma a b m n d x s = .next t) : t.mem.wf = true := by
  unfold execMma at e
  grind [pcFault_wf, finish_wf, retire_mem, setBank_mem, bind_ok]

theorem execMzero_wf {a : BitVec 6} {s t : State} (h : s.mem.wf = true) (e : execMzero a s = .next t) :
    t.mem.wf = true := by
  unfold execMzero at e
  grind [finish_wf, retire_mem, setBank_mem, bind_ok]

theorem execSdget_wf {d a : BitVec 6} {im : BitVec 10} {s t : State} (h : s.mem.wf = true)
    (e : execSdget d a im s = .next t) : t.mem.wf = true := by
  unfold execSdget at e
  grind [finish_wf, wr_wf, retire_mem, raise_mem, pcFault_wf, bind_ok]

theorem mwbQuant_wf {o : MwbOp} {d : Option Desc} {b0 pitch : Nat} {parts : List (Nat × List RowPart)} {s : State}
    (h : s.mem.wf = true) : EndsWf (mwbQuant o d b0 pitch parts s) := by
  unfold mwbQuant
  split
  · exact endsWf_error
  split
  · exact endsWf_error
  split
  · exact endsWf_error
  refine endsWf_read fun _ => endsWf_read fun _ => ?_
  extract_lets blocks et val ks codes all x c elems ets nibs held shown s1 fl jp
  have forked : ∀ u, EndsWf (jp u) := by
    intro u
    unfold jp
    split
    · exact endsWf_error
    · exact endsWf_ok (by simpa [s1] using h)
  clear_value jp
  refine endsWf_read fun _ => ?_
  split
  · exact endsWf_read forked
  · exact forked ()

theorem mwbOp_wf {raw : Bool} {d : BitVec 4} {m : BitVec 2} {n : BitVec 3} {sz b : BitVec 6} {s t : State}
    (h : s.mem.wf = true)
    (e : mwbOp raw d m n sz b s = .next t) : t.mem.wf = true := by
  unfold mwbOp at e
  split at e
  · exact pcFault_wf h e
  refine finish_endsWf ?_ h e
  extract_lets sd w rows cols q bv
  refine endsWf_read fun _ => endsWf_read fun desc => endsWf_read fun _ => ?_
  extract_lets
  refine endsWf_read fun _ => endsWf_read fun parts => ?_
  extract_lets ieee o
  split
  · split
    · exact endsWf_read fun _ => mwbQuant_wf h
    · exact endsWf_read fun _ => mwbQuant_wf h
  · split
    · exact endsWf_ok (by simpa using h)
    · exact endsWf_error

theorem engineStop_wf {s : State} {y : Stop} (h : s.mem.wf = true) : (s.engineStop y).mem.wf = true := by
  unfold State.engineStop
  grind [raiseDevice_mem, losePoison_wf]

theorem startTileOp_wf {s : State} (h : s.mem.wf = true) : (s.startTileOp).mem.wf = true := by
  unfold State.startTileOp
  grind [setBank_mem, engineStop_wf]

theorem stepTileOp_wf {s : State} (h : s.mem.wf = true) : (s.stepTileOp).mem.wf = true := by
  unfold State.stepTileOp
  grind [engineStop_wf, setBank_mem, count_mem]

theorem putPending_wf (l : List PendWrite) :
    ∀ {s t : State}, s.mem.wf = true → s.putPending l = .ok t → t.mem.wf = true := by
  induction l with
  | nil => intro s t h e; cases e; exact h
  | cons p l ih =>
    intro s t h e
    unfold State.putPending at e
    split at e
    · exact ih h e
    · split at e
      · cases e
      · exact ih (memPut_wf _ _ _ h) e

theorem coverPending_wf {s t : State} {l : List PendWrite} (h : s.mem.wf = true) (e : s.coverPending l = .ok t) :
    t.mem.wf = true := by
  unfold State.coverPending at e
  split at e
  next e1 => exact putPending_wf l (putBytes_wf h e1) e
  next => cases e

theorem finishMwb_wf {s : State} {o : MwbOp} (h : s.mem.wf = true) : (s.finishMwb o).mem.wf = true := by
  unfold State.finishMwb
  split
  · exact engineStop_wf h
  extract_lets x c codes vals fl
  clear_value codes vals
  split
  · exact engineStop_wf h
  next s1 e1 =>
    have h1 : s1.mem.wf = true := putBytes_wf h e1
    split
    next s2 b2 shown =>
      rw [setBank_mem]
      split at shown
      · exact (congrArg Memory.wf (present_mem shown)).trans h1
      · cases shown; exact h1

theorem finishTileOp_wf {s : State} (h : s.mem.wf = true) : (s.finishTileOp).mem.wf = true := by
  unfold State.finishTileOp
  grind [setBank_mem, finishMwb_wf, coverPending_wf, engineStop_wf]

theorem execTileEngineOpStart_wf {cell : Nat} {s t : State} (h : s.mem.wf = true)
    (e : execTileEngineOpStart cell s = .next t) : t.mem.wf = true := by
  unfold execTileEngineOpStart at e
  grind [onCell_wf, startTileOp_wf]

theorem execMatrixKStep_wf {cell : Nat} {s t : State} (h : s.mem.wf = true) (e : execMatrixKStep cell s = .next t) :
    t.mem.wf = true := by
  unfold execMatrixKStep at e
  grind [onCell_wf, stepTileOp_wf]

theorem execTileEngineOpComplete_wf {cell : Nat} {s t : State} (h : s.mem.wf = true)
    (e : execTileEngineOpComplete cell s = .next t) : t.mem.wf = true := by
  unfold execTileEngineOpComplete at e
  grind [onCell_wf, finishTileOp_wf]

/-! ### The functions of `Machine/PageOps.lean` -/

@[simp] theorem dropTlb_mem (s : State) (r : InvRange) : (s.dropTlb r).mem = s.mem := by
  simp [State.dropTlb]

@[simp] theorem invalidate_mem (s : State) (r : InvRange) : (s.invalidate r).mem = s.mem := by
  unfold State.invalidate
  grind [dropTlb_mem, retire_mem, setBank_mem, stall_mem]

theorem execInvr_wf {sz n im : BitVec 6} {s t : State} (h : s.mem.wf = true) (e : execInvr sz n im s = .next t) :
    t.mem.wf = true := by
  unfold execInvr at e
  grind [pcFault_wf, finish_wf, invalidate_mem, bind_ok]

theorem execInva_wf {im : BitVec 6} {s t : State} (h : s.mem.wf = true) (e : execInva im s = .next t) :
    t.mem.wf = true := by
  unfold execInva at e
  grind [pcFault_wf, finish_wf, invalidate_mem, bind_ok]

theorem execProbe_wf {d sz : BitVec 6} {s t : State} (h : s.mem.wf = true) (e : execProbe d sz s = .next t) :
    t.mem.wf = true := by
  unfold execProbe at e
  grind [answerA_wf, losePoison_wf]

theorem freplayOp_wf {abort : Bool} {t : BitVec 6} {s u : State} (h : s.mem.wf = true)
    (e : freplayOp abort t s = .next u) : u.mem.wf = true := by
  unfold freplayOp at e
  grind [pcFault_wf, raise_mem, setCtx_mem, retire_mem, copyFault_wf, mapBankIn_mem]

@[simp] theorem setPending_mem (s : State) (x g : Nat) : (s.setPending x g).mem = s.mem := by
  unfold State.setPending
  grind [setBank_mem]

@[simp] theorem endWalk_mem (s : State) (g : Nat) : (s.endWalk g).mem = s.mem := by
  unfold State.endWalk
  grind [withCell_mem, setPending_mem]

theorem execPageWalkComplete_wf {cell : Nat} {addr : Word} {s t : State} (h : s.mem.wf = true)
    (e : execPageWalkComplete cell addr s = .next t) : t.mem.wf = true := by
  unfold execPageWalkComplete at e
  grind [onCell_wf, endWalk_mem]

@[simp] theorem ackInv_mem (s : State) : (s.ackInv).mem = s.mem := by
  unfold State.ackInv
  grind [setBank_mem]

theorem execInvalidationAck_wf {cell : Nat} {s t : State} (h : s.mem.wf = true)
    (e : execInvalidationAck cell s = .next t) : t.mem.wf = true := by
  unfold execInvalidationAck at e
  grind [onCell_wf, ackInv_mem]

/-! ### The functions of `Machine/System.lean` -/

theorem trapOp_wf {kind : Nat} {code : BitVec 16} {s t : State} (h : s.mem.wf = true)
    (e : trapOp kind code s = .next t) : t.mem.wf = true := by
  unfold trapOp at e
  grind [retire_mem, setBank_mem, record_mem]

theorem execTrap_wf {c : BitVec 16} {s t : State} (h : s.mem.wf = true) (e : execTrap c s = .next t) :
    t.mem.wf = true := by
  unfold execTrap at e
  grind [trapOp_wf, pcFault_wf]

theorem execBrk_wf {c : BitVec 16} {s t : State} (h : s.mem.wf = true) (e : execBrk c s = .next t) :
    t.mem.wf = true := by
  unfold execBrk at e
  grind [trapOp_wf, retire_mem, pcFault_wf]

theorem eret_wf {s : State} {fr : List Byte} (h : s.mem.wf = true) : (s.eret fr).mem.wf = true := by
  unfold State.eret
  grind [endCtx_wf, returnFrom_mem]

theorem execEret_wf {f : BitVec 6} {s t : State} (h : s.mem.wf = true) (e : execEret f s = .next t) :
    t.mem.wf = true := by
  unfold execEret at e
  grind [pcFault_wf, finish_wf, eret_wf, bind_ok]

theorem meetX_wf {n : Nat} {s t : State} {go : State → Result}
    (hg : ∀ u, u.mem.wf = true → go u = .next t → t.mem.wf = true) (h : s.mem.wf = true) (e : meetX n s go = .next t) :
    t.mem.wf = true := by
  unfold meetX at e
  split_ifs at e
  · cases e; simpa using h
  · cases e; simpa using h
  · exact hg _ (by simpa using h) e
  · exact hg _ h e

theorem execSrd_wf {d : BitVec 6} {n : BitVec 8} {s t : State} (h : s.mem.wf = true) (e : execSrd d n s = .next t) :
    t.mem.wf = true := by
  unfold execSrd at e
  grind [pcFault_wf, meetX_wf, passTime_mem, setA_mem]

theorem execSwr_wf {sz : BitVec 6} {n : BitVec 8} {s t : State} (h : s.mem.wf = true) (e : execSwr sz n s = .next t) :
    t.mem.wf = true := by
  unfold execSwr at e
  grind [pcFault_wf, meetX_wf, retire_mem, setBank_mem]

theorem execNop_wf {s t : State} (h : s.mem.wf = true) (e : execNop s = .next t) : t.mem.wf = true := by
  unfold execNop at e
  grind [retire_mem]

theorem execWfe_wf {v a : BitVec 6} {s t : State} (h : s.mem.wf = true) (e : execWfe v a s = .next t) :
    t.mem.wf = true := by
  unfold execWfe at e
  grind [finish_wf, setA_mem, raise_mem, bind_ok]

theorem execYieldctx_wf {s t : State} (h : s.mem.wf = true) (e : execYieldctx s = .next t) : t.mem.wf = true := by
  unfold execYieldctx at e
  grind [retire_mem]

theorem execHalt_wf {s t : State} (h : s.mem.wf = true) (e : execHalt s = .next t) : t.mem.wf = true := by
  unfold execHalt at e
  grind [stallPeer_mem, stall_mem, endCtx_wf, endPass_mem]

theorem execLoadDataArrival_wf {cell addr : Nat} {found : EccFinding} {s t : State} (h : s.mem.wf = true)
    (e : execLoadDataArrival cell addr found s = .next t) : t.mem.wf = true := by
  unfold execLoadDataArrival at e
  grind [onCell_wf, loseCtx_wf]

theorem execCellFaultTaken_wf {cell : Nat} {s t : State} (h : s.mem.wf = true)
    (e : execCellFaultTaken cell s = .next t) : t.mem.wf = true := by
  unfold execCellFaultTaken at e
  grind [onCell_wf, takeFault_wf]

theorem execStreamSkip_wf {two : Bool} {s t : State} (h : s.mem.wf = true) (e : execStreamSkip two s = .next t) :
    t.mem.wf = true := by
  unfold execStreamSkip at e
  grind [slipStall_mem, fetchWord_mem]

theorem execOpcodeUndef_wf {shared : Bool} {s t : State} (h : s.mem.wf = true)
    (e : execOpcodeUndef shared s = .next t) : t.mem.wf = true := by
  unfold execOpcodeUndef at e
  grind [sharedFault_mem, raise_mem]

theorem execFetchMalformed_wf {fva : Word} {s t : State} (h : s.mem.wf = true)
    (e : execFetchMalformed fva s = .next t) : t.mem.wf = true := by
  unfold execFetchMalformed at e
  grind [raise_mem]

/-! ### The functions of `Machine/DeviceOps.lean` -/

@[simp] theorem endAll_mem (s : State) (cold : Bool) : (s.endAll cold).mem = s.mem := by
  simp [State.endAll]

@[simp] theorem beginStart_mem (s : State) (cold : Bool) (failed : Nat) : (s.beginStart cold failed).mem = s.mem := by
  simp [State.beginStart]

@[simp] theorem enterRecovery_mem (s : State) (recOk : Bool) (failed : Nat) :
    (s.enterRecovery recOk failed).mem = s.mem := by
  simp [State.enterRecovery]

@[simp] theorem failStart_mem (s : State) (recOk : Bool) : (s.failStart recOk).mem = s.mem := by
  unfold State.failStart
  grind [beginStart_mem, enterRecovery_mem]

theorem execPowerApplied_wf {recOk : Bool} {s t : State} (h : s.mem.wf = true)
    (e : execPowerApplied recOk s = .next t) : t.mem.wf = true := by
  unfold execPowerApplied at e
  grind [beginStart_mem, enterRecovery_mem]

theorem execPowerLost_wf {recOk : Bool} {s t : State} (h : s.mem.wf = true) (e : execPowerLost recOk s = .next t) :
    t.mem.wf = true := by
  unfold execPowerLost at e
  grind [failStart_mem, endAll_mem]

theorem execHostColdStart_wf {s t : State} (h : s.mem.wf = true) (e : execHostColdStart s = .next t) :
    t.mem.wf = true := by
  unfold execHostColdStart at e
  grind [beginStart_mem]

theorem execHostWarmStart_wf {s t : State} (h : s.mem.wf = true) (e : execHostWarmStart s = .next t) :
    t.mem.wf = true := by
  unfold execHostWarmStart at e
  grind [beginStart_mem]

theorem completeStart_wf {s : State} (h : s.mem.wf = true) : s.completeStart.mem.wf = true := filter_wf s.mem _ h

theorem execStartComplete_wf {s t : State} (h : s.mem.wf = true) (e : execStartComplete s = .next t) :
    t.mem.wf = true := by
  unfold execStartComplete at e
  grind [completeStart_wf]

theorem execStartStepFailure_wf {recOk : Bool} {s t : State} (h : s.mem.wf = true)
    (e : execStartStepFailure recOk s = .next t) : t.mem.wf = true := by
  unfold execStartStepFailure at e
  grind [failStart_mem]

theorem execStartTimeout_wf {recOk : Bool} {s t : State} (h : s.mem.wf = true)
    (e : execStartTimeout recOk s = .next t) : t.mem.wf = true := by
  unfold execStartTimeout at e
  grind [failStart_mem]

theorem execFirmwareInstall_wf {ed mldsa : Bool} {s t : State} (h : s.mem.wf = true)
    (e : execFirmwareInstall ed mldsa s = .next t) : t.mem.wf = true := by
  unfold execFirmwareInstall at e
  grind [send_mem]

theorem execRecoveryImageInstall_wf {ed mldsa : Bool} {s t : State} (h : s.mem.wf = true)
    (e : execRecoveryImageInstall ed mldsa s = .next t) : t.mem.wf = true := by
  unfold execRecoveryImageInstall at e
  grind [send_mem]

theorem firmware_wf {s : State} {a : FirmwareAct} (h : s.mem.wf = true) : (s.firmware a).mem.wf = true := by
  cases a with
  | serviceRead x g n => exact h
  | serviceWrite x g bs => simp only [State.firmware]; grind [agentWrite_wf, send_mem]
  | serviceRoutes l => simp only [State.firmware]; grind
  | rootTable x a e => simp only [State.firmware]; grind [memWrite_wf]
  | rootInvalidate x lo hi => simp only [State.firmware]; grind [dropTlb_mem]
  | rootSettled x lo hi => simp only [State.firmware]; grind [send_mem]

theorem execPowerAlarmAssert_wf {s t : State} (h : s.mem.wf = true) (e : execPowerAlarmAssert s = .next t) :
    t.mem.wf = true := by
  unfold execPowerAlarmAssert at e
  grind

theorem execPowerAlarmClear_wf {s t : State} (h : s.mem.wf = true) (e : execPowerAlarmClear s = .next t) :
    t.mem.wf = true := by
  unfold execPowerAlarmClear at e
  grind

theorem execPowerLimitExceeded_wf {s t : State} (h : s.mem.wf = true) (e : execPowerLimitExceeded s = .next t) :
    t.mem.wf = true := by
  unfold execPowerLimitExceeded at e
  grind

theorem execPowerLimitRecovered_wf {s t : State} (h : s.mem.wf = true) (e : execPowerLimitRecovered s = .next t) :
    t.mem.wf = true := by
  unfold execPowerLimitRecovered at e
  grind

@[simp] theorem background_mem (s : State) (f : Background → Background) : (s.background f).mem = s.mem := by
  simp [State.background]

@[simp] theorem poison_mem (s : State) (k : Nat) : (s.poison k).mem = s.mem := by
  simp [State.poison]

@[simp] theorem scrub_mem (s : State) (dram : Bool) (k : Nat) (found : EccFinding) (storeBetween : Bool) :
    (s.scrub dram k found storeBetween).mem = s.mem := by
  unfold State.scrub
  grind [background_mem, poison_mem]

theorem execDramPatrolScrub_wf {addr : Nat} {found : EccFinding} {storeBetween : Bool} {s t : State}
    (h : s.mem.wf = true) (e : execDramPatrolScrub addr found storeBetween s = .next t) : t.mem.wf = true := by
  unfold execDramPatrolScrub at e
  grind [scrub_mem, background_mem]

@[simp] theorem poisonAcc_mem (s : State) (cell : Nat) (shadow : Bool) (w : Nat) :
    (s.poisonAcc cell shadow w).mem = s.mem := by
  simp [State.poisonAcc]

@[simp] theorem scrubAcc_mem (s : State) (cell : Nat) (shadow : Bool) (w : Nat) (found : EccFinding)
    (storeBetween : Bool) : (s.scrubAcc cell shadow w found storeBetween).mem = s.mem := by
  unfold State.scrubAcc
  split <;> simp

theorem execSramPatrolScrub_wf {word : SramWord} {found : EccFinding} {storeBetween : Bool} {s t : State}
    (h : s.mem.wf = true) (e : execSramPatrolScrub word found storeBetween s = .next t) : t.mem.wf = true := by
  unfold execSramPatrolScrub at e
  grind [scrub_mem, scrubAcc_mem]

theorem execLinkRecalibration_wf {port us : Nat} {s t : State} (h : s.mem.wf = true)
    (e : execLinkRecalibration port us s = .next t) : t.mem.wf = true := by
  unfold execLinkRecalibration at e
  grind [background_mem]

theorem execDramRecalibration_wf {us : Nat} {s t : State} (h : s.mem.wf = true)
    (e : execDramRecalibration us s = .next t) : t.mem.wf = true := by
  unfold execDramRecalibration at e
  grind [background_mem]

theorem execFlashWearManagement_wf {erased retired : Nat} {s t : State} (h : s.mem.wf = true)
    (e : execFlashWearManagement erased retired s = .next t) : t.mem.wf = true := by
  unfold execFlashWearManagement at e
  grind [background_mem]

theorem execTelemetrySample_wf {sent : Bool} {s t : State} (h : s.mem.wf = true)
    (e : execTelemetrySample sent s = .next t) : t.mem.wf = true := by
  unfold execTelemetrySample at e
  grind [background_mem]

/-! ### The functions of `Machine/Tasks.lean` -/

@[simp] theorem raiseAll_mem (s : State) (l : List AgentFault) : (s.raiseAll l).mem = s.mem :=
  foldl_mem _ (fun _ _ => raiseDevice_mem _ _ _ _ _) _ _

@[simp] theorem Work_retire_mem (w : Work) : (Work.retire w).mem = w.s.mem := by
  simp [Work.retire]

@[simp] theorem Work_setA_mem (w : Work) (d : BitVec 6) (v : Word) : (Work.setA w d v).mem = w.s.mem := by
  simp [Work.setA]

@[simp] theorem awaitCounter_mem (s : State) : (s.awaitCounter).mem = s.mem := by
  simp [State.awaitCounter]

theorem createTask_wf {s : State} {t : Nat} {ea : Word} {u : State} (h : s.mem.wf = true)
    (e : s.createTask t ea = .ok (some u)) : u.mem.wf = true := by
  unfold State.createTask at e
  grind [writeTcb_wf, setGraph_mem, bind_ok]

theorem armTask_wf {s : State} {i : Nat} {t : Work} (h : s.mem.wf = true) (e : s.armTask i = .ok t) :
    t.s.mem.wf = true := by
  simp only [State.armTask, bind_ok] at e
  obtain ⟨b, -, e⟩ := e
  split at e
  · cases e
  split at e
  · obtain ⟨s1, e1, e⟩ := (bind_ok _ _ _).mp e
    cases e; exact writeTcb_wf h e1
  split at e
  · obtain ⟨s1, e1, e⟩ := (bind_ok _ _ _).mp e
    exact completeTask_wf (writeTcb_wf h e1) e
  · obtain ⟨s1, e1, e⟩ := (bind_ok _ _ _).mp e
    cases e; exact makeReady_wf h e1

theorem execTspawn_wf {im sz : BitVec 6} {s t : State} (h : s.mem.wf = true) (e : execTspawn im sz s = .next t) :
    t.mem.wf = true := by
  unfold execTspawn at e
  split at e
  · exact pcFault_wf h e
  refine finish_wf (fun u eu => ?_) h e
  simp only [bind_ok] at eu
  obtain ⟨i, -, o, eo, eu⟩ := eu
  split at eu
  · cases eu; simpa using h
  · obtain ⟨w, ew, eu⟩ := (bind_ok _ _ _).mp eu
    cases eu; simpa using armTask_wf (createTask_wf h eo) ew

theorem execTspawnCreate_wf {im sz : BitVec 6} {s t : State} (h : s.mem.wf = true)
    (e : execTspawnCreate im sz s = .next t) : t.mem.wf = true := by
  unfold execTspawnCreate at e
  grind [pcFault_wf, finish_wf, createTask_wf, awaitCounter_mem, retire_mem, bind_ok]

theorem execTspawnArm_wf {im : BitVec 6} {s t : State} (h : s.mem.wf = true) (e : execTspawnArm im s = .next t) :
    t.mem.wf = true := by
  unfold execTspawnArm at e
  grind [pcFault_wf, finish_wf, armTask_wf, Work_retire_mem, bind_ok]

@[simp] theorem noteEdge_mem (s : State) (x p t : Nat) : (s.noteEdge x p t).mem = s.mem := by
  unfold State.noteEdge
  split <;> simp

theorem addEdge_wf {s u : State} {p t : Nat} (h : s.mem.wf = true) (e : s.addEdge p t = .ok u) : u.mem.wf = true := by
  simp only [State.addEdge, bind_ok] at e
  obtain ⟨bp, -, bt, -, e⟩ := e
  split_ifs at e
  · cases e; simpa using h
  · simp only [bind_ok] at e
    obtain ⟨s1, e1, s2, e2, s3, e3, e⟩ := e
    cases e
    simpa using writeTcb_wf (writeTcb_wf (agentWrite_wf h e1) e2) e3

theorem execTedge_wf {p sz : BitVec 6} {s t : State} (h : s.mem.wf = true) (e : execTedge p sz s = .next t) :
    t.mem.wf = true := by
  unfold execTedge at e
  grind [finish_wf, addEdge_wf, retire_mem, bind_ok]

theorem execTdone_wf {d t : BitVec 6} {s u : State} (h : s.mem.wf = true) (e : execTdone d t s = .next u) :
    u.mem.wf = true := by
  unfold execTdone at e
  grind [finish_wf, setA_mem, bind_ok]

theorem execTcancel_wf {d i : BitVec 6} {s t : State} (h : s.mem.wf = true) (e : execTcancel d i s = .next t) :
    t.mem.wf = true := by
  refine finish_wf (fun u eu => ?_) h e
  simp only [bind_ok] at eu
  obtain ⟨i, -, r, er, eu⟩ := eu
  cases eu; simpa using cancelStep_wf h er

theorem actFuture_wf {s : State} {f : Word} {a : FutAct} {r : Word × Work} (h : s.mem.wf = true)
    (e : s.actFuture f a = .ok r) : r.2.s.mem.wf = true := by
  simp only [State.actFuture] at e
  split at e
  · simp only [bind_ok] at e
    obtain ⟨ps, -, bs, -, e⟩ := e
    split at e
    · cases e
    obtain ⟨s1, e1, e⟩ := (bind_ok _ _ _).mp e
    have h1 : s1.mem.wf = true := writeParts_wf h e1
    split at e
    · cases e; exact h1
    obtain ⟨d, ed, e⟩ := (bind_ok _ _ _).mp e
    have hd : d.Wf := decPred_wf h1 ed
    split at e
    · cases e
    · cases e; exact hd
    · obtain ⟨w, ew, e⟩ := (bind_ok _ _ _).mp e
      cases e; exact completeTask_wf hd ew
  · cases e

theorem future_wf {s t : State} {f : Word} {a : FutAct} {g : Word × Work → State} (hg : ∀ r, (g r).mem = r.2.s.mem)
    (h : s.mem.wf = true) (e : finish s .a (s.actFuture f a >>= fun r => .ok (g r)) = .next t) : t.mem.wf = true := by
  refine finish_wf (fun u eu => ?_) h e
  obtain ⟨r, er, eu⟩ := (bind_ok _ _ _).mp eu
  cases eu
  rw [hg]
  exact actFuture_wf h er

theorem execFnew_wf {f : BitVec 6} {s t : State} (h : s.mem.wf = true) (e : execFnew f s = .next t) : t.mem.wf = true :=
  future_wf (fun r => Work_retire_mem r.2) h e

theorem execFreg_wf {d f i : BitVec 6} {s t : State} (h : s.mem.wf = true) (e : execFreg d f i s = .next t) :
    t.mem.wf = true := by
  refine finish_wf (fun u eu => ?_) h e
  simp only [bind_ok] at eu
  obtain ⟨i, -, r, er, eu⟩ := eu
  cases eu; simpa using actFuture_wf h er

theorem execFres_wf {f v : BitVec 6} {s t : State} (h : s.mem.wf = true) (e : execFres f v s = .next t) :
    t.mem.wf = true :=
  future_wf (fun r => Work_retire_mem r.2) h e

theorem execFfail_wf {f v : BitVec 6} {s t : State} (h : s.mem.wf = true) (e : execFfail f v s = .next t) :
    t.mem.wf = true := by
  unfold execFfail at e
  extract_lets c at e
  split at e
  · exact future_wf (fun r => Work_retire_mem r.2) h e
  · cases e; simpa using h

@[simp] theorem yieldBank_mem (s : State) : (s.yieldBank).mem = s.mem := by
  simp [State.yieldBank]

theorem yieldDecide_wf {s : State} {t : ReadyTask} {u : Work} (h : s.mem.wf = true) (e : s.yieldDecide t = .ok u) :
    u.s.mem.wf = true := by
  unfold State.yieldDecide at e
  extract_lets others at e
  split at e
  · cases e; exact h
  · refine decideTask_wf ?_ e
    rw [foldl_mem State.dropGroup dropGroup_mem]
    exact h

theorem execTyield_wf {s t : State} (h : s.mem.wf = true) (e : execTyield s = .next t) : t.mem.wf = true := by
  unfold execTyield at e
  extract_lets s1 at e
  have h1 : s1.mem.wf = true := by simpa [s1] using h
  clear_value s1
  split at e
  · cases e; exact h1
  extract_lets tcb at e
  split at e
  · cases e; exact agentStop_wf h1
  next w ew =>
    have hw : w.s.mem.wf = true := yieldDecide_wf h1 ew
    have hy : w.s.yieldBank.mem.wf = true := by simpa using hw
    split at e <;> cases e
    · rw [arbitrate_mem]
      exact agentDo_wf hy (fun _ er => by cases er; exact hy)
    · exact agentDo_wf h1 (fun _ er => by cases er; exact hw)

@[simp] theorem noteGuard_mem (s : State) (g : Graph) (i tcb : Nat) (v : Word) :
    (s.noteGuard g i tcb v).mem = s.mem := by
  unfold State.noteGuard
  grind [setGraph_mem, growPlate_mem]

theorem execTguard_wf {im v : BitVec 6} {s t : State} (h : s.mem.wf = true) (e : execTguard im v s = .next t) :
    t.mem.wf = true := by
  unfold execTguard at e
  grind [pcFault_wf, finish_wf, wr_wf, retire_mem, noteGuard_mem, bind_ok]

/-! ### The functions of `Machine/Ahead.lean` -/

theorem retireLatched_wf {s t : State} {w : IWord} {r : Result} (hr : ∀ u, r = .next u → u.mem.wf = true)
    (h : s.mem.wf = true) (e : s.retireLatched w r = .next t) : t.mem.wf = true := by
  unfold State.retireLatched at e
  split at e
  · have h1 := hr _ rfl
    split at e
    · cases e; exact h1
    · dsimp only at e
      split at e
      · cases e; exact h
      · cases e; exact h1
  · exact hr _ e

theorem issueAhead_mem (s : State) (x : Nat) (ins : List LatchIn) : (s.issueAhead x ins).mem = s.mem := by
  unfold State.issueAhead
  split
  · refine foldl_mem _ (fun u c => ?_) _ _
    grind [setBankIn_mem]
  · rfl

@[simp] theorem walkAhead_mem (s : State) (c : Nat) : (s.walkAhead c).mem = s.mem := by
  unfold State.walkAhead
  grind [setBank_mem]

@[simp] theorem lookAhead_mem (s : State) (y : Instr) : (s.lookAhead y).mem = s.mem := by
  unfold State.lookAhead
  grind [issueAhead_mem, walkAhead_mem]

/-! ### The functions of `Machine/Auto.lean` -/

@[simp] theorem passTurn_mem (s : State) : (s.passTurn).mem = s.mem := by
  unfold State.passTurn
  grind

/-! ### Instructions, events and the step -/

/-- Every instruction and event keeps memory's canonical form. -/
theorem exec_wf {i : Instr} {s t : State} (h : s.mem.wf = true) (e : exec i s = .next t) : t.mem.wf = true := by
  cases i <;> dsimp only [exec] at e
  case qpush => exact execQpush_wf h e
  case qpopa => exact execQpopa_wf h e
  case lds | ldc | ldg => exact loadShort_wf h e
  case ldsL | ldcL | ldgL => exact loadLong_wf h e
  case sts | stc | stg => exact storeShort_wf h e
  case stsL | stcL | stgL => exact storeLong_wf h e
  case ldr => exact ldrOp_wf h e
  case ldrL => exact ordered_wf (fun _ => ldrOp_wf h) h e
  case str => exact strOp_wf h e
  case strL => exact ordered_wf (fun _ => strOp_wf h) h e
  case ldvq => exact ldvqOp_wf h e
  case ldvqL => exact ordered_wf (fun _ => ldvqOp_wf h) h e
  case ldvqFill => exact execLdvqFill_wf h e
  case stvq => exact stvqOp_wf h e
  case stvqL => exact ordered_wf (fun _ => stvqOp_wf h) h e
  case cpre => exact execCpre_wf h e
  case cpreL => exact execCpreL_wf h e
  case amog | amos => exact amoOp_wf h e
  case amogL | amosL => exact ordered_wf (fun _ => amoOp_wf h) h e
  case casg | cass => exact casOp_wf h e
  case casgL | cassL => exact ordered_wf (fun _ => casOp_wf h) h e
  case galleyEntryReclaim => exact execGalleyEntryReclaim_wf h e
  case eagerTranslationComplete => exact execEagerTranslationComplete_wf h e
  case regionTranslationComplete => exact execRegionTranslationComplete_wf h e
  case compositorFailure => exact execCompositorFailure_wf h e
  case contextCreate => exact execContextCreate_wf h e
  case contextSetupComplete => exact execContextSetupComplete_wf h e
  case contextGrant => exact execContextGrant_wf h e
  case preemptRequest => exact execPreemptRequest_wf h e
  case shadowSwapComplete => exact execShadowSwapComplete_wf h e
  case resumeRequest => exact execResumeRequest_wf h e
  case spillStart => exact execSpillStart_wf h e
  case spillComplete => exact execSpillComplete_wf h e
  case restoreComplete => exact execRestoreComplete_wf h e
  case scratchpadLineExchange => exact execScratchpadLineExchange_wf h e
  case contextEndRequest => exact execContextEndRequest_wf h e
  case contextRetireComplete => exact execContextRetireComplete_wf h e
  case supervisorTaskStart => exact execSupervisorTaskStart_wf h e
  case watchdogExpiry => exact execWatchdogExpiry_wf h e
  case trec => exact execTrec_wf h e
  case trecClr => exact execTrecClr_wf h e
  case tfold => exact execTfold_wf h e
  case tver => exact execTver_wf h e
  case tvwait => exact execTvwait_wf h e
  case ldgv => exact ldgvOp_wf h e
  case ldgvL => exact execLdgvL_wf h e
  case bxinit => exact execBxinit_wf h e
  case bxexp | bxarr => exact arriveOp_wf h e
  case bxwait => exact execBxwait_wf h e
  case bxtest | li | lih => exact answerA_wf h e
  case ringset => exact execRingset_wf h e
  case fence => exact execFence_wf h e
  case promote => exact execPromote_wf h e
  case cpy | cpyf | gath | scat => exact copyOp_wf h e
  case hwait => exact execHwait_wf h e
  case hwaitp => exact execHwaitp_wf h e
  case hrel => exact execHrel_wf h e
  case hstat => exact execHstat_wf h e
  case copyStart => exact execCopyStart_wf h e
  case copyBytesDelivered => exact execCopyBytesDelivered_wf h e
  case copyComplete => exact execCopyComplete_wf h e
  case counterRegister => exact execCounterRegister_wf h e
  case counterCombine => exact execCounterCombine_wf h e
  case makeReady => exact execMakeReady_wf h e
  case tailWrite => exact execTailWrite_wf h e
  case queueResume => exact execQueueResume_wf h e
  case nopPacket => exact execNopPacket_wf h e
  case loadPacket => exact execLoadPacket_wf h e
  case kernelLoadComplete => exact execKernelLoadComplete_wf h e
  case unloadPacket => exact execUnloadPacket_wf h e
  case kernelUnloadComplete => exact execKernelUnloadComplete_wf h e
  case bindPacket => exact execBindPacket_wf h e
  case retirePacket => exact execRetirePacket_wf h e
  case cancelPacket => exact execCancelPacket_wf h e
  case graphPacket => exact execGraphPacket_wf h e
  case graphAdmission => exact execGraphAdmission_wf h e
  case coll => exact execColl_wf h e
  case collectiveComplete => exact execCollectiveComplete_wf h e
  case b => exact execB_wf h e
  case call => exact execCall_wf h e
  case bc | bcL => exact bcOp_wf h e
  case ret => exact execRet_wf h e
  case ji => exact execJi_wf h e
  case bqp | bqpL => exact bqpOp_wf h e
  case bq | bqL => exact bqOp_wf h e
  case loop => exact execLoop_wf h e
  case endl => exact execEndl_wf h e
  case sync => exact execSync_wf h e
  case win => exact execWin_wf h e
  case fpcAll => exact execFpcAll_wf h e
  case fpcRm => exact execFpcRm_wf h e
  case fpcDazFtz => exact setFpc_wf h e
  case taskDispatch => exact execTaskDispatch_wf h e
  case stealRequest => exact execStealRequest_wf h e
  case stealAnswer => exact execStealAnswer_wf h e
  case stealBackoffExpiry => exact execStealBackoffExpiry_wf h e
  case stagingBaseAllocate => exact execStagingBaseAllocate_wf h e
  case stagingCopyComplete => exact execStagingCopyComplete_wf h e
  case shardStart => exact execShardStart_wf h e
  case groupCompletion => exact execGroupCompletion_wf h e
  case laneEntryIssue => exact execLaneEntryIssue_wf h e
  case plateSectionReceive => exact execPlateSectionReceive_wf h e
  case lstat => exact execLstat_wf h e
  case rdmaWrite => exact execRdmaWrite_wf h e
  case rdmaRead => exact execRdmaRead_wf h e
  case managementSend => exact execManagementSend_wf h e
  case rdmaAtomicRequest => exact execRdmaAtomicRequest_wf h e
  case qpCreate => exact execQpCreate_wf h e
  case hostPortDown => exact execHostPortDown_wf h e
  case flitData => exact execFlitData_wf h e
  case flitAck => exact execFlitAck_wf h e
  case flitNak => exact execFlitNak_wf h e
  case flitCredit => exact execFlitCredit_wf h e
  case flitControl => exact execFlitControl_wf h e
  case linkRetrainRequest => exact execLinkRetrainRequest_wf h e
  case trainingComplete => exact execTrainingComplete_wf h e
  case trainingTimeout => exact execTrainingTimeout_wf h e
  case trainingRetryTimer => exact execTrainingRetryTimer_wf h e
  case laneFailure => exact execLaneFailure_wf h e
  case linkKeyInstall => exact execLinkKeyInstall_wf h e
  case getVersion | getCapabilities | negotiateAlgorithms | getDigests | getCertificate | challenge => exact spdmReply_wf h e
  case getMeasurements => exact execGetMeasurements_wf h e
  case keyExchange => exact execKeyExchange_wf h e
  case finish => exact execFinish_wf h e
  case keyUpdate => exact execKeyUpdate_wf h e
  case heartbeat => exact execHeartbeat_wf h e
  case endSession => exact execEndSession_wf h e
  case add | sub | and | or | xor | shl | shr | sra | rotr | min | max | minu | maxu | slt | sltu | seq | mul |
      mulh | mulhu | div | divu | rem | remu | sel => exact aluA_wf h e
  case clz | ctz | popc | sext | zext | bswap => exact unaryA_wf h e
  case bfx | bfxL => exact bfxOp_wf h e
  case bfi | bfiL => exact bfiOp_wf h e
  case addi | addiL | andi | andiL | ori | oriL | xori | xoriL | slti | sltiL | sltiu | sltiuL | seqi | seqiL |
      muli | muliL => exact immA_wf h e
  case shli | shliL | shri | shriL | srai | sraiL => exact shiftImmA_wf h e
  case lset | lsetL => exact lsetOp_wf h e
  case sdset => exact execSdset_wf h e
  case xadd | xsub | xand | xior | xeor | xshl | xshr | xsra | xrotr | xmin | xmax | xminu | xmaxu | xslt | xsltu |
      xseq | xmul | xmulh | xmulhu | xdiv | xdivu | xrem | xremu | xsel => exact aluX_wf h e
  case xaddi | xaddiL | xshli | xshliL | xshri | xshriL | xsrai | xsraiL | xroti | xrotiL => exact immX_wf h e
  case xli | xlih => exact answerX_wf h e
  case xqpop => exact execXqpop_wf h e
  case xqpush => exact execXqpush_wf h e
  case vadd | vaddL | vsub | vsubL | vmul | vmulL | vfma | vfmaL | vfms | vfmsL | vfnma | vfnmaL | vmin | vminL |
      vmax | vmaxL | vabs | vabsL | vneg | vnegL | vdiv | vdivL | vsqrt | vsqrtL | vmov | vmovL | exp2 | exp2L |
      log2 | rcp | rsq | tanh | sigm => exact vlaneOp_wf h e
  case vsel | vselL => exact vselOp_wf h e
  case vperm | vpermL => exact vpermOp_wf h e
  case vbcastLane => exact vquietOp_wf h e
  case vbcast | vbcastL => exact vbcastOp_wf h e
  case viota | viotaL => exact viotaOp_wf h e
  case vldi | vldiL => exact vldiOp_wf h e
  case vrng | vrngL | vrngRaw => exact vrngOp_wf h e
  case vqpop | vqpopL => exact vqpopOp_wf h e
  case vwin => exact execVwin_wf h e
  case vcmp | vcmpL => exact vcmpOp_wf h e
  case pand | pandL | por | porL | pnot | pnotL => exact predOp_wf h e
  case pcnt | pcntL | pfirst => exact predCount_wf h e
  case vrsum | vrsumL | vrmax | vrmaxL | vrmin | vrminL | vramax | vramaxL => exact reduceOp_wf h e
  case vscan | vscanL => exact vscanOp_wf h e
  case vsortk | vsortkL => exact vsortOp_wf h e
  case vmergek | vmergekL => exact vmergeOp_wf h e
  case vcvt => exact execVcvt_wf h e
  case vqnt | vqntL => exact vqntOp_wf h e
  case vdqnt | vdqntL => exact vdqntOp_wf h e
  case nset | nsetLc | nsetL => exact nsetOp_wf h e
  case mma => exact execMma_wf h e
  case mzero => exact execMzero_wf h e
  case sdget => exact execSdget_wf h e
  case mwb | mwbRaw => exact mwbOp_wf h e
  case tileEngineOpStart => exact execTileEngineOpStart_wf h e
  case matrixKStep => exact execMatrixKStep_wf h e
  case tileEngineOpComplete => exact execTileEngineOpComplete_wf h e
  case invr => exact execInvr_wf h e
  case inva => exact execInva_wf h e
  case probe => exact execProbe_wf h e
  case freplayResume | freplayAbort => exact freplayOp_wf h e
  case pageWalkComplete => exact execPageWalkComplete_wf h e
  case invalidationAck => exact execInvalidationAck_wf h e
  case trap => exact execTrap_wf h e
  case brk => exact execBrk_wf h e
  case eret => exact execEret_wf h e
  case srd => exact execSrd_wf h e
  case swr => exact execSwr_wf h e
  case nop => exact execNop_wf h e
  case wfe => exact execWfe_wf h e
  case yieldctx => exact execYieldctx_wf h e
  case halt => exact execHalt_wf h e
  case loadDataArrival => exact execLoadDataArrival_wf h e
  case cellFaultTaken => exact execCellFaultTaken_wf h e
  case streamSkip => exact execStreamSkip_wf h e
  case opcodeUndef => exact execOpcodeUndef_wf h e
  case fetchMalformed => exact execFetchMalformed_wf h e
  case powerApplied => exact execPowerApplied_wf h e
  case powerLost => exact execPowerLost_wf h e
  case hostColdStart => exact execHostColdStart_wf h e
  case hostWarmStart => exact execHostWarmStart_wf h e
  case startComplete => exact execStartComplete_wf h e
  case startStepFailure => exact execStartStepFailure_wf h e
  case startTimeout => exact execStartTimeout_wf h e
  case firmwareInstall => exact execFirmwareInstall_wf h e
  case recoveryImageInstall => exact execRecoveryImageInstall_wf h e
  case powerAlarmAssert => exact execPowerAlarmAssert_wf h e
  case powerAlarmClear => exact execPowerAlarmClear_wf h e
  case powerLimitExceeded => exact execPowerLimitExceeded_wf h e
  case powerLimitRecovered => exact execPowerLimitRecovered_wf h e
  case dramPatrolScrub => exact execDramPatrolScrub_wf h e
  case sramPatrolScrub => exact execSramPatrolScrub_wf h e
  case linkRecalibration => exact execLinkRecalibration_wf h e
  case dramRecalibration => exact execDramRecalibration_wf h e
  case flashWearManagement => exact execFlashWearManagement_wf h e
  case telemetrySample => exact execTelemetrySample_wf h e
  case tspawn => exact execTspawn_wf h e
  case tspawnCreate => exact execTspawnCreate_wf h e
  case tspawnArm => exact execTspawnArm_wf h e
  case tedge => exact execTedge_wf h e
  case tdone => exact execTdone_wf h e
  case tcancel => exact execTcancel_wf h e
  case fnew => exact execFnew_wf h e
  case freg => exact execFreg_wf h e
  case fres => exact execFres_wf h e
  case ffail => exact execFfail_wf h e
  case tyield => exact execTyield_wf h e
  case tguard => exact execTguard_wf h e

theorem streamStep_wf {s t : State} (h : s.mem.wf = true) (e : streamStep s = .next t) : t.mem.wf = true := by
  unfold streamStep at e
  split at e
  next u fetched => cases e; exact fetch_wf h fetched
  next w next _ =>
    split at e
    · exact retireLatched_wf (fun _ => exec_wf h) h e
    · cases e; simpa using h

theorem eventStep_wf {i : Instr} {s t : State} (h : s.mem.wf = true) (e : eventStep i s = .next t) : t.mem.wf = true := by
  unfold eventStep at e
  split at e
  · exact exec_wf (by simpa using h) e
  · cases e; exact h

theorem own_wf {s : State} {i : Instr} (h : s.mem.wf = true) : (s.own i).mem.wf = true := by
  unfold State.own
  split
  next e => exact exec_wf h e
  next => exact h

theorem engineTurn_wf {s : State} (h : s.mem.wf = true) : s.engineTurn.mem.wf = true := by
  refine foldl_state_wf State.own (fun _ _ => own_wf) _ _ (foldl_state_wf State.own (fun _ _ => own_wf) _ _ ?_)
  simpa using h

theorem passTurn_wf {r : Result} {t : State} (hr : ∀ u, r = .next u → u.mem.wf = true) (e : passTurn r = .next t) :
    t.mem.wf = true := by
  cases r with
  | next u => cases e; simpa using hr u rfl
  | fault f => cases e
  | refused f => cases e

/-- One step keeps memory's canonical form. -/
theorem step_wf {s t : State} (h : s.mem.wf = true) (e : step s = .next t) : t.mem.wf = true := by
  unfold step at e
  extract_lets s1 at e
  split at e
  · exact eventStep_wf (by exact h) e
  · split at e
    · exact streamStep_wf (by exact h) e
    · cases e
  · cases e; exact firmware_wf (by exact h)
  · split at e
    · exact passTurn_wf (fun u eu => by cases eu; exact engineTurn_wf (by exact h)) e
    · exact passTurn_wf (fun u eu => streamStep_wf (by exact h) eu) e

/-- Settles O8: every function that a step calls leaves memory alone or changes it by stores and clearings that keep the form. -/
theorem stepKeepsMemory : Obligations.StepKeepsMemory := fun _ _ h e => step_wf h e

end Sys2Proof.Machine
end

section
/-! PROOFS. Registers, memory and rows read back what is written. -/

namespace Sys2Proof.Machine

open Sys2Proof

/-! ### Register files -/

/-- An element of a register file after a write, for any number: a number beyond the file writes nothing. -/
theorem vget_vset {α : Type} {n : Nat} (v : Vector α n) (r q : Nat) (x d : α) :
    vget (vset v r x) q d = if q = r ∧ r < n then x else vget v q d := by
  by_cases hr : r < n
  · by_cases e : q = r
    · subst e
      rw [vget_vset_eq _ _ _ _ hr, if_pos ⟨rfl, hr⟩]
    · rw [vget_vset_ne _ _ _ _ _ (Ne.symm e), if_neg (fun c => e c.1)]
  · rw [vset_big _ _ _ (Nat.le_of_not_lt hr), if_neg (fun c => hr c.2)]

theorem readA_writeA_any (b : Bank) (r q : Nat) (v : Word) :
    (b.writeA r v).readA q = if q = 0 then 0 else if q = r ∧ r < 64 then v else b.readA q := by
  unfold Bank.readA Bank.writeA
  split_ifs <;> simp_all [vget_vset]

theorem readX_writeX_any (b : Bank) (r q : Nat) (v : Word) :
    (b.writeX r v).readX q = if q = 0 then 0 else if q = r ∧ r < 32 then v else b.readX q := by
  unfold Bank.readX Bank.writeX
  split_ifs <;> simp_all [vget_vset]

theorem readP_writeP (b : Bank) (r q : Nat) (v : BitVec 256) :
    (b.writeP r v).readP q = if q = 0 then BitVec.allOnes 256 else if q = r ∧ r < 16 then v else b.readP q := by
  unfold Bank.readP Bank.writeP
  split_ifs <;> simp_all [vget_vset]

theorem readLc_writeLc (b : Bank) (r q : Nat) (v : BitVec 32) :
    (b.writeLc r v).readLc q = if q = r ∧ r < 8 then v else b.readLc q := vget_vset _ _ _ _ _

theorem readSd_writeSd (b : Bank) (r q : Nat) (v : BitVec 256) :
    (b.writeSd r v).readSd q = if q = r ∧ r < 16 then v else b.readSd q := vget_vset _ _ _ _ _

/-! ### Rows of the accumulator array -/

theorem rowsAscend_cons (k : Nat) (w : Row) (t : List (Nat × Row)) :
    rowsAscend ((k, w) :: t) = true ↔ w ≠ 0 ∧ (∀ e ∈ t, k < e.1) ∧ rowsAscend t = true := by
  induction t generalizing k w with
  | nil => simp [rowsAscend]
  | cons f t ih =>
    obtain ⟨j, u⟩ := f
    have below : rowsAscend ((j, u) :: t) = true → k < j → ∀ e ∈ t, k < e.1 := fun h hk e he =>
      hk.trans (((ih j u).mp h).2.1 e he)
    simp only [rowsAscend, Bool.and_eq_true, bne_iff_ne, decide_eq_true_eq, List.forall_mem_cons]
    exact ⟨fun ⟨⟨hw, hk⟩, h⟩ => ⟨hw, ⟨hk, below h hk⟩, h⟩, fun ⟨hw, ⟨hk, _⟩, h⟩ => ⟨⟨hw, hk⟩, h⟩⟩

/-- A row whose number is below every listed one reads zero. -/
theorem rowGet_below (l : List (Nat × Row)) (q : Nat) (h : ∀ e ∈ l, q < e.1) : rowGet l q = 0 := by
  cases l with
  | nil => rfl
  | cons e t =>
    have hq : q < e.1 := h e (by simp)
    simp only [rowGet]
    rw [if_neg (by omega), if_pos hq]

/-- What is listed after a write was listed before, or is the row written. -/
theorem mem_rowPut (l : List (Nat × Row)) (r : Nat) (v : Row) (e : Nat × Row) (h : e ∈ rowPut l r v) : e ∈ l ∨ e = (r, v) := by
  induction l with
  | nil =>
    simp only [rowPut] at h
    split_ifs at h <;> simp_all
  | cons f t ih =>
    obtain ⟨k, w⟩ := f
    simp only [rowPut] at h
    split_ifs at h <;> simp only [List.mem_cons] at h ⊢ <;> tauto

theorem rowsAscend_rowPut (l : List (Nat × Row)) (r : Nat) (v : Row) (h : rowsAscend l = true) :
    rowsAscend (rowPut l r v) = true := by
  induction l with
  | nil =>
    simp only [rowPut]
    split_ifs with hv
    · rfl
    · simpa [rowsAscend] using hv
  | cons f t ih =>
    obtain ⟨k, w⟩ := f
    obtain ⟨hw, hk, ht⟩ := (rowsAscend_cons k w t).mp h
    simp only [rowPut]
    split_ifs with hr hv hr' hv
    · exact h
    · refine (rowsAscend_cons _ _ _).mpr ⟨hv, fun e he => ?_, h⟩
      rcases List.mem_cons.mp he with rfl | he
      · exact hr
      · exact hr.trans (hk e he)
    · exact ht
    · exact (rowsAscend_cons _ _ _).mpr ⟨hv, fun e he => hr' ▸ hk e he, ht⟩
    · refine (rowsAscend_cons _ _ _).mpr ⟨hw, fun e he => ?_, ih ht⟩
      rcases mem_rowPut t r v e he with he | rfl
      · exact hk e he
      · show k < r
        omega

theorem rowGet_rowPut (l : List (Nat × Row)) (r q : Nat) (v : Row) (h : rowsAscend l = true) :
    rowGet (rowPut l r v) q = if q = r then v else rowGet l q := by
  induction l with
  | nil =>
    by_cases hv : v = 0
    · rw [rowPut, if_pos hv]
      split_ifs
      · exact hv.symm
      · rfl
    · rw [rowPut, if_neg hv]
      split_ifs with hq
      · exact if_pos hq
      · exact (if_neg hq).trans (ite_self 0)
  | cons f t ih =>
    obtain ⟨k, w⟩ := f
    obtain ⟨-, hk, ht⟩ := (rowsAscend_cons k w t).mp h
    have low : q ≤ k → rowGet t q = 0 := fun hq => rowGet_below t q fun e he => Nat.lt_of_le_of_lt hq (hk e he)
    simp only [rowPut]
    split_ifs <;> grind [rowGet]

/-- Settles O7: each register file is a vector read after a write; memory and the rows are lists in ascending order. -/
theorem registersAndMemory : Obligations.RegistersAndMemory :=
  ⟨fun b r q => ⟨readA_writeA_any b r q, readX_writeX_any b r q, readP_writeP b r q, readLc_writeLc b r q,
      readSd_writeSd b r q, fun _ => rfl, fun _ => rfl, fun _ => rfl⟩,
    fun m a k v h => ⟨memPut_wf m a v h, memGet_memPut m a k v h⟩,
    fun l r q v h => ⟨rowsAscend_rowPut l r v h, rowGet_rowPut l r q v h⟩⟩

end Sys2Proof.Machine
end

section
/-! PROOFS. Scalar loads and stores of the A stream. -/

namespace Sys2Proof.Machine

open Sys2Proof

/-! ### Gang transfers where every device is in reach -/

/-- Which devices are out of reach depends on the context, the gang and the network only. -/
theorem unreachable_congr {s t : State} (hx : t.ctxNo = s.ctxNo) (hc : t.ctxs = s.ctxs) (hn : t.net = s.net)
    (hg : t.dev.gangSize = s.dev.gangSize) (hi : t.dev.devIndex = s.dev.devIndex) :
    t.unreachable t.ctxNo = s.unreachable s.ctxNo := by
  unfold State.unreachable State.routeUp State.ctxAt
  rw [hx, hc, hn, hg, hi]

/-- A gang transfer asks nothing more of an instruction where every device is in reach (R360). -/
theorem gangAfter_reachable (gang : Bool) (s t : State) (h : t.unreachable t.ctxNo = none) :
    gangAfter gang s (.next t) = .next t := by
  simp only [gangAfter, State.gangTransfer, h, ite_self]

theorem gangAfter_false (s : State) (r : Result) : gangAfter false s r = r := by
  cases r <;> rfl

theorem unreachable_setA (s : State) (n d : Nat) (v : Word) :
    (s.setA n d v).unreachable (s.setA n d v).ctxNo = s.unreachable s.ctxNo :=
  unreachable_congr (by simp [State.ctxNo, State.setA, Bank.retire, Bank.advance, Bank.setPc, Bank.setW, Bank.countSeq])
    rfl rfl rfl rfl

theorem unreachable_raise (s : State) (st : Stream) (c : Cause) (g : Word) (h : s.faultless) :
    (s.raise st c g).unreachable (s.raise st c g).ctxNo = s.unreachable s.ctxNo := by
  have raised := raised_raise s st c g h
  have device := raised.rest.device
  refine unreachable_congr (by simp only [State.ctxNo, raised.sys]) ?_ ?_ ?_ ?_ <;> rw [device] <;> rfl

/-! ### Loads -/

/-- The bytes of a resolved access that holds no poisoned word. -/
theorem readParts_clean (s : State) (ps : List RowPart) (h : s.clean ps) : s.readParts ps = .ok (s.peekParts ps) := by
  induction ps with
  | nil => rfl
  | cons p ps ih =>
    have hp : firstPoison s.dev.poisoned p.key p.len = none := h p (by simp)
    have ht := ih fun q hq => h q (List.mem_cons_of_mem _ hq)
    simp only [State.readParts, hp, ht, State.peekParts, List.flatMap_cons]

theorem loadOp_ok {s : State} {sp : Space} {len n : Nat} {t : BitVec 6} {ea : Word} {acq : Bool} {ps : List RowPart}
    (h : s.resolve sp { Access.load s.level with annotated := acq } ea n = .ok ps) (hc : s.clean ps) :
    loadOp sp len t ea n acq s = answerA s len t (BitVec.ofNat 64 (natOfBytes (s.peekParts ps))) := by
  simp only [loadOp, State.rd, h, readParts_clean s ps hc]
  rfl

theorem loadOp_fault {s : State} {sp : Space} {len n : Nat} {t : BitVec 6} {ea g : Word} {acq : Bool} {c : Cause}
    (h : s.resolve sp { Access.load s.level with annotated := acq } ea n = .error (.fault c g)) :
    loadOp sp len t ea n acq s = .next (s.raise .a c g) := by
  simp only [loadOp, State.rd, h]
  rfl

/-- The S address of a ring access whose offset keeps inside the slot (R108). -/
theorem ringAddr_ok {r : Ring} {stage n : Nat} {off : Word} (hs : r.isSet = true) (ho : off.toNat + n ≤ r.slot) :
    ringAddr r stage off n = .ok (BitVec.ofNat 64 (r.base + stage * r.slot) + off) := by
  simp only [ringAddr, hs, ho, if_true]
  rfl

theorem ldrOp_ring {s : State} {len n : Nat} {t k : BitVec 6} {off : Word} {acq : Bool} {f : MemForm}
    (h : ringForm len s.bank t k Ring.consStage off n acq = some f) :
    ldrOp len t k off n acq s = loadOp f.sp f.len f.reg f.ea f.n f.marked s := by
  unfold ringForm at h
  extract_lets r at h
  split at h
  next inside =>
    obtain ⟨hk, hs, ho⟩ := inside
    cases h
    simp only [ldrOp, hk, if_true, r, ringAddr_ok hs ho]
  · cases h

/-- A long form whose scope and order are taken is carried out, and then the gang transfer is made. -/
theorem ordered_ok {o : OrderSet} {sc : BitVec 3} {od : BitVec 2} (s : State) (r : Result) (h : orderOk o sc od = true) :
    ordered o sc od s r = gangAfter (sc == 4#3 && od != 0#2) s r := by
  simp only [ordered, h, if_true]

/-- The fields of a long form that is taken. -/
theorem longForm_eq {sp : Space} {b : Bank} {t a : BitVec 6} {n : Nat} {sc : BitVec 3} {od : BitVec 2} {takes : Bool}
    {off : BitVec 25} {f : MemForm} (h : longForm sp b t a n sc od takes off = some f) :
    (sc.toNat < 5 ∧ takes = true) ∧ f = ⟨sp, 2, t, b.readA a.toNat + off.signExtend 64, n, od != 0#2⟩ := by
  unfold longForm at h
  split at h
  next taken => cases h; exact ⟨taken, rfl⟩
  · cases h

theorem loadLong_form {s : State} {sp : Space} {t a : BitVec 6} {sz : BitVec 2} {sc : BitVec 3} {od : BitVec 2}
    {off : BitVec 25} {f : MemForm}
    (h : longForm sp s.bank t a (2 ^ sz.toNat) sc od (od == 0#2 || od == 1#2) off = some f) :
    ∃ gang, loadLong sp t a sz sc od off s = gangAfter gang s (loadOp f.sp f.len f.reg f.ea f.n f.marked s) := by
  obtain ⟨⟨hs, ho⟩, rfl⟩ := longForm_eq h
  exact ⟨_, ordered_ok s _ (by simp only [orderOk, hs, ho, decide_true, Bool.and_self])⟩

/-- Every scalar load is the load that its form names, and perhaps a gang transfer. -/
theorem exec_load {s : State} {i : Instr} {f : MemForm} (h : loadForm s.bank i = some f) :
    ∃ gang, exec i s = gangAfter gang s (loadOp f.sp f.len f.reg f.ea f.n f.marked s) := by
  unfold loadForm at h
  split at h
  case h_1 | h_3 | h_5 => cases h; exact ⟨false, (gangAfter_false _ _).symm⟩
  case h_2 | h_4 | h_6 => exact loadLong_form h
  case h_7 => exact ⟨false, (ldrOp_ring h).trans (gangAfter_false _ _).symm⟩
  case h_8 =>
    split at h
    next taken =>
      refine ⟨_, (ordered_ok s _ ?_).trans (congrArg _ (ldrOp_ring h))⟩
      simpa [orderOk] using taken
    · cases h
  case h_9 => cases h

/-- Settles O18: each form is one load at its effective address, to which a gang transfer in reach adds nothing. -/
theorem scalarLoads : Obligations.ScalarLoads := by
  intro s i f hf reach
  obtain ⟨gang, he⟩ := exec_load hf
  constructor
  · intro ps hr hc
    refine answersA_of i s f.len f.reg _ ?_
    rw [he, loadOp_ok hr hc, answerA]
    exact gangAfter_reachable _ _ _ ((unreachable_setA _ _ _ _).trans reach)
  · intro c g hl hr
    refine ⟨_, ?_, raised_raise s .a c g hl⟩
    rw [he, loadOp_fault hr]
    exact gangAfter_reachable _ _ _ ((unreachable_raise _ _ _ _ hl).trans reach)

/-! ### The parts of an access -/

/-- No part is longer than the access that it was cut from (R216). -/
theorem splitParts_le (k : Nat) : ∀ (g n : Nat), ∀ p ∈ splitParts k g n, p.2 ≤ n := by
  induction k with
  | zero => intro g n p hp; cases hp
  | succ k ih =>
    intro g n p hp
    simp only [splitParts] at hp
    split at hp
    · cases hp
    rcases List.mem_cons.mp hp with rfl | hp
    · exact Nat.min_le_left _ _
    · exact (ih _ _ p hp).trans (Nat.sub_le _ _)

theorem resolveS_len {s : State} {x cell g n : Nat} {ps : List RowPart} (h : s.resolveS x cell g n = .ok ps) :
    ∀ p ∈ ps, p.len ≤ n := by
  unfold State.resolveS at h
  split at h
  · cases h
  extract_lets bad at h
  clear_value bad
  split at h <;> cases h
  simp

theorem resolveC_len {s : State} {x cell g n : Nat} {ps : List RowPart} (h : s.resolveC x cell g n = .ok ps) :
    ∀ p ∈ ps, p.len ≤ n := by
  unfold State.resolveC at h
  extract_lets t off at h
  split at h
  · cases h
  split at h
  · exact resolveS_len h
  split at h
  · cases h
  · cases h; simp

theorem resolveG_len {s : State} {cell : Option Nat} {x g n : Nat} {a : Access} {ps : List RowPart}
    (h : s.resolveG cell x a g n = .ok ps) : ∀ p ∈ ps, p.len ≤ n := by
  unfold State.resolveG at h
  extract_lets cut at h
  split at h
  · cases h
  split at h
  · cases h
  split at h
  · cases h
  · cases h
    intro p hp
    simp only [cut, List.map_map, List.mem_map] at hp
    obtain ⟨q, hq, rfl⟩ := hp
    exact splitParts_le _ _ _ q hq

theorem resolve_len {s : State} {sp : Space} {a : Access} {ea : Word} {n : Nat} {ps : List RowPart}
    (h : s.resolve sp a ea n = .ok ps) : ∀ p ∈ ps, p.len ≤ n := by
  unfold State.resolve at h
  split at h
  next qs located =>
    split at h <;> cases h
    cases sp with
    | s => exact resolveS_len located
    | c => exact resolveC_len located
    | g =>
      simp only [State.locate] at located
      split at located
      · exact resolveG_len located
      · cases located
  · cases h

/-! ### Bytes stored -/

/-- Storing at resolved parts changes the bytes of memory and takes poison away, and nothing else. -/
theorem putParts_eq (ps : List RowPart) : ∀ (s : State) (bs : List Byte), ∃ bad,
    s.putParts ps bs = { s with mem := storedBytes s.mem ps bs, dev := { s.dev with poisoned := bad } } := by
  induction ps with
  | nil => intro s bs; exact ⟨s.dev.poisoned, rfl⟩
  | cons p ps ih =>
    intro s bs
    obtain ⟨bad, hbad⟩ := ih { s with
      mem := memWrite s.mem p.key (bs.take p.len)
      dev := { s.dev with poisoned := clearPoison s.dev.poisoned p.key p.len } } (bs.drop p.len)
    exact ⟨bad, hbad⟩

/-- A byte outside the parts reads as before. -/
theorem memGet_storedBytes_outside (ps : List RowPart) (k : Nat) : ∀ (m : Memory) (bs : List Byte), m.wf = true →
    ¬ inParts ps k → memGet (storedBytes m ps bs) k = memGet m k := by
  induction ps with
  | nil => intro m bs _ _; rfl
  | cons p ps ih =>
    intro m bs hm hk
    have later : ¬ inParts ps k := fun ⟨q, hq, hin⟩ => hk ⟨q, List.mem_cons_of_mem _ hq, hin⟩
    have first : ¬ (p.key ≤ k ∧ k < p.key + p.len) := fun hin => hk ⟨p, by simp, hin⟩
    rw [storedBytes, ih _ _ (memWrite_wf _ _ _ hm) later, memGet_memWrite _ _ _ _ hm, if_neg]
    rw [List.length_take]
    omega

/-- Bytes that all read alike in memory and in a list are the list. -/
theorem memRead_eq_of_getD (m : Memory) (bs : List Byte) : ∀ (a : Nat),
    (∀ j, j < bs.length → memGet m (a + j) = bs.getD j memBlank) → memRead m a bs.length = bs := by
  induction bs with
  | nil => intro a _; rfl
  | cons b bs ih =>
    intro a h
    have head : memGet m a = b := by simpa using h 0 (by simp)
    have tail := ih (a + 1) fun j hj => by
      have := h (j + 1) (by simpa using hj)
      simpa [Nat.add_assoc, Nat.add_comm 1 j] using this
    rw [List.length_cons, memRead, head, tail]

/-- Bytes written in memory are read back. -/
theorem memRead_memWrite (m : Memory) (a : Nat) (bs : List Byte) (h : m.wf = true) :
    memRead (memWrite m a bs) a bs.length = bs := by
  refine memRead_eq_of_getD _ bs a fun j hj => ?_
  rw [memGet_memWrite bs m a (a + j) h, if_pos (by omega), Nat.add_sub_cancel_left]

theorem length_bytesOfWord64 (w : Word) (n : Nat) : (bytesOfWord64 w n).length = n := by
  rw [bytesOfWord64, length_bytesOfNat]

/-! ### Stores -/

/-- What a store at resolved parts leaves, when its instruction has retired. -/
theorem storedA_putParts {s : State} (len : Nat) (ps : List RowPart) (bs : List Byte) (hm : s.mem.wf = true) :
    StoredA s ((s.putParts ps bs).retire .a len) len ps bs ∧ SameRegs s ((s.putParts ps bs).retire .a len) := by
  obtain ⟨bad, hput⟩ := putParts_eq ps s bs
  have retired := retiredA_retire s s.bank len rfl rfl rfl
  have hbank : ((s.putParts ps bs).retire .a len).bank = (s.setBank (s.bank.retire .a len)).bank := by
    rw [hput, retire_bank, setBank_bank]
    rfl
  have hmem : ((s.putParts ps bs).retire .a len).mem = storedBytes s.mem ps bs := by
    rw [hput, retire_mem]
  refine ⟨⟨hmem, fun k hk => ?_, ?_, ?_, bad, ?_⟩, ?_⟩
  · rw [hmem]
    exact memGet_storedBytes_outside ps k s.mem bs hm hk
  · obtain ⟨⟨sys, wa, wx, wmaxx⟩, wmaxa, ctl⟩ := retired
    rw [← hbank] at sys wa wx wmaxx wmaxa ctl
    exact ⟨⟨sys, wa, wx, wmaxx⟩, wmaxa, ctl⟩
  · constructor <;> rw [hbank] <;> simp
  · rw [hbank, hmem, hput]
    simp only [setBank_bank]
    rfl
  · constructor <;> rw [hbank] <;> simp

theorem storeOp_ok {s : State} {sp : Space} {len n : Nat} {t : BitVec 6} {ea : Word} {rel : Bool} {ps : List RowPart}
    (h : s.resolve sp { Access.store s.level with annotated := rel } ea n = .ok ps) (hp : s.storePoison ps = none) :
    storeOp sp len t ea n rel s = .next ((s.putParts ps (bytesOfWord64 (s.bank.readA t.toNat) n)).retire .a len) := by
  simp only [storeOp, State.wr, length_bytesOfWord64, h, State.writeParts, hp]
  rfl

theorem storeOp_fault {s : State} {sp : Space} {len n : Nat} {t : BitVec 6} {ea g : Word} {rel : Bool} {c : Cause}
    (h : s.resolve sp { Access.store s.level with annotated := rel } ea n = .error (.fault c g)) :
    storeOp sp len t ea n rel s = .next (s.raise .a c g) := by
  simp only [storeOp, State.wr, length_bytesOfWord64, h]
  rfl

theorem strOp_ring {s : State} {len n : Nat} {t k : BitVec 6} {off : Word} {rel : Bool} {f : MemForm}
    (h : ringForm len s.bank t k Ring.prodStage off n rel = some f) :
    strOp len t k off n rel s = storeOp f.sp f.len f.reg f.ea f.n f.marked s := by
  unfold ringForm at h
  extract_lets r at h
  split at h
  next inside =>
    obtain ⟨hk, hs, ho⟩ := inside
    cases h
    simp only [strOp, hk, if_true, r, ringAddr_ok hs ho]
  · cases h

theorem storeLong_form {s : State} {sp : Space} {t a : BitVec 6} {sz : BitVec 2} {sc : BitVec 3} {od : BitVec 2}
    {off : BitVec 25} {f : MemForm}
    (h : longForm sp s.bank t a (2 ^ sz.toNat) sc od (od == 0#2 || od == 2#2) off = some f) :
    ∃ gang, storeLong sp t a sz sc od off s = gangAfter gang s (storeOp f.sp f.len f.reg f.ea f.n f.marked s) := by
  obtain ⟨⟨hs, ho⟩, rfl⟩ := longForm_eq h
  exact ⟨_, ordered_ok s _ (by simp only [orderOk, hs, ho, decide_true, Bool.and_self])⟩

/-- Every scalar store is the store that its form names, and perhaps a gang transfer. -/
theorem exec_store {s : State} {i : Instr} {f : MemForm} (h : storeForm s.bank i = some f) :
    ∃ gang, exec i s = gangAfter gang s (storeOp f.sp f.len f.reg f.ea f.n f.marked s) := by
  unfold storeForm at h
  split at h
  case h_1 | h_3 | h_5 => cases h; exact ⟨false, (gangAfter_false _ _).symm⟩
  case h_2 | h_4 | h_6 => exact storeLong_form h
  case h_7 => exact ⟨false, (strOp_ring h).trans (gangAfter_false _ _).symm⟩
  case h_8 =>
    split at h
    next taken =>
      refine ⟨_, (ordered_ok s _ ?_).trans (congrArg _ (strOp_ring h))⟩
      simpa [orderOk] using taken
    · cases h
  case h_9 => cases h

/-- A state that differs by a store and the retirement reaches the devices that the first one reaches. -/
theorem unreachable_stored {s t : State} {len : Nat} {ps : List RowPart} {bs : List Byte} (h : StoredA s t len ps bs) :
    t.unreachable t.ctxNo = s.unreachable s.ctxNo := by
  obtain ⟨bad, device⟩ := h.device
  refine unreachable_congr (by simp only [State.ctxNo, h.retired.at_.sys]) ?_ ?_ ?_ ?_ <;> rw [device] <;> rfl

/-- Settles O19: each form is one store at its effective address, and what it leaves is `storedA_putParts`. -/
theorem scalarStores : Obligations.ScalarStores := by
  intro s i f hm hf reach
  obtain ⟨gang, he⟩ := exec_store hf
  constructor
  · intro ps hr hp
    obtain ⟨stored, same⟩ := storedA_putParts f.len ps (bytesOfWord64 (s.bank.readA f.reg.toNat) f.n) hm
    refine ⟨_, ?_, stored, same, ?_⟩
    · rw [he, storeOp_ok hr hp]
      exact gangAfter_reachable _ _ _ ((unreachable_stored stored).trans reach)
    · rintro p rfl
      have hlen : ((bytesOfWord64 (s.bank.readA f.reg.toNat) f.n).take p.len).length = p.len := by
        rw [List.length_take, length_bytesOfWord64]
        exact Nat.min_eq_left (resolve_len hr p (by simp))
      have back := memRead_memWrite s.mem p.key ((bytesOfWord64 (s.bank.readA f.reg.toNat) f.n).take p.len) hm
      rw [hlen] at back
      rw [stored.mem]
      exact back
  · intro c g hl hr
    refine ⟨_, ?_, raised_raise s .a c g hl⟩
    rw [he, storeOp_fault hr]
    exact gangAfter_reachable _ _ _ ((unreachable_raise _ _ _ _ hl).trans reach)

end Sys2Proof.Machine
end

section
/-! PROOFS. Exact lane values (R155, R162): what the exact operations give, as rationals. -/

namespace Sys2Proof.Machine

open Sys2Proof

/-! ### Exact values -/

/-- The rational that a sign, a magnitude and an exponent stand for. -/
def ratOf (n : Bool) (m : Nat) (e : Int) : ℚ := (if n = true then -1 else 1) * (m : ℚ) * (2 : ℚ) ^ e

theorem ratOf_false (m : Nat) (e : Int) : ratOf false m e = (m : ℚ) * (2 : ℚ) ^ e := by
  rw [ratOf, if_neg Bool.false_ne_true, one_mul]

theorem ratOf_true (m : Nat) (e : Int) : ratOf true m e = -((m : ℚ) * (2 : ℚ) ^ e) := by
  rw [ratOf, if_pos rfl, mul_assoc, neg_one_mul]

theorem ratOf_zero (n : Bool) (e : Int) : ratOf n 0 e = 0 := by
  rw [ratOf, Nat.cast_zero, mul_zero, zero_mul]

/-- A magnitude in units of a lower power of two. -/
theorem shiftLeft_mul_two_zpow (m : Nat) {e e0 : Int} (h : e0 ≤ e) :
    ((m <<< (e - e0).toNat : Nat) : ℚ) * (2 : ℚ) ^ e0 = (m : ℚ) * (2 : ℚ) ^ e := by
  have key : (2 : ℚ) ^ (e - e0).toNat * (2 : ℚ) ^ e0 = (2 : ℚ) ^ e := by
    rw [← zpow_natCast, ← zpow_add₀ two_ne_zero, Int.toNat_of_nonneg (by omega)]
    congr 1
    omega
  rw [Nat.shiftLeft_eq, Nat.cast_mul, Nat.cast_pow, Nat.cast_ofNat, mul_assoc, key]

theorem signedAt_mul_two_zpow (n : Bool) (m : Nat) {e e0 : Int} (h : e0 ≤ e) :
    (signedAt n m e e0 : ℚ) * (2 : ℚ) ^ e0 = ratOf n m e := by
  have key := shiftLeft_mul_two_zpow m h
  cases n
  · rw [ratOf_false, ← key]
    rfl
  · rw [ratOf_true, ← key, show signedAt true m e e0 = -((m <<< (e - e0).toNat : Nat) : Int) from rfl, Int.cast_neg,
      neg_mul]
    rfl

/-- An integer in units of a power of two, as sign and magnitude. -/
theorem ratOf_ofInt (s : Int) (e : Int) : ratOf (decide (s < 0)) s.natAbs e = (s : ℚ) * (2 : ℚ) ^ e := by
  have abs : ((s.natAbs : Nat) : ℚ) = |(s : ℚ)| := by rw [Nat.cast_natAbs, Int.cast_abs]
  unfold ratOf
  rw [abs]
  by_cases h : s < 0
  · have : (s : ℚ) < 0 := by exact_mod_cast h
    rw [abs_of_neg this]
    simp [h]
  · have : (0 : ℚ) ≤ s := by exact_mod_cast Int.not_lt.mp h
    rw [abs_of_nonneg this]
    simp [h]

theorem ratOf_mul (na nb : Bool) (ma mb : Nat) (ea eb : Int) :
    ratOf (na != nb) (ma * mb) (ea + eb) = ratOf na ma ea * ratOf nb mb eb := by
  unfold ratOf
  rw [zpow_add₀ two_ne_zero, Nat.cast_mul]
  cases na <;> cases nb <;> simp <;> ring

/-! ### Sums and products -/

theorem addNum_fin (rdn na nb : Bool) (ma mb : Nat) (ea eb : Int) :
    ∃ n m e, addNum rdn (.fin na ma ea false) (.fin nb mb eb false) = ⟨.fin n m e false, 0⟩ ∧
      ratOf n m e = ratOf na ma ea + ratOf nb mb eb ∧ (m = 0 → n = if ma = 0 ∧ mb = 0 ∧ na = nb then na else rdn) := by
  have sum : ((signedAt na ma ea (min ea eb) + signedAt nb mb eb (min ea eb) : Int) : ℚ) * (2 : ℚ) ^ (min ea eb) =
      ratOf na ma ea + ratOf nb mb eb := by
    rw [Int.cast_add, add_mul, signedAt_mul_two_zpow _ _ (min_le_left _ _), signedAt_mul_two_zpow _ _ (min_le_right _ _)]
  simp only [addNum]
  split
  next zero =>
    rw [zero, Int.cast_zero, zero_mul] at sum
    split
    next both =>
      simp only [Bool.and_eq_true, beq_iff_eq] at both
      obtain ⟨⟨ha, hb⟩, hn⟩ := both
      exact ⟨na, 0, 0, rfl, (ratOf_zero _ _).trans sum, fun _ => (if_pos ⟨ha, hb, hn⟩).symm⟩
    next other =>
      simp only [Bool.and_eq_true, beq_iff_eq, and_assoc] at other
      exact ⟨rdn, 0, 0, rfl, (ratOf_zero _ _).trans sum, fun _ => (if_neg other).symm⟩
  next nonzero =>
    exact ⟨_, _, _, rfl, (ratOf_ofInt _ _).trans sum, fun h => absurd (Int.natAbs_eq_zero.mp h) nonzero⟩

theorem mulNum_fin (na nb : Bool) (ma mb : Nat) (ea eb : Int) :
    mulNum (.fin na ma ea false) (.fin nb mb eb false) = ⟨.fin (na != nb) (ma * mb) (ea + eb) false, 0⟩ := rfl

theorem fmaNum_fin (rdn na nb nc : Bool) (ma mb mc : Nat) (ea eb ec : Int) :
    ∃ n m e, fmaNum rdn (.fin na ma ea false) (.fin nb mb eb false) (.fin nc mc ec false) = ⟨.fin n m e false, 0⟩ ∧
      ratOf n m e = ratOf na ma ea * ratOf nb mb eb + ratOf nc mc ec := by
  obtain ⟨n, m, e, sum, val, -⟩ := addNum_fin rdn (na != nb) nc (ma * mb) mc (ea + eb) ec
  exact ⟨n, m, e, sum, by rw [val, ratOf_mul]⟩

/-! ### Quotients -/

/-- A quotient of naturals and its remainder enclose the exact quotient. -/
theorem div_enclosed (n d : Nat) (hd : 0 < d) :
    (n % d = 0 → ((n / d : Nat) : ℚ) = (n : ℚ) / d) ∧
    (n % d ≠ 0 → ((n / d : Nat) : ℚ) < (n : ℚ) / d) ∧ (n : ℚ) / d < ((n / d + 1 : Nat) : ℚ) := by
  have hq : (0 : ℚ) < d := by exact_mod_cast hd
  have split : d * (n / d) + n % d = n := Nat.div_add_mod n d
  have below : n % d < d := Nat.mod_lt n hd
  refine ⟨fun h => ?_, fun h => ?_, ?_⟩
  · rw [eq_div_iff hq.ne']
    exact_mod_cast (by rw [mul_comm]; omega : n / d * d = n)
  · rw [lt_div_iff₀ hq]
    exact_mod_cast (by rw [mul_comm]; omega : n / d * d < n)
  · rw [div_lt_iff₀ hq]
    exact_mod_cast (by rw [mul_comm, Nat.mul_add]; omega : n < (n / d + 1) * d)

theorem divNum_fin (na nb : Bool) (ma mb : Nat) (ea eb : Int) (hb : mb ≠ 0) :
    ∃ m e r, divNum (.fin na ma ea false) (.fin nb mb eb false) = ⟨.fin (na != nb) m e r, 0⟩ ∧
      (0 < ma → mb < 2 ^ 64 → 2 ^ 64 ≤ m) ∧
      (r = false → ratOf false m e = ratOf false ma ea / ratOf false mb eb) ∧
      (r = true → ratOf false m e < ratOf false ma ea / ratOf false mb eb ∧
        ratOf false ma ea / ratOf false mb eb < ratOf false (m + 1) e) := by
  have hb0 : 0 < mb := Nat.pos_of_ne_zero hb
  have unit : (0 : ℚ) < (2 : ℚ) ^ (ea - eb - 128) := by positivity
  have quotient : ratOf false ma ea / ratOf false mb eb = ((ma <<< 128 : Nat) : ℚ) / mb * (2 : ℚ) ^ (ea - eb - 128) := by
    have hq : (mb : ℚ) ≠ 0 := by exact_mod_cast hb
    have h128 : (2 : ℚ) ^ (128 : Int) = 2 ^ (128 : Nat) := rfl
    simp only [ratOf, Bool.false_eq_true, if_false, one_mul, Nat.shiftLeft_eq, Nat.cast_mul, Nat.cast_pow, Nat.cast_ofNat]
    rw [zpow_sub₀ two_ne_zero, zpow_sub₀ two_ne_zero, h128]
    field_simp
  obtain ⟨exact_, below, above⟩ := div_enclosed (ma <<< 128) mb hb0
  refine ⟨ma <<< 128 / mb, ea - eb - 128, ma <<< 128 % mb != 0, ?_, fun ha hs => ?_, fun h => ?_, fun h => ⟨?_, ?_⟩⟩
  · simp only [divNum, if_neg hb]
  · rw [Nat.le_div_iff_mul_le hb0, Nat.shiftLeft_eq]
    calc 2 ^ 64 * mb ≤ 2 ^ 64 * 2 ^ 64 := Nat.mul_le_mul_left _ hs.le
      _ = 1 * 2 ^ 128 := by norm_num
      _ ≤ ma * 2 ^ 128 := Nat.mul_le_mul_right _ ha
  · rw [quotient, ← exact_ (bne_eq_false_iff_eq.mp h), ratOf_false]
  · rw [quotient, ratOf_false]
    exact mul_lt_mul_of_pos_right (below (bne_iff_ne.mp h)) unit
  · rw [quotient, ratOf_false]
    exact mul_lt_mul_of_pos_right above unit

theorem divNum_zero (na nb : Bool) (ma : Nat) (ea eb : Int) :
    divNum (.fin na ma ea false) (.fin nb 0 eb false) = if ma = 0 then ⟨.nan, flNV⟩ else ⟨.inf (na != nb), flDZ⟩ := by
  simp only [divNum, if_true]

/-! ### Roots -/

/-- Each digit of the root keeps the root from below, and leaves it within the digits still to come. -/
theorem isqrtAux_spec (k : Nat) : ∀ v r, r * r ≤ v → v < (r + 2 ^ k) * (r + 2 ^ k) →
    isqrtAux k v r * isqrtAux k v r ≤ v ∧ v < (isqrtAux k v r + 1) * (isqrtAux k v r + 1) := by
  induction k with
  | zero => intro v r low high; exact ⟨low, high⟩
  | succ k ih =>
    intro v r low high
    rw [isqrtAux]
    split
    next c => exact ih v _ c (by rwa [Nat.add_assoc, ← Nat.two_mul, ← pow_succ'])
    next c => exact ih v r low (Nat.lt_of_not_le c)

theorem isqrt_spec (v : Nat) : isqrt v * isqrt v ≤ v ∧ v < (isqrt v + 1) * (isqrt v + 1) := by
  refine isqrtAux_spec _ v 0 (Nat.zero_le _) ?_
  rw [Nat.zero_add, ← pow_add]
  exact (Nat.lt_log2_self).trans_le (Nat.pow_le_pow_right (by norm_num) (by omega))

theorem le_isqrt (v n : Nat) (h : n * n ≤ v) : n ≤ isqrt v := by
  have high := (isqrt_spec v).2
  by_contra c
  have : isqrt v + 1 ≤ n := by omega
  have := Nat.mul_le_mul this this
  omega

theorem sqrtNum_fin (ma : Nat) (ea : Int) (ha : 0 < ma) :
    ∃ m e r, sqrtNum (.fin false ma ea false) = ⟨.fin false m e r, 0⟩ ∧ 2 ^ 64 ≤ m ∧
      (r = false → ratOf false m e * ratOf false m e = ratOf false ma ea) ∧
      (r = true → ratOf false m e * ratOf false m e < ratOf false ma ea ∧
        ratOf false ma ea < ratOf false (m + 1) e * ratOf false (m + 1) e) := by
  -- the radicand, scaled to an even exponent
  obtain ⟨v, e, hv, hnum, hval⟩ : ∃ (v : Nat) (e : Int), 2 ^ 64 * 2 ^ 64 ≤ v ∧
      sqrtNum (.fin false ma ea false) = ⟨.fin false (isqrt v) e (isqrt v * isqrt v != v), 0⟩ ∧
      ratOf false ma ea = (v : ℚ) * ((2 : ℚ) ^ e * (2 : ℚ) ^ e) := by
    have scaled : ∀ (k : Nat) (e : Int), 128 ≤ k → ea = 2 * e + k → 2 ^ 64 * 2 ^ 64 ≤ ma <<< k ∧
        ratOf false ma ea = ((ma <<< k : Nat) : ℚ) * ((2 : ℚ) ^ e * (2 : ℚ) ^ e) := by
      intro k e hk he
      constructor
      · rw [Nat.shiftLeft_eq, ← pow_add]
        calc 2 ^ (64 + 64) ≤ 2 ^ k := Nat.pow_le_pow_right (by norm_num) hk
          _ ≤ ma * 2 ^ k := Nat.le_mul_of_pos_left _ ha
      · rw [he, Nat.shiftLeft_eq, ← zpow_add₀ two_ne_zero]
        simp only [ratOf, Bool.false_eq_true, if_false, one_mul, Nat.cast_mul, Nat.cast_pow, Nat.cast_ofNat, mul_assoc]
        rw [← zpow_natCast, ← zpow_add₀ two_ne_zero]
        congr 2
        ring
    by_cases odd : ea % 2 = 0
    · obtain ⟨hv, hval⟩ := scaled 128 (ea / 2 - 64) (by norm_num) (by push_cast; omega)
      refine ⟨_, _, hv, ?_, hval⟩
      simp [sqrtNum, odd, ha.ne']
    · obtain ⟨hv, hval⟩ := scaled 129 ((ea - 1) / 2 - 64) (by norm_num) (by push_cast; omega)
      refine ⟨_, _, hv, ?_, hval⟩
      simp [sqrtNum, odd, ha.ne']
  have unit : (0 : ℚ) < (2 : ℚ) ^ e * (2 : ℚ) ^ e := by positivity
  have square : ∀ n : Nat, ratOf false n e * ratOf false n e = ((n * n : Nat) : ℚ) * ((2 : ℚ) ^ e * (2 : ℚ) ^ e) := by
    intro n
    simp only [ratOf, Bool.false_eq_true, if_false]
    push_cast
    ring
  obtain ⟨low, high⟩ := isqrt_spec v
  refine ⟨_, e, _, hnum, le_isqrt v _ hv, fun h => ?_, fun h => ⟨?_, ?_⟩⟩
  · have : isqrt v * isqrt v = v := by simpa using h
    rw [square, this, hval]
  · have : isqrt v * isqrt v < v := lt_of_le_of_ne low (by simpa using h)
    rw [square, hval]
    exact mul_lt_mul_of_pos_right (by exact_mod_cast this) unit
  · rw [square, hval]
    exact mul_lt_mul_of_pos_right (by exact_mod_cast high) unit

/-! ### Comparisons -/

theorem cmp_fin (na nb : Bool) (ma mb : Nat) (ea eb : Int) :
    Num.cmp (.fin na ma ea false) (.fin nb mb eb false) = compare (ratOf na ma ea) (ratOf nb mb eb) := by
  have unit : (0 : ℚ) < (2 : ℚ) ^ (min ea eb) := by positivity
  have ha := signedAt_mul_two_zpow na ma (min_le_left ea eb)
  have hb := signedAt_mul_two_zpow nb mb (min_le_right ea eb)
  show compare (signedAt na ma ea (min ea eb)) (signedAt nb mb eb (min ea eb)) = _
  rw [← ha, ← hb]
  generalize signedAt na ma ea (min ea eb) = i, signedAt nb mb eb (min ea eb) = j
  rcases lt_trichotomy i j with h | h | h
  · rw [compare_lt_iff_lt.mpr h, compare_lt_iff_lt.mpr (mul_lt_mul_of_pos_right (by exact_mod_cast h) unit)]
  · rw [h, compare_eq_iff_eq.mpr rfl, compare_eq_iff_eq.mpr rfl]
  · rw [compare_gt_iff_gt.mpr h, compare_gt_iff_gt.mpr (mul_lt_mul_of_pos_right (by exact_mod_cast h) unit)]

theorem maxNum_fin (na nb : Bool) (ma mb : Nat) (ea eb : Int) :
    maxNum (.fin na ma ea false) (.fin nb mb eb false) =
      if ratOf na ma ea < ratOf nb mb eb ∨ (ratOf na ma ea = ratOf nb mb eb ∧ na = true) then .fin nb mb eb false
      else .fin na ma ea false := by
  simp only [maxNum, Num.isNan, Bool.or_self, Bool.false_eq_true, if_false, cmp_fin, Num.neg?]
  rcases lt_trichotomy (ratOf na ma ea) (ratOf nb mb eb) with h | h | h
  · rw [compare_lt_iff_lt.mpr h, if_pos (.inl h)]
  · rw [compare_eq_iff_eq.mpr h]
    cases na
    · exact (if_neg (by simp [h])).symm
    · exact (if_pos (.inr ⟨h, rfl⟩)).symm
  · rw [compare_gt_iff_gt.mpr h, if_neg (by rintro (c | ⟨c, -⟩) <;> linarith)]

theorem minNum_fin (na nb : Bool) (ma mb : Nat) (ea eb : Int) :
    minNum (.fin na ma ea false) (.fin nb mb eb false) =
      if ratOf na ma ea < ratOf nb mb eb ∨ (ratOf na ma ea = ratOf nb mb eb ∧ na = true) then .fin na ma ea false
      else .fin nb mb eb false := by
  simp only [minNum, Num.isNan, Bool.or_self, Bool.false_eq_true, if_false, cmp_fin, Num.neg?]
  rcases lt_trichotomy (ratOf na ma ea) (ratOf nb mb eb) with h | h | h
  · rw [compare_lt_iff_lt.mpr h, if_pos (.inl h)]
  · rw [compare_eq_iff_eq.mpr h]
    cases na
    · exact (if_neg (by simp [h])).symm
    · exact (if_pos (.inr ⟨h, rfl⟩)).symm
  · rw [compare_gt_iff_gt.mpr h, if_neg (by rintro (c | ⟨c, -⟩) <;> linarith)]

end Sys2Proof.Machine
end

section
/-! PROOFS. Rounding to a floating type (R10, R125, R127, R128).

A pattern without its sign stands for `patVal` of it, and `patVal` rises strictly.  A magnitude is cut at the exponent of its
last kept bit, `roundAt` goes to one of the two neighbours there, and no pattern's value lies between them. -/

namespace Sys2Proof.Machine

open Sys2Proof

/-! ### The values of a floating type -/

/-- The exponent of a subnormal's last bit. -/
def FloatFmt.qmin (f : FloatFmt) : Int := 1 - (f.bias : Int) - f.fbits

/-- The magnitude that a pattern without its sign stands for, where it is finite (R125): `fb` fraction bits, and `q0` the
exponent of a subnormal's last bit. -/
def patVal (fb : Nat) (q0 : Int) (p : Nat) : ℚ :=
  if p / 2 ^ fb = 0 then (p : ℚ) * (2 : ℚ) ^ q0
  else ((p % 2 ^ fb + 2 ^ fb : Nat) : ℚ) * (2 : ℚ) ^ (q0 + ((p / 2 ^ fb : Nat) : Int) - 1)

theorem patVal_nonneg (fb : Nat) (q0 : Int) (p : Nat) : 0 ≤ patVal fb q0 p := by
  unfold patVal
  split <;> positivity

/-- A power of two that is not below another one is a whole multiple of it. -/
theorem zpow_two_eq_mul {q c : Int} (h : q ≤ c) : (2 : ℚ) ^ c = ((2 ^ (c - q).toNat : Nat) : ℚ) * (2 : ℚ) ^ q := by
  rw [Nat.cast_pow, Nat.cast_ofNat, ← zpow_natCast, ← zpow_add₀ two_ne_zero, Int.toNat_of_nonneg (by omega)]
  congr 1
  omega

/-- A finite pattern's value as an integer of at most `fb + 1` bits, full unless it is subnormal. -/
theorem patVal_grid (fb : Nat) (q0 : Int) (p : Nat) : ∃ (k : Nat) (c : Int), patVal fb q0 p = (k : ℚ) * (2 : ℚ) ^ c ∧
    k < 2 ^ (fb + 1) ∧ q0 ≤ c := by
  have two : 2 ^ (fb + 1) = 2 ^ fb + 2 ^ fb := by rw [pow_succ, Nat.mul_two]
  unfold patVal
  split
  next sub =>
    have : p < 2 ^ fb := (Nat.div_eq_zero_iff.mp sub).resolve_left (by positivity)
    exact ⟨p, q0, rfl, by omega, le_refl _⟩
  next norm =>
    have : p % 2 ^ fb < 2 ^ fb := Nat.mod_lt _ (by positivity)
    generalize p / 2 ^ fb = j at norm ⊢
    exact ⟨_, _, rfl, by omega, by omega⟩

/-- Between a multiple of `2^q` and the next one there is no value of the type, where the multiple has all its bits or `q` is
the least exponent. -/
theorem patVal_gap {fb : Nat} {q0 q : Int} {n p : Nat} (hn : q = q0 ∨ 2 ^ fb ≤ n)
    (h : (n : ℚ) * (2 : ℚ) ^ q < patVal fb q0 p) : ((n : ℚ) + 1) * (2 : ℚ) ^ q ≤ patVal fb q0 p := by
  obtain ⟨k, c, hv, hk, hc⟩ := patVal_grid fb q0 p
  rw [hv] at h ⊢
  have unit : (0 : ℚ) < (2 : ℚ) ^ q := by positivity
  by_cases hqc : q ≤ c
  · rw [zpow_two_eq_mul hqc, ← mul_assoc] at h ⊢
    have whole := lt_of_mul_lt_mul_right h unit.le
    refine mul_le_mul_of_nonneg_right ?_ unit.le
    exact_mod_cast Nat.succ_le_of_lt (by exact_mod_cast whole)
  · have full : 2 ^ fb ≤ n := hn.resolve_left (by omega)
    have hcq : c + 1 ≤ q := by omega
    have small : (k : ℚ) ≤ 2 * (n : ℚ) := by
      exact_mod_cast (by rw [pow_succ] at hk; omega : k ≤ 2 * n)
    have grow : (2 : ℚ) ^ c * 2 ≤ (2 : ℚ) ^ q := by
      rw [← zpow_add_one₀ two_ne_zero]
      exact zpow_le_zpow_right₀ (by norm_num) hcq
    have : (k : ℚ) * (2 : ℚ) ^ c ≤ (n : ℚ) * (2 : ℚ) ^ q := by
      calc (k : ℚ) * (2 : ℚ) ^ c ≤ 2 * (n : ℚ) * (2 : ℚ) ^ c := mul_le_mul_of_nonneg_right small (by positivity)
        _ = (n : ℚ) * ((2 : ℚ) ^ c * 2) := by ring
        _ ≤ (n : ℚ) * (2 : ℚ) ^ q := mul_le_mul_of_nonneg_left grow (by positivity)
    exact absurd h (not_lt.mpr this)

/-- A higher pattern stands for a larger magnitude. -/
theorem patVal_strictMono (fb : Nat) (q0 : Int) : StrictMono (patVal fb q0) := by
  refine strictMono_nat_of_lt_succ fun p => ?_
  have unit : ∀ c : Int, (0 : ℚ) < (2 : ℚ) ^ c := fun c => by positivity
  have pos : 0 < 2 ^ fb := by positivity
  have split := Nat.div_add_mod p (2 ^ fb)
  by_cases last : p % 2 ^ fb + 1 = 2 ^ fb
  · -- the fraction is full: the next pattern has the next exponent and an empty fraction
    have next : p + 1 = 2 ^ fb * (p / 2 ^ fb + 1) := by rw [Nat.mul_add]; omega
    have quot : (p + 1) / 2 ^ fb = p / 2 ^ fb + 1 := by rw [next, Nat.mul_div_cancel_left _ pos]
    have rem : (p + 1) % 2 ^ fb = 0 := by rw [next, Nat.mul_mod_right]
    have succVal : patVal fb q0 (p + 1) = ((2 ^ fb : Nat) : ℚ) * (2 : ℚ) ^ (q0 + ((p / 2 ^ fb : Nat) : Int)) := by
      rw [patVal, quot, rem, if_neg (Nat.succ_ne_zero _), Nat.zero_add]
      congr 2
      push_cast
      ring
    rw [succVal, patVal]
    split_ifs with sub
    · rw [sub, Nat.cast_zero, add_zero]
      exact mul_lt_mul_of_pos_right (by exact_mod_cast (Nat.div_eq_zero_iff.mp sub).resolve_left pos.ne') (unit _)
    · rw [show q0 + ((p / 2 ^ fb : Nat) : Int) = (q0 + ((p / 2 ^ fb : Nat) : Int) - 1) + 1 by ring, zpow_add_one₀ two_ne_zero,
        mul_comm ((2 : ℚ) ^ _) 2, ← mul_assoc, add_sub_cancel_right]
      refine mul_lt_mul_of_pos_right ?_ (unit _)
      exact_mod_cast (by omega : p % 2 ^ fb + 2 ^ fb < 2 ^ fb * 2)
  · have low : p % 2 ^ fb + 1 < 2 ^ fb := by have := Nat.mod_lt p pos; omega
    have next : p + 1 = 2 ^ fb * (p / 2 ^ fb) + (p % 2 ^ fb + 1) := by omega
    have quot : (p + 1) / 2 ^ fb = p / 2 ^ fb := by
      rw [next, Nat.mul_add_div pos, Nat.div_eq_of_lt low, Nat.add_zero]
    have rem : (p + 1) % 2 ^ fb = p % 2 ^ fb + 1 := by
      rw [next, Nat.mul_add_mod, Nat.mod_eq_of_lt low]
    rw [patVal, patVal, quot, rem]
    split_ifs
    · exact mul_lt_mul_of_pos_right (by exact_mod_cast Nat.lt_succ_self p) (unit _)
    · exact mul_lt_mul_of_pos_right (by exact_mod_cast (by omega)) (unit _)

/-- The pattern of `n` units of `2^q` (R125): `n` has at most `fb + 1` bits or is the power of two above them. -/
def roundPat (fb : Nat) (q0 q : Int) (n : Nat) : Nat :=
  if n < 2 ^ fb then n else ((q - q0).toNat + 1) * 2 ^ fb + (n - 2 ^ fb)

theorem patVal_roundPat {fb : Nat} {q0 q : Int} {n : Nat} (hq : q0 ≤ q) (hn : n ≤ 2 ^ (fb + 1))
    (full : q = q0 ∨ 2 ^ fb ≤ n) : patVal fb q0 (roundPat fb q0 q n) = (n : ℚ) * (2 : ℚ) ^ q := by
  have pos : 0 < 2 ^ fb := by positivity
  have two : 2 ^ (fb + 1) = 2 ^ fb + 2 ^ fb := by rw [pow_succ, Nat.mul_two]
  unfold roundPat
  split_ifs with sub
  · rw [patVal, if_pos (Nat.div_eq_of_lt sub), full.resolve_right (by omega)]
  · by_cases top : n = 2 ^ (fb + 1)
    · have hp : ((q - q0).toNat + 1) * 2 ^ fb + (n - 2 ^ fb) = ((q - q0).toNat + 2) * 2 ^ fb := by
        rw [top, two, Nat.add_sub_cancel]; ring
      rw [hp, patVal, Nat.mul_div_cancel _ pos, Nat.mul_mod_left, if_neg (by omega), Nat.zero_add, top, pow_succ, Nat.cast_mul,
        mul_assoc, Nat.cast_ofNat, mul_comm (2 : ℚ), ← zpow_add_one₀ two_ne_zero]
      congr 2
      push_cast
      omega
    · have frac : n - 2 ^ fb < 2 ^ fb := by omega
      have quot : (((q - q0).toNat + 1) * 2 ^ fb + (n - 2 ^ fb)) / 2 ^ fb = (q - q0).toNat + 1 := by
        rw [mul_comm, Nat.mul_add_div pos, Nat.div_eq_of_lt frac, Nat.add_zero]
      have rem : (((q - q0).toNat + 1) * 2 ^ fb + (n - 2 ^ fb)) % 2 ^ fb = n - 2 ^ fb := by
        rw [mul_comm, Nat.mul_add_mod, Nat.mod_eq_of_lt frac]
      rw [patVal, quot, rem, if_neg (by omega), Nat.sub_add_cancel (by omega)]
      congr 2
      push_cast
      omega

/-- A pattern decodes to a finite number exactly where its magnitude is at most the largest finite one (R125). -/
theorem decodeFloat_fin (f : FloatFmt) (b : Nat) (h : b % 2 ^ (f.ebits + f.fbits) ≤ f.maxFin) : ∃ k c,
    decodeFloat f false b = .fin (bitsAt b (f.ebits + f.fbits) 1 == 1) k c false ∧
      (k : ℚ) * (2 : ℚ) ^ c = patVal f.fbits f.qmin (b % 2 ^ (f.ebits + f.fbits)) := by
  have expo : bitsAt b f.fbits f.ebits = b % 2 ^ (f.ebits + f.fbits) / 2 ^ f.fbits := by
    rw [bitsAt, Nat.shiftRight_eq_div_pow, Nat.add_comm, pow_add, Nat.mod_mul_right_div_self]
  have frac : bitsAt b 0 f.fbits = b % 2 ^ (f.ebits + f.fbits) % 2 ^ f.fbits := by
    rw [bitsAt, Nat.shiftRight_zero, Nat.mod_mod_of_dvd _ (pow_dvd_pow 2 (Nat.le_add_left _ _))]
  simp only [decodeFloat, h, if_true, expo, frac, Bool.false_eq_true, if_false]
  generalize b % 2 ^ (f.ebits + f.fbits) = p
  split_ifs with sub
  · refine ⟨_, _, rfl, ?_⟩
    rw [patVal, if_pos sub, Nat.mod_eq_of_lt ((Nat.div_eq_zero_iff.mp sub).resolve_left (by positivity))]
    rfl
  · refine ⟨_, _, rfl, ?_⟩
    rw [patVal, if_neg sub]
    congr 2
    simp only [FloatFmt.qmin]
    ring

theorem decodeFloat_not_fin (f : FloatFmt) (b : Nat) (h : f.maxFin < b % 2 ^ (f.ebits + f.fbits)) (n : Bool) (k : Nat) (c : Int) :
    decodeFloat f false b ≠ .fin n k c false := by
  simp only [decodeFloat, if_neg (Nat.not_le_of_lt h)]
  split_ifs <;> exact fun e => nomatch e

/-! ### Rounding to a multiple of a power of two -/

/-- How a magnitude `x` strictly between the neighbours `lo` and `hi` is rounded to `r` (R10). -/
structure RoundsTo (neg : Bool) (rm : Rm) (x lo hi r : ℚ) : Prop where
  above : lo < x
  below : x < hi
  ends : r = lo ∨ r = hi
  rtz : rm = .rtz → r = lo
  rdn : rm = .rdn → r = if neg then hi else lo
  rup : rm = .rup → r = if neg then lo else hi
  near : rm = .rne ∨ rm = .rna → |x - r| ≤ (hi - lo) / 2

/-- The magnitude that a number `m × 2^e`, with its sticky bit, stands for. -/
structure Magnitude (m : Nat) (e : Int) (st : Bool) (x : ℚ) : Prop where
  low : (m : ℚ) * (2 : ℚ) ^ e ≤ x
  high : x < ((m : ℚ) + 1) * (2 : ℚ) ^ e
  exact_ : (m : ℚ) * (2 : ℚ) ^ e = x ↔ st = false

/-- The cut of a magnitude at `2^q`: the kept bits `m / 2^d`, the dropped ones, and a part of a last bit where sticky. -/
theorem magnitude_cut {m : Nat} {e q : Int} {st : Bool} {x : ℚ} (hx : Magnitude m e st x) (hq : e < q) :
    ∃ y : ℚ, x = y * (2 : ℚ) ^ q ∧
      ((m % 2 ^ (q - e).toNat : Nat) : ℚ) / 2 ^ (q - e).toNat ≤ y - ((m >>> (q - e).toNat : Nat) : ℚ) ∧
      y - ((m >>> (q - e).toNat : Nat) : ℚ) < (((m % 2 ^ (q - e).toNat : Nat) : ℚ) + 1) / 2 ^ (q - e).toNat ∧
      (y - ((m >>> (q - e).toNat : Nat) : ℚ) = ((m % 2 ^ (q - e).toNat : Nat) : ℚ) / 2 ^ (q - e).toNat ↔ st = false) := by
  obtain ⟨low, high, ex⟩ := hx
  generalize hd : (q - e).toNat = d
  have unit : (0 : ℚ) < (2 : ℚ) ^ e := by positivity
  have pow : (0 : ℚ) < 2 ^ d := by positivity
  have step : (2 : ℚ) ^ q = 2 ^ d * (2 : ℚ) ^ e := by
    rw [zpow_two_eq_mul hq.le, hd, Nat.cast_pow, Nat.cast_ofNat]
  have split : (m : ℚ) = 2 ^ d * ((m >>> d : Nat) : ℚ) + ((m % 2 ^ d : Nat) : ℚ) := by
    rw [Nat.shiftRight_eq_div_pow]
    exact_mod_cast (Nat.div_add_mod m (2 ^ d)).symm
  generalize ((m >>> d : Nat) : ℚ) = n at split ⊢
  generalize ((m % 2 ^ d : Nat) : ℚ) = r at split ⊢
  rw [split] at low high ex
  have scaled : (x / (2 ^ d * (2 : ℚ) ^ e) - n) * 2 ^ d = x / (2 : ℚ) ^ e - n * 2 ^ d := by
    field_simp
  refine ⟨x / (2 : ℚ) ^ q, ?_, ?_, ?_, ?_⟩
  · field_simp
  all_goals rw [step]
  · rw [div_le_iff₀ pow, scaled, le_sub_iff_add_le, le_div_iff₀ unit]
    linarith
  · rw [lt_div_iff₀ pow, scaled, sub_lt_iff_lt_add, div_lt_iff₀ unit]
    linarith
  · rw [← ex, eq_div_iff pow.ne', scaled, sub_eq_iff_eq_add, div_eq_iff unit.ne', eq_comm]
    ring_nf

theorem roundAt_low {neg : Bool} {m : Nat} {e q : Int} {st : Bool} {rm : Rm} {x : ℚ} (hx : Magnitude m e st x) (hq : q ≤ e)
    (hst : st = false) : (roundAt neg m e st q rm).2 = true ∧ x = ((roundAt neg m e st q rm).1 : ℚ) * (2 : ℚ) ^ q := by
  rw [roundAt, if_pos hq, hst]
  exact ⟨rfl, (hx.exact_.mpr hst).symm.trans (shiftLeft_mul_two_zpow m hq).symm⟩

/-- An exact cut goes nowhere, whatever the mode. -/
theorem roundUp_exact (neg : Bool) (n d : Nat) {rm : Rm} (hrm : ∀ u, rm ≠ .sto u) : roundUp neg n 0 d false rm = false := by
  have pos : 0 < 2 ^ d := by positivity
  cases rm with
  | rne => simp [roundUp, pos.ne]
  | rtz => rfl
  | rdn => simp [roundUp]
  | rup => simp [roundUp]
  | rna => simp [roundUp]
  | sto u => exact absurd rfl (hrm u)

/-- The nearest modes go up from the middle of an interval at the earliest, and stay down up to its middle at the latest. -/
theorem roundUp_near (neg : Bool) (n r d : Nat) (st : Bool) {rm : Rm} (hrm : rm = .rne ∨ rm = .rna)
    (inexact : r ≠ 0 ∨ st = true) :
    (roundUp neg n r d st rm = true → 2 ^ d ≤ 2 * r) ∧
    (roundUp neg n r d st rm = false → 2 * r < 2 ^ d ∨ (2 * r = 2 ^ d ∧ st = false)) := by
  rcases hrm with rfl | rfl
  · simp only [roundUp, Bool.or_eq_true, Bool.or_eq_false_iff, Bool.and_eq_true, Bool.and_eq_false_iff, decide_eq_true_eq,
      decide_eq_false_iff_not, beq_iff_eq, beq_eq_false_iff_ne]
    refine ⟨fun h => by omega, fun ⟨below, tie⟩ => ?_⟩
    by_cases middle : 2 * r = 2 ^ d
    · exact .inr ⟨middle, (tie.resolve_left (absurd middle)).1⟩
    · exact .inl (by omega)
  · have hin : (r != 0 || st) = true := by simpa using inexact
    simp only [roundUp, hin, Bool.and_true, decide_eq_true_eq, decide_eq_false_iff_not]
    exact ⟨fun h => by omega, fun h => .inl (by omega)⟩

/-- What `roundAt` gives above the exponent: the exact multiple, or one of the two neighbours as the mode says. -/
theorem roundAt_high {neg : Bool} {m : Nat} {e q : Int} {st : Bool} {rm : Rm} {x : ℚ} (hx : Magnitude m e st x) (hq : e < q)
    (hrm : ∀ u, rm ≠ .sto u) :
    let r := roundAt neg m e st q rm
    (r.2 = true ∧ x = (r.1 : ℚ) * (2 : ℚ) ^ q) ∨
    (r.2 = false ∧ ∃ n : Nat, (r.1 = n ∨ r.1 = n + 1) ∧
      RoundsTo neg rm x ((n : ℚ) * (2 : ℚ) ^ q) (((n : ℚ) + 1) * (2 : ℚ) ^ q) ((r.1 : ℚ) * (2 : ℚ) ^ q)) := by
  obtain ⟨y, rfl, low, high, ex⟩ := magnitude_cut hx hq
  have unit : (0 : ℚ) < (2 : ℚ) ^ q := by positivity
  have hd : (q - e).toNat ≠ 0 := by omega
  have rem : m % 2 ^ (q - e).toNat < 2 ^ (q - e).toNat := Nat.mod_lt _ (by positivity)
  simp only [roundAt, if_neg (not_le.mpr hq)]
  generalize (q - e).toNat = d at *
  generalize m % 2 ^ d = r at *
  generalize m >>> d = n at *
  have pow : (0 : ℚ) < 2 ^ d := by positivity
  by_cases exact_ : r = 0 ∧ st = false
  · left
    obtain ⟨rfl, rfl⟩ := exact_
    have : y = n := by
      have := ex.mpr rfl
      rw [Nat.cast_zero, zero_div] at this
      linarith
    simp [roundUp_exact neg n d hrm, this]
  · right
    have inexact : r ≠ 0 ∨ st = true := by
      by_contra none
      exact exact_ (by simpa using none)
    have hin : (r != 0 || st) = true := by simpa using inexact
    refine ⟨by simpa using exact_, n, by split <;> simp, ?_⟩
    have above : (n : ℚ) < y := by
      rcases inexact with hr | hs
      · have : (0 : ℚ) < (r : ℚ) / 2 ^ d := div_pos (by exact_mod_cast Nat.pos_of_ne_zero hr) pow
        linarith
      · have : (0 : ℚ) ≤ (r : ℚ) / 2 ^ d := by positivity
        have : y - n ≠ (r : ℚ) / 2 ^ d := fun c => by simp [ex.mp c] at hs
        have := lt_of_le_of_ne low this.symm
        linarith
    have below : y < n + 1 := by
      have : ((r : ℚ) + 1) / 2 ^ d ≤ 1 := by
        rw [div_le_one pow]
        exact_mod_cast rem
      linarith
    have near : rm = .rne ∨ rm = .rna → |y - ((if roundUp neg n r d st rm then n + 1 else n : Nat) : ℚ)| ≤ 1 / 2 := by
      intro hn
      obtain ⟨up, down⟩ := roundUp_near neg n r d st hn inexact
      cases hr : roundUp neg n r d st rm
      · have half : y - n ≤ 1 / 2 := by
          rcases down hr with h | ⟨h, hs⟩
          · have even : 2 ^ d = 2 * 2 ^ (d - 1) := by rw [← pow_succ', Nat.sub_one_add_one hd]
            have : ((r : ℚ) + 1) / 2 ^ d ≤ 1 / 2 := by
              rw [div_le_div_iff₀ pow two_pos]
              exact_mod_cast (by omega : (r + 1) * 2 ≤ 1 * 2 ^ d)
            linarith
          · have : (r : ℚ) / 2 ^ d = 1 / 2 := by
              rw [div_eq_div_iff pow.ne' two_ne_zero]
              exact_mod_cast (by omega : r * 2 = 1 * 2 ^ d)
            linarith [ex.mpr hs]
        rw [if_neg Bool.false_ne_true, abs_of_pos (by linarith)]
        exact half
      · have half : (1 : ℚ) / 2 ≤ (r : ℚ) / 2 ^ d := by
          rw [div_le_div_iff₀ two_pos pow]
          exact_mod_cast (by have := up hr; omega : 1 * 2 ^ d ≤ r * 2)
        rw [if_pos rfl, Nat.cast_add, Nat.cast_one, abs_of_neg (by linarith)]
        linarith
    constructor
    · exact mul_lt_mul_of_pos_right above unit
    · exact mul_lt_mul_of_pos_right below unit
    · split
      · right; push_cast; ring
      · left; rfl
    · rintro rfl
      rw [if_neg (by simp [roundUp])]
    · rintro rfl
      cases neg <;> simp [roundUp, hin]
    · rintro rfl
      cases neg <;> simp [roundUp, hin]
    · intro hn
      rw [← sub_mul, ← sub_mul, abs_mul, abs_of_pos unit, add_sub_cancel_left, one_mul]
      linarith [mul_le_mul_of_nonneg_right (near hn) unit.le]

/-! ### Rounding to a floating type -/

/-- The exponent at which a magnitude is rounded: all its bits are kept, down to a subnormal's last bit (R10). -/
def roundExp (fb : Nat) (q0 : Int) (m : Nat) (e : Int) : Int := max (magLog2 m e - fb) q0

/-- A magnitude lies within the binade of its leading bit. -/
theorem magnitude_binade {m : Nat} {e : Int} {st : Bool} {x : ℚ} (hx : Magnitude m e st x) (hm : m ≠ 0) :
    (2 : ℚ) ^ magLog2 m e ≤ x ∧ x < (2 : ℚ) ^ (magLog2 m e + 1) := by
  have unit : (0 : ℚ) < (2 : ℚ) ^ e := by positivity
  have cut : ∀ k : Nat, (2 : ℚ) ^ ((k : Int) + e) = ((2 ^ k : Nat) : ℚ) * (2 : ℚ) ^ e := by
    intro k
    rw [zpow_add₀ two_ne_zero, zpow_natCast, Nat.cast_pow, Nat.cast_ofNat]
  constructor
  · rw [magLog2, cut]
    refine le_trans (mul_le_mul_of_nonneg_right ?_ unit.le) hx.low
    exact_mod_cast Nat.log2_self_le hm
  · rw [magLog2, show (Nat.log2 m : Int) + e + 1 = ((Nat.log2 m + 1 : Nat) : Int) + e by push_cast; ring, cut]
    refine lt_of_lt_of_le hx.high (mul_le_mul_of_nonneg_right ?_ unit.le)
    exact_mod_cast (Nat.lt_log2_self : m < 2 ^ (Nat.log2 m + 1))

/-- A multiple of `2^q` that is at most the magnitude has at most `fb + 1` bits. -/
theorem multiple_lt {m : Nat} {e : Int} {st : Bool} {x : ℚ} {fb : Nat} {q0 : Int} (hx : Magnitude m e st x)
    (hm : m ≠ 0) {n : Nat} (h : (n : ℚ) * (2 : ℚ) ^ roundExp fb q0 m e ≤ x) : n < 2 ^ (fb + 1) := by
  have hq : magLog2 m e - fb ≤ roundExp fb q0 m e := le_max_left _ _
  have top := (magnitude_binade hx hm).2
  have wide : (2 : ℚ) ^ (magLog2 m e + 1) ≤ ((2 ^ (fb + 1) : Nat) : ℚ) * (2 : ℚ) ^ roundExp fb q0 m e := by
    rw [Nat.cast_pow, Nat.cast_ofNat, ← zpow_natCast, ← zpow_add₀ two_ne_zero]
    exact zpow_le_zpow_right₀ (by norm_num) (by push_cast; omega)
  exact_mod_cast lt_of_mul_lt_mul_right (lt_of_le_of_lt h (lt_of_lt_of_le top wide)) (by positivity)

/-- A multiple of `2^q` whose next one is above the magnitude has all its bits, unless `q` is the least exponent. -/
theorem multiple_full {m : Nat} {e : Int} {st : Bool} {x : ℚ} {fb : Nat} {q0 : Int} (hx : Magnitude m e st x)
    (hm : m ≠ 0) {n : Nat} (h : x < ((n : ℚ) + 1) * (2 : ℚ) ^ roundExp fb q0 m e) : roundExp fb q0 m e = q0 ∨ 2 ^ fb ≤ n := by
  have bottom := (magnitude_binade hx hm).1
  rcases le_total (magLog2 m e - fb) q0 with hl | hl
  · exact .inl (max_eq_right hl)
  · have wide : ((2 ^ fb : Nat) : ℚ) * (2 : ℚ) ^ roundExp fb q0 m e = (2 : ℚ) ^ magLog2 m e := by
      rw [Nat.cast_pow, Nat.cast_ofNat, ← zpow_natCast, ← zpow_add₀ two_ne_zero, roundExp, max_eq_left hl]
      congr 1
      ring
    have := lt_of_mul_lt_mul_right (lt_of_le_of_lt (wide.le.trans bottom) h) (by positivity)
    exact .inr (by exact_mod_cast Nat.lt_succ_iff.mp (by exact_mod_cast this))

/-- A cut at `2^q` into a number of units and a mark of exactness: the units fit, and they are exact or faithful. -/
structure CutAt (neg : Bool) (rm : Rm) (x : ℚ) (fb : Nat) (q0 q : Int) (r : Nat × Bool) : Prop where
  fits : r.1 ≤ 2 ^ (fb + 1)
  full : q = q0 ∨ 2 ^ fb ≤ r.1
  near : (r.2 = true ∧ x = (r.1 : ℚ) * (2 : ℚ) ^ q) ∨
    (r.2 = false ∧ ∃ n : Nat, (q = q0 ∨ 2 ^ fb ≤ n) ∧
      RoundsTo neg rm x ((n : ℚ) * (2 : ℚ) ^ q) (((n : ℚ) + 1) * (2 : ℚ) ^ q) ((r.1 : ℚ) * (2 : ℚ) ^ q))

/-- What `roundAt` makes of a magnitude at its rounding exponent. -/
theorem cutAt_roundAt {neg : Bool} {m : Nat} {e : Int} {st : Bool} {rm : Rm} {x : ℚ} {fb : Nat} {q0 : Int}
    (hx : Magnitude m e st x) (hm : m ≠ 0) (hst : st = true → 2 ^ (fb + 1) ≤ m) (hrm : ∀ u, rm ≠ .sto u) :
    CutAt neg rm x fb q0 (roundExp fb q0 m e) (roundAt neg m e st (roundExp fb q0 m e) rm) := by
  have few := fun n => multiple_lt (fb := fb) (q0 := q0) hx hm (n := n)
  have full := fun n => multiple_full (fb := fb) (q0 := q0) hx hm (n := n)
  have hq : magLog2 m e - fb ≤ roundExp fb q0 m e := le_max_left _ _
  generalize roundExp fb q0 m e = q at few full hq ⊢
  have unit : (0 : ℚ) < (2 : ℚ) ^ q := by positivity
  have exactCase : ∀ r : Nat × Bool, r.2 = true → x = (r.1 : ℚ) * (2 : ℚ) ^ q → CutAt neg rm x fb q0 q r :=
    fun r he hv => ⟨(few _ hv.ge).le, full _ (by rw [hv, add_mul, one_mul]; linarith), .inl ⟨he, hv⟩⟩
  by_cases deep : e < q
  · rcases roundAt_high (neg := neg) hx deep hrm with ⟨he, hv⟩ | ⟨hi, n, hn, near⟩
    · exact exactCase _ he hv
    · have hfew := few n near.above.le
      have hfull := full n near.below
      exact ⟨by omega, by omega, .inr ⟨hi, n, hfull, near⟩⟩
  · have clean : st = false := by
      by_contra sticky
      have long : fb + 1 ≤ Nat.log2 m := (Nat.le_log2 hm).mpr (hst (by simpa using sticky))
      simp only [magLog2] at hq
      omega
    obtain ⟨he, hv⟩ := roundAt_low (neg := neg) (rm := rm) hx (not_lt.mp deep) clean
    exact exactCase _ he hv

/-- The bit of the sign in a pattern of a floating type. -/
def FloatFmt.signBit (f : FloatFmt) (neg : Bool) : Nat := if neg then 2 ^ (f.ebits + f.fbits) else 0

/-- The multiple of its last kept bit that a nonzero magnitude rounds to, and whether that is exact. -/
def FloatFmt.cut (f : FloatFmt) (neg : Bool) (m : Nat) (e : Int) (st : Bool) (rm : Rm) : Nat × Bool :=
  roundAt neg m e st (roundExp f.fbits f.qmin m e) rm

/-- The pattern without its sign that a nonzero magnitude rounds to, before the range is looked at. -/
def FloatFmt.rounded (f : FloatFmt) (neg : Bool) (m : Nat) (e : Int) (st : Bool) (rm : Rm) : Nat :=
  roundPat f.fbits f.qmin (roundExp f.fbits f.qmin m e) (f.cut neg m e st rm).1

/-- The rounding of a nonzero magnitude where no subnormal is flushed. -/
theorem roundFloat_eq (f : FloatFmt) (ieee clips neg st : Bool) (rm : Rm) {m : Nat} (e : Int) (hm : m ≠ 0) : ∃ tiny : Bool,
    roundFloat f ieee clips false rm (.fin neg m e st) =
      if f.maxFin < f.rounded neg m e st rm then
        if overflowsToInf neg rm then writeInf f ieee clips neg (flOF ||| flNX)
        else ⟨f.signBit neg + f.maxFin, flOF ||| flNX, false⟩
      else if (f.cut neg m e st rm).2 then ⟨f.signBit neg + f.rounded neg m e st rm, 0, false⟩
      else ⟨f.signBit neg + f.rounded neg m e st rm, if tiny then flUF ||| flNX else flNX, false⟩ := by
  have hm' : (m == 0) = false := by simpa using hm
  simp only [roundFloat, hm', Bool.false_and, Bool.and_false, Bool.false_eq_true, if_false]
  exact ⟨_, rfl⟩

theorem getLsbD_of_nx : (flOF ||| flNX : Flags).getLsbD 2 = true := by decide

theorem getLsbD_of_nx_sat : (flOF ||| flNX ||| flSAT : Flags).getLsbD 2 = true := by decide

theorem getLsbD_inexact (tiny : Bool) : (if tiny then flUF ||| flNX else flNX : Flags).getLsbD 0 = true := by
  cases tiny <;> decide

/-- The flags of an overflow hold OF. -/
theorem writeInf_flags (f : FloatFmt) (ieee clips neg : Bool) :
    (writeInf f ieee clips neg (flOF ||| flNX)).flags.getLsbD 2 = true := by
  unfold writeInf
  extract_lets sg
  split <;> split
  · exact getLsbD_of_nx_sat
  · exact getLsbD_of_nx
  · exact getLsbD_of_nx
  · exact getLsbD_of_nx_sat

/-- Beyond the largest finite value a rounding sets OF. -/
theorem roundFloat_overflow {f : FloatFmt} {ieee clips neg st : Bool} {rm : Rm} {m : Nat} {e : Int} (hm : m ≠ 0)
    (h : f.maxFin < f.rounded neg m e st rm) :
    (roundFloat f ieee clips false rm (.fin neg m e st)).flags.getLsbD 2 = true := by
  obtain ⟨tiny, eq⟩ := roundFloat_eq f ieee clips neg st rm e hm
  rw [eq, if_pos h]
  split
  · exact writeInf_flags f ieee clips neg
  · exact getLsbD_of_nx

/-- Within its range a rounding stores the pattern, and sets NX where it is not exact. -/
theorem roundFloat_finite {f : FloatFmt} {ieee clips neg st : Bool} {rm : Rm} {m : Nat} {e : Int} (hm : m ≠ 0)
    (h : f.rounded neg m e st rm ≤ f.maxFin) :
    let r := roundFloat f ieee clips false rm (.fin neg m e st)
    r.bits = f.signBit neg + f.rounded neg m e st rm ∧
    ((f.cut neg m e st rm).2 = true → r.flags = 0) ∧ ((f.cut neg m e st rm).2 = false → r.flags.getLsbD 0 = true) := by
  obtain ⟨tiny, eq⟩ := roundFloat_eq f ieee clips neg st rm e hm
  simp only [eq, if_neg (not_lt.mpr h)]
  cases (f.cut neg m e st rm).2
  · exact ⟨rfl, nofun, fun _ => getLsbD_inexact tiny⟩
  · exact ⟨rfl, fun _ => rfl, nofun⟩

/-- What `round` makes of a magnitude that a value of the type has: that value, with no flag. -/
theorem roundFloat_exact {f : FloatFmt} {ieee clips neg st : Bool} {rm : Rm} {m : Nat} {e : Int} {x : ℚ} {p : Nat}
    (hx : Magnitude m e st x) (hm : m ≠ 0) (hst : st = true → 2 ^ (f.fbits + 1) ≤ m) (hrm : ∀ u, rm ≠ .sto u)
    (hp : p ≤ f.maxFin) (hv : x = patVal f.fbits f.qmin p) :
    let r := roundFloat f ieee clips false rm (.fin neg m e st)
    r.bits = f.signBit neg + p ∧ r.flags = 0 := by
  obtain ⟨fits, full, near⟩ := cutAt_roundAt (neg := neg) (q0 := f.qmin) hx hm hst hrm
  rcases near with ⟨exact_, value⟩ | ⟨-, n, hn, between⟩
  · have same : f.rounded neg m e st rm = p := (patVal_strictMono f.fbits f.qmin).injective
      ((patVal_roundPat (le_max_right _ _) fits full).trans (value.symm.trans hv))
    obtain ⟨bits, clean, -⟩ := roundFloat_finite (ieee := ieee) (clips := clips) hm (same.symm ▸ hp)
    exact ⟨same ▸ bits, clean exact_⟩
  · have gap := patVal_gap hn (hv ▸ between.above)
    exact absurd between.below (not_lt.mpr (hv ▸ gap))

/-- What `round` makes of any other magnitude, where it does not overflow: a neighbour as the mode says, and NX. -/
theorem roundFloat_inexact {f : FloatFmt} {ieee clips neg st : Bool} {rm : Rm} {m : Nat} {e : Int} {x : ℚ}
    (hx : Magnitude m e st x) (hm : m ≠ 0) (hst : st = true → 2 ^ (f.fbits + 1) ≤ m) (hrm : ∀ u, rm ≠ .sto u)
    (hv : ∀ p ≤ f.maxFin, x ≠ patVal f.fbits f.qmin p)
    (hof : (roundFloat f ieee clips false rm (.fin neg m e st)).flags.getLsbD 2 = false) :
    let r := roundFloat f ieee clips false rm (.fin neg m e st)
    r.flags.getLsbD 0 = true ∧ ∃ p ≤ f.maxFin, r.bits = f.signBit neg + p ∧ ∃ lo hi, 0 ≤ lo ∧
      RoundsTo neg rm x lo hi (patVal f.fbits f.qmin p) ∧
      ∀ p', lo < patVal f.fbits f.qmin p' → hi ≤ patVal f.fbits f.qmin p' := by
  obtain ⟨fits, full, near⟩ := cutAt_roundAt (neg := neg) (q0 := f.qmin) hx hm hst hrm
  have value : patVal f.fbits f.qmin (f.rounded neg m e st rm) = _ := patVal_roundPat (le_max_right _ _) fits full
  have inRange : f.rounded neg m e st rm ≤ f.maxFin := by
    by_contra beyond
    rw [roundFloat_overflow hm (not_le.mp beyond)] at hof
    cases hof
  obtain ⟨bits, -, nx⟩ := roundFloat_finite (ieee := ieee) (clips := clips) hm inRange
  rcases near with ⟨-, exact_⟩ | ⟨inexact, n, hn, between⟩
  · exact absurd (exact_.trans value.symm) (hv _ inRange)
  · exact ⟨nx inexact, _, inRange, bits, _, _, by positivity, value ▸ between, fun p' => patVal_gap hn⟩

/-! ### The elements of a floating type and the statement -/

/-- What the statement needs of a floating type's layout. -/
theorem fmt_layout {t : ElemTy} {f : FloatFmt} (h : t.fmt? = some f) :
    t.width = f.ebits + f.fbits + 1 ∧ f.maxFin < 2 ^ (f.ebits + f.fbits) ∧ f.fbits + 1 ≤ 64 := by
  cases t <;> cases h <;> decide

theorem decodeElem_float {t : ElemTy} {f : FloatFmt} (h : t.fmt? = some f) (b : Nat) :
    decodeElem t false b = decodeFloat f false b := by
  simp only [decodeElem, h, Bool.false_and]

theorem roundElem_float {t : ElemTy} {f : FloatFmt} (h : t.fmt? = some f) (ieee : Bool) (rm : Rm) (v : Num) :
    roundElem t ieee false rm v = roundFloat f ieee (t == .e4m3 || t == .e5m2) false rm v := by
  simp only [roundElem, h, Bool.false_and]

/-- A value with the sign of a rounding. -/
def withSign (neg : Bool) (y : ℚ) : ℚ := (if neg = true then -1 else 1) * y

theorem withSign_false (y : ℚ) : withSign false y = y := one_mul y

theorem withSign_true (y : ℚ) : withSign true y = -y := neg_one_mul y

theorem abs_withSign (neg : Bool) (y : ℚ) : |withSign neg y| = |y| := by
  cases neg
  · rw [withSign_false]
  · rw [withSign_true, abs_neg]

/-- `b` is the pattern of an element that stands for the finite value `q`. -/
def IsElem (t : ElemTy) (b : Nat) (q : ℚ) : Prop :=
  b < 2 ^ t.width ∧ ∃ n k c, decodeElem t false b = .fin n k c false ∧ q = ratOf n k c

theorem signBit_mod (f : FloatFmt) (neg : Bool) {p : Nat} (h : p < 2 ^ (f.ebits + f.fbits)) :
    (f.signBit neg + p) % 2 ^ (f.ebits + f.fbits) = p ∧ (bitsAt (f.signBit neg + p) (f.ebits + f.fbits) 1 == 1) = neg := by
  have pos : 0 < 2 ^ (f.ebits + f.fbits) := by positivity
  cases neg
  · rw [FloatFmt.signBit, if_neg Bool.false_ne_true, Nat.zero_add, bitsAt, Nat.shiftRight_eq_div_pow, Nat.div_eq_of_lt h]
    exact ⟨Nat.mod_eq_of_lt h, rfl⟩
  · rw [FloatFmt.signBit, if_pos rfl, bitsAt, Nat.shiftRight_eq_div_pow, Nat.add_div_left _ pos, Nat.div_eq_of_lt h,
      Nat.add_mod_left, Nat.mod_eq_of_lt h]
    exact ⟨rfl, rfl⟩

/-- A finite pattern with its sign is an element. -/
theorem isElem_pattern {t : ElemTy} {f : FloatFmt} (ht : t.fmt? = some f) (neg : Bool) {p : Nat} (hp : p ≤ f.maxFin) :
    IsElem t (f.signBit neg + p) (withSign neg (patVal f.fbits f.qmin p)) := by
  obtain ⟨width, finite, -⟩ := fmt_layout ht
  obtain ⟨mag, sign⟩ := signBit_mod f neg (lt_of_le_of_lt hp finite)
  obtain ⟨k, c, decoded, value⟩ := decodeFloat_fin f (f.signBit neg + p) (mag.symm ▸ hp)
  rw [sign] at decoded
  rw [mag] at value
  refine ⟨?_, neg, k, c, (decodeElem_float ht _).trans decoded, ?_⟩
  · rw [width, pow_succ]
    cases neg <;> simp only [FloatFmt.signBit, Bool.false_eq_true, if_true, if_false] <;> omega
  · rw [ratOf, mul_assoc, value]
    rfl

/-- The magnitude of an element is the value of a finite pattern. -/
theorem IsElem.abs_eq {t : ElemTy} {f : FloatFmt} (ht : t.fmt? = some f) {b : Nat} {q : ℚ} (h : IsElem t b q) :
    ∃ p ≤ f.maxFin, |q| = patVal f.fbits f.qmin p := by
  obtain ⟨-, n, k, c, decoded, rfl⟩ := h
  rw [decodeElem_float ht] at decoded
  by_cases fin : b % 2 ^ (f.ebits + f.fbits) ≤ f.maxFin
  · obtain ⟨k', c', decoded', value⟩ := decodeFloat_fin f b fin
    rw [decoded] at decoded'
    cases decoded'
    refine ⟨_, fin, ?_⟩
    rw [← value, ratOf, mul_assoc, abs_mul, abs_of_nonneg (a := (k : ℚ) * _) (by positivity)]
    split <;> simp
  · exact absurd decoded (decodeFloat_not_fin f b (not_le.mp fin) n k c)

/-- No value lies strictly between the two neighbours. -/
theorem outside_of_gap {fb : Nat} {q0 : Int} {lo hi w : ℚ} {p : Nat} (nonneg : 0 ≤ lo)
    (gap : ∀ p', lo < patVal fb q0 p' → hi ≤ patVal fb q0 p') (hw : |w| = patVal fb q0 p) : w ≤ lo ∨ hi ≤ w := by
  by_cases h : w ≤ lo
  · exact .inl h
  · have pos : 0 ≤ w := nonneg.trans (not_le.mp h).le
    rw [abs_of_nonneg pos] at hw
    exact .inr (hw ▸ gap p (hw ▸ not_le.mp h))

/-- A value outside the neighbours lies not between the magnitude and what it is rounded to. -/
theorem RoundsTo.not_between {neg : Bool} {rm : Rm} {x lo hi r w : ℚ} (h : RoundsTo neg rm x lo hi r) (hw : w ≤ lo ∨ hi ≤ w) :
    ¬ (x < w ∧ w < r) ∧ ¬ (r < w ∧ w < x) := by
  have above := h.above
  have below := h.below
  have within : lo ≤ r ∧ r ≤ hi := by rcases h.ends with e | e <;> constructor <;> linarith
  constructor
  · rintro ⟨up, down⟩
    rcases hw with o | o <;> linarith
  · rintro ⟨up, down⟩
    rcases hw with o | o <;> linarith

/-- A value outside the neighbours is not nearer than what the nearest modes give. -/
theorem RoundsTo.nearest {neg : Bool} {rm : Rm} {x lo hi r w : ℚ} (h : RoundsTo neg rm x lo hi r) (hrm : rm = .rne ∨ rm = .rna)
    (hw : w ≤ lo ∨ hi ≤ w) : |x - r| ≤ |x - w| := by
  have above := h.above
  have below := h.below
  have near := h.near hrm
  rcases h.ends with rfl | rfl
  · rw [abs_of_pos (by linarith)] at near ⊢
    rcases hw with o | o
    · exact le_trans (by linarith) (le_abs_self _)
    · exact le_trans (by linarith) (neg_le_abs _)
  · rw [abs_of_neg (by linarith)] at near ⊢
    rcases hw with o | o
    · exact le_trans (by linarith) (le_abs_self _)
    · exact le_trans (by linarith) (neg_le_abs _)

/-- An element, and its negation, lie outside two neighbours. -/
def Outside (lo hi w : ℚ) : Prop := (w ≤ lo ∨ hi ≤ w) ∧ (-w ≤ lo ∨ hi ≤ -w)

theorem RoundsTo.signed_not_between {neg : Bool} {rm : Rm} {x lo hi r w : ℚ} (h : RoundsTo neg rm x lo hi r)
    (hw : Outside lo hi w) :
    ¬ (withSign neg x < w ∧ w < withSign neg r) ∧ ¬ (withSign neg r < w ∧ w < withSign neg x) := by
  cases neg
  · rw [withSign_false, withSign_false]
    exact h.not_between hw.1
  · rw [withSign_true, withSign_true]
    obtain ⟨up, down⟩ := h.not_between hw.2
    exact ⟨fun ⟨h1, h2⟩ => down ⟨by linarith, by linarith⟩, fun ⟨h1, h2⟩ => up ⟨by linarith, by linarith⟩⟩

theorem RoundsTo.signed_nearest {neg : Bool} {rm : Rm} {x lo hi r w : ℚ} (h : RoundsTo neg rm x lo hi r)
    (hrm : rm = .rne ∨ rm = .rna) (hw : Outside lo hi w) : |withSign neg x - withSign neg r| ≤ |withSign neg x - w| := by
  cases neg
  · rw [withSign_false, withSign_false]
    exact h.nearest hrm hw.1
  · rw [withSign_true, withSign_true, show -x - -r = -(x - r) by ring, show -x - w = -(x - -w) by ring, abs_neg, abs_neg]
    exact h.nearest hrm hw.2

theorem RoundsTo.rdn_lt {neg : Bool} {x lo hi r : ℚ} (h : RoundsTo neg .rdn x lo hi r) : withSign neg r < withSign neg x := by
  have hr := h.rdn rfl
  cases neg
  · rw [withSign_false, withSign_false, hr]
    exact h.above
  · rw [withSign_true, withSign_true, hr]
    exact neg_lt_neg h.below

theorem RoundsTo.lt_rup {neg : Bool} {x lo hi r : ℚ} (h : RoundsTo neg .rup x lo hi r) : withSign neg x < withSign neg r := by
  have hr := h.rup rfl
  cases neg
  · rw [withSign_false, withSign_false, hr]
    exact h.below
  · rw [withSign_true, withSign_true, hr]
    exact neg_lt_neg h.above

theorem RoundsTo.rtz_lt {neg : Bool} {x lo hi r : ℚ} (h : RoundsTo neg .rtz x lo hi r) (hr : 0 ≤ r) :
    |withSign neg r| < |withSign neg x| := by
  have below : r < x := h.rtz rfl ▸ h.above
  rw [abs_withSign, abs_withSign, abs_of_nonneg hr, abs_of_pos (lt_of_le_of_lt hr below)]
  exact below

/-- The magnitude that the statement's hypotheses describe. -/
theorem magnitude_of {m : Nat} {e : Int} {st : Bool} {x : ℚ} (hfin : st = false → x = (m : ℚ) * (2 : ℚ) ^ e)
    (hst : st = true → 2 ^ 64 ≤ m ∧ (m : ℚ) * (2 : ℚ) ^ e < x ∧ x < ((m : ℚ) + 1) * (2 : ℚ) ^ e) : Magnitude m e st x := by
  have unit : (0 : ℚ) < (2 : ℚ) ^ e := by positivity
  cases st
  · have hx := hfin rfl
    exact ⟨hx.ge, by linarith, ⟨fun _ => rfl, fun _ => hx.symm⟩⟩
  · obtain ⟨-, low, high⟩ := hst rfl
    exact ⟨low.le, high, ⟨fun h => absurd h low.ne, nofun⟩⟩

/-- Rounding to a floating type: a value of the type is stored as it is. -/
theorem roundElem_exact {t : ElemTy} {f : FloatFmt} {ieee neg st : Bool} {rm : Rm} {m : Nat} {e : Int} {x : ℚ} {b : Nat}
    (ht : t.fmt? = some f) (hm : m ≠ 0) (hx : Magnitude m e st x) (pos : 0 < x) (hst : st = true → 2 ^ (f.fbits + 1) ≤ m)
    (hrm : ∀ u, rm ≠ .sto u) (hb : IsElem t b (withSign neg x)) :
    let r := roundElem t ieee false rm (.fin neg m e st)
    IsElem t r.bits (withSign neg x) ∧ r.flags = 0 := by
  obtain ⟨p, hp, value⟩ := hb.abs_eq ht
  have value : x = patVal f.fbits f.qmin p := by
    rw [← value, abs_withSign, abs_of_pos pos]
  obtain ⟨bits, flags⟩ := roundFloat_exact (ieee := ieee) (clips := t == .e4m3 || t == .e5m2) (neg := neg) hx hm hst hrm hp value
  simp only [roundElem_float ht]
  refine ⟨?_, flags⟩
  rw [bits, value]
  exact isElem_pattern ht neg hp

/-- Rounding to a floating type: any other magnitude goes to a neighbour as the mode says, and sets NX. -/
theorem roundElem_inexact {t : ElemTy} {f : FloatFmt} {ieee neg st : Bool} {rm : Rm} {m : Nat} {e : Int} {x : ℚ}
    (ht : t.fmt? = some f) (hm : m ≠ 0) (hx : Magnitude m e st x) (hst : st = true → 2 ^ (f.fbits + 1) ≤ m)
    (hrm : ∀ u, rm ≠ .sto u) (hb : ∀ b, ¬ IsElem t b (withSign neg x))
    (hof : (roundElem t ieee false rm (.fin neg m e st)).flags.getLsbD 2 = false) :
    let r := roundElem t ieee false rm (.fin neg m e st)
    r.flags.getLsbD 0 = true ∧ ∃ R lo hi, 0 ≤ R ∧ IsElem t r.bits (withSign neg R) ∧
      RoundsTo neg rm x lo hi R ∧ ∀ b w, IsElem t b w → Outside lo hi w := by
  have none : ∀ p ≤ f.maxFin, x ≠ patVal f.fbits f.qmin p := fun p hp value => hb _ (value ▸ isElem_pattern ht neg hp)
  simp only [roundElem_float ht] at hof ⊢
  obtain ⟨nx, p, hp, bits, lo, hi, nonneg, rounds, gap⟩ := roundFloat_inexact hx hm hst hrm none hof
  refine ⟨nx, _, lo, hi, patVal_nonneg _ _ p, ?_, rounds, fun b w hw => ?_⟩
  · rw [bits]
    exact isElem_pattern ht neg hp
  · obtain ⟨p', -, value⟩ := hw.abs_eq ht
    exact ⟨outside_of_gap nonneg gap value, outside_of_gap nonneg gap ((abs_neg w).trans value)⟩

theorem sqrtNum_neg (m : Nat) (e : Int) (h : 0 < m) : sqrtNum (.fin true m e false) = ⟨.nan, flNV⟩ :=
  if_neg h.ne'

theorem sqrtNum_zero (n : Bool) (e : Int) : sqrtNum (.fin n 0 e false) = ⟨.fin n 0 0 false, 0⟩ := rfl

/-- Settles O37: the exact operations by their rational values, and the rounding by the value of the pattern it stores. -/
theorem laneValues : Obligations.LaneValues := by
  constructor
  · intro val rdn na nb nc ma mb mc ea eb ec a b c
    refine ⟨addNum_fin rdn na nb ma mb ea eb, ⟨_, _, _, mulNum_fin na nb ma mb ea eb, rfl, ratOf_mul na nb ma mb ea eb⟩,
      fmaNum_fin rdn na nb nc ma mb mc ea eb ec, divNum_fin na nb ma mb ea eb, ?_, ?_, ?_, ?_,
      maxNum_fin na nb ma mb ea eb, minNum_fin na nb ma mb ea eb⟩
    · rintro rfl
      exact divNum_zero na nb ma ea eb
    · rintro ha rfl
      exact sqrtNum_fin ma ea ha
    · rintro ha rfl
      exact sqrtNum_neg ma ea ha
    · rintro rfl
      exact sqrtNum_zero na ea
  · intro t f ieee rm neg m e st x ht hm hrm hfin hst v r is
    have hx := magnitude_of hfin hst
    have hm' : m ≠ 0 := hm.ne'
    have pos : 0 < x := lt_of_lt_of_le (by positivity) hx.low
    have wide : st = true → 2 ^ (f.fbits + 1) ≤ m := fun h =>
      (Nat.pow_le_pow_right two_pos (fmt_layout ht).2.2).trans (hst h).1
    constructor
    · intro b hb
      obtain ⟨elem, flags⟩ := roundElem_exact (ieee := ieee) ht hm' hx pos wide hrm hb
      exact ⟨v, elem, rfl, flags⟩
    · intro hb hof
      obtain ⟨nx, R, lo, hi, nonneg, elem, rounds, outside⟩ := roundElem_inexact ht hm' hx wide hrm hb hof
      refine ⟨nx, _, elem, fun b w hw => rounds.signed_not_between (outside b w hw), ?_, ?_, ?_,
        fun h b w hw => rounds.signed_nearest h (outside b w hw)⟩
      · rintro rfl
        exact rounds.rtz_lt nonneg
      · rintro rfl
        exact rounds.rdn_lt
      · rintro rfl
        exact rounds.lt_rup

end Sys2Proof.Machine
end

section
/-! PROOFS. The machine after reset, and the bank of a shard that starts (R22, R37, R38, R303). -/

namespace Sys2Proof.Machine

open Sys2Proof

/-! ### Reset -/

@[simp] theorem vget_replicate {α : Type} (n i : Nat) (x d : α) :
    vget (Vector.replicate n x) i d = if i < n then x else d := by
  simp [vget]

theorem vget_ofFn {α : Type} {n : Nat} (f : Fin n → α) (i : Nat) (d : α) (h : i < n) : vget (Vector.ofFn f) i d = f ⟨i, h⟩ := by
  simp [vget, h]

/-- Every context is FREE after reset, and so is one that the device does not have. -/
@[simp] theorem reset_ctxAt (x : Nat) : State.reset.ctxAt x = .reset := by
  simp [State.ctxAt, State.reset]

theorem reset_cellAt (c : Nat) (h : c < 256) : State.reset.cellAt c = .reset c :=
  vget_ofFn _ c _ h

theorem reset_memGet (k : Nat) : memGet State.reset.mem k = 0 := rfl

/-! ### The launch of a shard -/

section

variable (c : Ctx) (k : Kernel) (g : Group) (n t r : Nat)

/-- A launch writes a1 and no other register of the A stream's files (R37, R303). -/
theorem shardBank_af : (shardBank c k g n t).af = (Bank.reset.writeA 1 g.args).af := rfl

/-- A launch writes none of the X stream's files (R37). -/
theorem shardBank_xf : (shardBank c k g n t).xf = Bank.reset.xf := rfl

theorem readA_shardBank : (shardBank c k g n t).readA r = if r = 1 then g.args else 0 := by
  have zero : Bank.reset.readA r = 0 := by simp [Bank.readA, Bank.reset]
  have written := readA_writeA Bank.reset 1 r g.args (by decide)
  rw [show (shardBank c k g n t).readA r = (Bank.reset.writeA 1 g.args).readA r from rfl, written, zero]
  by_cases h : r = 0 <;> simp [h]

theorem readLc_shardBank : (shardBank c k g n t).readLc r = 0 := by
  simp [Bank.readLc, shardBank_af, Bank.reset]

theorem readSd_shardBank : (shardBank c k g n t).readSd r = 0 := by
  simp [Bank.readSd, shardBank_af, Bank.reset]

theorem readX_shardBank : (shardBank c k g n t).readX r = 0 := by
  simp [Bank.readX, shardBank_xf, Bank.reset]

theorem readP_shardBank : (shardBank c k g n t).readP r = if r = 0 then BitVec.allOnes 256 else 0 := by
  simp [Bank.readP, shardBank_xf, Bank.reset]

theorem tags_shardBank (h : r < 32) : vget (shardBank c k g n t).xf.tags r .i32 = .f32 := by
  simp [shardBank_xf, Bank.reset, h]

end

/-- Settles O9: reset is read off its definition, and a shard's registers are those of its launch. -/
theorem resetAndStart : Obligations.ResetAndStart := by
  constructor
  · refine ⟨reset_mem_wf, reset_memGet, fun x => ?_, fun c h => ?_, rfl, rfl, rfl, rfl, rfl⟩
    · rw [reset_ctxAt]
      exact ⟨rfl, rfl⟩
    · rw [reset_cellAt c h]
      exact ⟨rfl, rfl, rfl, rfl⟩
  · intro c k g n t r
    exact ⟨readA_shardBank c k g n t r, readX_shardBank c k g n t r, readLc_shardBank c k g n t r, readSd_shardBank c k g n t r,
      readP_shardBank c k g n t r, rfl, tags_shardBank c k g n t r, rfl, rfl, rfl, rfl, rfl, rfl, rfl, rfl, rfl, rfl, rfl, rfl,
      rfl, rfl, rfl, rfl, rfl, rfl, rfl, rfl, rfl⟩

end Sys2Proof.Machine
end

section
/-! PROOFS. Power, starts and background work (R19 to R26). -/

namespace Sys2Proof.Machine

open Sys2Proof

/-! ### A start ends the work of every context -/

theorem vget_map {α β : Type} {n : Nat} (f : α → β) (v : Vector α n) (i : Nat) (d : α) (e : β) (h : i < n) :
    vget (v.map f) i e = f (vget v i d) := by
  simp [vget, h]

@[simp] theorem endAll_ctxAt (s : State) (cold : Bool) (x : Nat) : (s.endAll cold).ctxAt x = .reset := by
  simp [State.ctxAt, State.endAll, vget]

@[simp] theorem endAll_dev (s : State) (cold : Bool) : (s.endAll cold).dev = s.dev := by
  simp only [State.endAll]

@[simp] theorem endAll_ports (s : State) (cold : Bool) : (s.endAll cold).net.ports = s.net.ports := by
  simp only [State.endAll]

theorem endAll_cellAt (s : State) (cold : Bool) (c : Nat) (h : c < 256) :
    (s.endAll cold).cellAt c = (s.cellAt c).startOver c cold := by
  simp [State.cellAt, State.endAll, vget, h]

/-- A cell at a start command has no shard, no translation and no cycles behind it. -/
theorem startOver_idle (c : Cell) (n : Nat) (cold : Bool) :
    (c.startOver n cold).active = .reset ∧ (c.startOver n cold).shadow = .reset ∧ (c.startOver n cold).tlb = [] ∧
      (c.startOver n cold).cyc = 0 := by
  cases cold <;> exact ⟨rfl, rfl, rfl, rfl⟩

theorem startOver_counters (c : Cell) (n : Nat) (cold : Bool) :
    (c.startOver n cold).counters = if cold = true then (Cell.reset n).counters else c.counters := by
  cases cold <;> rfl

/-- Every cell is idle once all work has ended, and so is one that the device does not have. -/
theorem endAll_idle (s : State) (cold : Bool) (c : Nat) :
    ((s.endAll cold).cellAt c).active = .reset ∧ ((s.endAll cold).cellAt c).shadow = .reset ∧
      ((s.endAll cold).cellAt c).tlb = [] ∧ ((s.endAll cold).cellAt c).cyc = 0 := by
  by_cases h : c < 256
  · rw [endAll_cellAt s cold c h]
    exact startOver_idle _ _ _
  · rw [show (s.endAll cold).cellAt c = .reset 0 by simp [State.cellAt, vget, h]]
    exact ⟨rfl, rfl, rfl, rfl⟩

/-! ### A start begins, or fails -/

/-- The root firmware measures itself first (R22, step 1). -/
theorem measureStart_root (d : Device) : (1, 0) ∈ d.measureStart.measured := by
  unfold Device.measureStart
  split <;> simp [Device.measure]

/-- The service firmware is measured where both its signatures verify (R22, step 2). -/
theorem measureStart_service (d : Device) :
    (2, d.service.number) ∈ d.measureStart.measured ↔ d.service.verifies = true := by
  unfold Device.measureStart
  split <;> simp [Device.measure, *]

/-- Measuring images leaves the rest of the device's state. -/
theorem measureStart_power (d : Device) : d.measureStart.alarm = d.alarm ∧ d.measureStart.inhibit = d.inhibit := by
  unfold Device.measureStart
  split <;> exact ⟨rfl, rfl⟩

@[simp] theorem beginStart_ctxAt (s : State) (cold : Bool) (n x : Nat) : (s.beginStart cold n).ctxAt x = .reset := by
  rw [State.ctxAt, show (s.beginStart cold n).ctxs = (s.endAll cold).ctxs from rfl, ← State.ctxAt, endAll_ctxAt]

theorem beginStart_cellAt (s : State) (cold : Bool) (n c : Nat) : (s.beginStart cold n).cellAt c = (s.endAll cold).cellAt c := by
  rw [State.cellAt, show (s.beginStart cold n).cells = (s.endAll cold).cells from rfl, ← State.cellAt]

theorem beginStart_port (s : State) (cold : Bool) (n p : Nat) (h : p < 18) :
    vget (s.beginStart cold n).net.ports p .reset = (vget s.net.ports p .reset).startOver cold := by
  rw [show (s.beginStart cold n).net.ports = s.net.ports.map (·.startOver cold) from rfl, vget_map _ _ p _ _ h]

@[simp] theorem enterRecovery_ctxAt (s : State) (recOk : Bool) (n x : Nat) : (s.enterRecovery recOk n).ctxAt x = .reset := by
  rw [State.ctxAt, show (s.enterRecovery recOk n).ctxs = (s.endAll true).ctxs from rfl, ← State.ctxAt, endAll_ctxAt]

theorem enterRecovery_cellAt (s : State) (recOk : Bool) (n c : Nat) :
    (s.enterRecovery recOk n).cellAt c = (s.endAll true).cellAt c := by
  rw [State.cellAt, show (s.enterRecovery recOk n).cells = (s.endAll true).cells from rfl, ← State.cellAt]

/-- What `beginStart` does is what the statements call the begin of a start. -/
theorem startBegun_beginStart (s : State) (cold : Bool) (n : Nat) : StartBegun s (s.beginStart cold n) cold n where
  state := ⟨rfl, rfl, rfl, rfl⟩
  power := by simpa only [State.beginStart, endAll_dev] using measureStart_power s.dev
  measured := by
    simp only [State.beginStart, endAll_dev]
    exact ⟨measureStart_root s.dev, measureStart_service s.dev⟩
  ctxs := beginStart_ctxAt s cold n
  banks c := by
    rw [beginStart_cellAt]
    exact endAll_idle s cold c
  counters c h := by
    rw [beginStart_cellAt, endAll_cellAt s cold c h]
    exact startOver_counters _ _ _
  ports p h := by
    rw [beginStart_port s cold n p h]
    rfl
  work := ⟨rfl, rfl, rfl, rfl⟩
  memory := beginStart_mem s cold n

theorem recovering_enterRecovery (s : State) (recOk : Bool) (n : Nat) : Recovering s (s.enterRecovery recOk n) recOk n where
  state := ⟨rfl, rfl, rfl⟩
  measured h := by simp [State.enterRecovery, h, Device.measure]
  ctxs := enterRecovery_ctxAt s recOk n
  banks c := by
    rw [enterRecovery_cellAt]
    obtain ⟨active, shadow, -, -⟩ := endAll_idle s true c
    exact ⟨active, shadow⟩
  work := ⟨rfl, rfl, rfl⟩
  memory := enterRecovery_mem s recOk n

theorem startFailed_failStart (s : State) (recOk : Bool) : StartFailed s (s.failStart recOk) recOk := by
  simp only [StartFailed, State.failStart]
  split_ifs
  · exact startBegun_beginStart s true _
  · exact recovering_enterRecovery s recOk 3

/-! ### A start completes -/

/-- A start zeroes every byte but those of the far pool (R22, step 6). -/
theorem completeStart_memGet (s : State) (k : Nat) (h : s.mem.wf = true) :
    memGet s.completeStart.mem k = if tierOf k = .far then memGet s.mem k else 0 := by
  rw [show s.completeStart.mem = s.mem.filter fun e => farKey e.1 from rfl, memGet_filter s.mem farKey k 0 h]
  simp [farKey, memBlank]

/-- A plate's DIGEST does not enter its DIGEST (R315). -/
theorem digestOf_redigest (p : Plate) : p.redigest.digestOf = p.redigest.digest := rfl

/-- The plates that a start leaves are not confidential and keep their DIGEST (R22, step 7). -/
theorem startPlates_sound (cold : Bool) (l : List Plate) (p : Plate) (h : p ∈ startPlates cold l) :
    p.conf = false ∧ p.digestOf = p.digest := by
  cases cold with
  | true => exact absurd h (List.not_mem_nil)
  | false =>
    simp only [startPlates, Bool.false_eq_true, if_false, List.mem_map, List.mem_filter, Bool.and_eq_true, Bool.not_eq_true',
      beq_iff_eq] at h
    obtain ⟨q, ⟨-, conf, digest⟩, rfl⟩ := h
    split
    · exact ⟨conf, digest⟩
    · exact ⟨conf, digestOf_redigest _⟩

theorem completeStart_galleys (s : State) (d : Nat) : (vget s.completeStart.sched.galleys d ⟨[], 0⟩).entries = [] := by
  simp [State.completeStart, vget]

/-- No port trains where each of the 18 does not. -/
theorem ports_trained (s : State) :
    (s.net.ports.all fun p => p.state != .training) = true ↔ ∀ p, p < 18 → (vget s.net.ports p .reset).state ≠ .training := by
  simp only [Vector.all_eq_true, bne_iff_ne, ne_eq]
  exact forall₂_congr fun p h => by simp [vget, h]

/-! ### The events as their meanings -/

@[simp] theorem exec_powerApplied (r : Bool) (s : State) : exec (.powerApplied r) s = execPowerApplied r s := rfl
@[simp] theorem exec_powerLost (r : Bool) (s : State) : exec (.powerLost r) s = execPowerLost r s := rfl
@[simp] theorem exec_hostColdStart (s : State) : exec .hostColdStart s = execHostColdStart s := rfl
@[simp] theorem exec_hostWarmStart (s : State) : exec .hostWarmStart s = execHostWarmStart s := rfl
@[simp] theorem exec_startComplete (s : State) : exec .startComplete s = execStartComplete s := rfl
@[simp] theorem exec_startStepFailure (r : Bool) (s : State) : exec (.startStepFailure r) s = execStartStepFailure r s := rfl
@[simp] theorem exec_startTimeout (r : Bool) (s : State) : exec (.startTimeout r) s = execStartTimeout r s := rfl
@[simp] theorem exec_firmwareInstall (ed ml : Bool) (s : State) :
    exec (.firmwareInstall ed ml) s = execFirmwareInstall ed ml s := rfl
@[simp] theorem exec_recoveryImageInstall (ed ml : Bool) (s : State) :
    exec (.recoveryImageInstall ed ml) s = execRecoveryImageInstall ed ml s := rfl
@[simp] theorem exec_powerAlarmAssert (s : State) : exec .powerAlarmAssert s = execPowerAlarmAssert s := rfl
@[simp] theorem exec_powerAlarmClear (s : State) : exec .powerAlarmClear s = execPowerAlarmClear s := rfl
@[simp] theorem exec_powerLimitExceeded (s : State) : exec .powerLimitExceeded s = execPowerLimitExceeded s := rfl
@[simp] theorem exec_powerLimitRecovered (s : State) : exec .powerLimitRecovered s = execPowerLimitRecovered s := rfl
@[simp] theorem exec_dramPatrolScrub (k : Nat) (f : EccFinding) (b : Bool) (s : State) :
    exec (.dramPatrolScrub k f b) s = execDramPatrolScrub k f b s := rfl
@[simp] theorem exec_sramPatrolScrub (w : SramWord) (f : EccFinding) (b : Bool) (s : State) :
    exec (.sramPatrolScrub w f b) s = execSramPatrolScrub w f b s := rfl
@[simp] theorem exec_linkRecalibration (p us : Nat) (s : State) :
    exec (.linkRecalibration p us) s = execLinkRecalibration p us s := rfl
@[simp] theorem exec_dramRecalibration (us : Nat) (s : State) : exec (.dramRecalibration us) s = execDramRecalibration us s := rfl
@[simp] theorem exec_flashWearManagement (e r : Nat) (s : State) :
    exec (.flashWearManagement e r) s = execFlashWearManagement e r s := rfl
@[simp] theorem exec_telemetrySample (b : Bool) (s : State) : exec (.telemetrySample b) s = execTelemetrySample b s := rfl

/-! ### Power and starts -/

/-- Outside a start, a loss of power ends all work and takes every port down (R23). -/
theorem execPowerLost_ends (s : State) (r : Bool)
    (h : s.dev.state = .ready ∨ s.dev.state = .recovery ∨ s.dev.state = .stopped) :
    ∃ t, execPowerLost r s = .next t ∧ t.dev.state = .off ∧ t.dev.alarm = false ∧ (∀ x, t.ctxAt x = .reset) ∧
      ∀ p, p < 18 → (vget t.net.ports p .reset).state = .down := by
  have free : ∀ x, vget (s.endAll true).ctxs x .reset = .reset := endAll_ctxAt s true
  rcases h with h | h | h <;> simp only [execPowerLost, h] <;>
    exact ⟨_, rfl, rfl, rfl, free, fun p hp => by rw [vget_map _ _ p .reset _ hp]⟩

/-- A start that completes makes the device READY (R22, R23). -/
theorem execStartComplete_ready (s : State) (starting : s.dev.state = .starting) (verifies : s.dev.service.verifies = true)
    (trained : ∀ p, p < 18 → (vget s.net.ports p .reset).state ≠ .training) :
    execStartComplete s = .next s.completeStart := by
  rw [execStartComplete, if_pos ⟨starting, verifies, (ports_trained s).mpr trained⟩]

/-- A start waits for the service firmware and for the ports (R22). -/
theorem execStartComplete_waits (s : State)
    (h : s.dev.service.verifies = false ∨ ∃ p, p < 18 ∧ (vget s.net.ports p .reset).state = .training) :
    execStartComplete s = .next s := by
  rw [execStartComplete, if_neg]
  rintro ⟨-, verifies, trained⟩
  rcases h with h | ⟨p, hp, training⟩
  · simp [h] at verifies
  · exact (ports_trained s).mp trained p hp training

/-- A failed start is one of three events in STARTING (R23). -/
theorem exec_startFails (s : State) (r : Bool) (h : s.dev.state = .starting) :
    ∀ e ∈ [Instr.powerLost r, .startStepFailure r, .startTimeout r], exec e s = .next (s.failStart r) := by
  simp [execPowerLost, execStartStepFailure, execStartTimeout, h]

/-! ### Background work -/

/-- Outside the last word of a pass, the DRAM scrub does what a scrub of that word does. -/
theorem execDramPatrolScrub_ready (s : State) (k : Nat) (found : EccFinding) (between : Bool) (ready : s.dev.state = .ready)
    (tier : tierOf k = .near ∨ tierOf k = .mid ∨ tierOf k = .device) (last : k / 8 * 8 ≠ 0x1DFFFFFFFF8) :
    execDramPatrolScrub k found between s = .next (s.scrub true k found between) := by
  have here : scrubbedDram k = true := by simpa [scrubbedDram, or_assoc] using tier
  have within : eccWord k ≠ lastScrubWord := last
  rw [execDramPatrolScrub, if_pos ready, if_pos here]
  simp only [if_neg within]

/-- The words that the SRAM scrub reads (R24, R25). -/
def SramScrubbed (w : SramWord) : Prop :=
  (∃ k, w = .scratchpad k ∧ 2 ^ 52 ≤ k ∧ k < 2 ^ 56 ∨ w = .dieBuffer k ∧ tierOf k ≠ .hole) ∨
    ∃ c b r i, w = .accumulator c b r i ∧ c < 256 ∧ r < 4096 ∧ i < 64

/-- The SRAM scrub of a scratchpad's or a die buffer's word is the scrub of the memory word that stands there (R25). -/
theorem execSramPatrolScrub_memory (s : State) (w : SramWord) (k : Nat) (found : EccFinding) (between : Bool)
    (ready : s.dev.state = .ready) (hw : SramScrubbed w) (here : w = .scratchpad k ∨ w = .dieBuffer k) :
    execSramPatrolScrub w found between s = .next (s.scrub false k found between) := by
  simp only [execSramPatrolScrub, if_pos ready]
  obtain ⟨q, ⟨rfl, lo, hi⟩ | ⟨rfl, tier⟩⟩ | ⟨c, b, r, i, rfl, -⟩ := hw <;> simp only [SramWord.scratchpad.injEq,
    SramWord.dieBuffer.injEq, reduceCtorEq, or_false, false_or] at here
  · subst here
    exact if_pos (by simpa [scrubbedSram] using And.intro lo hi)
  · subst here
    exact if_pos (by simpa using tier)

/-- The SRAM scrub of a word of an accumulator file (R25). -/
theorem execSramPatrolScrub_acc (s : State) (c r i : Nat) (b : Bool) (found : EccFinding) (between : Bool)
    (ready : s.dev.state = .ready) (hw : SramScrubbed (.accumulator c b r i)) :
    c < 256 ∧ execSramPatrolScrub (.accumulator c b r i) found between s = .next (s.scrubAcc c b (64 * r + i) found between) := by
  obtain ⟨q, ⟨here, -⟩ | ⟨here, -⟩⟩ | ⟨_, _, _, _, here, range⟩ := hw
  · cases here
  · cases here
  · cases here
    simp only [execSramPatrolScrub, if_pos ready]
    exact ⟨range.1, if_pos range⟩

/-- A scrub that finds a word clean or corrects it does the same wherever the word stands. -/
theorem execSramPatrolScrub_readable (s : State) (w : SramWord) (found : EccFinding) (between : Bool) (ready : s.dev.state = .ready)
    (hw : SramScrubbed w) (good : found = .clean ∨ found = .correctable) :
    execSramPatrolScrub w found between s = .next (s.scrub false 0 found between) := by
  cases w with
  | scratchpad k => rw [execSramPatrolScrub_memory s _ k found between ready hw (.inl rfl)]; rcases good with rfl | rfl <;> rfl
  | dieBuffer k => rw [execSramPatrolScrub_memory s _ k found between ready hw (.inr rfl)]; rcases good with rfl | rfl <;> rfl
  | accumulator c b r i =>
    obtain ⟨-, run⟩ := execSramPatrolScrub_acc s c r i b found between ready hw
    rw [run]
    rcases good with rfl | rfl <;> rfl

/-- A word of an accumulator file that the scrub cannot correct is poisoned in the bank that holds it (R25). -/
theorem poisonAcc_bad (s : State) (c : Nat) (shadow : Bool) (w : Nat) (h : c < 256) :
    w ∈ (if shadow = true then ((s.poisonAcc c shadow w).cellAt c).shadow else ((s.poisonAcc c shadow w).cellAt c).active).xf.bad := by
  rw [State.poisonAcc, setCell_cellAt _ _ _ h]
  cases shadow <;> simp only [if_true, if_false, Bool.false_eq_true] <;> split <;> simp_all

/-- Settles O52: each event by its case of the device's state, and the scrubs by what they find. -/
theorem deviceEvents : Obligations.DeviceEvents := by
  constructor
  · intro s r ed ml
    dsimp only
    refine ⟨fun off => ⟨fun few => ?_, fun many => ?_, ?_⟩, fun h => ?_, fun starting e he => ?_, fun h => ⟨?_, ?_, ?_⟩,
      fun h => execPowerLost_ends s r h, fun h => ?_, fun h => ?_, fun h => ?_, fun h => ?_, fun h => ?_,
      fun starting verifies trained wf => ?_, fun _ h => execStartComplete_waits s h, fun h => ?_, fun h1 h2 => ?_,
      fun stopped => ⟨fun hed hml => ?_, fun bad => ?_⟩, fun h => ?_, fun h => ?_, rfl, fun h => ?_, fun h => ?_, rfl⟩
    · exact ⟨_, by simp [execPowerApplied, off, few], startBegun_beginStart s true _⟩
    · exact ⟨_, by simp [execPowerApplied, off, Nat.not_le.mpr many], recovering_enterRecovery s r _⟩
    · simp [execPowerLost, off]
    · simp [execPowerApplied, h]
    · exact ⟨_, exec_startFails s r starting e he, startFailed_failStart s r⟩
    · simp [execStartStepFailure, h]
    · simp [execStartTimeout, h]
    · simp [execStartComplete, h]
    · exact ⟨_, by rcases h with h | h <;> simp [execHostColdStart, h], startBegun_beginStart s true _⟩
    · exact ⟨_, by simp [execHostColdStart, h], startBegun_beginStart s true _⟩
    · rcases h with h | h <;> simp [execHostColdStart, h]
    · exact ⟨_, by simp [execHostWarmStart, h], startBegun_beginStart s false _⟩
    · simp [execHostWarmStart, h]
    · exact ⟨_, execStartComplete_ready s starting verifies trained, rfl, rfl, rfl, fun d _ => completeStart_galleys s d,
        fun cold => by simp [State.completeStart, startPlates, cold], startPlates_sound _ _, fun k => completeStart_memGet s k wf⟩
    · simp [execFirmwareInstall, h, State.newImage, State.send]
    · simp [execFirmwareInstall, h1, h2]
    · simp only [exec_recoveryImageInstall, execRecoveryImageInstall, if_pos stopped, hed, hml, Bool.and_self, if_true]
      exact ⟨_, rfl, rfl, List.mem_cons_self, rfl, rfl, rfl⟩
    · simp [execRecoveryImageInstall, stopped, bad, State.send]
    · simp [execRecoveryImageInstall, h]
    · simp [execPowerAlarmAssert, State.powered, h]
    · simp [execPowerLimitExceeded, h]
    · simp [execPowerLimitExceeded, h]
  · intro s ready
    dsimp only
    refine ⟨fun k between tier last => ⟨?_, ?_, ?_, ?_⟩, fun between => ?_, fun w between hw => ⟨?_, ?_, ?_, ?_, ?_⟩,
      fun x g n a bs e => ⟨fun conf => ⟨?_, ?_⟩, fun clear => ?_⟩, fun p us => ⟨fun hp hus => ?_, fun hus => ?_, ?_⟩, ?_, ?_⟩
    · exact execDramPatrolScrub_ready s k _ _ ready tier last
    · exact execDramPatrolScrub_ready s k _ _ ready tier last
    · exact execDramPatrolScrub_ready s k _ _ ready tier last
    · rw [exec_dramPatrolScrub, execDramPatrolScrub_ready s k _ _ ready tier last]
      simp [State.scrub, State.poison, State.background, Background.uncorrected, eccWord, satInc]
    · simp [execDramPatrolScrub, ready, scrubbedDram, tierOf, eccWord, lastScrubWord, State.scrub, State.background, satInc]
    · exact execSramPatrolScrub_readable s w _ _ ready hw (by simp)
    · exact execSramPatrolScrub_readable s w _ _ ready hw (by simp)
    · exact execSramPatrolScrub_readable s w _ _ ready hw (by simp)
    · intro k here
      rw [exec_sramPatrolScrub, execSramPatrolScrub_memory s w k _ _ ready hw here]
      simp [State.scrub, State.poison, State.background, Background.uncorrected, eccWord, satInc]
    · rintro c b r i rfl
      obtain ⟨range, run⟩ := execSramPatrolScrub_acc s c r i b .uncorrectable between ready hw
      exact ⟨_, run, rfl, poisonAcc_mem s c b (64 * r + i), poisonAcc_bad s c b (64 * r + i) range⟩
    · simp [State.firmware, State.serviceMay, conf]
    · simp [State.firmware, State.serviceMay, conf]
    · simp [State.firmware, State.rootMay, clear]
    · simp [execLinkRecalibration, hp, ready, pauseMax, hus, State.background, satInc]
    · simp [execDramRecalibration, ready, pauseMax, hus, State.background, satInc]
    · simp [execFlashWearManagement, ready, State.background, satInc]
    · simp [execTelemetrySample, ready, State.background, satInc]
    · simp [execTelemetrySample, ready, State.background, satInc]

end Sys2Proof.Machine
end

section
/-! PROOFS. Dispatch, stealing, staging, and the start and end of groups (R277 to R281, R299 to R312). -/

namespace Sys2Proof.Machine

open Sys2Proof

/-! ### The events as their meanings -/

@[simp] theorem exec_taskDispatch (c : Nat) (s : State) : exec (.taskDispatch c) s = execTaskDispatch c s := rfl
@[simp] theorem exec_stealRequest (c : Nat) (s : State) : exec (.stealRequest c) s = execStealRequest c s := rfl
@[simp] theorem exec_stealAnswer (c : Nat) (s : State) : exec (.stealAnswer c) s = execStealAnswer c s := rfl
@[simp] theorem exec_stealBackoffExpiry (c : Nat) (s : State) : exec (.stealBackoffExpiry c) s = execStealBackoffExpiry c s := rfl
@[simp] theorem exec_stagingBaseAllocate (n : Nat) (s : State) :
    exec (.stagingBaseAllocate n) s = execStagingBaseAllocate n s := rfl
@[simp] theorem exec_stagingCopyComplete (n : Nat) (s : State) :
    exec (.stagingCopyComplete n) s = execStagingCopyComplete n s := rfl
@[simp] theorem exec_shardStart (n : Nat) (s : State) : exec (.shardStart n) s = execShardStart n s := rfl
@[simp] theorem exec_groupCompletion (n : Nat) (s : State) : exec (.groupCompletion n) s = execGroupCompletion n s := rfl

/-! ### Allocation bases (R312) -/

theorem overlaps_iff (a b : Nat × Nat) : overlaps a b = true ↔ 0 < a.2 ∧ 0 < b.2 ∧ a.1 < b.1 + b.2 ∧ b.1 < a.1 + a.2 := by
  simp [overlaps, and_assoc]

/-- An allocation lies in the scratchpad, apart from the used ones. -/
def ClearBase (used : List (Nat × Nat)) (size v : Nat) : Prop :=
  v + size ≤ 0x600000 ∧ ∀ u ∈ used, ¬ (0 < u.2 ∧ 0 < size ∧ v < u.1 + u.2 ∧ u.1 < v + size)

theorem clearBase_iff (used : List (Nat × Nat)) (size v : Nat) :
    (decide (v + size ≤ spadBytes) && used.all fun u => !(overlaps (v, size) u)) = true ↔ ClearBase used size v := by
  simp only [Bool.and_eq_true, decide_eq_true_eq, List.all_eq_true, Bool.not_eq_true', ← Bool.not_eq_true, overlaps_iff]
  exact and_congr_right fun _ => forall₂_congr fun u _ => not_congr ⟨fun ⟨a, b, c⟩ => ⟨b, a, c⟩, fun ⟨a, b, c⟩ => ⟨b, a, c⟩⟩

/-- The base that is chosen is a page's, is clear, and is the lowest such. -/
theorem lowestBase_lowest (used : List (Nat × Nat)) (size b : Nat) (h : lowestBase used size = some b) :
    b % 4096 = 0 ∧ ClearBase used size b ∧ ∀ v, v % 4096 = 0 → v < b → ¬ ClearBase used size v := by
  rw [lowestBase, List.find?_map, Option.map_eq_some_iff] at h
  obtain ⟨i, found, rfl⟩ := h
  obtain ⟨ok, -, before⟩ := List.find?_range_eq_some.mp found
  refine ⟨Nat.mul_mod_left i 4096, (clearBase_iff used size _).mp ok, fun v page low clear => ?_⟩
  have below := before (v / 4096) (by omega)
  rw [Bool.not_eq_true', ← Bool.not_eq_true] at below
  have same : v / 4096 * 4096 = v := Nat.div_mul_cancel (Nat.dvd_of_mod_eq_zero page)
  exact below ((clearBase_iff used size (v / 4096 * 4096)).mpr (same.symm ▸ clear))

/-! ### The formation arbiter (R302) -/

/-- Holding cells sets who holds each of them, and no other cell's holder. -/
theorem holdCells_held (s : State) (g : Group) (c : Nat) (h : c < 256) :
    ((s.holdCells g).cellAt c).held = if c ∈ g.cells then some g.id else (s.cellAt c).held := by
  have all : ∀ (l : List Nat) (t : State), ((l.foldl (fun t c => t.setCell c { t.cellAt c with held := some g.id }) t).cellAt c).held =
      if c ∈ l then some g.id else (t.cellAt c).held := by
    intro l
    induction l with
    | nil => intro t; rfl
    | cons d l ih =>
      intro t
      rw [List.foldl_cons, ih]
      by_cases e : c = d
      · subst e
        simp [setCell_cellAt _ _ _ h]
      · simp [e, setCell_cellAt_ne _ _ _ _ (Ne.symm e)]
  exact all g.cells s

@[simp] theorem holdCells_sched (s : State) (g : Group) : (s.holdCells g).sched = s.sched := by
  have all : ∀ (l : List Nat) (t : State), (l.foldl (fun t c => t.setCell c { t.cellAt c with held := some g.id }) t).sched = t.sched := by
    intro l
    induction l with
    | nil => intro t; rfl
    | cons d l ih => intro t; rw [List.foldl_cons, ih, setCell_sched]
  exact all g.cells s

/-- The request that the arbiter serves next. -/
def State.nextRequest (s : State) : Option Group := s.sched.groups.find? fun g => g.state == .requested && s.scheduled g.ctx

/-- The cells that the arbiter chooses for a request. -/
def State.cellsFor (s : State) (g : Group) : Option (List Nat) :=
  chooseCells (fun c => (s.cellAt c).readyCount) (s.unheld g.ctx) g.home g.p g.q

theorem arbitrate_none (s : State) (h : s.nextRequest = none) : s.arbitrate = s := by
  unfold State.nextRequest at h
  simp only [State.arbitrate, h]

theorem arbitrate_waits (s : State) (g : Group) (h : s.nextRequest = some g) (blocked : s.cellsFor g = none) : s.arbitrate = s := by
  unfold State.nextRequest at h
  unfold State.cellsFor at blocked
  simp only [State.arbitrate, h, blocked]

theorem arbitrate_serves (s : State) (g : Group) (cells : List Nat) (h : s.nextRequest = some g) (free : s.cellsFor g = some cells) :
    s.arbitrate = (s.setGroup (g.on cells)).holdCells (g.on cells) := by
  unfold State.nextRequest at h
  unfold State.cellsFor at free
  simp only [State.arbitrate, h, free]

theorem setGroup_groups (s : State) (g : Group) :
    (s.setGroup g).sched.groups = s.sched.groups.map fun e => if e.id = g.id then g else e := by
  simp only [State.setGroup, beq_iff_eq]

/-! ### Decisions (R277, R279) -/

theorem mayDecide_iff (s : State) (cell : Nat) : s.mayDecide cell = true ↔
    s.dev.inhibit = false ∧ s.dev.state = .ready ∧ (s.cellAt cell).held = none ∧ s.laneFirst cell = false ∧
      ∀ g ∈ s.sched.groups, g.state = .requested → g.home ≠ cell := by
  simp [State.mayDecide, State.mayIssue, and_assoc]

/-- A failing task's own TASK_STATE comes last among the faults of its completion (R279, R280). -/
theorem failTask_faults (s : State) (x i die : Nat) (w : Work) (h : s.failTask x i die = .ok w) :
    ∃ l tcb, w.faults = l ++ [⟨.taskState, tcb, tcb⟩] ∧ tcb = (s.ctxAt x).tcbAddr i := by
  rw [State.failTask, bind_ok] at h
  obtain ⟨v, -, e⟩ := h
  cases e
  exact ⟨v.faults, _, rfl, rfl⟩

/-- A decision on a task that fails a check. -/
theorem decideTask_fails (s : State) (cell x i : Nat) (b : List Byte) (w : Work) (u : State) (tcb : s.readTcb x i = .ok b)
    (checks : s.dispatchChecks x b = .ok none) (fail : s.failTask x i (cell / 64) = .ok w) (pass : w.s.passBy cell x i = .ok u) :
    s.decideTask cell x i = .ok { w with s := u } := by
  simp only [State.decideTask, State.dispatch, tcb, checks, bind, Except.bind, dieOf, fail, pass]

/-- A decision on a task that passes its checks. -/
theorem decideTask_forms (s : State) (cell x i : Nat) (b : List Byte) (d : Passed) (u : State) (tcb : s.readTcb x i = .ok b)
    (checks : s.dispatchChecks x b = .ok (some d))
    (pass : (s.addGroup (s.newGroup x i cell b d (s.formOrigin x i).1 (s.formOrigin x i).2)).passBy cell x i = .ok u) :
    s.decideTask cell x i = .ok ⟨u, []⟩ := by
  simp only [State.decideTask, State.dispatch, tcb, checks, bind, Except.bind, pass]

/-- TASK_DISPATCH where a decision can be taken and a task is there. -/
theorem execTaskDispatch_decides (s : State) (cell : Nat) (k : ReadyTask) (w : Work) (h : cell < 256) (may : s.mayDecide cell = true)
    (head : s.headTask cell = some k) (decided : s.decideTask cell k.ctx k.tcb = .ok w) :
    execTaskDispatch cell s = .next (w.faults.foldl (fun t f =>
      t.raiseDevice k.ctx f.cause (wordOfNat f.fva) (wordOfNat f.tcb)) w.s).arbitrate := by
  simp only [execTaskDispatch, if_pos h, may, if_true, head, decided, State.afterDispatch, State.agentDo]

/-- TASK_DISPATCH where none can, or none is. -/
theorem execTaskDispatch_idle (s : State) (cell : Nat) (h : cell < 256) (idle : ¬ s.mayDecide cell = true ∨ s.headTask cell = none) :
    execTaskDispatch cell s = .next s.arbitrate := by
  have nothing : (if s.mayDecide cell = true then s.headTask cell else none) = none := by
    split <;> simp_all
  simp only [execTaskDispatch, if_pos h, nothing]

/-! ### Stealing (R281) -/

theorem mem_otherCells (lo n c v : Nat) : v ∈ otherCells lo n c ↔ lo ≤ v ∧ v < lo + n ∧ v ≠ c := by
  simp only [otherCells, List.mem_filter, List.mem_map, List.mem_range, bne_iff_ne, ne_eq]
  constructor
  · rintro ⟨⟨i, hi, rfl⟩, ne⟩
    omega
  · rintro ⟨h1, h2, h3⟩
    exact ⟨⟨v - lo, by omega, by omega⟩, h3⟩

/-- An element that a number picks from a list that is not empty. -/
theorem getD_mod_mem (l : List Nat) (n d v : Nat) (h : v ∈ l) : l.getD (n % l.length) d ∈ l := by
  have pos : 0 < l.length := List.length_pos_of_mem h
  rw [List.getD_eq_getElem _ _ (Nat.mod_lt n pos)]
  exact List.getElem_mem _

@[simp] theorem setSteal_sched (s : State) (c : Nat) (v : StealState) : (s.setSteal c v).sched = s.sched := rfl

theorem setSteal_cellAt (s : State) (c : Nat) (v : StealState) (h : c < 256) :
    (s.setSteal c v).cellAt c = { s.cellAt c with steal := v } := setCell_cellAt _ _ _ h

/-- A number picks, of the `n` cells that share a cell's block of `n`, another one. -/
theorem pick_otherCells (n cell i : Nat) (hn : 2 ≤ n) :
    let l := otherCells (cell / n * n) n cell
    l.getD (i % l.length) cell ≠ cell ∧ l.getD (i % l.length) cell / n = cell / n := by
  intro l
  have low : cell / n * n ≤ cell := Nat.div_mul_le_self cell n
  have another : ∃ v, v ∈ l := by
    by_cases e : cell / n * n = cell
    · exact ⟨cell + 1, (mem_otherCells ..).mpr (by omega)⟩
    · exact ⟨cell / n * n, (mem_otherCells ..).mpr (by omega)⟩
  obtain ⟨v, hv⟩ := another
  obtain ⟨lo, hi, ne⟩ := (mem_otherCells ..).mp (getD_mod_mem l i cell v hv)
  exact ⟨ne, Nat.div_eq_of_lt_le lo (by rwa [Nat.succ_mul])⟩

/-- The cell that a request asks: of the cluster in the first two, of the die in the next four, and never the asker. -/
theorem execStealRequest_asks (s : State) (cell : Nat) (h : cell < 256) (may : (s.cellAt cell).mayStealNow = true)
    (left : (s.cellAt cell).steal.sent < 6) : ∃ lfsr v, execStealRequest cell s = .next (s.setSteal cell
        { (s.cellAt cell).steal with lfsr := lfsr, sent := (s.cellAt cell).steal.sent + 1, victim := some v }) ∧ v ≠ cell ∧
      if (s.cellAt cell).steal.sent < 2 then v / 8 = cell / 8 else v / 64 = cell / 64 := by
  simp only [execStealRequest, if_pos h, may, left, and_self, if_true]
  refine ⟨_, _, rfl, ?_⟩
  split
  · exact pick_otherCells 8 cell _ (by decide)
  · exact pick_otherCells 64 cell _ (by decide)

/-- A victim that gives nothing ends the request. -/
theorem execStealAnswer_empty (s : State) (cell v : Nat) (h : cell < 256) (asked : (s.cellAt cell).steal.victim = some v)
    (empty : ((s.cellAt v).held ≠ none ∨ (s.cellAt cell).free = false ∨ (s.cellAt cell).held ≠ none) ∨ s.stealFrom cell v = none) :
    execStealAnswer cell s = .next (s.setSteal cell
      { (s.cellAt cell).steal with victim := none, backoff := decide (6 ≤ (s.cellAt cell).steal.sent) }) := by
  simp only [execStealAnswer, if_pos h, asked]
  rcases empty with e | e
  · rw [if_pos (by simpa only [Option.isSome_iff_ne_none] using e)]
  · simp only [e, ite_self]

/-- A stolen task stands in the stealer's queue, and is decided on where tasks may issue (R19, R281). -/
theorem execStealAnswer_takes (s : State) (cell v : Nat) (k : ReadyTask) (h : cell < 256)
    (asked : (s.cellAt cell).steal.victim = some v)
    (there : ¬ ((s.cellAt v).held ≠ none ∨ (s.cellAt cell).free = false ∨ (s.cellAt cell).held ≠ none))
    (given : s.stealFrom cell v = some k) :
    let s1 := (s.setSteal cell { (s.cellAt cell).steal with victim := none, sent := 0 }).takeStolen cell (s.levelOf v k) k
    execStealAnswer cell s =
      if s.mayIssue then .next (s1.afterDispatch k.ctx k.tcb (s1.decideTask cell k.ctx k.tcb)).arbitrate else .next s1 := by
  simp only [execStealAnswer, if_pos h, asked]
  rw [if_neg (by simpa only [Option.isSome_iff_ne_none] using there), given]

/-! ### Staging (R312) -/

/-- The base of a task in a run is its plate entry's, where no other allocation has a byte of it (R312, R321). -/
theorem baseFor_plate (s : State) (g : Group) (b : Nat) (h : g.plateBase = some b) :
    s.baseFor g = if ∀ u ∈ s.allocations g.cells, ¬ (0 < g.spsize ∧ 0 < u.2 ∧ b < u.1 + u.2 ∧ u.1 < b + g.spsize)
      then some b else none := by
  simp only [State.baseFor, h, List.all_eq_true, Bool.not_eq_true', ← Bool.not_eq_true, overlaps_iff]

theorem baseFor_lowest (s : State) (g : Group) (h : g.plateBase = none) :
    s.baseFor g = lowestBase (s.allocations g.cells) g.spsize := by
  simp only [State.baseFor, h]

theorem execStagingBaseAllocate_held (s : State) (n : Nat) (g : Group) (group : s.groupAt n = some g) (held : g.state = .held)
    (on : s.scheduled g.ctx = true) : execStagingBaseAllocate n s = .next (s.agentDo' g.ctx g.tcb (s.allocate g)) := by
  simp only [execStagingBaseAllocate, group, held, on, and_self, if_true]

/-- The group with its base. -/
def Group.based (g : Group) (b : Nat) : Group := { g with base := some b, state := if g.stages.isEmpty then .ready else .staging }

theorem allocate_none (s : State) (g : Group) (h : s.baseFor g = none) : s.allocate g = .ok s := by
  simp only [State.allocate, h]

/-- The base is written at BASEOFF, where the task asks for it. -/
theorem allocate_some (s : State) (g : Group) (b : Nat) (h : s.baseFor g = some b) :
    (g.baseOff = 0xFFFF → s.allocate g = .ok (s.setGroup (g.based b))) ∧
    (g.baseOff ≠ 0xFFFF → ∀ u, s.agentWrite g.ctx (g.args.toNat + g.baseOff) (bytesOfNat 8 b) true = .ok u →
      s.allocate g = .ok (u.setGroup (g.based b))) := by
  constructor
  · intro e
    simp only [State.allocate, h, if_pos e]
    rfl
  · intro e u w
    simp only [State.allocate, h, if_neg e, w]
    rfl

theorem execStagingCopyComplete_staging (s : State) (n : Nat) (g : Group) (group : s.groupAt n = some g) (staging : g.state = .staging)
    (on : s.scheduled g.ctx = true) : execStagingCopyComplete n s = .next (s.stageNext g) := by
  simp only [execStagingCopyComplete, group, staging, on, and_self, if_true]

/-- The staging copy that a group makes next. -/
def Group.nextCopy (g : Group) : CopyDesc := copyDescOf (g.stages.getD g.stagesDone [])

/-- A staging copy without VER whose source lies in range is copied. -/
theorem stageNext_copies (s : State) (g : Group) (ver : g.nextCopy.ver = false)
    (range : g.nextCopy.total = 0 ∨ s.srcFault g.ctx g.home g.nextCopy .cpy [] = none) :
    s.stageNext g = s.stageCopy g g.nextCopy := by
  unfold Group.nextCopy at *
  rcases range with e | e <;> simp only [State.stageNext, ver, e, Bool.false_eq_true, if_true, if_false, ite_self]

/-- A staging copy of a tensor waits for the version that it expects (R256). -/
theorem stageNext_waits (s : State) (g : Group) (t : Desc) (ver : g.nextCopy.ver = true)
    (desc : s.readDesc g.ctx g.nextCopy.tidx true = .ok t) (live : t.live = true)
    (bound : (bindingOf g.bindings g.nextCopy.tidx).bound = true) (range : s.srcFault g.ctx g.home g.nextCopy .cpy [] = none)
    (size : g.nextCopy.total ≠ 0) (early : t.version < g.nextCopy.expver) : s.stageNext g = s := by
  unfold Group.nextCopy at *
  simp only [State.stageNext, ver, desc, live, bound, range, size, early, Bool.true_eq_false, or_self, ne_eq, not_false_eq_true,
    and_self, if_true, if_false]

/-- What the next staging copy of a group reads. -/
def State.staged (s : State) (g : Group) (d : CopyDesc) : Gathered :=
  s.gather ⟨g.ctx, g.home, false, g.cells, .task⟩ d .cpy [] (g.base.getD 0) d.total 0 ⟨[], [], [], .ran⟩

/-- A group after a staging copy. -/
def Group.copied (g : Group) : Group :=
  { g with stagesDone := g.stagesDone + 1, state := if g.stages.length ≤ g.stagesDone + 1 then .ready else .staging }

/-- A staging copy that runs to its end moves its bytes, and the group goes on (R257, R312). -/
theorem stageCopy_ran (s u : State) (g : Group) (d : CopyDesc) (staging : g.state = .staging) (ran : (s.staged g d).stop = .ran)
    (put : (s.setGroup g.copied).putBytes ((s.staged g d).bytes.flatMap fun b => b.keys.map fun k => (k, b.val)) = .ok u) :
    s.stageCopy g d = u := by
  unfold State.staged Group.copied at *
  simp only [State.stageCopy, ran, staging, put]

/-! ### The start of shards (R306) -/

theorem holdRun_noPlate (s : State) (g : Group) (h : g.plateBase = none) : s.holdRun g = s := by
  simp [State.holdRun, h]

theorem cellsFree_iff (s : State) (g : Group) :
    s.cellsFree g = true ↔ ∀ c ∈ g.cells, (s.cellAt c).free = true ∧ (s.cellAt c).held = some g.id := by
  simp [State.cellsFree]

/-- SHARD_START where the group cannot start yet. -/
theorem execShardStart_waits (s : State) (n : Nat) (g : Group) (group : s.arbitrate.groupAt n = some g)
    (h : g.state ≠ .ready ∨ (s.arbitrate.holdRun g).scheduled g.ctx = false) :
    execShardStart n s = .next (s.arbitrate.holdRun g) := by
  simp only [execShardStart, group, if_pos h]

section

variable {s : State} {n : Nat} {g : Group} (group : s.arbitrate.groupAt n = some g) (ready : g.state = .ready)
  (on : (s.arbitrate.holdRun g).scheduled g.ctx = true)

include group ready on

/-- SHARD_START of a task whose kernel may not run any more (R69). -/
theorem execShardStart_fails (gone : ((s.arbitrate.holdRun g).ctxAt g.ctx).runnable g.kslot = none) :
    execShardStart n s = .next ((s.arbitrate.holdRun g).agentDo g.ctx g.tcb ((s.arbitrate.holdRun g).failTask g.ctx
      (((s.arbitrate.holdRun g).ctxAt g.ctx).tcbIndex g.tcb) (g.home / 64))) := by
  simp only [execShardStart, group, ready, on, gone, dieOf, ne_eq, not_true_eq_false, false_or, Bool.true_eq_false, if_false]

/-- SHARD_START of a group whose kernel may run: the shards start together, or wait. -/
theorem execShardStart_runs (k : Kernel) (runs : ((s.arbitrate.holdRun g).ctxAt g.ctx).runnable g.kslot = some k) :
    execShardStart n s = if (s.arbitrate.holdRun g).cellsFree g = true ∧ k.eagerReady g.cells = true
      then .next ((s.arbitrate.holdRun g).agentDo' g.ctx g.tcb ((s.arbitrate.holdRun g).startGroup g k))
      else .next (s.arbitrate.holdRun g) := by
  simp only [execShardStart, group, ready, on, runs, ne_eq, not_true_eq_false, false_or, Bool.true_eq_false, if_false]

end

/-- The bank in which shard `n` of a group starts on a cell: it keeps whether the cell holds a shard that has yielded (R293). -/
def startedBank (x : Ctx) (k : Kernel) (g : Group) (n : Nat) (c : Cell) : Bank :=
  (shardBank x k g n 0).mapCtl fun t => { t with yielding := c.active.ctl.yielding }

theorem startShard_cellAt (s : State) (g : Group) (k : Kernel) (n c : Nat) (h : c < 256) :
    ((s.startShard g k n c).cellAt c).held = none ∧
      ((s.startShard g k n c).cellAt c).active = startedBank (s.ctxAt g.ctx) k g n (s.cellAt c) := by
  simp only [State.startShard, setCell_cellAt _ _ _ h]
  exact ⟨rfl, rfl⟩

theorem startShard_cellAt_ne (s : State) (g : Group) (k : Kernel) (n c d : Nat) (h : c ≠ d) :
    (s.startShard g k n c).cellAt d = s.cellAt d := setCell_cellAt_ne _ _ _ _ h

@[simp] theorem startShard_ctxAt (s : State) (g : Group) (k : Kernel) (n c x : Nat) : (s.startShard g k n c).ctxAt x = s.ctxAt x := rfl

/-- Shards by number and cell start in order. -/
def State.startShards (s : State) (g : Group) (k : Kernel) (l : List (Nat × Nat)) : State :=
  l.foldl (fun t q => t.startShard g k q.1 q.2) s

@[simp] theorem startShards_mem (s : State) (g : Group) (k : Kernel) (l : List (Nat × Nat)) : (s.startShards g k l).mem = s.mem :=
  foldl_mem _ (fun _ _ => startShard_mem _ _ _ _ _) l s

theorem startShards_cellAt_other (g : Group) (k : Kernel) (c : Nat) (l : List (Nat × Nat)) :
    ∀ s : State, c ∉ l.map Prod.snd → (s.startShards g k l).cellAt c = s.cellAt c := by
  induction l with
  | nil => intro s _; rfl
  | cons q l ih =>
    intro s h
    rw [List.map_cons, List.mem_cons, not_or] at h
    exact (ih _ h.2).trans (startShard_cellAt_ne s g k q.1 q.2 c (Ne.symm h.1))

/-- Each shard starts in the bank of its own cell, whatever starts on the others. -/
theorem startShards_cellAt (g : Group) (k : Kernel) (n c : Nat) (hc : c < 256) (l : List (Nat × Nat)) :
    ∀ s : State, (l.map Prod.snd).Nodup → (n, c) ∈ l →
      ((s.startShards g k l).cellAt c).held = none ∧
        ((s.startShards g k l).cellAt c).active = startedBank (s.ctxAt g.ctx) k g n (s.cellAt c) := by
  induction l with
  | nil => intro s _ h; exact absurd h (List.not_mem_nil)
  | cons q l ih =>
    intro s nodup h
    rw [List.map_cons, List.nodup_cons] at nodup
    have first : s.startShards g k (q :: l) = (s.startShard g k q.1 q.2).startShards g k l := rfl
    rw [first]
    rcases List.mem_cons.mp h with rfl | later
    · rw [startShards_cellAt_other g k c l _ nodup.1]
      exact startShard_cellAt s g k n c hc
    · have ne : q.2 ≠ c := fun e => nodup.1 (e ▸ List.mem_map_of_mem (f := Prod.snd) later)
      rw [← startShard_cellAt_ne s g k q.1 q.2 c ne, ← startShard_ctxAt s g k q.1 q.2 g.ctx]
      exact ih _ nodup.2 later

@[simp] theorem growPlate_cells (s : State) (g : Graph) (old new : Plate) : (s.growPlate g old new).cells = s.cells := by
  unfold State.growPlate
  split <;> rfl

@[simp] theorem recordStart_cells (s : State) (g : Group) (k : Kernel) (futs : Bool) : (s.recordStart g k futs).cells = s.cells := by
  simp only [State.recordStart]
  split
  · rfl
  · split
    · rfl
    · split
      · rfl
      · exact growPlate_cells _ _ _ _

theorem dequeue_active (s : State) (x i c : Nat) (h : c < 256) : ((s.dequeue x i).cellAt c).active = (s.cellAt c).active := by
  rw [State.cellAt, State.dequeue, vget_map _ _ c (Cell.reset 0) _ h, ← State.cellAt]

/-- What `startGroup` does where the TCB can be read and written. -/
theorem startGroup_starts (s u v : State) (g : Group) (k : Kernel) (b : List Byte)
    (tcb : s.readTcb g.ctx ((s.ctxAt g.ctx).tcbIndex g.tcb) = .ok b)
    (written : s.writeTcb g.ctx ((s.ctxAt g.ctx).tcbIndex g.tcb) 0 (withState b 5 false) = .ok v)
    (started : s.startGroup g k = .ok u) :
    u.mem = v.mem ∧ u.cells = ((v.dequeue g.ctx ((s.ctxAt g.ctx).tcbIndex g.tcb)).startShards g k
      ((List.range g.cells.length).zip g.cells)).cells := by
  simp only [State.startGroup, tcb, written, bind, Except.bind, Except.ok.injEq] at started
  subst started
  refine ⟨?_, ?_⟩
  · rw [recordStart_mem, setGroup_mem, ← State.startShards, startShards_mem, dequeue_mem]
  · rw [recordStart_cells]
    rfl

/-- Each shard of a group stands on its own cell. -/
theorem startGroup_shard (s u v : State) (g : Group) (k : Kernel) (b : List Byte)
    (tcb : s.readTcb g.ctx ((s.ctxAt g.ctx).tcbIndex g.tcb) = .ok b)
    (written : s.writeTcb g.ctx ((s.ctxAt g.ctx).tcbIndex g.tcb) 0 (withState b 5 false) = .ok v)
    (started : s.startGroup g k = .ok u) (nodup : g.cells.Nodup) (range : ∀ c ∈ g.cells, c < 256) (n c : Nat)
    (place : g.cells[n]? = some c) :
    (u.cellAt c).held = none ∧ (u.cellAt c).active = startedBank (v.ctxAt g.ctx) k g n (v.cellAt c) := by
  have hc : c < 256 := range c (List.mem_of_getElem? place)
  obtain ⟨-, cells⟩ := startGroup_starts s u v g k b tcb written started
  have snds : ((List.range g.cells.length).zip g.cells).map Prod.snd = g.cells := List.map_snd_zip (by simp)
  have here : (n, c) ∈ (List.range g.cells.length).zip g.cells := by
    obtain ⟨hn, -⟩ := List.getElem?_eq_some_iff.mp place
    exact List.mem_of_getElem? (List.getElem?_zip_eq_some.mpr ⟨List.getElem?_range hn, place⟩)
  have shard := startShards_cellAt g k n c hc _ (v.dequeue g.ctx ((s.ctxAt g.ctx).tcbIndex g.tcb)) (snds.symm ▸ nodup) here
  rw [State.cellAt, cells, ← State.cellAt]
  obtain ⟨held, active⟩ := shard
  refine ⟨held, active.trans ?_⟩
  rw [startedBank, startedBank, dequeue_active _ _ _ _ hc]
  rfl

/-! ### The completion of a task forms and ends no group (R280) -/

@[simp] theorem putParts_sched (ps : List RowPart) : ∀ (s : State) (bs : List Byte), (s.putParts ps bs).sched = s.sched := by
  induction ps with
  | nil => intro s bs; rfl
  | cons p ps ih => intro s bs; rw [State.putParts, ih]

theorem writeParts_sched {s t : State} {ps : List RowPart} {bs : List Byte} (e : s.writeParts ps bs = .ok t) :
    t.sched = s.sched := by
  unfold State.writeParts at e
  split at e
  · cases e
  · cases e
    exact putParts_sched ps s bs

theorem agentWrite_sched {s t : State} {x g : Nat} {bs : List Byte} {annotated : Bool}
    (e : s.agentWrite x g bs annotated = .ok t) : t.sched = s.sched := by
  unfold State.agentWrite at e
  split at e
  · exact writeParts_sched e
  · cases e

theorem writeTcb_sched {s t : State} {x i off : Nat} {bs : List Byte} (e : s.writeTcb x i off bs = .ok t) :
    t.sched = s.sched := agentWrite_sched e

theorem writeTcb_groups {s t : State} {x i off : Nat} {bs : List Byte} (e : s.writeTcb x i off bs = .ok t) :
    t.sched.groups = s.sched.groups := congrArg Sched.groups (writeTcb_sched e)

theorem writeCompletion_sched {s t : State} {x : Nat} {compl seq : Word} {status ty : Nat}
    (e : s.writeCompletion x compl seq status ty = .ok t) : t.sched = s.sched := by
  unfold State.writeCompletion at e
  split at e
  · cases e; rfl
  · exact agentWrite_sched e

theorem makeReady_groups {s t : State} {x i die : Nat} (e : s.makeReady x i die = .ok t) :
    t.sched.groups = s.sched.groups := by
  simp only [State.makeReady, bind_ok] at e
  obtain ⟨b, -, e⟩ := e
  split at e
  · split at e <;> obtain ⟨u, written, e⟩ := (bind_ok _ _ _).mp e <;> cases e <;>
      exact (writeTcb_groups written :)
  · obtain ⟨u, written, e⟩ := (bind_ok _ _ _).mp e
    cases e
    exact (writeTcb_groups written :)

/-- The groups of the state in which a decrement ends are those given. -/
def DecEnd.HasGroups (l : List Group) : DecEnd → Prop
  | .done s => s.sched.groups = l
  | .cancelled s => s.sched.groups = l
  | .bad => True

theorem decPred_groups {s : State} {x i die : Nat} {d : DecEnd} (e : s.decPred x i die = .ok d) : d.HasGroups s.sched.groups := by
  simp only [State.decPred, bind_ok] at e
  obtain ⟨b, -, e⟩ := e
  split at e
  · obtain ⟨u, written, e⟩ := (bind_ok _ _ _).mp e
    have hu : u.sched.groups = s.sched.groups := writeTcb_groups written
    split at e
    · split at e <;> obtain ⟨v, next, e⟩ := (bind_ok _ _ _).mp e <;> cases e
      · exact (writeTcb_groups next).trans hu
      · exact (makeReady_groups next).trans hu
    · cases e
      exact hu
  · cases e
    trivial

@[simp] theorem send_sched (s : State) (o : Out) : (s.send o).sched = s.sched := rfl

@[simp] theorem distribute_groups (s : State) (p : Plate) : (s.distribute p).sched.groups = s.sched.groups := by
  unfold State.distribute
  induction (List.range s.dev.gangSize).filter _ generalizing s with
  | nil => rfl
  | cons d l ih => exact ih _

@[simp] theorem dropRecording_groups (s : State) (g : Graph) : (s.dropRecording g).sched.groups = s.sched.groups := by
  unfold State.dropRecording
  split
  · split <;> rfl
  · rfl

@[simp] theorem plateEnds_groups (s : State) (g : Graph) : (s.plateEnds g).sched.groups = s.sched.groups := by
  unfold State.plateEnds
  split
  · rfl
  · split
    · split
      · exact distribute_groups _ _
      · exact dropRecording_groups _ _
    · split <;> rfl

theorem finishGraph_groups {s t : State} {g : Graph} (e : s.finishGraph g = .ok t) : t.sched.groups = s.sched.groups := by
  simp only [State.finishGraph, bind_ok] at e
  obtain ⟨u, written, e⟩ := e
  cases e
  have same := congrArg Sched.groups (writeCompletion_sched written)
  exact (plateEnds_groups u g).trans same

theorem putGraph_groups {s t : State} {g : Graph} (e : s.putGraph g = .ok t) : t.sched.groups = s.sched.groups := by
  unfold State.putGraph at e
  split at e
  · exact (finishGraph_groups e).trans rfl
  · cases e
    rfl

theorem countEnd_groups {s t : State} {x i final : Nat} (e : s.countEnd x i final = .ok t) : t.sched.groups = s.sched.groups := by
  simp only [State.countEnd] at e
  split at e
  · cases e
    rfl
  · refine (putGraph_groups e).trans ?_
    split
    · rfl
    · exact dropRecording_groups _ _

theorem Work.dec_groups {w : Work} {x t die : Nat} {fault : AgentFault} {r : Work × Ending} (e : w.dec x t die fault = .ok r) :
    r.1.s.sched.groups = w.s.sched.groups := by
  simp only [Work.dec, bind_ok] at e
  obtain ⟨d, dec, e⟩ := e
  have same := decPred_groups dec
  cases d <;> cases e
  · exact same
  · exact same
  · rfl

theorem Work.decAll_groups (x die tcb : Nat) (l : List Nat) :
    ∀ {w : Work} {r : Work × Ending}, w.decAll x die tcb l = .ok r → r.1.s.sched.groups = w.s.sched.groups := by
  induction l with
  | nil => intro w r e; cases e; rfl
  | cons t l ih =>
    intro w r e
    simp only [Work.decAll, bind_ok] at e
    obtain ⟨a, one, b, rest, e⟩ := e
    cases e
    exact (ih rest).trans (Work.dec_groups one)

theorem Work.settle_groups {w : Work} {x die tcb fut final : Nat} {r : Work × Ending} (e : w.settle x die tcb fut final = .ok r) :
    r.1.s.sched.groups = w.s.sched.groups := by
  simp only [Work.settle] at e
  split at e
  · cases e
    rfl
  · simp only [bind_ok] at e
    obtain ⟨ps, -, bs, -, e⟩ := e
    split at e
    · cases e
      rfl
    · obtain ⟨u, written, e⟩ := (bind_ok _ _ _).mp e
      have hu : u.sched.groups = w.s.sched.groups := congrArg Sched.groups (writeParts_sched written)
      split at e
      · cases e
        exact hu
      · obtain ⟨d, dec, e⟩ := (bind_ok _ _ _).mp e
        have same := decPred_groups dec
        cases d <;> cases e
        · exact same.trans hu
        · exact same.trans hu
        · rfl

theorem Work.complete_groups (x die : Nat) (fuel : Nat) :
    ∀ {l : Ending} {w r : Work}, Work.complete x die fuel l w = .ok r → r.s.sched.groups = w.s.sched.groups := by
  induction fuel with
  | zero => intro l w r e; cases e; rfl
  | succ fuel ih =>
    intro l w r e
    match l, e with
    | [], e => cases e; rfl
    | (i, final) :: rest, e =>
      simp only [Work.complete, bind_ok] at e
      obtain ⟨b, -, succ, -, w1, decs, w2, settled, u, counted, e⟩ := e
      calc r.s.sched.groups = u.sched.groups := ih e
        _ = w2.1.s.sched.groups := countEnd_groups counted
        _ = w1.1.s.sched.groups := Work.settle_groups settled
        _ = w.s.sched.groups := Work.decAll_groups _ _ _ _ decs

theorem endTask_groups {s : State} {x i final die : Nat} {w : Work} (e : s.endTask x i final die = .ok w) :
    w.s.sched.groups = s.sched.groups := by
  simp only [State.endTask, bind_ok] at e
  obtain ⟨b, -, u, written, e⟩ := e
  exact (Work.complete_groups _ _ _ e).trans (writeTcb_groups written)

theorem retireDesc_sched {s t : State} {x idx : Nat} (e : s.retireDesc x idx = .ok t) : t.sched = s.sched := by
  simp only [State.retireDesc, bind_ok] at e
  obtain ⟨b, -, e⟩ := e
  exact agentWrite_sched e

theorem acceptPacket_sched {s t : State} {x q len ty status : Nat} {compl seq : Word}
    (e : s.acceptPacket x q len ty status compl seq = .ok t) : t.sched = s.sched := by
  simp only [State.acceptPacket, State.advanceHead, bind_ok] at e
  obtain ⟨u, completed, d, -, v, written, e⟩ := e
  cases e
  exact (agentWrite_sched written).trans (writeCompletion_sched completed)

theorem settleRetires_sched {s t : State} {x : Nat} (e : s.settleRetires x = .ok t) : t.sched = s.sched := by
  unfold State.settleRetires at e
  generalize (s.ctxAt x).retirePending = l at e
  induction l generalizing s with
  | nil => cases e; rfl
  | cons r l ih =>
    rw [List.foldlM_cons, bind_ok] at e
    obtain ⟨u, one, rest⟩ := e
    refine (ih rest).trans ?_
    split at one
    · cases one
      rfl
    · obtain ⟨v, retired, one⟩ := (bind_ok _ _ _).mp one
      have same := retireDesc_sched retired
      exact (acceptPacket_sched one).trans same

/-- A group that has completed is there no more (R307). -/
theorem completeGroup_gone {s : State} {g : Group} {w : Work} (e : s.completeGroup g = .ok w) :
    ∀ h ∈ w.s.sched.groups, h.id ≠ g.id := by
  simp only [State.completeGroup, bind_ok] at e
  obtain ⟨u, -, v, ended, t, retired, e⟩ := e
  cases e
  intro h mem
  rw [show t.sched.groups = v.s.sched.groups from congrArg Sched.groups (settleRetires_sched retired), endTask_groups ended,
    List.mem_filter] at mem
  exact bne_iff_ne.mp mem.2

theorem execGroupCompletion_completes (s : State) (n : Nat) (g : Group) (w : Work) (group : s.groupAt n = some g)
    (running : g.state = .running) (halted : ∀ b ∈ g.halted, b = true) (completed : s.completeGroup g = .ok w)
    (quiet : w.faults = []) : execGroupCompletion n s = .next w.s := by
  have all : g.halted.all id = true := List.all_eq_true.mpr halted
  simp only [execGroupCompletion, group, running, all, and_self, if_true, completed, State.agentDo, quiet, List.foldl_nil]

theorem execGroupCompletion_waits (s : State) (n : Nat) (g : Group) (group : s.groupAt n = some g)
    (h : g.state ≠ .running ∨ false ∈ g.halted) : execGroupCompletion n s = .next s := by
  have wait : ¬ (g.state = .running ∧ g.halted.all id = true) := fun ⟨running, all⟩ =>
    h.elim (· running) fun mem => Bool.false_ne_true (List.all_eq_true.mp all false mem)
  simp only [execGroupCompletion, group, if_neg wait]

/-! ### The statement -/

/-- Settles O56: what each event of scheduling does, by the lemmas above. -/
theorem dispatching : Obligations.Dispatching := by
  refine ⟨lowestBase_lowest, fun s g first => ⟨arbitrate_waits s g first, fun cells chosen => ?_⟩, arbitrate_none,
    fun s cell h => ⟨?_, ?_, ?_, ?_, ?_, ?_, ?_, ?_⟩, fun s n g group => ⟨?_, ?_, ?_, ?_, ?_, ?_, ?_⟩,
    fun s n g group => ⟨?_, ?_, ?_⟩, fun s n g group => ⟨?_, ?_⟩⟩
  · rw [arbitrate_serves s g cells first chosen]
    refine ⟨by simp, by rw [holdCells_sched, setGroup_groups]; rfl, fun c hc => ?_⟩
    exact holdCells_held _ _ c hc
  -- decisions
  · rintro (closed | none)
    · exact execTaskDispatch_idle s cell h (.inl (closed ∘ (mayDecide_iff s cell).mp))
    · exact execTaskDispatch_idle s cell h (.inr none)
  · intro opened k head b tcb
    have may := (mayDecide_iff s cell).mpr opened
    refine ⟨fun w u checks fail pass => ⟨failTask_faults _ _ _ _ _ fail, ?_⟩, fun d u checks pass => ⟨?_, ?_⟩⟩
    · exact execTaskDispatch_decides s cell k { w with s := u } h may head (decideTask_fails s cell _ _ b w u tcb checks fail pass)
    · exact ⟨rfl, rfl, rfl, rfl, rfl, rfl, rfl, rfl, rfl, rfl, rfl, rfl, rfl, rfl⟩
    · exact execTaskDispatch_decides s cell k ⟨u, []⟩ h may head (decideTask_forms s cell _ _ b d u tcb checks pass)
  -- stealing
  · intro may left
    obtain ⟨lfsr, v, run, other, near⟩ := execStealRequest_asks s cell h may left
    refine ⟨_, v, run, ?_, ?_, other, near, ?_, rfl⟩ <;> rw [setSteal_cellAt _ _ _ h]
  · intro may
    simp [execStealRequest, h, may]
  · intro none
    simp [execStealAnswer, h, none]
  · intro v asked
    refine ⟨fun empty => ⟨_, execStealAnswer_empty s cell v h asked empty, rfl, rfl, ?_⟩, fun k there given => ⟨?_, ?_⟩⟩
    · rw [setSteal_cellAt _ _ _ h]
    · intro may
      exact (execStealAnswer_takes s cell v k h asked there given).trans (if_neg (by simp [may]))
    · intro may u decided
      refine (execStealAnswer_takes s cell v k h asked there given).trans ((if_pos may).trans ?_)
      exact congrArg (fun r => Host.Outcome.next (State.arbitrate (State.agentDo _ _ _ r))) decided
  · intro backoff
    simp [execStealBackoffExpiry, h, backoff, State.setSteal]
  · intro backoff
    simp [execStealBackoffExpiry, h, backoff]
  -- staging
  · exact baseFor_lowest s g
  · exact baseFor_plate s g
  · intro held on none
    rw [exec_stagingBaseAllocate, execStagingBaseAllocate_held s n g group held on, allocate_none s g none]
    rfl
  · intro held on b base
    have based : g.based b = { g with base := some b, state := if g.stages = [] then .ready else .staging } := by
      simp [Group.based]
    obtain ⟨silent, told⟩ := allocate_some s g b base
    rw [exec_stagingBaseAllocate, execStagingBaseAllocate_held s n g group held on, ← based]
    exact ⟨fun off => by rw [silent off]; rfl, fun off u written => by rw [told off u written]; rfl⟩
  · intro other
    simp [execStagingBaseAllocate, group, other]
  · intro staging on
    rw [exec_stagingCopyComplete, execStagingCopyComplete_staging s n g group staging on]
    refine ⟨fun ver range ran u put => ?_, fun ver t desc live bound range size early => ?_⟩
    · rw [stageNext_copies s g ver range, stageCopy_ran s u g g.nextCopy staging ran put]
    · rw [stageNext_waits s g t ver desc live bound range size early]
  · intro other
    simp [execStagingCopyComplete, group, other]
  -- the start of shards
  · exact holdRun_noPlate _ _
  · exact execShardStart_waits s n g group
  · intro ready on
    refine ⟨fun gone w fail => ?_, fun k runs => ⟨fun wait => ?_, fun go b v u tcb written started => ⟨?_, ?_, ?_⟩⟩⟩
    · rw [exec_shardStart, execShardStart_fails group ready on gone, fail]
      rfl
    · exact (execShardStart_runs group ready on k runs).trans (if_neg (wait ∘ And.imp_left (cellsFree_iff _ g).mp))
    · rw [exec_shardStart, execShardStart_runs group ready on k runs, if_pos (And.imp_left (cellsFree_iff _ g).mpr go), started]
      rfl
    · exact (startGroup_starts _ u v g k b tcb written started).1
    · intro nodup range j c place
      exact startGroup_shard _ u v g k b tcb written started nodup range j c place
  -- the end of a group
  · exact fun running halted w completed quiet =>
      ⟨execGroupCompletion_completes s n g w group running halted completed quiet, completeGroup_gone completed⟩
  · exact execGroupCompletion_waits s n g group

end Sys2Proof.Machine
end

section
/-! PROOFS. What the device does at a stream and at a cell (R24, R25, R62, R69 to R75, R213 to R223, R341 to R346). -/

namespace Sys2Proof.Machine

open Sys2Proof

/-! ### Skips and decode faults (R28, R49, R50) -/

/-- Recording a first fault changes nothing else that a program sees (R43, R88). -/
theorem raised_record (s : State) (n : Nat) (c : Cause) (f : Word) (h : s.faultless) :
    Raised s (s.record ⟨n, c, f, 1, 0, none⟩) n c f := by
  have e : s.record ⟨n, c, f, 1, 0, none⟩ =
      s.setBank (s.bank.mapCtl fun k => { k with fault := some ⟨n, c, f, 1, 0, none⟩, atCut := false }) := by
    simp only [State.record, State.faultless] at *
    rw [h]
  rw [e]
  exact ⟨by simp, ⟨by simp, by simp⟩, ⟨by simp, by simp, by simp⟩, by simp, by simp, sameDevice_setBank _ _⟩

/-- A word of TAG 0b11 is tagged for no stream (R28). -/
theorem taggedFor_reserved (w : IWord) (st : Stream) (h : tagOf w = 3#2) : taggedFor w st = false := by
  cases st <;> simp [taggedFor, h]

section

variable {s : State} {two : Bool} {w : IWord} {next : Option IWord}

/-- A stream does not skip a word that is its own, or of another length. -/
theorem execStreamSkip_passes (here : s.wordHere = some (w, next)) (h : taggedFor w s.turn = true ∨ (tagOf w ≠ 3#2 ∧ longOf w ≠ two)) :
    execStreamSkip two s = .next s := by
  simp only [execStreamSkip, here, if_pos h]

variable (here : s.wordHere = some (w, next)) (other : taggedFor w s.turn = false) (len : tagOf w = 3#2 ∨ longOf w = two)

include other len

theorem skips_here : ¬ (taggedFor w s.turn = true ∨ (tagOf w ≠ 3#2 ∧ longOf w ≠ two)) := by
  rw [other]
  exact fun h => h.elim Bool.false_ne_true fun ⟨tag, long⟩ => len.elim tag long

include here

/-- A stream that leads by its window stalls before it skips (R81). -/
theorem execStreamSkip_stalls (held : s.bank.window s.turn ≤ s.bank.lead s.turn) :
    execStreamSkip two s = .next (s.slipStall s.turn) := by
  simp only [execStreamSkip, here, if_neg (skips_here other len), if_pos held]

/-- What a stream does at a word of another: a reserved TAG faults, an SRD or SWR that it must meet holds the X stream, and every
other word is skipped (R28, R39). -/
theorem execStreamSkip_moves (free : ¬ (s.bank.window s.turn ≤ s.bank.lead s.turn)) :
    execStreamSkip two s = .next (
      if tagOf w = 3#2 then s.raise s.turn .fetchMalformed (s.bank.pc s.turn)
      else if s.turn = .x ∧ meetsX w = true ∧ s.bank.walk.wmaxa ≤ s.bank.walk.wx then s.stallPeer .x
      else s.skip s.turn (if two then 2 else 1)) := by
  simp only [execStreamSkip, here, if_neg (skips_here other len), if_neg free, State.fetchWord]
  by_cases tag : tagOf w = 3#2
  · simp only [if_pos tag]
  · simp only [if_neg tag, other, Bool.false_eq_true, if_false, len.resolve_left tag]
    by_cases meets : s.turn = .x ∧ meetsX w = true ∧ s.bank.walk.wmaxa ≤ s.bank.walk.wx
    · simp only [if_pos meets]
    · simp only [if_neg meets]

end

section

variable {s : State} {two : Bool} {w : IWord} {next : Option IWord} (here : s.wordHere = some (w, next))
  (free : ¬ s.bank.window s.turn ≤ s.bank.lead s.turn)

include here free

/-- A reserved TAG faults (R28). -/
theorem streamSkip_reserved (first : s.faultless) (tag : tagOf w = 3#2) :
    ∃ t, execStreamSkip two s = .next t ∧ Raised s t (streamCode s.turn) .fetchMalformed (s.bank.pc s.turn) := by
  refine ⟨_, execStreamSkip_moves here (taggedFor_reserved w s.turn tag) (.inl tag) free, ?_⟩
  rw [if_pos tag]
  exact raised_raise s _ _ _ first

variable (tag : tagOf w ≠ 3#2) (other : taggedFor w s.turn = false) (len : longOf w = two)

include tag other len

/-- The X stream waits at an SRD or SWR that the A stream has not met (R39). -/
theorem streamSkip_meets (meets : s.turn = .x ∧ meetsX w = true ∧ s.bank.walk.wmaxa ≤ s.bank.walk.wx) :
    ∃ t, execStreamSkip two s = .next t ∧ Waits s t s.turn := by
  refine ⟨_, execStreamSkip_moves here other (.inr len) free, ?_⟩
  rw [if_neg tag, if_pos meets, meets.1]
  exact waits_stallPeer s .x

theorem streamSkip_skips (apart : ¬ (s.turn = .x ∧ meetsX w = true ∧ s.bank.walk.wmaxa ≤ s.bank.walk.wx)) :
    execStreamSkip two s = .next (s.skip s.turn (if two then 2 else 1)) := by
  rw [execStreamSkip_moves here other (.inr len) free, if_neg tag, if_neg apart]

end

/-- A skip moves its stream's PC and walk count, and retires nothing (R28, R80). -/
theorem skip_frame (s : State) (st : Stream) (n : Nat) :
    (s.skip st n).bank.pc st = s.bank.pc st + wordOfNat (4 * n) ∧ (s.skip st n).bank.w st = s.bank.w st + n ∧
      (s.skip st n).bank.pc st.other = s.bank.pc st.other ∧ (s.skip st n).bank.w st.other = s.bank.w st.other ∧
      (s.skip st n).bank.sr.seqa = s.bank.sr.seqa ∧ (s.skip st n).bank.sr.seqx = s.bank.sr.seqx ∧ SameRegs s (s.skip st n) ∧
      SameUnits s (s.skip st n) ∧ SameDevice s (s.skip st n) := by
  have device : SameDevice s (s.skip st n) := sameDevice_setBank s _
  rw [State.skip] at *
  cases st <;> refine ⟨?_, ?_, ?_, ?_, ?_, ?_, ⟨?_, ?_⟩, ⟨?_, ?_, ?_⟩, device⟩ <;>
    simp [Bank.advance, Bank.setPc, Bank.setW, Bank.pc, Bank.w, Stream.other]

/-! ### A step of one cell -/

theorem onCell_runs (s : State) (cell : Nat) (h : cell < 256) (f : State → State) :
    s.onCell cell f = .next { f { s with cur := ⟨cell, h⟩ } with cur := s.cur } := dif_pos h

theorem cur_ctxAt (s : State) (c : Fin 256) (x : Nat) : ({ s with cur := c } : State).ctxAt x = s.ctxAt x := rfl

theorem cur_cellAt (s : State) (c : Fin 256) (i : Nat) : ({ s with cur := c } : State).cellAt i = s.cellAt i := rfl

/-- A cell that has moved, as seen by its number afterwards. -/
theorem cellAt_moved (t : State) (cell : Nat) (h : cell < 256) (c : Fin 256) (moved : t.cur = ⟨cell, h⟩) :
    ({ t with cur := c } : State).cellAt cell = t.cell := by
  simp [State.cellAt, State.cell, vget, h, moved]

theorem cellAt_active_moved (t : State) (cell : Nat) (h : cell < 256) (c : Fin 256) (moved : t.cur = ⟨cell, h⟩) :
    (({ t with cur := c } : State).cellAt cell).active = t.bank := by
  rw [cellAt_moved t cell h c moved]
  rfl

/-! ### A context is lost (R332, R398) -/

@[simp] theorem putParts_ctxs (ps : List RowPart) : ∀ (s : State) (bs : List Byte), (s.putParts ps bs).ctxs = s.ctxs := by
  induction ps with
  | nil => intro s bs; rfl
  | cons p ps ih => intro s bs; rw [State.putParts, ih]

theorem saveWrite_ctxs {s t : State} {x g : Nat} {bs : List Byte} (e : s.saveWrite x g bs = .ok t) : t.ctxs = s.ctxs := by
  unfold State.saveWrite at e
  split at e
  · cases e
  · split at e
    · cases e
    · cases e
      exact putParts_ctxs _ _ _

/-- No bank of any cell is a context's once its cells are released. -/
theorem releaseCells_owner (s : State) (x c : Nat) :
    ((s.releaseCells x).cellAt c).active.ctl.owner ≠ some x ∧ ((s.releaseCells x).cellAt c).shadow.ctl.owner ≠ some x := by
  by_cases hc : c < 256
  · rw [State.cellAt, State.releaseCells, vget_map _ _ c (Cell.reset 0) _ hc]
    have idle : Bank.reset.ctl.owner ≠ some x := nofun
    split
    · simp only [Cell.release]
      exact ⟨by split <;> assumption, by split <;> assumption⟩
    · simp_all
  · rw [show (s.releaseCells x).cellAt c = .reset 0 by simp [State.cellAt, vget, hc]]
    exact ⟨nofun, nofun⟩

/-- What losing a context means, where it is not FREE or RETIRED. -/
theorem loseCtx_lost (s : State) (x reason : Nat) (cause fva : Word) (fcell kind : Nat) (fseq tcb frame : Word) (hx : x < 64)
    (free : (s.ctxAt x).state ≠ .free) (retired : (s.ctxAt x).state ≠ .retired) :
    ((s.loseCtx x reason cause fva fcell kind fseq tcb frame).ctxAt x).state = .lost ∧
      ((s.loseCtx x reason cause fva fcell kind fseq tcb frame).ctxAt x).reason = reason ∧
      ∀ c, ((s.loseCtx x reason cause fva fcell kind fseq tcb frame).cellAt c).active.ctl.owner ≠ some x ∧
        ((s.loseCtx x reason cause fva fcell kind fseq tcb frame).cellAt c).shadow.ctl.owner ≠ some x := by
  simp only [State.loseCtx, free, retired, or_self, if_false]
  refine ⟨?_, ?_, fun c => releaseCells_owner _ x c⟩
  all_goals
    rw [State.ctxAt, show ∀ t : State, ((t.leavePlates x true).releaseCells x).ctxs = t.ctxs from fun _ => rfl]
    split
    next t saved =>
      rw [saveWrite_ctxs saved, ← State.ctxAt, setCtx_ctxAt _ _ _ hx]
    next => rw [← State.ctxAt, setCtx_ctxAt _ _ _ hx]

/-! ### The arrival of data (R25, R107) -/

/-- The counter of DRAM counts the words below 2^52, that of SRAM the others. -/
theorem corrected_inDram (b : Background) (addr : Nat) : b.corrected (inDram addr) =
    if addr < 2 ^ 52 then { b with dramCorrected := min (b.dramCorrected + 1) (2 ^ 64 - 1) }
    else { b with sramCorrected := min (b.sramCorrected + 1) (2 ^ 64 - 1) } := by
  simp only [Background.corrected, inDram, decide_eq_true_eq, satInc]

section

variable (s : State) (cell addr x : Nat) (h : cell < 256) (owner : ({ s with cur := ⟨cell, h⟩ } : State).bank.ctl.owner = some x)

include owner

theorem execLoadDataArrival_clean (sound : addr / 8 * 8 ∉ s.dev.poisoned) :
    execLoadDataArrival cell addr .clean s = .next s := by
  have good : s.dev.poisoned.contains (eccWord addr) = false := by simpa [eccWord] using sound
  rw [execLoadDataArrival, onCell_runs s cell h]
  simp only [owner, good, Bool.false_eq_true, if_false]

theorem execLoadDataArrival_corrected :
    execLoadDataArrival cell addr .correctable s = .next { s with dev := { s.dev with bg :=
      if addr < 2 ^ 52 then { s.dev.bg with dramCorrected := min (s.dev.bg.dramCorrected + 1) (2 ^ 64 - 1) }
      else { s.dev.bg with sramCorrected := min (s.dev.bg.sramCorrected + 1) (2 ^ 64 - 1) } } } := by
  rw [execLoadDataArrival, onCell_runs s cell h, ← corrected_inDram]
  simp only [owner]

theorem execLoadDataArrival_lost (hx : x < 64) (free : (s.ctxAt x).state ≠ .free) (retired : (s.ctxAt x).state ≠ .retired) :
    ∃ t, execLoadDataArrival cell addr .uncorrectable s = .next t ∧ (t.ctxAt x).state = .lost ∧ (t.ctxAt x).reason = 2 ∧
      ∀ c, (t.cellAt c).active.ctl.owner ≠ some x ∧ (t.cellAt c).shadow.ctl.owner ≠ some x := by
  rw [execLoadDataArrival, onCell_runs s cell h]
  simp only [owner]
  refine ⟨_, rfl, ?_⟩
  simp only [cur_ctxAt, cur_cellAt]
  exact loseCtx_lost _ _ _ _ _ _ _ _ _ _ hx free retired

end

/-! ### The watchdog (R341) -/

/-- The active bank's context comes first among the places of a cell. -/
theorem places_active (s : State) (c x : Nat) (owner : (s.cellAt c).active.ctl.owner = some x) :
    ∃ l, s.places c = (.active, x) :: l := by
  simp only [State.places, owner]
  exact ⟨_, rfl⟩

/-- The watchdog of the active bank is the first that is due. -/
theorem watchDue_active (s : State) (c x : Nat) (owner : (s.cellAt c).active.ctl.owner = some x) (there : (s.ctxAt x).state ≠ .lost)
    (watched : (s.cellAt c).active.watched = true) (due : 2 ^ (s.ctxAt x).wdshift ≤ (s.cellAt c).active.ctl.wdog) :
    s.watchDue c = some (.active, x) := by
  obtain ⟨l, places⟩ := places_active s c x owner
  rw [State.watchDue, places]
  refine List.find?_cons_of_pos ?_
  simp [State.watchCounts, State.bankIn, there, watched, due]

theorem watchDue_early (s : State) (c : Nat)
    (early : ∀ q ∈ s.places c, ∀ d, s.bankIn q.1 q.2 c = some d → d.watched = false ∨ d.ctl.wdog < 2 ^ (s.ctxAt q.2).wdshift) :
    s.watchDue c = none := by
  refine List.find?_eq_none.mpr fun q hq due => ?_
  simp only [Bool.and_eq_true, Option.any_eq_true, decide_eq_true_eq] at due
  obtain ⟨-, d, bank, watched, reached⟩ := due
  rcases early q hq d bank with e | e
  · simp [e] at watched
  · omega

/-- An expiry raises WATCHDOG where no fault is recorded, and ends the cut where one is. -/
theorem expire_eq (b : Bank) (spilling : Bool) : b.expire spilling = { b with ctl :=
    if b.ctl.fault = none then
      { b.ctl with fault := some ⟨0, .watchdog, 0, 1, 0, none⟩, atCut := true, wdog := 0, wdogCut := b.ctl.wdogCut || spilling }
    else { b.ctl with atCut := true, wdogCut := true, wdog := 0 } } := by
  simp only [Bank.expire, Bank.mapCtl]
  split
  next f fault => simp only [fault, reduceCtorEq, if_false]
  next fault => simp only [fault, if_true]

section

variable (s : State) (cell x : Nat) (h : cell < 256) (owner : (s.cellAt cell).active.ctl.owner = some x)
  (there : (s.ctxAt x).state ≠ .lost) (watched : (s.cellAt cell).active.watched = true)
  (due : 2 ^ (s.ctxAt x).wdshift ≤ (s.cellAt cell).active.ctl.wdog)

include h owner there watched due

theorem execWatchdogExpiry_faults (running : (s.cellAt cell).active.ctl.status = .running) :
    execWatchdogExpiry cell s = .next (s.setBankIn .active x cell ((s.cellAt cell).active.expire ((s.ctxAt x).state == .spilling))) := by
  rw [execWatchdogExpiry, onCell_runs s cell h]
  simp only [watchDue_active { s with cur := ⟨cell, h⟩ } cell x owner there watched due, State.bankIn, cur_cellAt, running,
    reduceCtorEq, if_false]
  rfl

theorem execWatchdogExpiry_handler (handler : (s.cellAt cell).active.ctl.status = .handler) :
    ∃ f, execWatchdogExpiry cell s =
      .next { State.handlerFault { s with cur := ⟨cell, h⟩ } f with cur := s.cur } := by
  rw [execWatchdogExpiry, onCell_runs s cell h]
  simp only [watchDue_active { s with cur := ⟨cell, h⟩ } cell x owner there watched due, State.bankIn, cur_cellAt, handler, if_true]
  exact ⟨_, rfl⟩

end

theorem execWatchdogExpiry_early (s : State) (cell : Nat) (h : cell < 256) (early : ∀ q ∈ s.places cell, ∀ d,
    s.bankIn q.1 q.2 cell = some d → d.watched = false ∨ d.ctl.wdog < 2 ^ (s.ctxAt q.2).wdshift) :
    execWatchdogExpiry cell s = .next s := by
  rw [execWatchdogExpiry, onCell_runs s cell h]
  simp only [watchDue_early { s with cur := ⟨cell, h⟩ } cell early]

/-! ### Page walks (R213, R217, R343) -/

theorem setPending_none (s : State) (x g : Nat) (h : (s.ctxAt x).swapping = false ∨ s.bank.ctl.dueAt (g / 65536) = none) :
    s.setPending x g = s := by
  unfold State.setPending
  rcases h with h | h
  · split <;> simp [h]
  · simp only [h]

theorem setPending_some (s : State) (x g : Nat) (f : FaultInfo) (swap : (s.ctxAt x).swapping = true) (first : s.bank.ctl.fault = none)
    (free : s.bank.ctl.pend = none) (due : s.bank.ctl.dueAt (g / 65536) = some f) :
    s.setPending x g = s.setBank { s.bank with ctl := { s.bank.ctl with pend := some f } } := by
  simp only [State.setPending, due, swap, first, free, and_self, if_true, Bank.mapCtl]

/-- The TLB once a walk's leaf is held: the newest entries stay. -/
def tlbWith (l : List TlbEntry) (e : TlbEntry) : List TlbEntry :=
  let rest := l.filter fun h => !(h.asid == e.asid && h.page == e.page)
  (rest ++ [e]).drop (rest.length + 1 - tlbSize)

theorem tlbWith_holds (l : List TlbEntry) (e : TlbEntry) : e ∈ tlbWith l e ∧ (tlbWith l e).length ≤ 512 := by
  unfold tlbWith
  extract_lets rest
  constructor
  · rw [List.drop_append_of_le_length (by unfold tlbSize; omega)]
    simp
  · simp only [List.length_drop, List.length_append, List.length_singleton, tlbSize]
    omega

/-- The cell holds a walk's leaf. -/
def State.learnLeaf (s : State) (x g : Nat) (l : Xlat) : State :=
  s.withCell { s.cell with tlb := tlbWith s.cell.tlb ⟨(s.ctxAt x).asid, g / 65536, l⟩ }

theorem learnLeaf_bank (s : State) (x g : Nat) (l : Xlat) : (s.learnLeaf x g l).bank = s.bank := withCell_bank _ _

theorem learnLeaf_tlb (s : State) (x g : Nat) (l : Xlat) :
    (s.learnLeaf x g l).cell.tlb = tlbWith s.cell.tlb ⟨(s.ctxAt x).asid, g / 65536, l⟩ := by
  rw [State.learnLeaf, withCell_cell]

theorem learnLeaf_ctxAt (s : State) (x g : Nat) (l : Xlat) (y : Nat) : (s.learnLeaf x g l).ctxAt y = s.ctxAt y := rfl

section

variable {s : State} {x g : Nat} (owner : s.bank.ctl.owner = some x)

include owner

theorem endWalk_leaf {l : Xlat} (walk : s.walk x g = .leaf l) : s.endWalk g = (s.learnLeaf x g l).setPending x g := by
  simp only [State.endWalk, State.owner, owner, walk, tlbWith, State.learnLeaf]

theorem endWalk_fails (walk : ∀ l, s.walk x g ≠ .leaf l) : s.endWalk g = s.setPending x g := by
  simp only [State.endWalk, State.owner, owner]

/-- Where no fault of the page is due, the end of a walk leaves its leaf alone. -/
theorem endWalk_quiet {l : Xlat} (walk : s.walk x g = .leaf l)
    (quiet : (s.ctxAt x).swapping = false ∨ s.bank.ctl.dueAt (g / 65536) = none) : s.endWalk g = s.learnLeaf x g l := by
  rw [endWalk_leaf owner walk, setPending_none]
  rw [learnLeaf_ctxAt, learnLeaf_bank]
  exact quiet

/-- While a swap runs, the first fault of the page is pending once the walk has ended, in either way. -/
theorem endWalk_pends {f : FaultInfo} (swap : (s.ctxAt x).swapping = true) (first : s.bank.ctl.fault = none)
    (free : s.bank.ctl.pend = none) (due : s.bank.ctl.dueAt (g / 65536) = some f) :
    ∃ t : State, s.endWalk g = t.setBank { s.bank with ctl := { s.bank.ctl with pend := some f } } ∧ t.mem = s.mem ∧ t.cur = s.cur := by
  by_cases walk : ∃ l, s.walk x g = .leaf l
  · obtain ⟨l, walk⟩ := walk
    refine ⟨s.learnLeaf x g l, ?_, rfl, rfl⟩
    rw [endWalk_leaf owner walk, setPending_some (s.learnLeaf x g l) x g f swap (by rwa [learnLeaf_bank]) (by rwa [learnLeaf_bank])
      (by rwa [learnLeaf_bank]), learnLeaf_bank]
  · exact ⟨s, by rw [endWalk_fails owner (not_exists.mp walk), setPending_some s x g f swap first free due], rfl, rfl⟩

end

/-! ### The galley (R69, R70, R73) -/

theorem settleKernel_slot (s : State) (x : Nat) (k : Kernel) : (s.settleKernel x k).slot = k.slot := by
  simp only [State.settleKernel]
  split <;> rfl

theorem settleKernel_eagerDone (s : State) (x : Nat) (k : Kernel) : (s.settleKernel x k).eagerDone = k.eagerDone := by
  simp only [State.settleKernel]
  split <;> rfl

/-- The kernel that a slot holds, once every kernel's die set has followed the galleys. -/
theorem settleKernels_kernelIn (s : State) (x slot : Nat) (hx : x < 64) :
    s.settleKernels.kernelIn x slot = (s.kernelIn x slot).map (s.settleKernel x) := by
  have same : (fun k : Kernel => k.slot == slot) ∘ s.settleKernel x = fun k => k.slot == slot :=
    funext fun k => congrArg (· == slot) (settleKernel_slot s x k)
  rw [State.kernelIn, State.ctxAt, State.settleKernels, vget_ofFn _ x _ hx, List.find?_map, same, ← State.kernelIn]

/-- Where one of the dies of a list is marked, its bit is set in the end. -/
theorem foldl_orBit (marked : Nat → Bool) (j : Nat) (hj : j < 4) (mark : marked j = true) (l : List Nat) :
    ∀ d : BitVec 4, d.getLsbD j = true ∨ j ∈ l →
      (l.foldl (fun d i => if marked i then d ||| BitVec.ofNat 4 (2 ^ i) else d) d).getLsbD j = true := by
  induction l with
  | nil => intro d h; exact h.resolve_right List.not_mem_nil
  | cons i l ih =>
    intro d h
    refine ih _ ?_
    rcases h with set | mem
    · left
      dsimp only
      split
      · rw [BitVec.getLsbD_or, set, Bool.true_or]
      · exact set
    · rcases List.mem_cons.mp mem with rfl | later
      · left
        have bit : (BitVec.ofNat 4 (2 ^ j)).getLsbD j = true := by
          rw [BitVec.getLsbD_ofNat, Nat.testBit_two_pow_self, decide_eq_true hj, Bool.true_and]
        dsimp only
        rw [if_pos mark, BitVec.getLsbD_or, bit, Bool.or_true]
      · exact .inr later

/-- A die whose galley holds a live entry of a chunk of a kernel is in the kernel's die set. -/
theorem dieSet_ne_zero (s : State) (x die : Nat) (k : Kernel) (hd : die < 4)
    (held : ∃ e ∈ (vget s.sched.galleys die ⟨[], 0⟩).entries, e.dead = false ∧ e.key.ctx = s.keyCtx x ∧ e.key.leaf ∈ k.leaves) :
    s.dieSet x k ≠ 0 := by
  have marked : (vget s.sched.galleys die ⟨[], 0⟩).entries.any (fun e => !e.dead && e.key.ctx == s.keyCtx x &&
      k.leaves.contains e.key.leaf) = true := by
    obtain ⟨e, mem, live, ctx, leaf⟩ := held
    exact List.any_eq_true.mpr ⟨e, mem, by simp [live, ctx, leaf]⟩
  intro zero
  have bit := foldl_orBit (fun i => (vget s.sched.galleys i ⟨[], 0⟩).entries.any fun e => !e.dead && e.key.ctx == s.keyCtx x &&
    k.leaves.contains e.key.leaf) die hd marked (List.range 4) 0 (.inr (List.mem_range.mpr hd))
  rw [show List.foldl _ _ (List.range 4) = s.dieSet x k from rfl, zero] at bit
  simp at bit

/-- A die's galley is replaced. -/
def State.putGalley (s : State) (die : Nat) (g : Galley) : State :=
  { s with sched := { s.sched with galleys := vset s.sched.galleys die g } }

theorem putGalley_kernelIn (s : State) (die x slot : Nat) (g : Galley) : (s.putGalley die g).kernelIn x slot = s.kernelIn x slot := rfl

theorem putGalley_cells (s : State) (die : Nat) (g : Galley) : (s.putGalley die g).cells = s.cells := rfl

theorem settleKernels_cells (s : State) : s.settleKernels.cells = s.cells := by simp only [State.settleKernels]

theorem putGalley_keyCtx (s : State) (die x : Nat) (g : Galley) : (s.putGalley die g).keyCtx x = s.keyCtx x := rfl

theorem putGalley_galley (s : State) (die : Nat) (g : Galley) (h : die < 4) :
    vget (s.putGalley die g).sched.galleys die ⟨[], 0⟩ = g := vget_vset_eq _ _ _ _ h

/-- A region that the galley holds is used again. -/
theorem enterGalley_hit (s : State) (die words : Nat) (key : GalleyKey) (e : GalleyEntry) (hit : s.galleyHit die key = some e) :
    s.enterGalley die key words = (s.putGalley die { vget s.sched.galleys die ⟨[], 0⟩ with
      entries := (vget s.sched.galleys die ⟨[], 0⟩).entries.map fun h => if h.gen == e.gen then { h with used := s.freeCtr } else h },
      e.gen) := by
  simp only [State.enterGalley, hit, State.putGalley]

/-- The galley of a die that takes a region that it lacks. -/
def State.galleyWith (s : State) (die words : Nat) (key : GalleyKey) : Galley :=
  let g := vget s.sched.galleys die ⟨[], 0⟩
  ⟨evictEntries (s.entryHeld die) (Config.galleyEvicts s.freeCtr) g.entries ++ [⟨key, g.gen + 1, false, words, s.freeCtr⟩], g.gen + 1⟩

theorem enterGalley_miss (s : State) (die words : Nat) (key : GalleyKey) (miss : s.galleyHit die key = none) :
    s.enterGalley die key words = ((s.putGalley die (s.galleyWith die words key)).settleKernels,
      (vget s.sched.galleys die ⟨[], 0⟩).gen + 1) := by
  simp only [State.enterGalley, miss, State.putGalley, State.galleyWith]

theorem galleyHit_some (s : State) (die : Nat) (key : GalleyKey) (e : GalleyEntry) (hit : s.galleyHit die key = some e) :
    e ∈ (vget s.sched.galleys die ⟨[], 0⟩).entries ∧ e.key = key ∧ e.dead = false := by
  have found := List.find?_some hit
  simp only [Bool.and_eq_true, beq_iff_eq, Bool.not_eq_true'] at found
  exact ⟨List.mem_of_find?_eq_some hit, found.1, found.2⟩

/-- The entry that is entered lives in the galley, with the generation told. -/
theorem enterGalley_entry (s : State) (die words : Nat) (key : GalleyKey) (h : die < 4) :
    ∃ e ∈ (vget (s.enterGalley die key words).1.sched.galleys die ⟨[], 0⟩).entries,
      e.key = key ∧ e.gen = (s.enterGalley die key words).2 ∧ e.dead = false := by
  cases hit : s.galleyHit die key with
  | some e =>
    obtain ⟨mem, same, live⟩ := galleyHit_some s die key e hit
    rw [enterGalley_hit s die words key e hit, putGalley_galley _ _ _ h]
    exact ⟨{ e with used := s.freeCtr }, List.mem_map.mpr ⟨e, mem, by simp⟩, same, rfl, live⟩
  | none =>
    rw [enterGalley_miss s die words key hit]
    show ∃ e ∈ (vget (s.putGalley die (s.galleyWith die words key)).sched.galleys die ⟨[], 0⟩).entries, _
    rw [putGalley_galley _ _ _ h]
    exact ⟨_, List.mem_append_right _ (List.mem_singleton.mpr rfl), rfl, rfl, rfl⟩

/-- A hit keeps the generation counter, and a miss counts it. -/
theorem enterGalley_gen (s : State) (die words : Nat) (key : GalleyKey) (h : die < 4) :
    (∀ e, s.galleyHit die key = some e → (s.enterGalley die key words).2 = e.gen ∧
      (vget (s.enterGalley die key words).1.sched.galleys die ⟨[], 0⟩).gen = (vget s.sched.galleys die ⟨[], 0⟩).gen) ∧
    (s.galleyHit die key = none → (s.enterGalley die key words).2 = (vget s.sched.galleys die ⟨[], 0⟩).gen + 1 ∧
      (vget (s.enterGalley die key words).1.sched.galleys die ⟨[], 0⟩).gen = (vget s.sched.galleys die ⟨[], 0⟩).gen + 1) := by
  constructor
  · intro e hit
    rw [enterGalley_hit s die words key e hit, putGalley_galley _ _ _ h]
    exact ⟨rfl, rfl⟩
  · intro miss
    rw [enterGalley_miss s die words key miss]
    refine ⟨rfl, ?_⟩
    show (vget (s.putGalley die (s.galleyWith die words key)).sched.galleys die ⟨[], 0⟩).gen = _
    rw [putGalley_galley _ _ _ h]
    rfl

/-- A RESIDENT kernel of which a region is translated is TRANSLATED (R69). -/
theorem enterGalley_translated (s : State) (die words x slot : Nat) (key : GalleyKey) (k : Kernel) (hd : die < 4) (hx : x < 64)
    (miss : s.galleyHit die key = none) (there : s.kernelIn x slot = some k) (resident : k.state = .resident)
    (leaf : key.leaf ∈ k.leaves) (ctx : key.ctx = s.keyCtx x) :
    ((s.enterGalley die key words).1.kernelIn x slot).map (·.state) = some .translated := by
  rw [enterGalley_miss s die words key miss]
  have set : (s.putGalley die (s.galleyWith die words key)).dieSet x k ≠ 0 := by
    refine dieSet_ne_zero _ x die k hd ?_
    rw [putGalley_galley _ _ _ hd]
    rw [putGalley_keyCtx]
    exact ⟨_, List.mem_append_right _ (List.mem_singleton.mpr rfl), rfl, ctx, leaf⟩
  rw [settleKernels_kernelIn _ x slot hx, putGalley_kernelIn, there]
  simp only [Option.map_some, State.settleKernel, resident, true_or, if_true, if_neg set]

theorem enterGalley_cells (s : State) (die words : Nat) (key : GalleyKey) : (s.enterGalley die key words).1.cells = s.cells := by
  cases hit : s.galleyHit die key with
  | some e => rw [enterGalley_hit s die words key e hit, putGalley_cells]
  | none => rw [enterGalley_miss s die words key hit, settleKernels_cells, putGalley_cells]

/-- Translation does not tell for which dies a kernel's eager translation is done. -/
theorem enterGalley_eagerDone (s : State) (die words x slot : Nat) (key : GalleyKey) (hx : x < 64) :
    ((s.enterGalley die key words).1.kernelIn x slot).map (·.eagerDone) = (s.kernelIn x slot).map (·.eagerDone) := by
  cases hit : s.galleyHit die key with
  | some e => rw [enterGalley_hit s die words key e hit, putGalley_kernelIn]
  | none =>
    rw [enterGalley_miss s die words key hit, settleKernels_kernelIn _ x slot hx, putGalley_kernelIn, Option.map_map]
    exact congrArg (Option.map · (s.kernelIn x slot)) (funext fun k => settleKernel_eagerDone _ x k)

/-! ### Decode faults (R49, R50) -/

/-- A word that fails a check of decoding faults at its point; a shared one once both streams have reached it. -/
theorem execOpcodeUndef_runs (s : State) (shared : Bool) (run : s.canRun s.turn = true) : execOpcodeUndef shared s = .next
    (if shared then s.sharedFault .opcodeUndef (s.bank.pc s.turn) else s.raise s.turn .opcodeUndef (s.bank.pc s.turn)) := if_pos run

theorem execFetchMalformed_runs (s : State) (fva : Word) (run : s.canRun s.turn = true) :
    execFetchMalformed fva s = .next (s.raise s.turn .fetchMalformed fva) := if_pos run

/-- A stream that does not run decodes nothing. -/
theorem decodeFaults_idle (s : State) (fva : Word) (shared : Bool) (idle : s.canRun s.turn = false) :
    execOpcodeUndef shared s = .next s ∧ execFetchMalformed fva s = .next s := by
  simp only [execOpcodeUndef, execFetchMalformed, idle, Bool.false_eq_true, if_false, and_self]

theorem sharedFault_both (s : State) (c : Cause) (fva : Word) (met : s.bank.pc s.turn = s.bank.pc s.turn.other) (h : s.faultless) :
    Raised s (s.sharedFault c fva) 3 c fva := by
  rw [State.sharedFault, if_pos met]
  exact raised_record s 3 c fva h

theorem sharedFault_waits (s : State) (c : Cause) (fva : Word) (apart : s.bank.pc s.turn ≠ s.bank.pc s.turn.other) :
    Waits s (s.sharedFault c fva) s.turn := by
  rw [State.sharedFault, if_neg apart]
  exact waits_stallPeer s s.turn

/-! ### Invalidations (R219) -/

theorem ackInv_settled (s : State) (r : InvRange) (wait : s.bank.ctl.invWait = some r) (settled : s.settled s.ctxNo r = true) :
    s.ackInv = s.setBank { s.bank with ctl := { s.bank.ctl with invAck := true } } := by
  simp only [State.ackInv, wait, settled, if_true, Bank.mapCtl]

theorem ackInv_none (s : State) (wait : s.bank.ctl.invWait = none) : s.ackInv = s := by
  simp only [State.ackInv, wait]

/-! ### The regions of a stream (R69, R70, R73 to R75) -/

/-- What it means that a stream needs a region: it is not in one, the galley holds none of this key, and the chunks are its context's. -/
theorem needsRegion_some {s : State} {st : Stream} {x i : Nat} {k : Kernel} {key : GalleyKey} (h : s.needsRegion st = some (x, k, i, key)) :
    key = s.regionKey x st k i (regionLen k.text k.textG.toNat i) ∧ s.galleyHit (dieOf s.cellNo) key = none := by
  unfold State.needsRegion at h
  split at h
  next y l _ _ =>
    split at h
    next => cases h
    next j _ =>
      dsimp only at h
      split at h
      next ok =>
        cases h
        exact ⟨rfl, ok.2.2⟩
      next => cases h
  next => cases h

/-- The state once a stream has entered a region. -/
def State.entersRegion (s : State) (st : Stream) (e : InEntry) : State :=
  s.setBank (s.bank.mapCtl fun c => match st with
    | .a => { c with galA := some e, triesA := (0, 0) }
    | .x => { c with galX := some e, triesX := (0, 0) })

theorem entersRegion_entered (s : State) (st : Stream) (e : InEntry) : (s.entersRegion st e).bank.ctl.entered st = some e := by
  rw [State.entersRegion, setBank_bank]
  cases st <;> rfl

section

variable {s : State} {st : Stream} {x i n : Nat} {k : Kernel} {key : GalleyKey} (checked : s.textCheck k i (s.bank.pc st) = none)
  (len : n = regionLen k.text k.textG.toNat i) (same : key = s.regionKey x st k i n)

include checked len same

/-- A translated region of sound chunks is entered. -/
theorem enterRegion_enters (sound : s.chunkBad key = false) : s.enterRegion st x k i =
    (s.enterGalley (dieOf s.cellNo) key n).1.entersRegion st
      ⟨(s.bank.pc st).toNat, (k.text.drop i).take n, key, (s.enterGalley (dieOf s.cellNo) key n).2⟩ := by
  subst same len
  cases st <;> simp only [State.enterRegion, checked, sound, Bool.false_eq_true, and_false, if_false, State.entersRegion]

/-- A region of a bad chunk is TRANSLATE at its PC, and its kernel is STALE. -/
theorem enterRegion_bad (bad : s.chunkBad key = true) (miss : s.galleyHit (dieOf s.cellNo) key = none) :
    s.enterRegion st x k i = (s.staleKernel x k.slot).raise st .translate (s.bank.pc st) := by
  subst same len
  simp only [State.enterRegion, checked, bad, miss, Option.isNone_none, and_self, if_true]

end

/-- The die's chunks are replaced: what the checks, the galleys and the bank tell stays. -/
def State.withChunks (s : State) (l : List Chunk) : State := { s with sched := { s.sched with chunks := l } }

theorem chunkBad_iff (s : State) (key : GalleyKey) : s.chunkBad key = true ↔
    ∃ c ∈ s.sched.chunks, c.bad = true ∧ c.ctx = key.ctx ∧ (c.leaf = key.leaf ∨ key.leaf2 = some c.leaf) := by
  simp only [State.chunkBad, List.any_eq_true, Bool.and_eq_true, Bool.or_eq_true, beq_iff_eq, and_assoc]

/-- A chunk of a region that is marked makes the region bad. -/
theorem markBad_chunkBad (s : State) (x : Nat) (key : GalleyKey) (c : Chunk) (held : c ∈ s.sched.chunks) (own : c.ctx = s.keyCtx x)
    (ctx : c.ctx = key.ctx) (part : c.leaf = key.leaf ∨ key.leaf2 = some c.leaf) : (s.markBad x c.leaf).chunkBad key = true := by
  refine (chunkBad_iff _ _).mpr ⟨{ c with bad := true }, List.mem_map.mpr ⟨c, held, ?_⟩, rfl, ctx, part⟩
  simp [own]

/-- A chunk stays bad. -/
theorem markBad_chunkBad_of (s : State) (x : Nat) (leaf : Digest) (key : GalleyKey) (bad : s.chunkBad key = true) :
    (s.markBad x leaf).chunkBad key = true := by
  obtain ⟨c, held, marked, ctx, part⟩ := (chunkBad_iff _ _).mp bad
  refine (chunkBad_iff _ _).mpr ⟨c, List.mem_map.mpr ⟨c, held, ?_⟩, marked, ctx, part⟩
  split
  · simp [← marked]
  · rfl

/-- The chunks of a region whose hashes do not agree are marked bad. -/
def State.markFailed (s : State) (x : Nat) (key : GalleyKey) (hashOk : Bool × Bool) : State :=
  let t := if hashOk.1 then s else s.markBad x key.leaf
  match key.leaf2 with
  | some d => if hashOk.2 then t else t.markBad x d
  | none => t

theorem markFailed_sound (s : State) (x : Nat) (key : GalleyKey) : s.markFailed x key (true, true) = s := by
  simp only [State.markFailed, if_true]
  split <;> rfl

theorem markFailed_withChunks (s : State) (x : Nat) (key : GalleyKey) (hashOk : Bool × Bool) :
    ∃ l, s.markFailed x key hashOk = s.withChunks l := by
  have first : ∃ l, (if hashOk.1 then s else s.markBad x key.leaf) = s.withChunks l := by
    split
    · exact ⟨s.sched.chunks, rfl⟩
    · exact ⟨_, rfl⟩
  obtain ⟨l, first⟩ := first
  simp only [State.markFailed, first]
  split
  · split
    · exact ⟨l, rfl⟩
    · exact ⟨_, rfl⟩
  · exact ⟨l, rfl⟩

section

variable {s : State} {x : Nat} {key : GalleyKey} {c : Chunk} (held : c ∈ s.sched.chunks) (own : c.ctx = s.keyCtx x) (ctx : c.ctx = key.ctx)

include held own ctx

theorem markFailed_first (part : c.leaf = key.leaf) (q : Bool) : (s.markFailed x key (false, q)).chunkBad key = true := by
  have bad : (s.markBad x key.leaf).chunkBad key = true := part ▸ markBad_chunkBad s x key c held own ctx (.inl part)
  simp only [State.markFailed, Bool.false_eq_true, if_false]
  split
  · split
    · exact bad
    · exact markBad_chunkBad_of _ _ _ _ bad
  · exact bad

theorem markFailed_second (part : key.leaf2 = some c.leaf) (p : Bool) : (s.markFailed x key (p, false)).chunkBad key = true := by
  simp only [State.markFailed, part, Bool.false_eq_true, if_false]
  cases p with
  | true => exact markBad_chunkBad s x key c held own ctx (.inr part)
  | false =>
    by_cases first : c.leaf = key.leaf
    · exact markBad_chunkBad_of _ _ _ _ (first ▸ markBad_chunkBad s x key c held own ctx (.inr part))
    · refine markBad_chunkBad _ x key c (List.mem_map.mpr ⟨c, held, ?_⟩) own ctx (.inr part)
      simp [first]

end

/-! ### Translation at a stream -/

section

variable {s : State} {cell x i : Nat} {h : cell < 256} {st : Stream} {k : Kernel} {key : GalleyKey}

/-- A stream that needs no region is not translated for. -/
theorem translation_idle (h : cell < 256) (needs : ({ s with cur := ⟨cell, h⟩ } : State).needsRegion st = none) :
    (∀ p, execRegionTranslationComplete cell st p s = .next s) ∧ execCompositorFailure cell st s = .next s := by
  constructor
  · intro p
    rw [execRegionTranslationComplete, onCell_runs s cell h]
    simp only [needs]
  · rw [execCompositorFailure, onCell_runs s cell h]
    simp only [needs]

/-- The tries of a stream at its PC are set (R74). -/
def State.setTries (s : State) (st : Stream) (v : Nat) : State :=
  s.setBank (s.bank.mapCtl fun c => match st with
    | .a => { c with triesA := ((s.bank.pc st).toNat, v) }
    | .x => { c with triesX := ((s.bank.pc st).toNat, v) })

theorem setTries_tries (s : State) (st : Stream) (v : Nat) : (s.setTries st v).bank.ctl.tries st (s.bank.pc st).toNat = v := by
  rw [State.setTries, setBank_bank]
  cases st <;> exact if_pos rfl

theorem setTries_fault (s : State) (st : Stream) (v : Nat) : (s.setTries st v).bank.ctl.fault = s.bank.ctl.fault := by
  rw [State.setTries, setBank_bank]
  cases st <;> rfl

theorem setTries_cur (s : State) (st : Stream) (v : Nat) : (s.setTries st v).cur = s.cur := rfl

variable (needs : ({ s with cur := ⟨cell, h⟩ } : State).needsRegion st = some (x, k, i, key))

include needs

theorem execRegionTranslationComplete_runs (p : Bool × Bool) : execRegionTranslationComplete cell st p s =
    .next { (({ s with cur := ⟨cell, h⟩ } : State).markFailed x key p).enterRegion st x k i with cur := s.cur } := by
  rw [execRegionTranslationComplete, onCell_runs s cell h]
  simp only [needs]
  rfl

variable (u : State) (here : u = { s with cur := ⟨cell, h⟩ }) (checked : u.textCheck k i (u.bank.pc st) = none)

include here checked

/-- A failed attempt is counted. -/
theorem execCompositorFailure_retries (few : u.bank.ctl.tries st (u.bank.pc st).toNat < 2) : execCompositorFailure cell st s =
    .next { u.setTries st (u.bank.ctl.tries st (u.bank.pc st).toNat + 1) with cur := s.cur } := by
  have few : u.bank.ctl.tries st (u.bank.pc st).toNat + 1 < 3 := Nat.add_lt_add_right few 1
  rw [execCompositorFailure, onCell_runs s cell h]
  subst here
  simp only [needs, checked, if_pos few]
  rfl

/-- The third failed attempt is TRANSLATE. -/
theorem execCompositorFailure_third (many : 2 ≤ u.bank.ctl.tries st (u.bank.pc st).toNat) : execCompositorFailure cell st s =
    .next { (u.setTries st 0).raise st .translate (u.bank.pc st) with cur := s.cur } := by
  have many : ¬ u.bank.ctl.tries st (u.bank.pc st).toNat + 1 < 3 := by omega
  rw [execCompositorFailure, onCell_runs s cell h]
  subst here
  simp only [needs, checked, if_neg many]
  rfl

end

/-! ### What a cell's step leaves: the moving cell, and the other facts -/

theorem cur_bank (s : State) (cell : Nat) (h : cell < 256) : ({ s with cur := ⟨cell, h⟩ } : State).bank = (s.cellAt cell).active := by
  simp [State.bank, State.cell, State.cellAt, vget, h]

theorem record_cur (s : State) (f : FaultInfo) : (s.record f).cur = s.cur := by
  unfold State.record
  split <;> rfl

theorem raise_fault (s : State) (st : Stream) (c : Cause) (fva : Word) (first : s.bank.ctl.fault = none) :
    (s.raise st c fva).bank.ctl.fault = some ⟨streamCode st, c, fva, 1, 0, none⟩ := by
  simp only [State.raise, State.record, first, setBank_bank, Bank.mapCtl]

theorem putGalley_cur (s : State) (die : Nat) (g : Galley) : (s.putGalley die g).cur = s.cur := rfl

theorem settleKernels_cur (s : State) : s.settleKernels.cur = s.cur := by simp only [State.settleKernels]

theorem settleKernels_sched (s : State) : s.settleKernels.sched = s.sched := by simp only [State.settleKernels]

theorem enterGalley_cur (s : State) (die words : Nat) (key : GalleyKey) : (s.enterGalley die key words).1.cur = s.cur := by
  cases hit : s.galleyHit die key with
  | some e => rw [enterGalley_hit s die words key e hit, putGalley_cur]
  | none => rw [enterGalley_miss s die words key hit, settleKernels_cur, putGalley_cur]

theorem setTries_mem (s : State) (st : Stream) (v : Nat) : (s.setTries st v).mem = s.mem := rfl

/-- A region entered at the moving cell, as seen by the cell's number. -/
theorem cellAt_entered (t : State) (cell : Nat) (h : cell < 256) (c : Fin 256) (moved : t.cur = ⟨cell, h⟩) (st : Stream) (e : InEntry) :
    (({ t.entersRegion st e with cur := c } : State).cellAt cell).active.ctl.entered st = some e :=
  (congrArg (·.ctl.entered st) (cellAt_active_moved (t.entersRegion st e) cell h c moved)).trans (entersRegion_entered t st e)

/-- TRANSLATE at the moving cell, as seen by the cell's number. -/
theorem cellAt_raised (t : State) (cell : Nat) (h : cell < 256) (c : Fin 256) (moved : t.cur = ⟨cell, h⟩) (first : t.bank.ctl.fault = none)
    (st : Stream) (pc : Word) :
    ((({ t.raise st .translate pc with cur := c } : State).cellAt cell).active.ctl.fault =
      some ⟨streamCode st, .translate, pc, 1, 0, none⟩) ∧ ({ t.raise st .translate pc with cur := c } : State).mem = t.mem := by
  have raised : (t.raise st .translate pc).cur = ⟨cell, h⟩ := (record_cur t _).trans moved
  exact ⟨(congrArg (·.ctl.fault) (cellAt_active_moved (t.raise st .translate pc) cell h c raised)).trans
    (raise_fault t st .translate pc first), raise_mem t st .translate pc⟩

/-! ### The regions of a stream, at its cell -/

section

variable {s : State} {cell x i : Nat} {h : cell < 256} {st : Stream} {k : Kernel} {key : GalleyKey} (u : State)
  (here : u = { s with cur := ⟨cell, h⟩ }) (needs : u.needsRegion st = some (x, k, i, key))
  (checked : u.textCheck k i (u.bank.pc st) = none)

include here needs checked

theorem translation_enters (sound : u.chunkBad key = false) : ∃ t e, execRegionTranslationComplete cell st (true, true) s = .next t ∧
    (t.cellAt cell).active.ctl.entered st = some e ∧ e.base = (u.bank.pc st).toNat ∧ e.key = key ∧
    e.code = (k.text.drop i).take (regionLen k.text k.textG.toNat i) ∧
    (∃ g ∈ (vget t.sched.galleys (cell / 64) ⟨[], 0⟩).entries, g.key = key ∧ g.gen = e.gen ∧ g.dead = false) ∧ t.mem = s.mem := by
  obtain ⟨same, miss⟩ := needsRegion_some needs
  have runs := execRegionTranslationComplete_runs (here ▸ needs) (true, true)
  rw [← here, markFailed_sound, enterRegion_enters checked rfl same sound] at runs
  have die : dieOf u.cellNo = cell / 64 := by rw [here]; rfl
  have moved : (u.enterGalley (dieOf u.cellNo) key (regionLen k.text k.textG.toNat i)).1.cur = ⟨cell, h⟩ := by
    rw [enterGalley_cur, here]
  refine ⟨_, _, runs, cellAt_entered _ cell h s.cur moved st _, rfl, rfl, rfl, ?_, ?_⟩
  · rw [die]
    exact enterGalley_entry u (cell / 64) (regionLen k.text k.textG.toNat i) key (by omega)
  · exact (enterGalley_mem (Eq.refl (u.enterGalley (dieOf u.cellNo) key (regionLen k.text k.textG.toNat i)))).trans (by rw [here])

theorem translation_bad (p : Bool × Bool) (first : u.bank.ctl.fault = none) (bad : (u.markFailed x key p).chunkBad key = true) :
    ∃ t, execRegionTranslationComplete cell st p s = .next t ∧
      (t.cellAt cell).active.ctl.fault = some ⟨streamCode st, .translate, u.bank.pc st, 1, 0, none⟩ ∧ t.mem = s.mem := by
  obtain ⟨same, miss⟩ := needsRegion_some needs
  have runs := execRegionTranslationComplete_runs (here ▸ needs) p
  obtain ⟨l, chunks⟩ := markFailed_withChunks u x key p
  rw [← here, chunks, enterRegion_bad (s := u.withChunks l) checked rfl same (chunks ▸ bad) miss] at runs
  obtain ⟨fault, mem⟩ := cellAt_raised ((u.withChunks l).staleKernel x k.slot) cell h s.cur (by rw [here]; rfl) first st (u.bank.pc st)
  exact ⟨_, runs, fault, mem.trans ((staleKernel_mem _ _ _).trans (by rw [here]; rfl))⟩

theorem compositor_retries (few : u.bank.ctl.tries st (u.bank.pc st).toNat < 2) : ∃ t, execCompositorFailure cell st s = .next t ∧
    t.mem = s.mem ∧ (t.cellAt cell).active.ctl.tries st (u.bank.pc st).toNat = u.bank.ctl.tries st (u.bank.pc st).toNat + 1 ∧
    (t.cellAt cell).active.ctl.fault = u.bank.ctl.fault := by
  refine ⟨_, execCompositorFailure_retries (here ▸ needs) u here checked few, by rw [here]; rfl, ?_⟩
  rw [cellAt_active_moved _ cell h s.cur (by rw [setTries_cur, here])]
  exact ⟨setTries_tries u st _, setTries_fault u st _⟩

theorem compositor_faults (many : 2 ≤ u.bank.ctl.tries st (u.bank.pc st).toNat) (first : u.bank.ctl.fault = none) :
    ∃ t, execCompositorFailure cell st s = .next t ∧
      (t.cellAt cell).active.ctl.fault = some ⟨streamCode st, .translate, u.bank.pc st, 1, 0, none⟩ ∧ t.mem = s.mem := by
  obtain ⟨fault, mem⟩ := cellAt_raised (u.setTries st 0) cell h s.cur (by rw [setTries_cur, here])
    ((setTries_fault u st 0).trans first) st (u.bank.pc st)
  exact ⟨_, execCompositorFailure_third (here ▸ needs) u here checked many, fault, mem.trans (by rw [setTries_mem, here])⟩

end

/-! ### Eager translation (R69) and reclaim (R73) -/

/-- What the eager translation of a kernel keeps until it is done. -/
def EagerKeeps (s t : State) (x slot : Nat) : Prop :=
  t.mem = s.mem ∧ t.cells = s.cells ∧ (t.kernelIn x slot).map (·.eagerDone) = (s.kernelIn x slot).map (·.eagerDone)

theorem eagerRegion_keeps (s t : State) (die x y slot : Nat) (k : Kernel) (failed : List (Stream × Nat)) (st : Stream) (i : Nat) (hx : x < 64)
    (kept : EagerKeeps s t x slot) : EagerKeeps s (t.eagerRegion die y k failed st i) x slot := by
  obtain ⟨mem, cells, done⟩ := kept
  refine ⟨(eagerRegion_mem t die y k failed st i).trans mem, ?_, ?_⟩
  all_goals
    unfold State.eagerRegion
    dsimp only
    split
  · exact cells
  · rw [enterGalley_cells, cells]
  · exact done
  · rw [enterGalley_eagerDone _ _ _ _ _ _ hx, done]

/-- The kernel that replaces another of its slot. -/
theorem setKernel_kernelIn (s : State) (x slot : Nat) (h k : Kernel) (hx : x < 64) (there : s.kernelIn x slot = some h)
    (same : k.slot = slot) : (s.setKernel x k).kernelIn x slot = some k := by
  have slots : (fun g : Kernel => g.slot == slot) ∘ (fun h => if h.slot == k.slot then k else h) = fun g => g.slot == slot := by
    funext g
    by_cases e : g.slot = slot <;> simp [e, same]
  have its : h.slot = slot := by simpa using List.find?_some there
  rw [State.kernelIn, State.setKernel, setCtx_ctxAt _ _ _ hx, List.find?_map, slots, ← State.kernelIn, there]
  simp [its, same]

theorem setKernel_cells (s : State) (x : Nat) (k : Kernel) : (s.setKernel x k).cells = s.cells := rfl

/-- Every region that eager translation can reach is translated, and the die's part of it is done. -/
theorem execEagerTranslationComplete_done (s : State) (die x slot : Nat) (k : Kernel) (failed : List (Stream × Nat)) (hd : die < 4)
    (hx : x < 64) (there : s.kernelIn x slot = some k) (eager : k.eager = true) (live : k.state = .resident ∨ k.state = .translated)
    (undone : k.eagerDone.getLsbD die = false) : ∃ t, execEagerTranslationComplete die x ⟨slot, failed⟩ s = .next t ∧ t.mem = s.mem ∧
      t.cells = s.cells ∧ (t.kernelIn x slot).map (·.eagerDone) = some (k.eagerDone ||| BitVec.ofNat 4 (2 ^ die)) := by
  have due : (k.eager && (k.state == .resident || k.state == .translated) && !(k.eagerDone.getLsbD die)) = true := by
    simp [eager, live, undone]
  simp only [execEagerTranslationComplete, if_pos (And.intro hd hx), there, if_pos due]
  have kept : EagerKeeps s ((eagerStarts k).foldl
      (fun t i => (t.eagerRegion die x k failed .a i).eagerRegion die x k failed .x i) s) x slot :=
    List.foldlRecOn (motive := fun t => EagerKeeps s t x slot) (eagerStarts k) _ ⟨rfl, rfl, rfl⟩ fun t kept i _ =>
      eagerRegion_keeps _ _ _ _ _ _ _ _ _ _ hx (eagerRegion_keeps _ _ _ _ _ _ _ _ _ _ hx kept)
  revert kept
  generalize (eagerStarts k).foldl (fun t i => (t.eagerRegion die x k failed .a i).eagerRegion die x k failed .x i) s = t
  rintro ⟨mem, cells, done⟩
  rw [there] at done
  cases held : t.kernelIn x slot with
  | none => rw [held] at done; cases done
  | some h =>
    have its : h.slot = slot := by simpa using List.find?_some held
    rw [held] at done
    refine ⟨_, rfl, (setKernel_mem _ _ _).trans mem, (setKernel_cells _ _ _).trans cells, ?_⟩
    rw [setKernel_kernelIn t x slot h { h with eagerDone := h.eagerDone ||| BitVec.ofNat 4 (2 ^ die) } hx held its]
    simp only [Option.map_some, Option.some.injEq] at done ⊢
    rw [done]

theorem execEagerTranslationComplete_idle (s : State) (die x slot : Nat) (k : Kernel) (failed : List (Stream × Nat)) (hd : die < 4)
    (hx : x < 64) (there : s.kernelIn x slot = some k) (idle : k.eager = false ∨ k.eagerDone.getLsbD die = true) :
    execEagerTranslationComplete die x ⟨slot, failed⟩ s = .next s := by
  have undue : ¬ (k.eager && (k.state == .resident || k.state == .translated) && !(k.eagerDone.getLsbD die)) = true := by
    rcases idle with e | e <;> simp [e]
  simp only [execEagerTranslationComplete, if_pos (And.intro hd hx), there, if_neg undue]

section

variable (s : State) (die n : Nat) (e : GalleyEntry) (hd : die < 4)
  (there : (vget s.sched.galleys die ⟨[], 0⟩).entries[n]? = some e)

include hd there

/-- A dead entry that no stream remains in leaves its galley. -/
theorem execGalleyEntryReclaim_leaves (dead : e.dead = true) (left : s.entryHeld die e.gen = false) :
    ∃ t, execGalleyEntryReclaim die n s = .next t ∧ vget t.sched.galleys die ⟨[], 0⟩ =
      { vget s.sched.galleys die ⟨[], 0⟩ with entries := (vget s.sched.galleys die ⟨[], 0⟩).entries.eraseIdx n } ∧
      t.mem = s.mem ∧ t.cells = s.cells := by
  simp only [execGalleyEntryReclaim, if_pos hd, there, dead, left, Bool.true_eq_false, Bool.false_eq_true, or_self, if_false]
  refine ⟨_, rfl, ?_, settleKernels_mem _, settleKernels_cells _⟩
  rw [settleKernels_sched]
  exact vget_vset_eq _ _ _ _ hd

theorem execGalleyEntryReclaim_stays (held : e.dead = false ∨ s.entryHeld die e.gen = true) :
    execGalleyEntryReclaim die n s = .next s := by
  simp only [execGalleyEntryReclaim, if_pos hd, there, if_pos held]

end

/-! ### Walks, invalidations and the watchdog, at their cell -/

section

variable {s : State} {cell : Nat} {h : cell < 256} (u : State) (here : u = { s with cur := ⟨cell, h⟩ })

include here

theorem execPageWalkComplete_runs (g : Word) (inside : inG g.toNat 1 = true) :
    execPageWalkComplete cell g s = .next { u.endWalk g.toNat with cur := s.cur } := by
  rw [execPageWalkComplete, onCell_runs s cell h, here, if_pos inside]

section

variable {x : Nat} {g : Word} (owner : u.bank.ctl.owner = some x) (inside : inG g.toNat 1 = true)

include owner inside

/-- A walk's leaf is in the cell's TLB, of 512 entries (R213, R217). -/
theorem pageWalk_learns {l : Xlat} (walk : u.walk x g.toNat = .leaf l)
    (quiet : (u.ctxAt x).swapping = false ∨ u.bank.ctl.dueAt (g.toNat / 65536) = none) :
    ∃ t, execPageWalkComplete cell g s = .next t ∧ (⟨(s.ctxAt x).asid, g.toNat / 65536, l⟩ : TlbEntry) ∈ (t.cellAt cell).tlb ∧
      (t.cellAt cell).tlb.length ≤ 512 ∧ (t.cellAt cell).active = u.bank ∧ t.mem = s.mem := by
  refine ⟨_, execPageWalkComplete_runs u here g inside, ?_⟩
  rw [endWalk_quiet owner walk quiet, cellAt_moved (u.learnLeaf x g.toNat l) cell h s.cur (by rw [here]; rfl), learnLeaf_tlb]
  have same : u.ctxAt x = s.ctxAt x := by rw [here, cur_ctxAt]
  rw [same]
  obtain ⟨mem, len⟩ := tlbWith_holds u.cell.tlb ⟨(s.ctxAt x).asid, g.toNat / 65536, l⟩
  exact ⟨mem, len, learnLeaf_bank u x g.toNat l, by rw [here]; rfl⟩

/-- A walk that finds no leaf leaves nothing. -/
theorem pageWalk_fails (walk : ∀ l, u.walk x g.toNat ≠ .leaf l)
    (quiet : (u.ctxAt x).swapping = false ∨ u.bank.ctl.dueAt (g.toNat / 65536) = none) :
    execPageWalkComplete cell g s = .next s := by
  rw [execPageWalkComplete_runs u here g inside, endWalk_fails owner walk, setPending_none u x g.toNat quiet, here]

/-- What an instruction was about to raise is pending while a swap runs (R343). -/
theorem pageWalk_pends {f : FaultInfo} (swap : (u.ctxAt x).swapping = true) (first : u.bank.ctl.fault = none)
    (free : u.bank.ctl.pend = none) (due : u.bank.ctl.dueAt (g.toNat / 65536) = some f) :
    ∃ t, execPageWalkComplete cell g s = .next t ∧
      (t.cellAt cell).active = { u.bank with ctl := { u.bank.ctl with pend := some f } } ∧ t.mem = s.mem := by
  obtain ⟨v, ends, mem, cur⟩ := endWalk_pends owner swap first free due
  refine ⟨_, execPageWalkComplete_runs u here g inside, ?_⟩
  rw [ends, cellAt_active_moved (v.setBank _) cell h s.cur (by rw [setBank_cur, cur, here]), setBank_bank]
  exact ⟨rfl, mem.trans (by rw [here])⟩

end

/-- An invalidation is acknowledged once every use of it is settled (R219). -/
theorem invalidationAck_settled (r : InvRange) (wait : u.bank.ctl.invWait = some r) (settled : u.settled u.ctxNo r = true) :
    ∃ t, execInvalidationAck cell s = .next t ∧
      (t.cellAt cell).active = { u.bank with ctl := { u.bank.ctl with invAck := true } } ∧ t.mem = s.mem := by
  refine ⟨{ u.ackInv with cur := s.cur }, by rw [execInvalidationAck, onCell_runs s cell h, here], ?_⟩
  rw [ackInv_settled u r wait settled, cellAt_active_moved (u.setBank _) cell h s.cur (by rw [setBank_cur, here]), setBank_bank]
  exact ⟨rfl, by rw [here]; rfl⟩

theorem invalidationAck_idle (wait : u.bank.ctl.invWait = none) : execInvalidationAck cell s = .next s := by
  rw [execInvalidationAck, onCell_runs s cell h, ← here, ackInv_none u wait, here]

end

section

variable (s : State) (cell x : Nat) (h : cell < 256) (b : Bank) (here : b = (s.cellAt cell).active) (owner : b.ctl.owner = some x)
  (there : (s.ctxAt x).state ≠ .lost) (watched : b.watched = true) (due : 2 ^ (s.ctxAt x).wdshift ≤ b.ctl.wdog)

include h here owner there watched due

/-- The watchdog faults a bank whose streams both wait, and ends a cut (R341). -/
theorem watchdog_running (running : b.ctl.status = .running) : ∃ t, execWatchdogExpiry cell s = .next t ∧ SameMemory s t ∧
    (t.cellAt cell).active = { b with ctl :=
      if b.ctl.fault = none then
        { b.ctl with fault := some ⟨0, .watchdog, 0, 1, 0, none⟩, atCut := true, wdog := 0,
                     wdogCut := b.ctl.wdogCut || (s.ctxAt x).state == .spilling }
      else { b.ctl with atCut := true, wdogCut := true, wdog := 0 } } := by
  subst here
  refine ⟨_, execWatchdogExpiry_faults s cell x h owner there watched due running, fun _ => rfl, ?_⟩
  rw [← expire_eq, State.setBankIn, setCell_cellAt _ _ _ h]

/-- The watchdog of a handler loses its context (R346). -/
theorem watchdog_handler (handler : b.ctl.status = .handler) (u : State) (eu : u = { s with cur := ⟨cell, h⟩ }) (hc : u.ctxNo < 64)
    (free : (s.ctxAt u.ctxNo).state ≠ .free) (retired : (s.ctxAt u.ctxNo).state ≠ .retired) :
    ∃ t, execWatchdogExpiry cell s = .next t ∧ (t.ctxAt u.ctxNo).state = .lost ∧ (t.ctxAt u.ctxNo).reason = 3 := by
  subst here
  obtain ⟨f, runs⟩ := execWatchdogExpiry_handler s cell x h owner there watched due handler
  obtain ⟨state, reason, -⟩ := loseCtx_lost u u.ctxNo 3 f.word f.fva u.cellNo (if f.kind = 2 then 2 else 1) 0 u.bank.sr.task
    u.bank.ctl.frame hc (by rw [eu] at free ⊢; exact free) (by rw [eu] at retired ⊢; exact retired)
  rw [← eu] at runs
  exact ⟨_, runs, state, reason⟩

end

/-! ### O51 -/

/-- Settles O51: the words that a stream skips and the decode faults, by the cases of `execStreamSkip` and `execOpcodeUndef`; what each
event does at its cell, by the one-cell step that it is; and the galleys, by what `enterGalley` leaves of a die's entries and of
the kernels' states. -/
theorem eventsAtCells : Obligations.EventsAtCells := by
  unfold Obligations.EventsAtCells
  refine ⟨fun s => ⟨fun two w next here => ⟨fun own => execStreamSkip_passes here own,
      fun other len held => execStreamSkip_stalls here other len held, fun free first tag => streamSkip_reserved here free first tag,
      fun free tag other len => ⟨fun meets => streamSkip_meets here free tag other len meets,
        fun apart => ⟨_, streamSkip_skips here free tag other len apart, ?_⟩⟩⟩,
      fun fva run first => ⟨⟨_, execOpcodeUndef_runs s false run, raised_raise s _ _ _ first⟩,
        fun met => ⟨_, execOpcodeUndef_runs s true run, sharedFault_both s _ _ met first⟩,
        fun apart => ⟨_, execOpcodeUndef_runs s true run, sharedFault_waits s _ _ apart⟩,
        ⟨_, execFetchMalformed_runs s fva run, raised_raise s _ _ _ first⟩⟩,
      fun fva b idle => decodeFaults_idle s fva b idle⟩,
    fun s cell h => ?_,
    fun s die words key hd => ⟨enterGalley_entry s die words key hd, (enterGalley_gen s die words key hd).1, fun miss => ?_⟩,
    fun s die x slot k failed hd hx there => ⟨fun eager live undone =>
        execEagerTranslationComplete_done s die x slot k failed hd hx there eager live undone,
      fun idle => execEagerTranslationComplete_idle s die x slot k failed hd hx there idle⟩,
    fun s die n e hd there => ⟨fun dead left => execGalleyEntryReclaim_leaves s die n e hd there dead left,
      fun held => execGalleyEntryReclaim_stays s die n e hd there held⟩⟩
  · have frame := skip_frame s s.turn (if two then 2 else 1)
    cases two <;> exact frame
  · extract_lets u b after
    have here : b = (s.cellAt cell).active := cur_bank s cell h
    refine ⟨fun addr x owner hx => ⟨execLoadDataArrival_clean s cell addr x h owner, execLoadDataArrival_corrected s cell addr x h owner,
        fun free retired => execLoadDataArrival_lost s cell addr x h owner hx free retired⟩,
      fun x owner there watched due => ⟨fun running => watchdog_running s cell x h b here owner there watched due running,
        fun handler hc free retired => watchdog_handler s cell x h b here owner there watched due handler u rfl hc free retired⟩,
      fun early => execWatchdogExpiry_early s cell h early,
      fun x g owner inside => ⟨fun quiet => ⟨fun l walk => pageWalk_learns u rfl owner inside walk quiet,
          fun walk => pageWalk_fails u rfl owner inside walk quiet⟩,
        fun f swap first free due => pageWalk_pends u rfl owner inside swap first free due⟩,
      fun r wait settled => invalidationAck_settled u rfl r wait settled, fun wait => invalidationAck_idle u rfl wait,
      fun st needs => translation_idle h needs, fun st x i k key needs checked => ⟨fun sound => ?_, fun first c held ctx => ?_,
        fun few => compositor_retries u rfl needs checked few, fun many first => compositor_faults u rfl needs checked many first⟩⟩
    · exact translation_enters u rfl needs checked sound
    · have own : c.ctx = u.keyCtx x := ctx.trans (by rw [(needsRegion_some needs).1]; rfl)
      exact ⟨fun part q => translation_bad u rfl needs checked (false, q) first (markFailed_first (s := u) held own ctx part q),
        fun part p => translation_bad u rfl needs checked (p, false) first (markFailed_second (s := u) held own ctx part p)⟩
  · obtain ⟨gen, next⟩ := (enterGalley_gen s die words key hd).2 miss
    exact ⟨gen, next, fun x slot k hx there resident leaf ctx =>
      enterGalley_translated s die words x slot key k hd hx miss there resident leaf ctx⟩

end Sys2Proof.Machine
end

section
/-! PROOFS. The decoder and the encoder agree (R27, R29, R30, R33, R44 to R47).

An encoded word is its fields in a row, so that it equals a word `w` exactly when each of them is the field of `w` at its place:
`toNat_eq_append_iff` takes a layout apart from its low end.  Each table of the decoder is then read in both directions. -/

namespace Sys2Proof

/-! ### Layouts -/

/-- A field of `m + n` bits is its `m` high bits before its `n` low ones. -/
theorem fld_add (w : IWord) (lo m n : Nat) : fld w lo (m + n) = fld w (lo + n) m ++ fld w lo n :=
  (BitVec.extractLsb'_append_extractLsb'_eq_extractLsb' rfl).symm

/-- The last field of a layout stands at its low end, and the fields before it above that. -/
theorem toNat_eq_append_iff {m n k : Nat} (x : BitVec m) (y : BitVec n) (w : IWord) (lo : Nat) (h : k = m + n) :
    (fld w lo k).toNat = (x ++ y).toNat ↔ (fld w (lo + n) m).toNat = x.toNat ∧ (fld w lo n).toNat = y.toNat := by
  subst h
  simp only [BitVec.toNat_inj, fld_add]
  refine ⟨fun e => ⟨?_, ?_⟩, fun ⟨high, low⟩ => by rw [high, low]⟩
  · simpa only [BitVec.extractLsb'_append_eq_left] using congrArg (BitVec.extractLsb' n m) e
  · simpa only [BitVec.extractLsb'_append_eq_right] using congrArg (BitVec.extractLsb' 0 n) e

theorem eq_word_iff (v w : IWord) : v = w ↔ (fld w 0 32).toNat = v.toNat := by
  simp [fld, BitVec.toNat_inj, eq_comm]

/-- A field within a field. -/
theorem fld_within (w : IWord) (lo a k n : Nat) (h : a + n ≤ k) : fld w (lo + a) n = (fld w lo k).extractLsb' a n := by
  simp only [fld]
  ext i hi
  have : a + i < k := by omega
  simp [BitVec.getElem_extractLsb', this, Nat.add_assoc]

/-- The words that the encoder writes as one number are a head and a field of zeros. -/
theorem tyieldWord : 0x16000000#32 = 0#2 ++ 0#1 ++ 0x58#7 ++ 0#22 := rfl
theorem nopWord : 0x1d000000#32 = 0#2 ++ 0#1 ++ 0x74#7 ++ 0#22 := rfl
theorem yieldctxWord : 0x1dc00000#32 = 0#2 ++ 0#1 ++ 0x77#7 ++ 0#22 := rfl
theorem syncHead : 0x80c00000#32 = 2#2 ++ 0#1 ++ 3#7 ++ 0#22 := rfl
theorem haltHead : 0x81800000#32 = 2#2 ++ 0#1 ++ 6#7 ++ 0#22 := rfl

/-! ### What a table answers is encoded in the words -/

/-- What a table answers for the words `ws`, where it answers anything, is well formed and encoded in them. -/
def Reads (ws : List IWord) (o : Option Instr) : Prop := ∀ i, o = some i → i.wellFormed = true ∧ encode i = ws

theorem reads_none {ws : List IWord} : Reads ws none := fun _ h => nomatch h

theorem reads_onlyIf {ws : List IWord} {c : Bool} {i : Instr} (h : c = true → Reads ws (some i)) : Reads ws (onlyIf c i) := by
  cases c with
  | false => exact reads_none
  | true => exact h rfl

theorem reads_ite {ws : List IWord} {c : Bool} {o p : Option Instr} (yes : c = true → Reads ws o) (no : Reads ws p) :
    Reads ws (if c = true then o else p) := by
  cases c with
  | false => exact no
  | true => exact yes rfl

theorem reads_word {i : Instr} {v w : IWord} (e : encode i = [v]) (h : i.wellFormed = true ∧ (fld w 0 32).toNat = v.toNat) :
    Reads [w] (some i) := by
  rintro _ ⟨⟩
  rw [e, (eq_word_iff v w).mpr h.2]
  exact ⟨h.1, rfl⟩

theorem reads_words {i : Instr} {v u w x : IWord} (e : encode i = [v, u])
    (h : i.wellFormed = true ∧ (fld w 0 32).toNat = v.toNat ∧ (fld x 0 32).toNat = u.toNat) : Reads [w, x] (some i) := by
  rintro _ ⟨⟩
  rw [e, (eq_word_iff v w).mpr h.2.1, (eq_word_iff u x).mpr h.2.2]
  exact ⟨h.1, rfl⟩

/-- Each arm of the table is nothing, an instruction, one under required zeros, or tests in turn; what is left of an instruction is
that its layout's fields are those of the word. -/
theorem decodeAShort_reads (w : IWord) (tag : fld w 30 2 = 0#2) (long : fld w 29 1 = 0#1) : Reads [w] (decodeAShort w) := by
  unfold decodeAShort majorOf
  split
  case h_1 | h_2 =>
    split
    all_goals first | exact reads_none | refine reads_word rfl ?_
    all_goals simp only [toNat_eq_append_iff]
    all_goals simp_all [Instr.wellFormed]
  all_goals
    repeat' first
      | exact reads_none | refine reads_onlyIf fun c => ?_ | refine reads_ite (fun c => ?_) ?_ | refine reads_word rfl ?_
  all_goals simp only [toNat_eq_append_iff, tyieldWord, nopWord, yieldctxWord]
  all_goals simp_all [Instr.wellFormed]

theorem decodeALong_reads (w x : IWord) (tag : fld w 30 2 = 0#2) (long : fld w 29 1 = 1#1) (ext : fld x 30 2 = 3#2) :
    Reads [w, x] (decodeALong w x) := by
  unfold decodeALong majorOf
  split
  all_goals first | exact reads_none | refine reads_onlyIf fun c => reads_words rfl ?_
  all_goals simp only [toNat_eq_append_iff]
  all_goals simp_all [Instr.wellFormed]

theorem decodeXShort_reads (w : IWord) (tag : fld w 30 2 = 1#2) (long : fld w 29 1 = 0#1) : Reads [w] (decodeXShort w) := by
  unfold decodeXShort majorOf
  split
  case h_1 | h_2 =>
    split
    all_goals first | exact reads_none | refine reads_word rfl ?_
    all_goals simp only [toNat_eq_append_iff]
    all_goals simp_all [Instr.wellFormed]
  all_goals
    repeat' first
      | exact reads_none | refine reads_onlyIf fun c => ?_ | refine reads_ite (fun c => ?_) ?_ | refine reads_word rfl ?_
  all_goals simp only [toNat_eq_append_iff]
  all_goals simp_all [Instr.wellFormed]

theorem decodeXLong_reads (w x : IWord) (tag : fld w 30 2 = 1#2) (long : fld w 29 1 = 1#1) (ext : fld x 30 2 = 3#2) :
    Reads [w, x] (decodeXLong w x) := by
  unfold decodeXLong majorOf
  split
  all_goals
    repeat' first
      | exact reads_none | refine reads_onlyIf fun c => ?_ | refine reads_ite (fun c => ?_) ?_ | refine reads_words rfl ?_
  all_goals simp only [toNat_eq_append_iff]
  all_goals simp_all [Instr.wellFormed]

theorem decodeSShort_reads (w : IWord) (tag : fld w 30 2 = 2#2) (long : fld w 29 1 = 0#1) : Reads [w] (decodeSShort w) := by
  unfold decodeSShort majorOf
  split
  all_goals
    repeat' first
      | exact reads_none | refine reads_onlyIf fun c => ?_ | refine reads_ite (fun c => ?_) ?_ | refine reads_word rfl ?_
  all_goals simp only [toNat_eq_append_iff, syncHead, haltHead]
  all_goals simp_all [Instr.wellFormed]

theorem decodeSLong_reads (w x : IWord) (tag : fld w 30 2 = 2#2) (long : fld w 29 1 = 1#1) (ext : fld x 30 2 = 3#2) :
    Reads [w, x] (decodeSLong w x) := by
  unfold decodeSLong majorOf
  split
  all_goals first | exact reads_none | refine reads_onlyIf fun c => reads_words rfl ?_
  all_goals simp only [toNat_eq_append_iff]
  all_goals simp_all [Instr.wellFormed]

/-! ### The decoder is exact -/

theorem longOf_iff (w : IWord) : longOf w = true ↔ fld w 29 1 = 1#1 := by
  simp only [longOf]
  generalize fld w 29 1 = b
  revert b
  decide

theorem short_of_not_longOf {w : IWord} (h : ¬ longOf w = true) : fld w 29 1 = 0#1 := by
  rw [longOf_iff] at h
  generalize fld w 29 1 = b at *
  revert b
  decide

/-- A TAG that is not 0b11 names one of the three streams' tables. -/
theorem tag_cases {w : IWord} (h : tagOf w ≠ 3#2) : tagOf w = 0#2 ∨ tagOf w = 1#2 ∨ tagOf w = 2#2 := by
  generalize tagOf w = b at *
  revert b
  decide

theorem decodeBody_short (w : IWord) : (tagOf w = 0#2 → decodeBody w none = decodeAShort w) ∧
    (tagOf w = 1#2 → decodeBody w none = decodeXShort w) ∧ (tagOf w = 2#2 → decodeBody w none = decodeSShort w) := by
  unfold decodeBody
  refine ⟨fun h => ?_, fun h => ?_, fun h => ?_⟩ <;> rw [h] <;> rfl

theorem decodeBody_long (w x : IWord) : (tagOf w = 0#2 → decodeBody w (some x) = decodeALong w x) ∧
    (tagOf w = 1#2 → decodeBody w (some x) = decodeXLong w x) ∧
    (tagOf w = 2#2 → decodeBody w (some x) = decodeSLong w x) := by
  unfold decodeBody
  refine ⟨fun h => ?_, fun h => ?_, fun h => ?_⟩ <;> rw [h] <;> rfl

theorem decodeBody_reads_short {w : IWord} (first : tagOf w ≠ 3#2) (long : fld w 29 1 = 0#1) : Reads [w] (decodeBody w none) := by
  obtain ⟨isA, isX, isS⟩ := decodeBody_short w
  obtain tag | tag | tag := tag_cases first
  · rw [isA tag]
    exact decodeAShort_reads w tag long
  · rw [isX tag]
    exact decodeXShort_reads w tag long
  · rw [isS tag]
    exact decodeSShort_reads w tag long

theorem decodeBody_reads_long {w x : IWord} (first : tagOf w ≠ 3#2) (long : fld w 29 1 = 1#1) (ext : tagOf x = 3#2) :
    Reads [w, x] (decodeBody w (some x)) := by
  obtain ⟨isA, isX, isS⟩ := decodeBody_long w x
  obtain tag | tag | tag := tag_cases first
  · rw [isA tag]
    exact decodeALong_reads w x tag long ext
  · rw [isX tag]
    exact decodeXLong_reads w x tag long ext
  · rw [isS tag]
    exact decodeSLong_reads w x tag long ext

theorem decode_first {w : IWord} {next : Option IWord} (h : tagOf w = 3#2) : decode w next = .error .badFirst := by
  rw [decode.eq_def, if_pos h]

theorem decode_missing {w : IWord} (first : tagOf w ≠ 3#2) (long : longOf w = true) : decode w none = .error .badExt := by
  rw [decode.eq_def, if_neg first, if_pos long]

theorem decode_badExt {w x : IWord} (first : tagOf w ≠ 3#2) (long : longOf w = true) (ext : tagOf x ≠ 3#2) :
    decode w (some x) = .error .badExt := by
  rw [decode.eq_def, if_neg first, if_pos long]
  exact if_neg ext

theorem decode_short_iff {w : IWord} {next : Option IWord} {i : Instr} (first : tagOf w ≠ 3#2) (long : ¬ longOf w = true) :
    decode w next = .ok i ↔ decodeBody w none = some i := by
  rw [decode.eq_def, if_neg first, if_neg long]
  cases decodeBody w none <;> simp

theorem decode_long_iff {w x : IWord} {i : Instr} (first : tagOf w ≠ 3#2) (long : longOf w = true) (ext : tagOf x = 3#2) :
    decode w (some x) = .ok i ↔ decodeBody w (some x) = some i := by
  rw [decode.eq_def, if_neg first, if_pos long]
  simp only [ext, if_true]
  cases decodeBody w (some x) <;> simp

/-- What decodes is well formed and encoded in the words that it was decoded from. -/
theorem decode_reads {w : IWord} {next : Option IWord} {i : Instr} (h : decode w next = .ok i) :
    i.wellFormed = true ∧ encode i = if longOf w then w :: next.toList else [w] := by
  by_cases first : tagOf w = 3#2
  · rw [decode_first first] at h
    cases h
  by_cases long : longOf w = true
  · rw [if_pos long]
    cases next with
    | none =>
      rw [decode_missing first long] at h
      cases h
    | some x =>
      by_cases ext : tagOf x = 3#2
      · exact decodeBody_reads_long first ((longOf_iff w).mp long) ext i ((decode_long_iff first long ext).mp h)
      · rw [decode_badExt first long ext] at h
        cases h
  · rw [if_neg long]
    exact decodeBody_reads_short first (short_of_not_longOf long) i ((decode_short_iff first long).mp h)

/-- Settles O3: each arm of a decoder's table holds the fields of the layout that the encoder writes, in the same order. -/
theorem decodeIsExact : Obligations.DecodeIsExact := by
  unfold Obligations.DecodeIsExact
  refine ⟨⟨fun w next i h => ?_, fun w next i h => (decode_reads h).2⟩, fun w next => decode_first, fun w => decode_missing,
    fun w e => decode_badExt⟩
  obtain ⟨wf, words⟩ := decode_reads h
  refine ⟨wf, fun none => ?_⟩
  rw [none] at words
  split at words <;> cases words

/-! ### What is encoded is decoded -/

theorem onlyIf_of {c : Bool} {i : Instr} (h : c = true) : onlyIf c i = some i := by
  rw [h]; rfl

/-- A field is not a value that disagrees with it in a part. -/
theorem fld_beq_false {w : IWord} {lo a k n : Nat} {c : BitVec k} {x : BitVec n} (h : a + n ≤ k) (part : fld w (lo + a) n = x)
    (ne : c.extractLsb' a n ≠ x) : (fld w lo k == c) = false := by
  rw [beq_eq_false_iff_ne]
  rintro rfl
  exact ne ((fld_within w lo a k n h).symm.trans part)

/-- `P` holds of every word equal to the only word of a list that has one word. -/
def OfWord (P : IWord → Prop) : List IWord → Prop
  | [v] => ∀ w, (fld w 0 32).toNat = v.toNat → P w
  | _ => True

theorem ofWord_one {P : IWord → Prop} {v : IWord} (h : ∀ w, (fld w 0 32).toNat = v.toNat → P w) : OfWord P [v] := h

/-- `P` holds of every two words equal to the words of a list that has two. -/
def OfWords (P : IWord → IWord → Prop) : List IWord → Prop
  | [v, u] => ∀ w x, (fld w 0 32).toNat = v.toNat → (fld x 0 32).toNat = u.toNat → P w x
  | _ => True

theorem ofWords_two {P : IWord → IWord → Prop} {v u : IWord}
    (h : ∀ w x, (fld w 0 32).toNat = v.toNat → (fld x 0 32).toNat = u.toNat → P w x) : OfWords P [v, u] := h

/-- A word of an instruction of one word has L 0 and a stream's TAG, and the A table decodes it where the TAG is 0.  The cases are
the forms of the table's arms: a sub-code, the fields alone, required zeros, and tests in turn. -/
theorem decodeAShort_encode {i : Instr} (wf : i.wellFormed = true) :
    OfWord (fun w => tagOf w ≠ 3#2 ∧ fld w 29 1 = 0#1 ∧ (tagOf w = 0#2 → decodeAShort w = some i)) (encode i) := by
  cases i
  all_goals try exact trivial
  all_goals
    refine ofWord_one fun w h => ?_
    simp only [toNat_eq_append_iff, tyieldWord, nopWord, yieldctxWord, syncHead, haltHead] at h
    simp only [BitVec.toNat_inj, and_assoc, Nat.zero_add, Nat.reduceAdd] at h
    obtain ⟨tag, long, major, fields⟩ := h
    refine ⟨by rw [tagOf, tag]; decide, long, fun space => ?_⟩
  case add | sub | and | or | xor | shl | shr | sra | rotr | min | max | minu | maxu | slt | sltu | seq | mul | mulh | mulhu
      | div | divu | rem | remu | sel =>
    unfold decodeAShort majorOf
    rw [major, fields.2.2.2]
    refine (rfl : _ = some _).trans ?_
    simp only [fields]
  case bfx | bfi | addi | andi | ori | xori | shli | shri | srai | slti | sltiu | seqi | muli | li | lih | lds | sts | ldc | stc
      | ldg | stg | ldr | str | ldgv | amog | amos | casg | cass | b | call | lset | sdset | mma | sdget =>
    unfold decodeAShort majorOf
    rw [major]
    refine (rfl : _ = some _).trans ?_
    simp only [fields]
  case qpush | qpopa | ldvq | stvq | cpre | bc | ret | ji | bqp | mzero | cpy | cpyf | gath | scat | hwait | hwaitp | hrel | hstat
      | bxinit | bxexp | bxarr | bxwait | bxtest | ringset | fence | promote | tedge | tdone | tcancel | fnew | freg | fres
      | ffail | tyield | tguard | tfold | tver | tvwait | coll | lstat | invr | inva | probe | trap | eret | srd | swr | nop | brk
      | wfe | yieldctx =>
    unfold decodeAShort majorOf
    rw [major]
    refine (rfl : _ = onlyIf _ _).trans ?_
    simp only [fields]
    exact onlyIf_of wf
  case clz | ctz | popc | nset | nsetLc | mwb | mwbRaw | tspawn | tspawnCreate | trec | trecClr | freplayResume | freplayAbort =>
    unfold decodeAShort majorOf
    rw [major]
    refine (rfl : _ = ite _ _ _).trans ?_
    simp [fields]
  case sext | zext =>
    have other (c : BitVec 10) (ne : c.extractLsb' 0 4 ≠ fld w 0 4) : (fld w 0 10 == c) = false :=
      fld_beq_false (by decide) rfl ne
    unfold decodeAShort majorOf
    rw [major]
    refine (rfl : _ = ite _ _ _).trans ?_
    rw [other 0#10 (by rw [fields.2.2.2]; decide), other 1#10 (by rw [fields.2.2.2]; decide),
      other 2#10 (by rw [fields.2.2.2]; decide)]
    simp [fields]
  case bswap =>
    have code : fld w 0 4 = (fld w 0 10).extractLsb' 0 4 := fld_within w 0 0 10 4 (by decide)
    unfold decodeAShort majorOf
    rw [major]
    refine (rfl : _ = ite _ _ _).trans ?_
    simp [fields, code]
  case tspawnArm =>
    have code : fld w 0 10 = (fld w 0 16).extractLsb' 0 10 := fld_within w 0 0 16 10 (by decide)
    unfold decodeAShort majorOf
    rw [major]
    refine (rfl : _ = ite _ _ _).trans ?_
    simp [fields, code]
  all_goals exact absurd (space.symm.trans tag) (by decide)

/-- The X and S tables decode the words of their instructions of one word. -/
theorem decodeXSShort_encode {i : Instr} (wf : i.wellFormed = true) :
    OfWord (fun w => (tagOf w = 1#2 → decodeXShort w = some i) ∧ (tagOf w = 2#2 → decodeSShort w = some i)) (encode i) := by
  cases i
  all_goals try exact trivial
  all_goals
    refine ofWord_one fun w h => ?_
    simp only [toNat_eq_append_iff, tyieldWord, nopWord, yieldctxWord, syncHead, haltHead] at h
    simp only [BitVec.toNat_inj, and_assoc, Nat.zero_add, Nat.reduceAdd] at h
    obtain ⟨tag, long, major, fields⟩ := h
  case xadd | xsub | xand | xior | xeor | xshl | xshr | xsra | xrotr | xmin | xmax | xminu | xmaxu | xslt | xsltu | xseq | xmul
      | xmulh | xmulhu | xdiv | xdivu | xrem | xremu | xsel =>
    refine ⟨fun _ => ?_, fun space => absurd (space.symm.trans tag) (by decide)⟩
    unfold decodeXShort majorOf
    rw [major, fields.2.2.2]
    refine (rfl : _ = some _).trans ?_
    simp only [fields]
  case xaddi | xli | xlih | vadd | vsub | vmul | vfma | vfms | vfnma | vmin | vmax | vdiv | vsel | vcmp | pand | por | vscan
      | vmergek | vperm | vqnt | vdqnt | vldi =>
    refine ⟨fun _ => ?_, fun space => absurd (space.symm.trans tag) (by decide)⟩
    unfold decodeXShort majorOf
    rw [major]
    refine (rfl : _ = some _).trans ?_
    simp only [fields]
  case xqpop | xqpush | vabs | vneg | vsqrt | vmov | exp2 | pnot | pcnt | vrsum | vrmax | vrmin | vramax | vsortk | vbcast | vrng
      | viota | vqpop | vwin =>
    refine ⟨fun _ => ?_, fun space => absurd (space.symm.trans tag) (by decide)⟩
    unfold decodeXShort majorOf
    rw [major]
    refine (rfl : _ = onlyIf _ _).trans ?_
    simp only [fields]
    exact onlyIf_of wf
  case xshli | xshri | xsrai | xroti =>
    refine ⟨fun _ => ?_, fun space => absurd (space.symm.trans tag) (by decide)⟩
    unfold decodeXShort majorOf
    rw [major]
    refine (rfl : _ = ite _ _ _).trans ?_
    simp [fields]
  case loop | endl =>
    refine ⟨fun space => absurd (space.symm.trans tag) (by decide), fun _ => ?_⟩
    unfold decodeSShort majorOf
    rw [major]
    refine (rfl : _ = some _).trans ?_
    simp only [fields]
  case bq | sync | win | halt =>
    refine ⟨fun space => absurd (space.symm.trans tag) (by decide), fun _ => ?_⟩
    unfold decodeSShort majorOf
    rw [major]
    refine (rfl : _ = onlyIf _ _).trans ?_
    simp only [fields]
    exact onlyIf_of wf
  case fpcAll =>
    refine ⟨fun space => absurd (space.symm.trans tag) (by decide), fun _ => ?_⟩
    unfold decodeSShort majorOf
    rw [major]
    refine (rfl : _ = ite _ _ _).trans ?_
    simp [fields]
  case fpcRm =>
    have head : fld w 5 17 = (fld w 3 19).extractLsb' 2 17 := fld_within w 3 2 19 17 (by decide)
    refine ⟨fun space => absurd (space.symm.trans tag) (by decide), fun _ => ?_⟩
    unfold decodeSShort majorOf
    rw [major]
    refine (rfl : _ = ite _ _ _).trans ?_
    simp [fields, head]
  case fpcDazFtz =>
    have notRm : (fld w 3 19 == 0x2000#19) = false := fld_beq_false (a := 2) (n := 17) (by decide) fields.1 (by decide)
    refine ⟨fun space => absurd (space.symm.trans tag) (by decide), fun _ => ?_⟩
    unfold decodeSShort majorOf
    rw [major]
    refine (rfl : _ = ite _ _ _).trans ?_
    simp [fields, notRm]
  all_goals exact ⟨fun space => absurd (space.symm.trans tag) (by decide), fun space => absurd (space.symm.trans tag) (by decide)⟩

/-- The two words of a long form have L 1 and the extension's TAG, and its stream's table decodes them. -/
theorem decodeLong_encode {i : Instr} (wf : i.wellFormed = true) :
    OfWords (fun w x => fld w 29 1 = 1#1 ∧ tagOf x = 3#2 ∧ tagOf w ≠ 3#2 ∧ decodeBody w (some x) = some i) (encode i) := by
  cases i
  all_goals try exact trivial
  all_goals
    refine ofWords_two fun w x h ext => ?_
    simp only [toNat_eq_append_iff] at h ext
    simp only [BitVec.toNat_inj, and_assoc, Nat.zero_add, Nat.reduceAdd] at h ext
    obtain ⟨tag, long, major, fields⟩ := h
    obtain ⟨tagx, fieldsx⟩ := ext
    refine ⟨long, tagx, by rw [tagOf, tag]; decide, ?_⟩
  case bfxL | bfiL | addiL | andiL | oriL | xoriL | shliL | shriL | sraiL | sltiL | sltiuL | seqiL | muliL | ldsL | stsL |
      ldcL | stcL | ldgL | stgL | ldrL | strL | ldgvL | ldvqL | stvqL | cpreL | amogL | amosL | casgL | cassL | bcL | bqpL |
      lsetL | nsetL =>
    rw [(decodeBody_long w x).1 tag]
    unfold decodeALong majorOf
    rw [major]
    refine (rfl : _ = onlyIf _ _).trans ?_
    simp only [fields, fieldsx]
    exact onlyIf_of wf
  case xaddiL | vaddL | vsubL | vmulL | vfmaL | vfmsL | vfnmaL | vminL | vmaxL | vabsL | vnegL | vdivL | vsqrtL | vselL |
      vmovL | vcmpL | pandL | porL | pnotL | vrsumL | vrmaxL | vrminL | vramaxL | vscanL | vsortkL | vmergekL | vpermL |
      vcvt | vqntL | vdqntL | viotaL | vldiL | vqpopL =>
    rw [(decodeBody_long w x).2.1 tag]
    unfold decodeXLong majorOf
    rw [major]
    refine (rfl : _ = onlyIf _ _).trans ?_
    simp only [fields, fieldsx, beq_self_eq_true, Bool.true_and]
    exact onlyIf_of wf
  case xshliL | xshriL | xsraiL | xrotiL | exp2L | log2 | rcp | rsq | tanh | sigm | pcntL | pfirst | vbcastL | vbcastLane |
      vrngL | vrngRaw =>
    rw [(decodeBody_long w x).2.1 tag]
    unfold decodeXLong majorOf
    rw [major]
    refine (rfl : _ = ite _ _ _).trans ?_
    simp [fields, fieldsx]
  case bqL =>
    rw [(decodeBody_long w x).2.2 tag]
    unfold decodeSLong majorOf
    rw [major]
    refine (rfl : _ = onlyIf _ _).trans ?_
    simp only [fields, fieldsx]
    exact onlyIf_of wf

/-! ### Instructions in bytes -/

theorem wordOfBytes_bytesOfWord (w : IWord) :
    wordOfBytes (w.extractLsb' 0 8) (w.extractLsb' 8 8) (w.extractLsb' 16 8) (w.extractLsb' 24 8) = w := by
  simp only [wordOfBytes, eq_word_iff, toNat_eq_append_iff]
  exact ⟨⟨⟨rfl, rfl⟩, rfl⟩, rfl⟩

theorem fld_whole (w : IWord) : (fld w 0 32).toNat = w.toNat := (eq_word_iff w w).mp rfl

/-- An instruction is written in no word, one or two. -/
theorem encode_length (i : Instr) : (encode i).length ≤ 2 := by
  cases i <;> exact Nat.le_of_ble_eq_true rfl

/-- An instruction of one word decodes from it, whatever the next word is. -/
theorem decode_of_encode_one {i : Instr} {w : IWord} (wf : i.wellFormed = true) (h : encode i = [w]) :
    longOf w = false ∧ ∀ next, decode w next = .ok i := by
  have isA := decodeAShort_encode wf
  have isXS := decodeXSShort_encode wf
  rw [h] at isA isXS
  obtain ⟨first, short, isA⟩ := isA w (fld_whole w)
  obtain ⟨isX, isS⟩ := isXS w (fld_whole w)
  obtain ⟨atA, atX, atS⟩ := decodeBody_short w
  have long : ¬ longOf w = true := by rw [longOf_iff, short]; decide
  refine ⟨by simpa using long, fun next => (decode_short_iff first long).mpr ?_⟩
  obtain tag | tag | tag := tag_cases first
  · rw [atA tag, isA tag]
  · rw [atX tag, isX tag]
  · rw [atS tag, isS tag]

/-- An instruction of two words decodes from them. -/
theorem decode_of_encode_two {i : Instr} {w x : IWord} (wf : i.wellFormed = true) (h : encode i = [w, x]) :
    longOf w = true ∧ decode w (some x) = .ok i := by
  have isLong := decodeLong_encode wf
  rw [h] at isLong
  obtain ⟨long, ext, first, body⟩ := isLong w x (fld_whole w) (fld_whole x)
  rw [← longOf_iff] at long
  exact ⟨long, (decode_long_iff first long ext).mpr body⟩

/-- Settles O2: the encoder writes each instruction's fields where its arm of the table reads them, and no arm before it takes
the word. -/
theorem decodeOfEncode : Obligations.DecodeOfEncode := by
  unfold Obligations.DecodeOfEncode
  intro i rest wf some
  have length := encode_length i
  match h : encode i with
  | [] => exact absurd h some
  | [w] =>
    obtain ⟨short, decodes⟩ := decode_of_encode_one wf h
    simp only [encodeBytes, h, List.flatMap_cons, List.flatMap_nil, bytesOfWord, List.cons_append, List.nil_append, decodeBytes,
      wordOfBytes_bytesOfWord, decodes, short]
    split <;> rfl
  | [w, x] =>
    obtain ⟨long, decodes⟩ := decode_of_encode_two wf h
    simp only [encodeBytes, h, List.flatMap_cons, List.flatMap_nil, bytesOfWord, List.cons_append, List.nil_append, decodeBytes,
      wordOfBytes_bytesOfWord, decodes, long, if_true]
  | w :: x :: y :: more =>
    rw [h] at length
    simp at length

/-- A word of TYIELD's opcode whose operand bits are not 0 is no instruction of its table. -/
theorem decode_tyield_nonzero : decode 0x16000001#32 none = .error .undef := by
  have first : tagOf 0x16000001#32 ≠ 3#2 := by decide
  have short : ¬ longOf 0x16000001#32 = true := by decide
  have major : majorOf 0x16000001#32 = 0x58 := by decide
  have body : decodeBody 0x16000001#32 none = none := by
    rw [(decodeBody_short _).1 rfl]
    unfold decodeAShort
    rw [major]
    rfl
  rw [decode.eq_def, if_neg first, if_neg short, body]
  rfl

/-- Settles O1: each word is the encoding of its instruction. -/
theorem sampleWords : Obligations.SampleWords := by
  unfold Obligations.SampleWords
  refine ⟨?_, ?_, ?_, ?_, ?_, ?_, ?_, ?_, ?_, ?_, ?_, ?_, ?_, ?_, ?_, ?_, ?_, ?_, ?_, ?_, decode_tyield_nonzero, ?_⟩
  case refine_4 | refine_15 | refine_16 => exact (decode_of_encode_two rfl rfl).2
  all_goals exact (decode_of_encode_one rfl rfl).2 none

end Sys2Proof
end

section
/-! PROOFS. The immediates of the A stream and the three-register instructions of the X stream (R94, R95, R98, R100, R158). -/

namespace Sys2Proof.Machine

open Sys2Proof

/-! ### The operations of R94 and R95, as the rules write them -/

theorem opRotr_eq (x y : Word) : opRotr x y = x.rotateRight (y.toNat % 64) := by
  rw [BitVec.rotateRight_def, Nat.mod_mod]
  rfl

theorem opMin_eq (x y : Word) : opMin x y = if x.toInt ≤ y.toInt then x else y := by
  simp [opMin, BitVec.sle_iff_toInt_le]

theorem opMax_eq (x y : Word) : opMax x y = if x.toInt ≤ y.toInt then y else x := by
  simp only [opMax, BitVec.sle_iff_toInt_le]
  split <;> split
  case isTrue.isTrue h k => exact BitVec.eq_of_toInt_eq (Int.le_antisymm k h)
  case isFalse.isFalse h k => omega
  all_goals rfl

theorem opMinu_eq (x y : Word) : opMinu x y = if x.toNat ≤ y.toNat then x else y := by
  simp [opMinu, BitVec.ule_iff_toNat_le]

theorem opMaxu_eq (x y : Word) : opMaxu x y = if x.toNat ≤ y.toNat then y else x := by
  simp only [opMaxu, BitVec.ule_iff_toNat_le]
  split <;> split
  case isTrue.isTrue h k => exact BitVec.eq_of_toNat_eq (Nat.le_antisymm k h)
  case isFalse.isFalse h k => omega
  all_goals rfl

theorem opSlt_eq (x y : Word) : opSlt x y = if x.toInt < y.toInt then 1 else 0 := by
  simp [opSlt, wordOfBool, BitVec.slt_iff_toInt_lt]

theorem opSltu_eq (x y : Word) : opSltu x y = if x.toNat < y.toNat then 1 else 0 := by
  simp [opSltu, wordOfBool, BitVec.ult_iff_toNat_lt]

theorem opSeq_eq (x y : Word) : opSeq x y = if x = y then 1 else 0 := by
  simp [opSeq, wordOfBool]

theorem mul_eq_ofInt (x y : Word) : x * y = BitVec.ofInt 64 (x.toInt * y.toInt) := by
  rw [BitVec.ofInt_mul, BitVec.ofInt_toInt, BitVec.ofInt_toInt]

/-- Bits 127 to 64 of a number modulo 2^128 are its quotient by 2^64, modulo 2^64. -/
theorem ofNat_shiftRight_eq_ofInt (p : Int) :
    BitVec.ofNat 64 ((p % (2 ^ 128 : Nat)).toNat >>> 64) = BitVec.ofInt 64 (p / 2 ^ 64) := by
  apply BitVec.eq_of_toNat_eq
  rw [BitVec.toNat_ofNat, BitVec.toNat_ofInt, Nat.shiftRight_eq_div_pow]
  omega

theorem opMulh_eq (x y : Word) : opMulh x y = BitVec.ofInt 64 (x.toInt * y.toInt / 2 ^ 64) := ofNat_shiftRight_eq_ofInt _

theorem opMulhu_eq (x y : Word) : opMulhu x y = BitVec.ofNat 64 (x.toNat * y.toNat / 2 ^ 64) := by
  rw [opMulhu, wordOfNat, Nat.shiftRight_eq_div_pow]

theorem opDivu_eq (x y : Word) : opDivu x y = if y = 0 then BitVec.allOnes 64 else x / y := by
  rw [opDivu, wordOfNat, ← BitVec.toNat_udiv, BitVec.ofNat_toNat, BitVec.setWidth_eq]

theorem opRemu_eq (x y : Word) : opRemu x y = if y = 0 then x else x % y := by
  rw [opRemu, wordOfNat, ← BitVec.toNat_umod, BitVec.ofNat_toNat, BitVec.setWidth_eq]

theorem opSel_eq (old x y : Word) : opSel old x y = if old = 0 then y else x := by
  simp [opSel]

/-! ### The immediates of R98 -/

/-- `answersA_of` for a value in another form. -/
theorem answersA_eq {i : Instr} {s : State} {n : Nat} {d : BitVec 6} {w v : Word} (e : exec i s = answerA s n d w) (h : w = v) :
    AnswersA i s n d v := answersA_of i s n d v (h ▸ e)

theorem shiftImmA_small (f : Word → Word → Word) (len : Nat) (d a : BitVec 6) (i : Word) (s : State) (h : i.toNat < 64) :
    shiftImmA f len d a i s = answerA s len d (f (s.bank.readA a.toNat) i) := if_pos h

theorem shiftImmA_large (f : Word → Word → Word) (len : Nat) (d a : BitVec 6) (i : Word) (s : State) (h : 64 ≤ i.toNat) :
    shiftImmA f len d a i s = s.pcFault .a .operandIllegal := if_neg (Nat.not_lt.mpr h)

/-- A shift of R98 by a count of 0 to 63. -/
theorem answersA_shiftImmA {i : Instr} {s : State} {f : Word → Word → Word} {g : Word → Nat → Word} {len : Nat} {d a : BitVec 6}
    {v : Word} (e : exec i s = shiftImmA f len d a v s) (fg : ∀ x y, f x y = g x (shiftCount y)) (h : v.toNat < 64) :
    AnswersA i s len d (g (s.bank.readA a.toNat) v.toNat) := by
  rw [← Nat.mod_eq_of_lt h, ← shiftCount, ← fg]
  exact answersA_of _ _ _ _ _ (e.trans (shiftImmA_small f len d a v s h))

/-- A shift of R98 by another count. -/
theorem raised_shiftImmA {i : Instr} {s : State} {f : Word → Word → Word} {len : Nat} {d a : BitVec 6} {v : Word}
    (e : exec i s = shiftImmA f len d a v s) (ok : s.faultless) (h : 64 ≤ v.toNat) :
    ∃ t, exec i s = .next t ∧ Raised s t 0 .operandIllegal s.bank.sr.pca :=
  raised_pcFault i s .a .operandIllegal ok (e.trans (shiftImmA_large f len d a v s h))

/-! ### LSET -/

/-- Writing an lc register and retiring has the frame of `WroteLc`. -/
theorem wroteLc_retire (s : State) (len d : Nat) (v : BitVec 32) (h : d < 8) :
    WroteLc s ((s.setBank (s.bank.writeLc d v)).retire .a len) len d v := by
  have retired := retiredA_retire s (s.bank.writeLc d v) len rfl rfl rfl
  have device := sameDevice_setBank s ((s.bank.writeLc d v).retire .a len)
  constructor
  case dest => simp [Bank.readLc, Bank.writeLc, vget_vset_eq _ _ _ _ h]
  case others => intro r hr; simp [Bank.readLc, Bank.writeLc, vget_vset_ne _ _ _ _ _ (Ne.symm hr)]
  case units => constructor <;> simp [Bank.writeLc]
  case retired => simpa [State.retire] using retired
  case rest => simpa [State.retire] using device
  all_goals simp [Bank.writeLc]

/-- The sum that LSET cuts to 32 bits, as the model and as R100 write it. -/
theorem lset_cut (z : Int) : BitVec.ofNat 32 (min z.toNat (2 ^ 32 - 1)) = BitVec.ofInt 32 (max 0 (min z (2 ^ 32 - 1))) := by
  apply BitVec.eq_of_toNat_eq
  rw [BitVec.toNat_ofNat, BitVec.toNat_ofInt]
  omega

theorem exec_lset {i : Instr} {d a : BitVec 6} {len : Nat} {k : Int}
    (h : (∃ im : BitVec 10, i = .lset d a im ∧ len = 1 ∧ k = im.toInt) ∨
      (∃ im : BitVec 30, i = .lsetL d a im ∧ len = 2 ∧ k = im.toInt)) (s : State) : exec i s = lsetOp len d a k s := by
  obtain ⟨im, rfl, rfl, rfl⟩ | ⟨im, rfl, rfl, rfl⟩ := h <;> rfl

/-- Settles O13: each instruction is `immA`, `shiftImmA` or `lsetOp` of its operation and its immediate. -/
theorem immediates : Obligations.Immediates := by
  unfold Obligations.Immediates
  refine ⟨fun s d a im il => ?_, fun s d a len k i form => ?_⟩
  · have short : (im.signExtend 64).toInt = im.toInt := BitVec.toInt_signExtend_of_le (by decide)
    have long : (il.signExtend 64).toInt = il.toInt := BitVec.toInt_signExtend_of_le (by decide)
    refine ⟨⟨answersA_of _ _ _ _ _ rfl, answersA_of _ _ _ _ _ rfl⟩, ⟨answersA_of _ _ _ _ _ rfl, answersA_of _ _ _ _ _ rfl⟩,
      ⟨answersA_of _ _ _ _ _ rfl, answersA_of _ _ _ _ _ rfl⟩, ⟨answersA_of _ _ _ _ _ rfl, answersA_of _ _ _ _ _ rfl⟩,
      ⟨answersA_of _ _ _ _ _ rfl, answersA_of _ _ _ _ _ rfl⟩, ⟨answersA_eq rfl ?_, answersA_eq rfl ?_⟩,
      ⟨answersA_eq rfl (opSltu_eq _ _), answersA_eq rfl (opSltu_eq _ _)⟩,
      ⟨answersA_eq rfl (opSeq_eq _ _), answersA_eq rfl (opSeq_eq _ _)⟩, fun small => ⟨?_, ?_, ?_⟩, fun small => ⟨?_, ?_, ?_⟩,
      fun ok large i mem => ?_, fun ok large i mem => ?_⟩
    · rw [opSlt_eq, short]
    · rw [opSlt_eq, long]
    · exact answersA_shiftImmA rfl (fun _ _ => rfl) small
    · exact answersA_shiftImmA rfl (fun _ _ => rfl) small
    · exact answersA_shiftImmA rfl (fun _ _ => rfl) small
    · exact answersA_shiftImmA rfl (fun _ _ => rfl) small
    · exact answersA_shiftImmA rfl (fun _ _ => rfl) small
    · exact answersA_shiftImmA rfl (fun _ _ => rfl) small
    · simp only [List.mem_cons, List.not_mem_nil, or_false] at mem
      obtain rfl | rfl | rfl := mem <;> exact raised_shiftImmA rfl ok large
    · simp only [List.mem_cons, List.not_mem_nil, or_false] at mem
      obtain rfl | rfl | rfl := mem <;> exact raised_shiftImmA rfl ok large
  · rw [exec_lset form s]
    refine ⟨fun low => ⟨_, if_pos low, ?_⟩, fun high ok => ⟨_, if_neg (Nat.not_lt.mpr high), raised_raise s .a _ _ ok⟩⟩
    simp only [← lset_cut]
    exact wroteLc_retire s len d.toNat _ low

/-! ### The three-register instructions of the X stream -/

/-- An instruction of R158 whose three codes are in range. -/
theorem answersX_aluX {i : Instr} {s : State} {f : Word → Word → Word} {d a b : BitVec 6} {v : Word}
    (e : exec i s = aluX f d a b s) (hd : d.toNat < 32) (ha : a.toNat < 32) (hb : b.toNat < 32)
    (h : f (s.bank.readX a.toNat) (s.bank.readX b.toNat) = v) : AnswersX i s 1 d v := by
  refine answersX_of i s 1 d v hd (e.trans ?_)
  simp [aluX, answerX, xOk, hd, ha, hb, h]

/-- An instruction of R158 with a code above 31. -/
theorem raised_aluX {i : Instr} {s : State} {f : Word → Word → Word} {d a b : BitVec 6} (e : exec i s = aluX f d a b s)
    (ok : s.faultless) (h : 32 ≤ d.toNat ∨ 32 ≤ a.toNat ∨ 32 ≤ b.toNat) :
    ∃ t, exec i s = .next t ∧ Raised s t 1 .operandIllegal s.bank.sr.pcx := by
  refine raised_pcFault i s .x .operandIllegal ok (e.trans (if_neg ?_))
  simp only [xOk, Bool.and_eq_true, decide_eq_true_eq]
  omega

/-- Settles O34: each instruction is `aluX` of its operation. -/
theorem xAluResults : Obligations.XAluResults := by
  unfold Obligations.XAluResults
  intro s d a b
  refine ⟨fun hd ha hb => ?_, fun ok h i mem => ?_⟩
  · refine ⟨answersX_aluX rfl hd ha hb rfl, answersX_aluX rfl hd ha hb rfl, answersX_aluX rfl hd ha hb rfl,
      answersX_aluX rfl hd ha hb rfl, answersX_aluX rfl hd ha hb rfl, answersX_aluX rfl hd ha hb rfl,
      answersX_aluX rfl hd ha hb rfl, answersX_aluX rfl hd ha hb rfl, answersX_aluX rfl hd ha hb (opRotr_eq _ _),
      answersX_aluX rfl hd ha hb (opMin_eq _ _), answersX_aluX rfl hd ha hb (opMax_eq _ _),
      answersX_aluX rfl hd ha hb (opMinu_eq _ _), answersX_aluX rfl hd ha hb (opMaxu_eq _ _),
      answersX_aluX rfl hd ha hb (opSlt_eq _ _), answersX_aluX rfl hd ha hb (opSltu_eq _ _),
      answersX_aluX rfl hd ha hb (opSeq_eq _ _), answersX_aluX rfl hd ha hb (mul_eq_ofInt _ _),
      answersX_aluX rfl hd ha hb (opMulh_eq _ _), answersX_aluX rfl hd ha hb (opMulhu_eq _ _), answersX_aluX rfl hd ha hb rfl,
      answersX_aluX rfl hd ha hb (opDivu_eq _ _), answersX_aluX rfl hd ha hb rfl, answersX_aluX rfl hd ha hb (opRemu_eq _ _),
      answersX_aluX rfl hd ha hb (opSel_eq _ _ _)⟩
  · simp only [List.mem_cons, List.not_mem_nil, or_false] at mem
    obtain rfl | rfl | rfl | rfl | rfl | rfl | rfl | rfl | rfl | rfl | rfl | rfl | rfl | rfl | rfl | rfl | rfl | rfl | rfl | rfl
      | rfl | rfl | rfl | rfl := mem <;> exact raised_aluX rfl ok h

end Sys2Proof.Machine
end

section
/-! PROOFS. A step runs what its stream fetches, or what the agenda names (R28, R49, R339). -/

namespace Sys2Proof.Machine

open Sys2Proof

theorem streamStep_word {s : State} {w : IWord} {next : Option IWord} {i : Instr} (fetched : s.fetch s.turn = .word w next)
    (decoded : decode w next = .ok i) : streamStep s = s.retireLatched w (exec i s) := by
  simp only [streamStep, fetched, decoded]

/-- Without a latch entry an instruction answers what its meaning answers. -/
theorem retireLatched_none {s : State} (w : IWord) (r : Result) (h : s.bank.latchHere s.turn = none) :
    s.retireLatched w r = r := by
  unfold State.retireLatched
  rw [h]

/-- An instruction that does not retire keeps the latch entry that it has. -/
theorem retireLatched_same {s t : State} (w : IWord) {l : Latch} (h : s.bank.latchHere s.turn = some l)
    (stays : t.bank.seq s.turn = s.bank.seq s.turn) : s.retireLatched w (.next t) = .next t := by
  unfold State.retireLatched
  rw [h]
  exact if_pos stays

/-- An instruction that retires where its stream holds a latch entry leaves the bank of its own meaning, without the entry: the
entry's own values are taken only where they make that bank. -/
theorem retireLatched_moved {s t : State} (w : IWord) {l : Latch} (h : s.bank.latchHere s.turn = some l)
    (moves : t.bank.seq s.turn ≠ s.bank.seq s.turn) :
    ∃ v : State, s.retireLatched w (.next t) = .next v ∧ v.bank = t.bank.dropLatch s.turn l := by
  unfold State.retireLatched
  rw [h]
  simp only [if_neg moves]
  split
  case isTrue same => exact ⟨_, rfl, (setBank_bank _ _).trans same⟩
  case isFalse => exact ⟨_, rfl, setBank_bank _ _⟩

/-- What `StepRunsDecoded` says of a stream's turn in the state `u`, whose answer is passed through `after`. -/
theorem streamStep_runs {u : State} (after : Result → Result) {w : IWord} {next : Option IWord} {i : Instr}
    (fetched : u.fetch u.turn = .word w next) (decoded : decode w next = .ok i) :
    (u.bank.latchHere u.turn = none → after (streamStep u) = after (exec i u)) ∧
    ∀ l t, u.bank.latchHere u.turn = some l → exec i u = .next t →
      (t.bank.seq u.turn = u.bank.seq u.turn → after (streamStep u) = after (.next t)) ∧
      (t.bank.seq u.turn ≠ u.bank.seq u.turn →
        ∃ v : State, after (streamStep u) = after (.next v) ∧ v.bank = t.bank.dropLatch u.turn l) := by
  rw [streamStep_word fetched decoded]
  refine ⟨fun none => by rw [retireLatched_none w _ none], fun l t latch answer => ?_⟩
  rw [answer]
  refine ⟨fun stays => by rw [retireLatched_same w latch stays], fun moves => ?_⟩
  obtain ⟨v, e, bank⟩ := retireLatched_moved w latch moves
  exact ⟨v, by rw [e], bank⟩

/-! ### What a step takes from the agenda -/

theorem step_idle {s : State} (empty : s.agenda = []) (stream : s.engine = false) :
    step s = passTurn (streamStep { s with freeCtr := s.freeCtr + 1 }) := by
  unfold step
  simp [empty, stream]

theorem step_stream {s : State} {c : Nat} (hc : c < 256) {st : Stream} {rest : List Action}
    (h : s.agenda = .stream c st :: rest) :
    step s = streamStep { s with freeCtr := s.freeCtr + 1, agenda := rest, cur := ⟨c, hc⟩, turn := st, engine := false } := by
  unfold step
  simp [h, hc]

theorem step_event {s : State} {e : Instr} {rest : List Action} (h : s.agenda = .event e :: rest) :
    step s = eventStep e { s with freeCtr := s.freeCtr + 1, agenda := rest } := by
  unfold step
  simp [h]

theorem step_firmware {s : State} {a : FirmwareAct} {rest : List Action} (h : s.agenda = .firmware a :: rest) :
    step s = .next (State.firmware { s with freeCtr := s.freeCtr + 1, agenda := rest } a) := by
  unfold step
  simp [h]

theorem eventDue_of_ne {s : State} {e : Instr} (undef : ∀ b, e ≠ .opcodeUndef b) (malformed : ∀ v, e ≠ .fetchMalformed v) :
    s.eventDue e = true := by
  unfold State.eventDue
  split
  case h_1 b => exact absurd rfl (undef b)
  case h_2 v => exact absurd rfl (malformed v)
  case h_3 => rfl

theorem lookAhead_of_ne {s : State} {e : Instr} (preempt : ∀ x l, e ≠ .preemptRequest x l)
    (walk : ∀ c g, e ≠ .pageWalkComplete c g) : s.lookAhead e = s := by
  unfold State.lookAhead
  split
  case h_1 x l => exact absurd rfl (preempt x l)
  case h_2 c g => exact absurd rfl (walk c g)
  case h_3 => rfl

/-- Settles O4: the agenda selects the turn, and `retireLatched` says what a latch entry changes of its answer. -/
theorem stepRunsDecoded : Obligations.StepRunsDecoded := by
  unfold Obligations.StepRunsDecoded
  refine ⟨⟨fun s empty stream w next i fetched decoded => ?_, fun s c hc st rest named w next i fetched decoded => ?_⟩,
    fun s e rest named => ?_, fun s a rest named => step_firmware named⟩
  · rw [step_idle empty stream]
    exact streamStep_runs passTurn fetched decoded
  · rw [step_stream hc named]
    exact streamStep_runs id fetched decoded
  · rw [step_event named]
    exact ⟨fun idle => by simp [eventStep, idle], fun due => by simp [eventStep, due], eventDue_of_ne, lookAhead_of_ne⟩

end Sys2Proof.Machine
end

section
/-! PROOFS. What a stream finds in its turn (R28, R39, R62, R69, R70, R73, R81, R88, R214). -/

namespace Sys2Proof.Machine

open Sys2Proof

/-! ### The branches of a fetch -/

theorem fetch_stopped {s : State} {st : Stream} (h : s.canRun st = false) : s.fetch st = .done s := if_pos h

theorem fetch_slips {s : State} {st : Stream} {x : Nat} (runs : s.canRun st = true) (owned : s.owner = some x)
    (leads : s.bank.window st ≤ s.bank.lead st) : s.fetch st = .done (s.slipStall st) := by
  simp [State.fetch, runs, owned, leads]

theorem fetch_entered {s : State} {st : Stream} {x : Nat} {w : IWord} {next : Option IWord} (runs : s.canRun st = true)
    (owned : s.owner = some x) (within : s.bank.lead st < s.bank.window st) (word : s.bank.entryWord st = some (w, next)) :
    s.fetch st = s.fetchWord st w next := by
  simp [State.fetch, runs, owned, Int.not_le.mpr within, word]

theorem fetch_outside {s : State} {st : Stream} {x : Nat} (runs : s.canRun st = true) (owned : s.owner = some x)
    (within : s.bank.lead st < s.bank.window st) (none : s.bank.entryWord st = none) :
    s.fetch st = .done (s.fetchEntry st x) := by
  simp [State.fetch, runs, owned, Int.not_le.mpr within, none]

theorem fetchWord_malformed {s : State} {st : Stream} {w : IWord} (next : Option IWord) (h : tagOf w = 3#2) :
    s.fetchWord st w next = .done (s.raise st .fetchMalformed (s.bank.pc st)) := if_pos h

theorem fetchWord_tagged {s : State} {st : Stream} {w : IWord} (next : Option IWord) (h : tagOf w ≠ 3#2)
    (tagged : taggedFor w st = true) : s.fetchWord st w next = .word w next := (if_neg h).trans (if_pos tagged)

theorem fetchWord_other {s : State} {st : Stream} {w : IWord} (next : Option IWord) (h : tagOf w ≠ 3#2)
    (other : taggedFor w st = false) :
    s.fetchWord st w next = if st = .x ∧ meetsX w = true ∧ s.bank.walk.wmaxa ≤ s.bank.walk.wx then .done (s.stallPeer .x)
      else .done (s.skip st (if longOf w then 2 else 1)) := by
  rw [State.fetchWord, if_neg h, other]
  rfl

/-! ### The region that a stream enters -/

/-- A region holds its first instruction whole, as far as TEXT does. -/
theorem one_le_regionLen {text : List IWord} {i : Nat} {w : IWord} (base : Nat) (h : text[i]? = some w) :
    (if longOf w && decide (i + 1 < text.length) then 2 else 1) ≤ regionLen text base i := by
  rw [regionLen, regionFrom]
  simp only [h]
  generalize len : (if longOf w && decide (i + 1 < text.length) then 2 else 1) = n
  have fits : ¬ (256 < n ∨ (decide ((base + 4 * i) % 65536 + 4 * n > 65536) = true ∧ i ≠ i)) := by
    rintro (large | ⟨-, moved⟩)
    · split at len <;> omega
    · exact moved rfl
  rw [if_neg fits]
  split
  · exact Nat.le_refl n
  · exact Nat.le_add_right n _

/-- A stream at the first word of the entry that it has entered. -/
theorem entryWord_first {b : Bank} {st : Stream} {e : InEntry} {w : IWord} (entered : b.ctl.entered st = some e)
    (base : e.base = (b.pc st).toNat) (first : e.code[0]? = some w) : b.entryWord st = some (w, e.code[1]?) := by
  simp [Bank.entryWord, entered, base, first]

/-- Entering a region stands the stream at TEXT's word, with the word after it where the instruction has two. -/
theorem entryWord_entersRegion {s : State} {st : Stream} {e : InEntry} {text : List IWord} {base i : Nat} {w : IWord}
    (atPc : e.base = (s.bank.pc st).toNat) (code : e.code = (text.drop i).take (regionLen text base i))
    (word : text[i]? = some w) :
    ∃ next, (s.entersRegion st e).bank.entryWord st = some (w, next) ∧ (longOf w = true → next = text[i + 1]?) := by
  have holds := one_le_regionLen base word
  have positive : 0 < regionLen text base i := by split at holds <;> omega
  have first : e.code[0]? = some w := by
    rw [code, List.getElem?_take_of_lt positive, List.getElem?_drop, Nat.add_zero, word]
  have samePc : (s.entersRegion st e).bank.pc st = s.bank.pc st := by
    cases st <;> simp [State.entersRegion, Bank.pc]
  refine ⟨e.code[1]?, entryWord_first (entersRegion_entered s st e) (by rw [samePc, atPc]) first, fun long => ?_⟩
  by_cases last : i + 1 < text.length
  · rw [if_pos (by simp [long, last])] at holds
    rw [code, List.getElem?_take_of_lt holds, List.getElem?_drop]
  · rw [code, List.getElem?_eq_none (by simp; omega), List.getElem?_eq_none (by omega)]

theorem enterGalley_bank (s : State) (die words : Nat) (key : GalleyKey) : (s.enterGalley die key words).1.bank = s.bank := by
  simp only [State.bank, State.cell, enterGalley_cells, enterGalley_cur]

theorem enterRegion_stops {s : State} {st : Stream} {x i : Nat} {k : Kernel} {e : Stop}
    (h : s.textCheck k i (s.bank.pc st) = some e) : s.enterRegion st x k i = s.stop st e := by
  simp only [State.enterRegion, h]

/-- A stream that enters a region of sound chunks at index `i` of TEXT then stands at TEXT's word `i`. -/
theorem enterRegion_stands {s : State} {st : Stream} {x i : Nat} {k : Kernel} {w : IWord} (word : k.text[i]? = some w)
    (checked : s.textCheck k i (s.bank.pc st) = none)
    (sound : s.chunkBad (s.regionKey x st k i (regionLen k.text k.textG.toNat i)) = false) :
    ∃ next, (s.enterRegion st x k i).bank.entryWord st = some (w, next) ∧ (longOf w = true → next = k.text[i + 1]?) := by
  rw [enterRegion_enters checked rfl rfl sound]
  exact entryWord_entersRegion (by rw [enterGalley_bank]) rfl word

/-- Settles O5: the branches of the fetch, and the region that the stream enters where it stands in none. -/
theorem fetchReadsText : Obligations.FetchReadsText := by
  unfold Obligations.FetchReadsText
  intro s st
  refine ⟨fetch_stopped, fun x runs owned => ⟨fetch_slips runs owned, fun within => ⟨fun w next word => ?_, fun none => ?_⟩⟩⟩
  · rw [fetch_entered runs owned within word]
    exact ⟨fetchWord_malformed next, fetchWord_tagged next, fetchWord_other next⟩
  · rw [fetch_outside runs owned within none]
    refine ⟨fun k kernel => ⟨fun outside => ?_, fun i index => ⟨?_, fun e => enterRegion_stops, fun w => enterRegion_stands⟩⟩,
      fun gone => ⟨fun e stops => ?_, fun mapped => ?_⟩⟩
    · simp only [State.fetchEntry, kernel, outside]
    · simp only [State.fetchEntry, kernel, index]
    · simp only [State.fetchEntry, gone, stops, Option.getD_some]
    · simp only [State.fetchEntry, gone, mapped, Option.getD_none, State.stop]

end Sys2Proof.Machine
end

section
/-! PROOFS. SRD and SWR (R38, R39, R41, R351). -/

namespace Sys2Proof.Machine

open Sys2Proof

/-! ### The moving cell's counters and clock -/

theorem count_bank (s : State) (f : CellCounters → CellCounters) : (s.count f).bank = s.bank := by
  simp [State.count, State.bank]

theorem count_cellNo (s : State) (f : CellCounters → CellCounters) : (s.count f).cellNo = s.cellNo := withCell_cellNo _ _

theorem cellAt_cellNo (s : State) : s.cellAt s.cellNo = s.cell := by
  simp [State.cellAt, State.cellNo, State.cell, vget]

theorem setCell_cellNo (s : State) (c : Cell) : s.setCell s.cellNo c = s.withCell c := by
  have same : vset s.cells s.cellNo c = s.cells.set s.cur c := by
    ext1 i hi
    simp [vset, State.cellNo, Vector.getElem_set, Vector.getElem_setIfInBounds]
  rw [State.setCell, State.withCell, same]

theorem passTime_cell (s : State) :
    (s.passTime s.cellNo).cell = { s.cell with cyc := s.cell.cyc + Config.elapsed s.freeCtr } := by
  rw [State.passTime, setCell_cellNo, withCell_cell, cellAt_cellNo]

theorem passTime_bank (s : State) : (s.passTime s.cellNo).bank = s.bank := by
  rw [State.bank, passTime_cell, State.bank]

/-! ### The registers of R38 -/

theorem xOwned_iff (n : Nat) : xOwned n = true ↔ ownedByX n := by
  simp [xOwned, ownedByX, or_assoc]

/-- A register with a value is listed and reads as that value. -/
theorem sysValue_some {s : State} {n : Nat} {v : Word} (h : sysValue s n = some v) :
    sysListed n = true ∧ n ≠ 7 ∧ s.bank.sysReg s.cell s.cellNo n = v := by
  unfold sysValue at h
  split at h
  case h_18 =>
    split at h
    case isTrue range =>
      cases h
      obtain ⟨low, high⟩ := range
      interval_cases n <;> exact ⟨rfl, by decide, rfl⟩
    case isFalse => cases h
  all_goals
    cases h
    exact ⟨rfl, by decide, rfl⟩

/-- A number without a value is not listed, but for sr.cyc. -/
theorem sysListed_of_none {s : State} {n : Nat} (h : sysValue s n = none) (cyc : n ≠ 7) : sysListed n = false := by
  rw [← Bool.not_eq_true]
  intro listed
  simp only [sysListed, Bool.or_eq_true, Bool.and_eq_true, decide_eq_true_eq] at listed
  obtain (low | ⟨low, high⟩) | ⟨low, high⟩ := listed <;> interval_cases n <;> simp [sysValue] at h cyc

/-- A register that the X stream owns is read and written once the streams have met (R39). -/
theorem meetX_met {s : State} {n : Nat} (h : metFor s n) (go : State → Result) :
    meetX n s go = go (if xOwned n then s.countLoss else s) := by
  obtain ⟨met, flags⟩ := h
  unfold meetX
  split
  case isFalse => rfl
  case isTrue owned =>
    have drained : ¬ (n = 1 ∧ s.bank.eng.tileQ.any (fun o => decide (o.walk < s.bank.walk.wa)) = true) := by
      rintro ⟨one, busy⟩
      obtain ⟨o, mem, lower⟩ := List.any_eq_true.mp busy
      exact Int.not_lt.mpr (flags one o mem) (of_decide_eq_true lower)
    rw [met ((xOwned_iff n).mp owned), if_neg (by decide), if_neg drained]

/-- The state in which an SRD or SWR goes on after the streams have met: only a counter of the cell has moved. -/
theorem met_same (s : State) (n : Nat) :
    (if xOwned n then s.countLoss else s).bank = s.bank ∧ (if xOwned n then s.countLoss else s).mem = s.mem := by
  split
  · exact ⟨count_bank _ _, countLoss_mem s⟩
  · exact ⟨rfl, rfl⟩

/-- A stall of a state that has the moving bank and the memory of `s` is a stall of `s`. -/
theorem Waits.of_same {s u t : State} {st : Stream} (bank : u.bank = s.bank) (mem : u.mem = s.mem) (h : Waits u t st) :
    Waits s t st := by
  obtain ⟨mark, ⟨af, xf⟩, ⟨q, sync, eng⟩, sys, walk, memory⟩ := h
  simp only [bank, mem, SameMemory] at af xf q sync eng sys walk memory
  exact ⟨mark, ⟨af, xf⟩, ⟨q, sync, eng⟩, sys, walk, memory⟩

/-- A register that the X stream owns is waited for while the streams have not met. -/
theorem meetX_waits {s : State} {n : Nat} (owned : ownedByX n) (apart : s.xMeets = false) (go : State → Result) :
    ∃ t, meetX n s go = .next t ∧ Waits s t .a := by
  refine ⟨s.countLossWait.stallPeer .a, ?_, (waits_stallPeer _ .a).of_same (count_bank _ _) (countLossWait_mem s)⟩
  rw [meetX, if_pos ((xOwned_iff n).mpr owned), if_pos apart]

/-! ### SRD -/

/-- A read that the level allows goes on to the wait for the X stream. -/
theorem execSrd_allowed {s : State} {n : BitVec 8} (d : BitVec 6) (listed : sysListed n.toNat = true)
    (allowed : n.toNat < 0x20 ∨ s.level = .supervisor) : execSrd d n s = meetX n.toNat s fun t =>
      let t1 := if n.toNat = 7 then t.passTime t.cellNo else t
      .next (t1.setA 1 d.toNat (t1.bank.sysReg t1.cell t1.cellNo n.toNat)) := by
  have free : ¬ (s.level = .task ∧ sysListed n.toNat = true ∧ sysPriv n.toNat = true) := by
    rintro ⟨task, -, priv⟩
    obtain low | supervisor := allowed
    · exact Nat.not_le.mpr low (of_decide_eq_true priv)
    · rw [task] at supervisor
      cases supervisor
  exact (if_neg free).trans (if_neg (by simp [listed]))

/-- Writing an a register with a value that a system register holds has the frame of `ReadSys`. -/
theorem readSys_setA {s u : State} (d : BitVec 6) (v : Word) (bank : u.bank = s.bank) (mem : u.mem = s.mem) :
    ReadSys s (u.setA 1 d.toNat v) d.toNat v := by
  obtain ⟨dest, ⟨a, lc, sd, xf⟩, ⟨q, sync, eng⟩, ⟨⟨sys, wa, wx, wmaxx⟩, wmaxa, ctl⟩, rest⟩ := wroteA_setA u 1 d v
  simp only [bank] at a lc sd xf q sync eng sys wa wx wmaxx wmaxa ctl
  exact ⟨dest, ⟨a, lc, sd, xf⟩, ⟨q, sync, eng⟩, ⟨⟨sys, wa, wx, wmaxx⟩, wmaxa, ctl⟩, fun k => (rest.memory k).trans (by rw [mem])⟩

theorem countLoss_sysReg (s : State) (n k : Nat) (cyc : k ≠ 7) :
    (if xOwned n then s.countLoss else s).bank.sysReg (if xOwned n then s.countLoss else s).cell
      (if xOwned n then s.countLoss else s).cellNo k = s.bank.sysReg s.cell s.cellNo k := by
  split
  case isFalse => rfl
  case isTrue =>
    rw [State.countLoss, count_bank, count_cellNo]
    unfold Bank.sysReg
    split
    case h_8 => exact absurd rfl cyc
    all_goals rfl

/-- A read of a register other than sr.cyc. -/
theorem srd_reads {s : State} {d : BitVec 6} {n : BitVec 8} {v : Word} (value : sysValue s n.toNat = some v)
    (allowed : n.toNat < 0x20 ∨ s.level = .supervisor) (met : metFor s n.toNat) :
    ∃ t, exec (.srd d n) s = .next t ∧ ReadSys s t d.toNat v := by
  obtain ⟨listed, cyc, reg⟩ := sysValue_some value
  obtain ⟨bank, mem⟩ := met_same s n.toNat
  refine ⟨_, (execSrd_allowed d listed allowed).trans (meetX_met met _), ?_⟩
  simp only [if_neg cyc, countLoss_sysReg _ _ _ cyc, reg]
  exact readSys_setA d v bank mem

/-- A read of sr.cyc draws the cycles that have passed. -/
theorem srd_cyc (s : State) (d : BitVec 6) : ∃ t, exec (.srd d 7) s = .next t ∧
    ReadSys s t d.toNat (s.cell.cyc + Config.elapsed s.freeCtr) ∧ t.cell.cyc = s.cell.cyc + Config.elapsed s.freeCtr := by
  have value : (s.passTime s.cellNo).bank.sysReg (s.passTime s.cellNo).cell (s.passTime s.cellNo).cellNo 7 =
      s.cell.cyc + Config.elapsed s.freeCtr := by
    rw [passTime_cell]
    rfl
  refine ⟨_, execSrd_allowed d rfl (.inl (by decide)), ?_, ?_⟩
  · exact value ▸ readSys_setA d _ (passTime_bank s) (passTime_mem s s.cellNo)
  · show ((s.passTime s.cellNo).setA 1 d.toNat _).cell.cyc = _
    simp [State.setA, State.retire, passTime_cell]

/-! ### SWR -/

/-- A write that goes on to the wait for the X stream, and what it leaves of the bank. -/
theorem execSwr_allowed {s : State} {n : BitVec 8} (d : BitVec 6) (listed : sysListed n.toNat = true) (n0 : n.toNat ≠ 0)
    (n2 : n.toNat ≠ 2) (n3 : n.toNat ≠ 3)
    (allowed : n.toNat = 1 ∨ n.toNat = 5 ∨ n.toNat = 6 ∨ s.level = .supervisor) : execSwr d n s = meetX n.toNat s fun t =>
      .next ((t.setBank (if n.toNat = 1 then t.bank.clearFflags t.bank.walk.wa (s.bank.readA d.toNat)
        else if n.toNat = 5 then t.bank.mapSr fun r => { r with seed := s.bank.readA d.toNat &&& 0xFFFFFFFF#64 }
        else if n.toNat = 6 then t.bank.mapSr fun r => { r with seedCtr := s.bank.readA d.toNat &&& 0xFFFFFFFF#64 }
        else t.bank)).retire .a 1) := by
  refine (if_neg ?_).trans (if_neg (by simp [listed, n0, n2, n3]))
  rintro ⟨-, readOnly, -, -, -, task⟩
  simp only [Bool.and_eq_true, bne_iff_ne] at readOnly
  obtain one | five | six | supervisor := allowed
  · exact readOnly.1.1 one
  · exact readOnly.1.2 five
  · exact readOnly.2 six
  · rw [task] at supervisor
    cases supervisor

/-- What SWR leaves: the system registers changed by `f`, and the A stream one word further. -/
def SwrWrote (s t : State) (f : SysRegs → SysRegs) : Prop :=
  t.bank.sr = { (f s.bank.sr) with pca := s.bank.sr.pca + 4, seqa := s.bank.sr.seqa + 1 } ∧
    SameRegs s t ∧ t.bank.q = s.bank.q ∧ t.bank.sync = s.bank.sync ∧ SameMemory s t

theorem swrWrote_retire {s u : State} {b : Bank} {f : SysRegs → SysRegs} (mem : u.mem = s.mem) (sr : b.sr = f s.bank.sr)
    (pc : (f s.bank.sr).pca = s.bank.sr.pca) (seq : (f s.bank.sr).seqa = s.bank.sr.seqa) (af : b.af = s.bank.af)
    (xf : b.xf = s.bank.xf) (q : b.q = s.bank.q) (sync : b.sync = s.bank.sync) :
    SwrWrote s ((u.setBank b).retire .a 1) f := by
  refine ⟨?_, ⟨?_, ?_⟩, ?_, ?_, fun k => ?_⟩
  · simp [Bank.retire, Bank.advance, Bank.countSeq, Bank.setPc, Bank.setW, Bank.pc, sr, pc, seq, wordOfNat]
  · simp [af]
  · simp [xf]
  · simp [q]
  · simp [sync]
  · simp [mem]

/-- SWR of a register that it writes: the bank that it leaves decides what it wrote. -/
theorem swr_writes {s : State} {d : BitVec 6} {n : BitVec 8} {f : SysRegs → SysRegs} (met : metFor s n.toNat)
    (listed : sysListed n.toNat = true) (n0 : n.toNat ≠ 0) (n2 : n.toNat ≠ 2) (n3 : n.toNat ≠ 3)
    (allowed : n.toNat = 1 ∨ n.toNat = 5 ∨ n.toNat = 6 ∨ s.level = .supervisor)
    (pc : (f s.bank.sr).pca = s.bank.sr.pca) (seq : (f s.bank.sr).seqa = s.bank.sr.seqa)
    (wrote : (if n.toNat = 1 then s.bank.clearFflags s.bank.walk.wa (s.bank.readA d.toNat)
        else if n.toNat = 5 then s.bank.mapSr fun r => { r with seed := s.bank.readA d.toNat &&& 0xFFFFFFFF#64 }
        else if n.toNat = 6 then s.bank.mapSr fun r => { r with seedCtr := s.bank.readA d.toNat &&& 0xFFFFFFFF#64 }
        else s.bank).sr = f s.bank.sr) :
    ∃ t, exec (.swr d n) s = .next t ∧ SwrWrote s t f := by
  obtain ⟨bank, mem⟩ := met_same s n.toNat
  refine ⟨_, (execSwr_allowed d listed n0 n2 n3 allowed).trans (meetX_met met _), ?_⟩
  rw [bank]
  refine swrWrote_retire mem wrote pc seq ?_ ?_ ?_ ?_
  all_goals
    split_ifs <;> rfl

/-- SWR at task level of a register that it may not write. -/
theorem execSwr_priv {s : State} {n : BitVec 8} (d : BitVec 6) (listed : sysListed n.toNat = true) (task : s.level = .task)
    (low : 3 < n.toNat) (n5 : n.toNat ≠ 5) (n6 : n.toNat ≠ 6) : execSwr d n s = s.pcFault .a .priv := by
  refine if_pos ⟨listed, ?_, by omega, by omega, by omega, task⟩
  have n1 : n.toNat ≠ 1 := by omega
  simp [n1, n5, n6]

theorem execSwr_illegal {s : State} {n : BitVec 8} (d : BitVec 6)
    (h : sysListed n.toNat = false ∨ n.toNat = 0 ∨ n.toNat = 2 ∨ n.toNat = 3) :
    execSwr d n s = s.pcFault .a .operandIllegal := by
  refine (if_neg ?_).trans (if_pos h)
  rintro ⟨listed, -, n0, n2, n3, -⟩
  obtain unlisted | zero | two | three := h
  · rw [unlisted] at listed
    cases listed
  · exact n0 zero
  · exact n2 two
  · exact n3 three

/-- A register that SWR writes at supervisor level only. -/
theorem supervisor_register {s : State} {n : BitVec 8}
    (h : n = 7#8 ∨ (3 < n.toNat ∧ n ≠ 5#8 ∧ n ≠ 6#8 ∧ sysValue s n.toNat ≠ none)) :
    3 < n.toNat ∧ n.toNat ≠ 5 ∧ n.toNat ≠ 6 ∧ sysListed n.toNat = true := by
  obtain rfl | ⟨low, n5, n6, value⟩ := h
  · decide
  · obtain ⟨v, value⟩ := Option.ne_none_iff_exists'.mp value
    exact ⟨low, by bv_omega, by bv_omega, (sysValue_some value).1⟩

/-- Settles O28: the checks of SRD and SWR in their order, and then the wait for the X stream. -/
theorem systemRegisters : Obligations.SystemRegisters := by
  unfold Obligations.SystemRegisters
  intro s d n
  refine ⟨fun v value allowed met => srd_reads value allowed met, ?_, fun owned allowed apart => ?_, fun ok => ⟨?_, ?_, ?_, ?_⟩,
    fun met => ⟨?_, ?_, ?_, ?_⟩⟩
  · rintro rfl
    exact srd_cyc s d
  · have listed : sysListed n.toNat = true := by
      obtain h | h | h | h | h | h := owned <;> rw [h] <;> rfl
    obtain ⟨t, waits⟩ := meetX_waits owned apart fun t =>
      let t1 := if n.toNat = 7 then t.passTime t.cellNo else t
      .next (t1.setA 1 d.toNat (t1.bank.sysReg t1.cell t1.cellNo n.toNat))
    exact ⟨t, (execSrd_allowed d listed allowed).trans waits.1, waits.2⟩
  · intro task low high
    refine raised_pcFault _ s .a .priv ok (if_pos ⟨task, ?_, decide_eq_true low⟩)
    simp [sysListed, low, high]
  · intro none cyc
    have unlisted : sysListed n.toNat = false := sysListed_of_none none (by bv_omega)
    refine ⟨raised_pcFault _ s .a _ ok ((if_neg ?_).trans (if_pos unlisted)),
      raised_pcFault _ s .a _ ok (execSwr_illegal d (.inl unlisted))⟩
    simp [unlisted]
  · intro fixed
    refine raised_pcFault _ s .a _ ok (execSwr_illegal d (.inr ?_))
    obtain rfl | rfl | rfl := fixed <;> decide
  · intro task h
    obtain ⟨low, n5, n6, listed⟩ := supervisor_register h
    exact raised_pcFault _ s .a _ ok (execSwr_priv d listed task low n5 n6)
  · rintro rfl
    exact swr_writes (f := fun r => { r with seed := s.bank.readA d.toNat &&& 0xFFFFFFFF#64 }) met rfl (by decide) (by decide)
      (by decide) (.inr (.inl rfl)) rfl rfl rfl
  · rintro rfl
    exact swr_writes (f := fun r => { r with seedCtr := s.bank.readA d.toNat &&& 0xFFFFFFFF#64 }) met rfl (by decide) (by decide)
      (by decide) (.inr (.inr (.inl rfl))) rfl rfl rfl
  · rintro rfl
    exact swr_writes (f := fun r => { r with fflags := r.fflags &&& (~~~((s.bank.readA d.toNat).setWidth 6)).setWidth 64 }) met
      rfl (by decide) (by decide) (by decide) (.inl rfl) rfl rfl rfl
  · intro supervisor h
    obtain ⟨low, n5, n6, listed⟩ := supervisor_register h
    refine swr_writes met listed (by omega) (by omega) (by omega) (.inr (.inr (.inr supervisor))) rfl rfl ?_
    rw [if_neg (by omega), if_neg n5, if_neg n6]
    rfl

end Sys2Proof.Machine
end

section
/-! PROOFS. The shared words SYNC, WIN, FPC and HALT (R39, R40, R50, R81, R121 to R123, R293, R305, R340, R346). -/

namespace Sys2Proof.Machine

open Sys2Proof

/-! ### SYNC -/

/-- Both streams retire a SYNC at which they stand. -/
theorem sync_met (s : State) (met : s.standsAt s.turn.other syncWord = true) : ∃ t, exec .sync s = .next t ∧ SameRegs s t ∧
    SameUnits s t ∧ SameMemory s t ∧
    t.bank.sr = { s.bank.sr with pca := s.bank.sr.pca + 4, pcx := s.bank.sr.pcx + 4, seqa := s.bank.sr.seqa + 1,
                                 seqx := s.bank.sr.seqx + 1 } ∧
    t.bank.walk.wa = s.bank.walk.wa + 1 ∧ t.bank.walk.wx = s.bank.walk.wx + 1 := by
  refine ⟨_, if_pos met, ?_⟩
  have bank : (s.setBank ((s.bank.retire .a 1).retire .x 1)).countLoss.bank = (s.bank.retire .a 1).retire .x 1 := by
    rw [State.countLoss, count_bank, setBank_bank]
  rw [bank]
  refine ⟨⟨?_, ?_⟩, ⟨?_, ?_, ?_⟩, fun k => ?_, ?_, ?_, ?_⟩
  · simp [bank]
  · simp [bank]
  · simp [bank]
  · simp [bank]
  · simp [bank]
  · rw [countLoss_mem, setBank_mem]
  · simp [Bank.retire, Bank.advance, Bank.countSeq, Bank.setPc, Bank.setW, Bank.pc, wordOfNat]
  · simp [Bank.retire, Bank.advance, Bank.countSeq, Bank.setPc, Bank.setW, Bank.w]
  · simp [Bank.retire, Bank.advance, Bank.countSeq, Bank.setPc, Bank.setW, Bank.w]

theorem sync_waits (s : State) (apart : s.standsAt s.turn.other syncWord = false) :
    ∃ t, exec .sync s = .next t ∧ Waits s t s.turn := by
  refine ⟨(if s.turn = .a then s.countLossWait else s).stallPeer s.turn, if_neg (by simp [apart]),
    (waits_stallPeer _ _).of_same ?_ ?_⟩
  · split
    · exact count_bank _ _
    · rfl
  · split
    · exact countLossWait_mem s
    · rfl

/-! ### A stream's own copies of system registers (R39) -/

/-- A shared word that retires in the executing stream after it has changed the stream's copies of system registers. -/
theorem retiredWith_retire (s : State) (f : SysRegs → SysRegs) (pca : (f s.bank.sr).pca = s.bank.sr.pca)
    (pcx : (f s.bank.sr).pcx = s.bank.sr.pcx) (seqa : (f s.bank.sr).seqa = s.bank.sr.seqa)
    (seqx : (f s.bank.sr).seqx = s.bank.sr.seqx) :
    RetiredWith s ((s.setBank (s.bank.mapSr f)).retire s.turn 1) s.turn f := by
  refine ⟨?_, ⟨by simp, by simp⟩, ⟨by simp, by simp, by simp⟩, ?_⟩
  · cases s.turn <;>
      simp [Bank.retire, Bank.advance, Bank.countSeq, Bank.setPc, Bank.setW, Bank.pc, Bank.w, pca, pcx, seqa, seqx, wordOfNat]
  · simpa [State.retire] using sameDevice_setBank s ((s.bank.mapSr f).retire s.turn 1)

/-- The copy of sr.window that WIN sets. -/
theorem win_sets (s : State) (n : BitVec 16) (low : 1 ≤ n.toNat) (high : n.toNat ≤ 4096) : ∃ t, exec (.win n) s = .next t ∧
    RetiredWith s t s.turn fun r => match s.turn with
      | .a => { r with windowA := n.setWidth 64 }
      | .x => { r with windowX := n.setWidth 64 } :=
  ⟨_, if_pos ⟨low, high⟩, retiredWith_retire s _ (by cases s.turn <;> rfl) (by cases s.turn <;> rfl) (by cases s.turn <;> rfl)
    (by cases s.turn <;> rfl)⟩

theorem setFpc_sets {i : Instr} {s : State} {v w : Word} (e : exec i s = setFpc v s) (same : v = w) : ∃ t, exec i s = .next t ∧
    RetiredWith s t s.turn fun r => match s.turn with
      | .a => { r with fpcA := w }
      | .x => { r with fpcX := w } :=
  ⟨_, same ▸ e, retiredWith_retire s _ (by cases s.turn <;> rfl) (by cases s.turn <;> rfl) (by cases s.turn <;> rfl)
    (by cases s.turn <;> rfl)⟩

theorem rmOk_of_ne {r : BitVec 3} (r0 : r ≠ 0#3) (r7 : r ≠ 7#3) : rmOk r = true := by
  simp [rmOk, r0, r7]

theorem rmOk_not {r : BitVec 3} (h : r = 0#3 ∨ r = 7#3) : ¬ rmOk r = true := by
  obtain rfl | rfl := h <;> decide

/-- The word of FPC mode 0: DAZ, FTZ and RM. -/
theorem fpcAll_word (z f : BitVec 1) (r : BitVec 3) :
    (z ++ f ++ r).setWidth 64 = BitVec.ofNat 64 (16 * z.toNat + 8 * f.toNat + r.toNat) := by
  revert z f r
  decide

theorem putField_rm (v : Word) (r : BitVec 3) : putField v 0 3 r.toNat = (v &&& ~~~7#64) ||| r.setWidth 64 := by
  have field : ∀ r : BitVec 3, BitVec.ofNat 64 ((r.toNat % 2 ^ 3) <<< 0) = r.setWidth 64 := by decide
  rw [putField, field]
  rfl

theorem putField_dazFtz (v : Word) (z f : BitVec 1) :
    putField v 3 2 (z ++ f).toNat = (v &&& ~~~0x18#64) ||| BitVec.ofNat 64 (16 * z.toNat + 8 * f.toNat) := by
  have field : ∀ z f : BitVec 1, BitVec.ofNat 64 (((z ++ f).toNat % 2 ^ 2) <<< 3) =
      BitVec.ofNat 64 (16 * z.toNat + 8 * f.toNat) := by
    decide
  rw [putField, field]
  rfl

/-! ### A shared word whose value is out of range (R50) -/

theorem bankPc_apart {s : State} (h : s.bank.sr.pca ≠ s.bank.sr.pcx) : s.bank.pc s.turn ≠ s.bank.pc s.turn.other := by
  cases s.turn
  · exact h
  · exact h.symm

theorem bankPc_met {s : State} (h : s.bank.sr.pca = s.bank.sr.pcx) : s.bank.pc s.turn = s.bank.pc s.turn.other := by
  cases s.turn
  · exact h
  · exact h.symm

/-- OPERAND_ILLEGAL of a shared word: once in both streams, when they have both reached it. -/
theorem sharedIllegal_faults {i : Instr} {s : State} (e : exec i s = sharedIllegal s) :
    (s.bank.sr.pca = s.bank.sr.pcx → s.faultless →
      ∃ t, exec i s = .next t ∧ Raised s t 3 .operandIllegal (s.bank.pc s.turn)) ∧
    (s.bank.sr.pca ≠ s.bank.sr.pcx → ∃ t, exec i s = .next t ∧ Waits s t s.turn) :=
  ⟨fun met ok => ⟨_, e, sharedFault_both s _ _ (bankPc_met met) ok⟩,
    fun apart => ⟨_, e, sharedFault_waits s _ _ (bankPc_apart apart)⟩⟩

theorem bqOp_illegal {len : Nat} {c : BitVec 4} {a b : BitVec 6} {off : Word} {s : State} (byX : 8 ≤ c.toNat)
    (h : 32 ≤ a.toNat ∨ 32 ≤ b.toNat) : bqOp len c a b off s = sharedIllegal s := by
  have bit : ∀ c : BitVec 4, 8 ≤ c.toNat → c.getLsbD 3 = true := by decide
  exact if_pos (by simpa [bit c byX] using h)

/-- The shared words whose operands are out of range. -/
theorem exec_sharedIllegal {i : Instr}
    (h : (∃ n, i = .win n ∧ (n = 0#16 ∨ 4096 < n.toNat)) ∨ (∃ z f r, i = .fpcAll z f r ∧ (r = 0#3 ∨ r = 7#3)) ∨
      (∃ r, i = .fpcRm r ∧ (r = 0#3 ∨ r = 7#3)) ∨ (∃ c o, (i = .loop c o ∨ i = .endl c o) ∧ (8 ≤ c.toNat ∨ o = 0#16)) ∨
      (∃ c a b o, i = .bq c a b o ∧ 8 ≤ c.toNat ∧ (32 ≤ a.toNat ∨ 32 ≤ b.toNat)) ∨
      (∃ c a b o, i = .bqL c a b o ∧ 8 ≤ c.toNat ∧ (32 ≤ a.toNat ∨ 32 ≤ b.toNat))) (s : State) :
    exec i s = sharedIllegal s := by
  obtain ⟨n, rfl, range⟩ | ⟨z, f, r, rfl, range⟩ | ⟨r, rfl, range⟩ | ⟨c, o, rfl | rfl, range⟩ | ⟨c, a, b, o, rfl, byX, range⟩ |
    ⟨c, a, b, o, rfl, byX, range⟩ := h
  · refine if_neg ?_
    obtain rfl | large := range
    · decide
    · omega
  · exact if_neg (rmOk_not range)
  · exact if_neg (rmOk_not range)
  · exact if_neg fun ok => range.elim (Nat.not_le.mpr ok.1) ok.2
  · exact if_neg fun ok => range.elim (Nat.not_le.mpr ok.1) ok.2
  · exact bqOp_illegal byX range
  · exact bqOp_illegal byX range

/-! ### HALT -/

theorem halt_waits (s : State) (h : s.standsAt s.turn.other haltWord = false ∨ s.bank.drained = false) :
    ∃ t, exec .halt s = .next t ∧ Waits s t s.turn := by
  by_cases apart : s.standsAt s.turn.other haltWord = false
  · exact ⟨_, if_pos apart, waits_stallPeer s _⟩
  · exact ⟨_, (if_neg apart).trans (if_pos (h.resolve_left apart)), waits_stall s _⟩

theorem execHalt_task {s : State} (met : s.standsAt s.turn.other haltWord = true) (drained : s.bank.drained = true)
    (running : s.bank.ctl.status = .running) : execHalt s = .next s.endPass := by
  simp [execHalt, met, drained, running]

theorem execHalt_handler {s : State} (met : s.standsAt s.turn.other haltWord = true) (drained : s.bank.drained = true)
    (handler : s.bank.ctl.status = .handler) : execHalt s = .next (s.endCtx s.ctxNo) := by
  simp [execHalt, met, drained, handler]

theorem endCtx_state (s : State) {x : Nat} (h : x < 64) : ((s.endCtx x).ctxAt x).state = .retired := by
  simp only [State.endCtx, setCtx_ctxAt _ _ _ h]

/-- The control fields that HALT's retirement leaves. -/
theorem endPass_ctl (b : Bank) : b.endPass.ctl = (b.ctl.moved .a).moved .x := by
  simp [Bank.endPass]

/-- What a shard sets in its group when it has halted. -/
def Group.shardHalted (g : Group) (b : Bank) : Group :=
  { g with halted := setAt g.halted b.ctl.shardNo true
           gone := g.gone ++ if b.ctl.yielding then b.ctl.presented.map fun p => ((none : Option Int), p.2) else [] }

/-- The state in which a shard has halted, before a shard that it stands for comes back. -/
def State.shardHalted (s : State) (g : Group) : State :=
  (s.setBank (s.bank.endPass.mapCtl fun c =>
    { c with status := .halted, presented := s.bank.endPass.ctl.presented.map fun p => ((none : Option Int), p.2) })).setGroup
      (g.shardHalted s.bank.endPass)

section

variable {s : State} {g : Group} {k : Kernel} (group : s.curGroup = some g)
  (kernel : (s.ctxAt s.ctxNo).kernels.find? (fun k => k.slot == s.bank.ctl.kslot) = some k)

include group kernel

theorem endPass_next (more : s.bank.ctl.pass + 1 < kindProduct (groupLevels k g.exts) .temporal) : s.endPass =
    s.setBank (nextPass s.bank.endPass (shardBank (s.ctxAt s.ctxNo) k g s.bank.ctl.shardNo (s.bank.ctl.pass + 1))) := by
  have kslot : s.bank.endPass.ctl.kslot = s.bank.ctl.kslot := by rw [endPass_ctl]; rfl
  have pass : s.bank.endPass.ctl.pass = s.bank.ctl.pass := by rw [endPass_ctl]; rfl
  have shardNo : s.bank.endPass.ctl.shardNo = s.bank.ctl.shardNo := by rw [endPass_ctl]; rfl
  simp only [State.endPass, kslot, group, kernel, pass, if_pos more, shardNo]

theorem endPass_last (last : kindProduct (groupLevels k g.exts) .temporal ≤ s.bank.ctl.pass + 1) :
    s.endPass = (s.shardHalted g).unyield s.ctxNo s.cellNo := by
  have kslot : s.bank.endPass.ctl.kslot = s.bank.ctl.kslot := by rw [endPass_ctl]; rfl
  have pass : s.bank.endPass.ctl.pass = s.bank.ctl.pass := by rw [endPass_ctl]; rfl
  simp only [State.endPass, kslot, group, kernel, pass, if_neg (Nat.not_lt.mpr last), State.shardHalted, Group.shardHalted]

end

/-! ### The group of a shard that halts -/

/-- Replacing a group that is there is read back under its number. -/
theorem setGroup_groupAt {s : State} {g h : Group} (there : s.groupAt g.id = some g) (same : h.id = g.id) :
    (s.setGroup h).groupAt g.id = some h := by
  have id (e : Group) : ((if e.id = g.id then h else e).id == g.id) = (e.id == g.id) := by
    split
    case isTrue eq => rw [same, eq]
    case isFalse => rfl
  rw [State.groupAt] at there
  rw [State.groupAt, setGroup_groups, List.find?_map, same]
  simp only [Function.comp_def, id, there, Option.map_some, if_true]

theorem curGroup_groupAt {s : State} {g : Group} (h : s.curGroup = some g) : s.groupAt g.id = some g := by
  obtain ⟨n, -, found⟩ := Option.bind_eq_some_iff.mp h
  have id : g.id = n := by simpa using List.find?_some found
  rw [id]
  exact found

theorem shardHalted_groupAt {s : State} {g : Group} (h : s.curGroup = some g) :
    (s.shardHalted g).groupAt g.id = some (g.shardHalted s.bank.endPass) := by
  have there := curGroup_groupAt h
  exact setGroup_groupAt (s := s.setBank _) there rfl

theorem setGroup_cell (s : State) (g : Group) : (s.setGroup g).cell = s.cell := rfl

theorem shardHalted_bank (s : State) (g : Group) : (s.shardHalted g).bank = s.bank.endPass.mapCtl fun c =>
    { c with status := .halted, presented := s.bank.endPass.ctl.presented.map fun p => ((none : Option Int), p.2) } := by
  rw [State.bank, State.shardHalted, setGroup_cell, ← State.bank, setBank_bank]

theorem shardHalted_shadow (s : State) (g : Group) : (s.shardHalted g).cell.shadow = s.cell.shadow := by
  rw [State.shardHalted, setGroup_cell, setBank_cell]

/-! ### A shard that TYIELD set aside comes back (R293) -/

theorem popSaved_same {s t : State} {x c : Nat} {b : Bank} (h : s.popSaved x c = some (b, t)) :
    t.cells = s.cells ∧ t.cur = s.cur ∧ t.sched = s.sched := by
  unfold State.popSaved at h
  dsimp only at h
  split at h
  case h_1 =>
    cases h
    exact ⟨rfl, rfl, rfl⟩
  case h_2 => cases h

theorem unyield_sched (s : State) (x c : Nat) : (s.unyield x c).sched = s.sched := by
  unfold State.unyield
  dsimp only
  split
  case isFalse => rfl
  case isTrue =>
    split
    case h_1 => rfl
    case h_2 =>
      split
      case h_1 popped => exact (popSaved_same popped).2.2
      case h_2 => rfl
    case h_3 =>
      split
      case h_1 popped => exact (popSaved_same popped).2.2
      case h_2 => rfl
    case h_4 => rfl

theorem bank_of_same {s t : State} (cells : t.cells = s.cells) (cur : t.cur = s.cur) : t.bank = s.bank := by
  simp only [State.bank, State.cell, cells, cur]

/-- The moving bank stays, unless it stands for a shard of the context that was set aside. -/
theorem unyield_bank {s : State} {x : Nat} (stays : s.bank.ctl.yielding = false) : (s.unyield x s.cellNo).bank = s.bank := by
  unfold State.unyield
  dsimp only
  split
  case isFalse => rfl
  case isTrue yields =>
    split
    case h_1 place =>
      rw [place, State.bankIn, Option.any_some, cellAt_cellNo, ← State.bank, stays] at yields
      cases yields
    case h_2 =>
      split
      case h_1 y t popped =>
        obtain ⟨cells, cur, -⟩ := popSaved_same popped
        have cellNo : s.cellNo = t.cellNo := by rw [State.cellNo, State.cellNo, cur]
        rw [cellNo, setCell_cellNo, cellAt_cellNo, State.bank, withCell_cell, ← State.bank, bank_of_same cells cur]
      case h_2 => rfl
    case h_3 =>
      split
      case h_1 y t popped =>
        obtain ⟨cells, cur, -⟩ := popSaved_same popped
        exact bank_of_same cells cur
      case h_2 => rfl
    case h_4 => rfl

/-- The shadow bank takes the place of a bank that stands for a shard that was set aside. -/
theorem unyield_active {s : State} {x : Nat} (shard : s.bank.shardOf x = true) (yields : s.bank.ctl.yielding = true) :
    (s.unyield x s.cellNo).cell = { s.cell with active := s.cell.shadow, shadow := .reset } := by
  have place : s.bankPlace x s.cellNo = .active := by
    rw [State.bankPlace, cellAt_cellNo]
    exact if_pos shard
  have here : (s.bankIn .active x s.cellNo).any (·.ctl.yielding) = true := by
    rw [State.bankIn, Option.any_some, cellAt_cellNo]
    exact yields
  simp only [State.unyield, place, here, if_true]
  rw [setCell_cellNo, withCell_cell, cellAt_cellNo]

/-! ### The end of a pass -/

theorem shardHalted_ctl (s : State) (g : Group) : (s.shardHalted g).bank.ctl.status = .halted ∧
    (s.shardHalted g).bank.ctl.yielding = s.bank.ctl.yielding ∧ (s.shardHalted g).bank.ctl.owner = s.bank.ctl.owner := by
  rw [shardHalted_bank, mapCtl_ctl, endPass_ctl]
  exact ⟨rfl, rfl, rfl⟩

/-- The shard has halted: its halt line is set, and its streams have retired the word with empty queues. -/
theorem endPass_halts {s : State} {g : Group} (group : s.curGroup = some g) (stays : s.bank.ctl.yielding = false) :
    let t := (s.shardHalted g).unyield s.ctxNo s.cellNo
    t.bank.ctl.status = .halted ∧ t.bank.sr.seqa = s.bank.sr.seqa + 1 ∧ t.bank.sr.seqx = s.bank.sr.seqx + 1 ∧
      t.bank.q.qx = Vector.replicate 4 [] ∧ t.bank.q.qa = Vector.replicate 2 [] ∧
      t.groupAt g.id = some { g with halted := setAt g.halted s.bank.ctl.shardNo true } := by
  intro t
  obtain ⟨halted, yielding, -⟩ := shardHalted_ctl s g
  have bank : t.bank = (s.shardHalted g).bank := unyield_bank (yielding.trans stays)
  have groups : t.groupAt g.id = some (g.shardHalted s.bank.endPass) := by
    rw [State.groupAt, unyield_sched]
    exact shardHalted_groupAt group
  refine ⟨by rw [bank, halted], ?_, ?_, ?_, ?_, groups.trans ?_⟩
  · rw [bank, shardHalted_bank]
    simp [Bank.endPass, Bank.retire, Bank.advance, Bank.countSeq, Bank.setPc, Bank.setW]
  · rw [bank, shardHalted_bank]
    simp [Bank.endPass, Bank.retire, Bank.advance, Bank.countSeq, Bank.setPc, Bank.setW]
  · rw [bank, shardHalted_bank]
    rfl
  · rw [bank, shardHalted_bank]
    rfl
  · have quiet : s.bank.endPass.ctl.yielding = false := by rw [endPass_ctl]; exact stays
    have shardNo : s.bank.endPass.ctl.shardNo = s.bank.ctl.shardNo := by rw [endPass_ctl]; rfl
    simp [Group.shardHalted, quiet, shardNo]

/-- The shard has halted on a cell that another of its context set aside: that one comes back. -/
theorem endPass_returns {s : State} {g : Group} (group : s.curGroup = some g) (yields : s.bank.ctl.yielding = true)
    (owner : s.bank.ctl.owner = some s.ctxNo) :
    let t := (s.shardHalted g).unyield s.ctxNo s.cellNo
    t.bank = s.cell.shadow ∧ t.cell.shadow = .reset ∧
      (t.groupAt g.id).map (·.halted) = some (setAt g.halted s.bank.ctl.shardNo true) := by
  intro t
  obtain ⟨halted, yielding, owned⟩ := shardHalted_ctl s g
  have shard : (s.shardHalted g).bank.shardOf s.ctxNo = true := by simp [Bank.shardOf, halted, owned, owner]
  have cell : t.cell = { (s.shardHalted g).cell with active := (s.shardHalted g).cell.shadow, shadow := .reset } :=
    unyield_active shard (yielding.trans yields)
  have groups : t.groupAt g.id = some (g.shardHalted s.bank.endPass) := by
    rw [State.groupAt, unyield_sched]
    exact shardHalted_groupAt group
  refine ⟨by rw [State.bank, cell, shardHalted_shadow], by rw [cell], ?_⟩
  have shardNo : s.bank.endPass.ctl.shardNo = s.bank.ctl.shardNo := by rw [endPass_ctl]; rfl
  simp [groups, Group.shardHalted, shardNo]

/-- A supervisor task, which has no group, ends (R340). -/
theorem endPass_task {s : State} (none : s.curGroup = none) :
    s.endPass = (s.setBank (s.bank.endPass.idle s.ctxNo)).setCtx s.ctxNo { s.ctxAt s.ctxNo with svTask := false } := by
  simp only [State.endPass, none]

/-- Settles O27: SYNC and HALT by whether the partner stands at the word, WIN and FPC by the range of their values, and the end
of a pass by the passes that are left and by the bank's part in a yield. -/
theorem sharedWords : Obligations.SharedWords := by
  unfold Obligations.SharedWords
  intro s
  refine ⟨sync_met s, sync_waits s, win_sets s, fun i v form => ?_,
    fun i form => sharedIllegal_faults (exec_sharedIllegal form s), halt_waits s,
    fun met drained running g k group kernel => ?_, fun met drained running none low => ?_,
    fun met drained handler low => ⟨_, execHalt_handler met drained handler, endCtx_state s low⟩⟩
  · obtain ⟨z, f, r, rfl, r0, r7, rfl⟩ | ⟨r, rfl, r0, r7, rfl⟩ | ⟨z, f, rfl, rfl⟩ := form
    · exact setFpc_sets (if_pos (rmOk_of_ne r0 r7)) (fpcAll_word z f r)
    · exact setFpc_sets (if_pos (rmOk_of_ne r0 r7)) (putField_rm _ r)
    · exact setFpc_sets rfl (putField_dazFtz _ z f)
  · refine ⟨_, execHalt_task met drained running, fun k => by rw [endPass_mem], fun more => ?_,
      fun last => ⟨fun stays => ?_, fun yields owner => ?_⟩⟩
    · rw [endPass_next group kernel more, setBank_bank]
    · rw [endPass_last group kernel last]
      exact endPass_halts group stays
    · rw [endPass_last group kernel last]
      exact endPass_returns group yields owner
  · refine ⟨_, execHalt_task met drained running, fun k => by rw [endPass_mem], ?_⟩
    rw [endPass_task none, setCtx_bank, setBank_bank, setCtx_ctxAt _ _ _ low]
    refine ⟨rfl, rfl, ?_, ?_, rfl⟩
    · simp [Bank.idle, Bank.endPass]
    · simp [Bank.idle, Bank.endPass]

end Sys2Proof.Machine
end

section
/-! PROOFS. Address spaces, their checks and the faults of a failed access (R31, R36, R104, R114, R208, R209, R213, R216,
R334). -/

namespace Sys2Proof.Machine

open Sys2Proof

theorem wordOfNat_toNat (v : Word) : wordOfNat v.toNat = v := by simp [wordOfNat]

theorem peerCell_eq (cell g : Nat) : peerCell cell (bitsAt g 23 3) = cell / 8 * 8 + g / 2 ^ 23 % 8 := by
  rw [peerCell, bitsAt, Nat.shiftRight_eq_div_pow, show 2 ^ 3 = 8 from rfl, Nat.mod_mod]

/-! ### S space -/

section

variable {s : State} {x cell g n : Nat}

theorem resolveS_outside (h : 0x600000 < g + n) : s.resolveS x cell g n = .error (.fault .accessRange (wordOfNat g)) := by
  have out : inS g n = false := decide_eq_false (Nat.not_le.mpr h)
  rw [State.resolveS, if_pos out]

/-- A line of the access whose tag names another context. -/
def lineBad (s : State) (x cell g i : Nat) : Bool :=
  match vget (s.cellAt cell).lineTags (g / 65536 + i) none with
  | some y => y != x
  | none => false

theorem lineBad_false_iff {i : Nat} :
    lineBad s x cell g i = false ↔ ∀ y, vget (s.cellAt cell).lineTags (g / 65536 + i) none = some y → y = x := by
  unfold lineBad
  cases vget (s.cellAt cell).lineTags (g / 65536 + i) none <;> simp

theorem resolveS_inside (h : g + n ≤ 0x600000) : s.resolveS x cell g n =
    match (List.range ((g + n - 1) / 65536 - g / 65536 + 1)).find? (lineBad s x cell g) with
    | some i => .error (.waitLine (g / 65536 + i))
    | none => .ok [⟨none, spadKey x cell g, n, 0⟩] := by
  have inside : ¬ inS g n = false := by simp [inS, spadBytes, h]
  exact if_neg inside

/-- An access whose lines hold the context's own image reaches that image. -/
theorem resolveS_held (bytes : 0 < n) (inside : g + n ≤ 0x600000)
    (own : ∀ l, g / 65536 ≤ l → l ≤ (g + n - 1) / 65536 → ∀ y, vget (s.cellAt cell).lineTags l none = some y → y = x) :
    s.resolveS x cell g n = .ok [⟨none, spadKey x cell g, n, 0⟩] := by
  have none : (List.range ((g + n - 1) / 65536 - g / 65536 + 1)).find? (lineBad s x cell g) = none := by
    rw [List.find?_eq_none]
    intro i mem
    rw [Bool.not_eq_true, lineBad_false_iff]
    have range := List.mem_range.mp mem
    exact own _ (Nat.le_add_right _ _) (by omega)
  rw [resolveS_inside inside, none]

/-- The first line that holds another context's image is waited for. -/
theorem resolveS_waits {l y : Nat} (inside : g + n ≤ 0x600000) (low : g / 65536 ≤ l) (high : l ≤ (g + n - 1) / 65536)
    (tag : vget (s.cellAt cell).lineTags l none = some y) (other : y ≠ x)
    (first : ∀ m z, g / 65536 ≤ m → m < l → vget (s.cellAt cell).lineTags m none = some z → z = x) :
    s.resolveS x cell g n = .error (.waitLine l) := by
  have line : g / 65536 + (l - g / 65536) = l := Nat.add_sub_cancel' low
  have found : (List.range ((g + n - 1) / 65536 - g / 65536 + 1)).find? (lineBad s x cell g) = some (l - g / 65536) := by
    rw [List.find?_range_eq_some]
    refine ⟨?_, List.mem_range.mpr (by omega), fun i below => ?_⟩
    · rw [lineBad, line, tag]
      simp [other]
    · rw [Bool.not_eq_true', lineBad_false_iff]
      exact fun z => first _ z (Nat.le_add_right _ _) (by omega)
  rw [resolveS_inside inside, found]
  simp only [line]

/-! ### C space -/

theorem resolveC_outside (h : 2 ^ 26 ≤ g ∨ 0x600000 < g % 2 ^ 23 + n ∨
    (s.ctxAt x).part.getLsbD (cell / 8 * 8 + g / 2 ^ 23 % 8) = false) :
    s.resolveC x cell g n = .error (.fault .accessRange (wordOfNat g)) := by
  refine if_pos ?_
  obtain large | long | out := h
  · exact .inl large
  · exact .inr (.inl (decide_eq_false (Nat.not_le.mpr long)))
  · refine .inr (.inr ?_)
    rw [peerCell_eq, out]

theorem resolveC_inside (small : g < 2 ^ 26) (inside : g % 2 ^ 23 + n ≤ 0x600000)
    (part : (s.ctxAt x).part.getLsbD (cell / 8 * 8 + g / 2 ^ 23 % 8) = true) : s.resolveC x cell g n =
      if cell / 8 * 8 + g / 2 ^ 23 % 8 = cell then s.resolveS x cell (g % 2 ^ 23) n
      else if s.imageHeld x (cell / 8 * 8 + g / 2 ^ 23 % 8) (g % 2 ^ 23) = false ∨
          s.imageHeld x (cell / 8 * 8 + g / 2 ^ 23 % 8) (g % 2 ^ 23 + n - 1) = false then .error .wait
      else .ok [⟨none, spadKey x (cell / 8 * 8 + g / 2 ^ 23 % 8) (g % 2 ^ 23), n, 0⟩] := by
  simp only [State.resolveC, peerCell_eq]
  refine if_neg ?_
  rintro (large | long | out)
  · exact Nat.not_lt.mpr large small
  · exact absurd (decide_eq_true inside) (Bool.eq_false_iff.mp long)
  · rw [part] at out
    cases out

end

/-! ### G space -/

/-- An access within a page has one part (R216). -/
theorem partsOf_page {g n : Nat} (bytes : 0 < n) (page : g % 65536 + n ≤ 65536) : partsOf g n = [(g, n)] := by
  have whole : min n (65536 - g % 65536) = n := Nat.min_eq_left (by omega)
  rw [partsOf, splitParts, if_neg (Nat.pos_iff_ne_zero.mp bytes)]
  simp only [whole, Nat.sub_self]
  rw [splitParts, if_pos rfl]

/-- The end of a walk that a check fails reads no poisoned entry. -/
theorem firstLost_single {g n : Nat} {w : WalkEnd} (h : ∀ k, w ≠ .lost k) : firstLost [(g, n, w)] = none := by
  cases w with
  | lost k => exact absurd rfl (h k)
  | notPresent | malformed | leaf x => rfl

/-- A G-space access within one page takes the first check that its page fails, or reaches the page's frame. -/
theorem resolveG_page (s : State) (cell : Option Nat) (x : Nat) {g n : Nat} (a : Access) (bytes : 0 < n)
    (page : g % 65536 + n ≤ 65536) :
    (∀ k, s.lookup cell x g = .lost k → s.resolveG cell x a g n = .error (.lost k)) ∧
    (∀ c, check3 a (s.lookup cell x g) = some c → s.resolveG cell x a g n = .error (.fault c (wordOfNat g))) ∧
    (∀ c, check3 a (s.lookup cell x g) = none → check4 a (s.lookup cell x g) = some c →
      s.resolveG cell x a g n = .error (.fault c (wordOfNat g))) ∧
    (∀ l, s.lookup cell x g = .leaf l → check3 a (s.lookup cell x g) = none → check4 a (s.lookup cell x g) = none →
      s.resolveG cell x a g n = .ok [⟨some g, l.key + g % 65536, n, l.size⟩]) := by
  simp only [State.resolveG, partsOf_page bytes page, List.map_cons, List.map_nil]
  refine ⟨fun k lost => ?_, fun c fails => ?_, fun c passes fails => ?_, fun l leaf passes3 passes4 => ?_⟩
  · simp only [lost, firstLost]
  · have sound : firstLost [(g, n, s.lookup cell x g)] = none := firstLost_single fun k lost => by
      rw [lost] at fails
      cases fails
    simp only [sound, firstFail, fails]
  · have sound : firstLost [(g, n, s.lookup cell x g)] = none := firstLost_single fun k lost => by
      rw [lost] at fails
      cases fails
    simp only [sound, firstFail, passes, fails]
  · rw [leaf] at passes3 passes4 ⊢
    simp only [firstLost, firstFail, passes3, passes4, partIn, keyIn]

/-! ### Checks 3 and 4 of a page -/

theorem check3_leaf (a : Access) (x : Xlat) : check3 a (.leaf x) =
    if (a.rd = true ∧ x.rd = false) ∨ (a.wr = true ∧ x.wr = false) ∨ (a.ex = true ∧ x.ex = false) ∨
      (a.level = .task ∧ x.task = false) ∨ x.far ≠ a.farSrc then some Cause.pagePerm else none := by
  simp only [check3, Bool.or_eq_true, Bool.and_eq_true, Bool.not_eq_true', beq_iff_eq, bne_iff_ne, or_assoc]

theorem check4_leaf (a : Access) (x : Xlat) :
    check4 a (.leaf x) = if x.ord = 3 ∨ (x.ord = 2 ∧ a.annotated = true) then some Cause.pageOrd else none := by
  simp only [check4, Bool.or_eq_true, Bool.and_eq_true, beq_iff_eq]

/-! ### A wait for a line (R334) -/

theorem waits_stallLine (s : State) (st : Stream) (l : Nat) :
    Waits s (s.stallLine st l) st ∧ (s.stallLine st l).bank.ctl.wantLine = some l := by
  refine ⟨⟨?_, ⟨?_, ?_⟩, ⟨?_, ?_, ?_⟩, ?_, ?_, fun k => ?_⟩, ?_⟩
  all_goals cases st <;> simp [State.stallLine, Control.stalled, Control.tick]

/-! ### Operands that a memory instruction refuses -/

/-- A fault leaves the sequence number, so that no gang transfer follows it. -/
theorem gangAfter_pcFault {s : State} (gang : Bool) (c : Cause) (ok : s.faultless) :
    gangAfter gang s (s.pcFault .a c) = s.pcFault .a c := by
  have sys := (raised_raise s .a c (s.bank.pc .a) ok).sys
  simp only [State.pcFault, gangAfter, sys, bne_self_eq_false, Bool.and_false, Bool.false_and, Bool.false_eq_true, if_false]

/-- A form that refuses its operands refuses them in the long form too, whatever its scope and order. -/
theorem ordered_illegal {s : State} (o : OrderSet) (sc : BitVec 3) (od : BitVec 2) (ok : s.faultless) :
    ordered o sc od s (s.pcFault .a .operandIllegal) = s.pcFault .a .operandIllegal := by
  unfold ordered
  split
  · exact gangAfter_pcFault _ _ ok
  · rfl

theorem ordered_refused {o : OrderSet} {sc : BitVec 3} {od : BitVec 2} (s : State) (r : Result) (h : orderOk o sc od = false) :
    ordered o sc od s r = s.pcFault .a .operandIllegal := if_neg (Bool.eq_false_iff.mp h)

theorem orderOk_acquire {sc : BitVec 3} {od : BitVec 2} (h : 5 ≤ sc.toNat ∨ od = 2#2 ∨ od = 3#2) :
    orderOk .acquire sc od = false := by
  revert sc od
  decide

theorem orderOk_release {sc : BitVec 3} {od : BitVec 2} (h : 5 ≤ sc.toNat ∨ od = 1#2 ∨ od = 3#2) :
    orderOk .release sc od = false := by
  revert sc od
  decide

theorem orderOk_all {sc : BitVec 3} (od : BitVec 2) (h : 5 ≤ sc.toNat) : orderOk .all sc od = false := by
  revert sc od
  decide

theorem casOp_refused {sp : Space} {len : Nat} {t : BitVec 6} {sz : BitVec 2} {ea : Word} {s : State}
    (h : sz.toNat < 2 ∨ t.toNat % 2 = 1) : casOp sp len t sz ea s = s.pcFault .a .operandIllegal := if_pos h

theorem ldrOp_refused {len n : Nat} {t k : BitVec 6} {off : Word} {acq : Bool} {s : State} (h : 8 ≤ k.toNat) :
    ldrOp len t k off n acq s = s.pcFault .a .operandIllegal := if_neg (Nat.not_lt.mpr h)

theorem strOp_refused {len n : Nat} {t k : BitVec 6} {off : Word} {rel : Bool} {s : State} (h : 8 ≤ k.toNat) :
    strOp len t k off n rel s = s.pcFault .a .operandIllegal := if_neg (Nat.not_lt.mpr h)

theorem locate_g_outside {s : State} {a : Access} {ea : Word} {n : Nat}
    (h : ea.toNat < 0x10000 ∨ 0xFFFF0000000000 < ea.toNat + n) : s.locate .g a ea n = .error (.fault .accessRange ea) := by
  refine if_neg ?_
  rw [inG, Bool.and_eq_true, decide_eq_true_eq, decide_eq_true_eq]
  omega

theorem locate_g_inside {s : State} {a : Access} {ea : Word} {n : Nat} (low : 0x10000 ≤ ea.toNat)
    (high : ea.toNat + n ≤ 0xFFFF0000000000) : s.locate .g a ea n = s.resolveG (some s.cellNo) s.ctxNo a ea.toNat n := by
  refine if_pos ?_
  rw [inG, Bool.and_eq_true, decide_eq_true_eq, decide_eq_true_eq]
  exact ⟨low, high⟩

/-- The offset of a C-space address in its cell's scratchpad, as an S-space address. -/
theorem offset_toNat (g : Nat) : (BitVec.ofNat 64 (g % 2 ^ 23)).toNat = g % 2 ^ 23 := by
  rw [BitVec.toNat_ofNat]
  omega

/-- Settles O10: the three resolutions, each by its own window and check, and the operand checks of the memory instructions. -/
theorem addressSpaces : Obligations.AddressSpaces := by
  unfold Obligations.AddressSpaces
  refine ⟨⟨fun s a ea n bytes => ?_, fun a => ⟨rfl, rfl⟩, fun a x => ⟨check3_leaf a x, check4_leaf a x⟩⟩,
    fun s t b sz sc od off ok => ⟨fun h i mem => ?_, fun h i mem => ?_, fun h i mem => ?_, fun h o i mem => ?_,
      fun h o i mem => ?_, fun h => ?_⟩⟩
  · refine ⟨fun inside => ⟨resolveS_held bytes inside, fun l y low high => resolveS_waits inside low high⟩,
      fun st l => waits_stallLine s st l, fun outside => ?_, ⟨fun refused => ?_, fun small inside part => ?_⟩, locate_g_outside,
      fun low high page => ?_⟩
    · exact (resolveS_outside outside).trans (by rw [wordOfNat_toNat])
    · exact (resolveC_outside refused).trans (by rw [wordOfNat_toNat])
    · rw [show s.locate .c a ea n = s.resolveC s.ctxNo s.cellNo ea.toNat n from rfl, resolveC_inside small inside part]
      refine ⟨fun own => ?_, fun other => ⟨fun first last => ?_, fun away => ?_⟩⟩
      · rw [if_pos own, State.locate, offset_toNat]
      · rw [if_neg other, first, last]
        rfl
      · rw [if_neg other, if_pos away]
    · have checks := resolveG_page s (some s.cellNo) s.ctxNo a bytes page
      rw [wordOfNat_toNat, ← locate_g_inside low high] at checks
      exact checks
  · have refused := orderOk_acquire h
    simp only [List.mem_cons, List.not_mem_nil, or_false] at mem
    obtain rfl | rfl | rfl | rfl | rfl | rfl := mem
    case inr.inr.inr.inr.inr => exact raised_pcFault _ s .a _ ok (if_neg (Bool.eq_false_iff.mp refused))
    all_goals exact raised_pcFault _ s .a _ ok (ordered_refused s _ refused)
  · have refused := orderOk_release h
    simp only [List.mem_cons, List.not_mem_nil, or_false] at mem
    obtain rfl | rfl | rfl | rfl | rfl := mem <;> exact raised_pcFault _ s .a _ ok (ordered_refused s _ refused)
  · have refused := orderOk_all od h
    simp only [List.mem_cons, List.not_mem_nil, or_false] at mem
    obtain rfl | rfl | rfl | rfl := mem <;> exact raised_pcFault _ s .a _ ok (ordered_refused s _ refused)
  · simp only [List.mem_cons, List.not_mem_nil, or_false] at mem
    obtain rfl | rfl | rfl | rfl := mem
    · exact raised_pcFault _ s .a _ ok (casOp_refused h)
    · exact raised_pcFault _ s .a _ ok (casOp_refused h)
    · exact raised_pcFault _ s .a _ ok ((congrArg (ordered _ sc od s) (casOp_refused h)).trans (ordered_illegal _ sc od ok))
    · exact raised_pcFault _ s .a _ ok ((congrArg (ordered _ sc od s) (casOp_refused h)).trans (ordered_illegal _ sc od ok))
  · simp only [List.mem_cons, List.not_mem_nil, or_false] at mem
    obtain rfl | rfl | rfl | rfl := mem
    · exact raised_pcFault _ s .a _ ok (ldrOp_refused h)
    · exact raised_pcFault _ s .a _ ok (strOp_refused h)
    · exact raised_pcFault _ s .a _ ok ((congrArg (ordered _ sc od s) (ldrOp_refused h)).trans (ordered_illegal _ sc od ok))
    · exact raised_pcFault _ s .a _ ok ((congrArg (ordered _ sc od s) (strOp_refused h)).trans (ordered_illegal _ sc od ok))
  · refine raised_pcFault _ s .a _ ok (if_neg ?_)
    rintro ⟨scope, order⟩
    exact h.elim (· scope) (· order)

end Sys2Proof.Machine
end

section
/-! PROOFS. Every instruction and event answers a next state (R28, R44 to R46, R48, R49).

The meanings are put together from a few forms: a check of operands before the work, work that ends in `finish`, and an event's
test that its object exists.  Each form answers where its parts do. -/

namespace Sys2Proof.Machine

open Sys2Proof

/-! ### Forms of meanings -/

theorem answers_ite {c : Prop} [Decidable c] {p q : Result} (yes : Answers p) (no : Answers q) :
    Answers (if c then p else q) := by
  split
  · exact yes
  · exact no

/-- An event whose object exists. -/
theorem answers_if {c : Prop} [Decidable c] {p q : Result} (h : c) (yes : Answers p) : Answers (if c then p else q) := by
  rw [if_pos h]
  exact yes

/-- An event at a cell that exists (`State.onCell`). -/
theorem answers_dif {c : Prop} [Decidable c] {p : c → Result} {q : ¬ c → Result} (h : c) (yes : Answers (p h)) :
    Answers (if k : c then p k else q k) := by
  rw [dif_pos h]
  exact yes

theorem answers_finish (s : State) (st : Stream) (r : Except Stop State) : Answers (finish s st r) := by
  cases r with
  | ok t => exact ⟨_, rfl⟩
  | error e => exact ⟨_, rfl⟩

theorem answers_gangAfter {gang : Bool} {s : State} {r : Result} (h : Answers r) : Answers (gangAfter gang s r) := by
  obtain ⟨t, rfl⟩ := h
  exact answers_ite ⟨_, rfl⟩ ⟨_, rfl⟩

theorem answers_ordered {o : OrderSet} {sc : BitVec 3} {od : BitVec 2} {s : State} {r : Result} (h : Answers r) :
    Answers (ordered o sc od s r) := answers_ite (answers_gangAfter h) ⟨_, rfl⟩

/-! ### Operations that several instructions or events share -/

theorem answers_ldrOp (len n : Nat) (t k : BitVec 6) (off : Word) (acq : Bool) (s : State) :
    Answers (ldrOp len t k off n acq s) := by
  refine answers_ite ?_ ⟨_, rfl⟩
  split
  · exact answers_finish _ _ _
  · exact ⟨_, rfl⟩

theorem answers_strOp (len n : Nat) (t k : BitVec 6) (off : Word) (rel : Bool) (s : State) :
    Answers (strOp len t k off n rel s) := by
  refine answers_ite ?_ ⟨_, rfl⟩
  split
  · exact answers_finish _ _ _
  · exact ⟨_, rfl⟩

theorem answers_ringWait (k : Nat) (cons : Bool) (s : State) : Answers (ringWait k cons s) :=
  answers_ite ⟨_, rfl⟩ (answers_ite (answers_ite ⟨_, rfl⟩ ⟨_, rfl⟩) (answers_ite ⟨_, rfl⟩ ⟨_, rfl⟩))

theorem answers_putOutcome (st : Stream) (len : Nat) (taken : Bool) (target : Word) (s : State) :
    Answers (putOutcome st len taken target s) := by
  unfold putOutcome
  dsimp only
  split <;> exact ⟨_, rfl⟩

theorem answers_takeOutcome (st : Stream) (len : Nat) (target : Word) (s : State) : Answers (takeOutcome st len target s) := by
  unfold takeOutcome
  dsimp only
  split
  · exact ⟨_, rfl⟩
  · exact answers_ite ⟨_, rfl⟩ ⟨_, rfl⟩

theorem answers_bqOp (len : Nat) (c : BitVec 4) (a b : BitVec 6) (off : Word) (s : State) : Answers (bqOp len c a b off s) :=
  answers_ite ⟨_, rfl⟩ (answers_ite (answers_putOutcome _ _ _ _ _)
    (answers_ite (answers_putOutcome _ _ _ _ _) (answers_takeOutcome _ _ _ _)))

theorem answers_freplayOp (abort : Bool) (t : BitVec 6) (s : State) : Answers (freplayOp abort t s) := by
  refine answers_ite ⟨_, rfl⟩ ?_
  dsimp only
  split
  · exact ⟨_, rfl⟩
  · split
    · exact ⟨_, rfl⟩
    · exact answers_ite ⟨_, rfl⟩ ⟨_, rfl⟩

theorem answers_meetX {n : Nat} {s : State} {go : State → Result} (h : ∀ t, Answers (go t)) : Answers (meetX n s go) :=
  answers_ite (answers_ite ⟨_, rfl⟩ (answers_ite ⟨_, rfl⟩ (h _))) (h _)

theorem answers_copyEvent {cell ch : Nat} {test : BankPlace × Nat → Bank → Bool} {f : BankPlace → Nat → State → State} {s : State}
    (h : cell < 256 ∧ ch < 4) : Answers (copyEvent cell ch test f s) := by
  refine answers_if h ?_
  split <;> exact ⟨_, rfl⟩

theorem answers_packetStep {ty x q : Nat} {act : Packet → State → State} {s : State} (h : x < 64 ∧ q < 16) :
    Answers (packetStep ty x q act s) := by
  refine answers_if h (answers_ite ⟨_, rfl⟩ ?_)
  split
  · exact ⟨_, rfl⟩
  · exact ⟨_, rfl⟩
  · exact answers_ite ⟨_, rfl⟩ ⟨_, rfl⟩
  · exact answers_ite ⟨_, rfl⟩ ⟨_, rfl⟩

theorem answers_flitIn {ty port : Nat} {flit : List Byte} {tagOk : Bool} {act : State → State} {s : State}
    (h : gangPort port = true) :
    Answers (flitIn ty port flit tagOk act s) :=
  answers_if h (answers_ite ⟨_, rfl⟩ (answers_ite ⟨_, rfl⟩ (answers_ite ⟨_, rfl⟩ (answers_ite ⟨_, rfl⟩
    (answers_ite ⟨_, rfl⟩ ⟨_, rfl⟩)))))

theorem answers_spdmReply (a : SpdmAsker) (code : Nat) (body : SpdmBody) (signed : Bool) (s : State) :
    Answers (spdmReply a code body signed s) := answers_ite ⟨_, rfl⟩ ⟨_, rfl⟩

theorem answers_inSession {id : Nat} {st : SessionState} {act : Session → State → Result} {s : State}
    (h : ∀ e t, Answers (act e t)) : Answers (inSession id st act s) := by
  unfold inSession
  split
  · exact answers_ite (h _ _) ⟨_, rfl⟩
  · exact ⟨_, rfl⟩

/-! ### Scrubs: the words that a scrub may name are scrubbed -/

theorem scrubbedDram_of_dramKey {k : Nat} (h : dramKey k = true) : scrubbedDram k = true := by
  simp only [dramKey, Bool.or_eq_true, Bool.and_eq_true, decide_eq_true_eq] at h
  unfold scrubbedDram tierOf
  obtain ⟨low, near⟩ | ⟨low, high⟩ := h
  · rw [if_pos low, if_pos near]
    rfl
  · rw [if_neg (by omega)]
    by_cases mid : k ≤ 0x1DFFFFFFFFF
    · rw [if_pos ⟨low, mid⟩]
      rfl
    · rw [if_neg (fun h => mid h.2), if_pos ⟨by omega, high⟩]
      rfl

theorem not_hole_of_dramKey {k : Nat} (h : dramKey k = true) : (tierOf k != .hole) = true := by
  have scrubbed := scrubbedDram_of_dramKey h
  unfold scrubbedDram at scrubbed
  generalize tierOf k = t at *
  cases t with
  | near | mid | device => rfl
  | far | hole => cases scrubbed

theorem answers_dramPatrolScrub {k : Nat} (found : EccFinding) (between : Bool) (s : State) (h : dramKey k = true) :
    Answers (execDramPatrolScrub k found between s) :=
  answers_ite (answers_if (scrubbedDram_of_dramKey h) ⟨_, rfl⟩) ⟨_, rfl⟩

theorem answers_sramPatrolScrub {w : SramWord} (found : EccFinding) (between : Bool) (s : State) (h : w.exists_ = true) :
    Answers (execSramPatrolScrub w found between s) := by
  refine answers_ite ?_ ⟨_, rfl⟩
  cases w with
  | scratchpad k => exact answers_if h ⟨_, rfl⟩
  | dieBuffer k => exact answers_if (not_hole_of_dramKey h) ⟨_, rfl⟩
  | accumulator c b r w =>
    simp only [SramWord.exists_, Bool.and_eq_true, decide_eq_true_eq, and_assoc] at h
    exact answers_if h ⟨_, rfl⟩

/-! ### Every instruction and event -/

/-- Each meaning answers by its form: the cases below are grouped by it. -/
theorem exec_answers {i : Instr} (s : State) (wf : i.wellFormed = true) : Answers (exec i s) := by
  cases i
  -- one check
  case powerApplied | hostWarmStart | startComplete | startStepFailure | startTimeout | firmwareInstall | powerAlarmAssert
      | powerLimitExceeded | dramRecalibration | flashWearManagement | telemetrySample | contextCreate | rdmaAtomicRequest
      | getVersion | getCapabilities | negotiateAlgorithms | getDigests | getCertificate | challenge | bfx | bfxL | bfi
      | bfiL | shli | shliL | shri | shriL | srai | sraiL | cpreL | bqp | bqpL | lset | lsetL | nset | nsetLc | nsetL
      | hrel | hstat | lstat | xadd | xsub | xand | xior | xeor | xshl | xshr | xsra | xrotr | xmin | xmax | xminu | xmaxu
      | xslt | xsltu | xseq | xmul | xmulh | xmulhu | xdiv | xdivu | xrem | xremu | xsel | xaddi | xaddiL | xshli | xshliL
      | xshri | xshriL | xsrai | xsraiL | xroti | xrotiL | xli | xlih | sync | win | fpcAll | fpcRm | opcodeUndef
      | fetchMalformed =>
    exact answers_ite ⟨_, rfl⟩ ⟨_, rfl⟩
  -- two checks
  case recoveryImageInstall | keyExchange | qpush | promote | trap | xqpush =>
    exact answers_ite (answers_ite ⟨_, rfl⟩ ⟨_, rfl⟩) ⟨_, rfl⟩
  -- no check
  case powerAlarmClear | powerLimitRecovered | add | sub | and | or | xor | shl | shr | sra | rotr | min | max | minu
      | maxu | slt | sltu | seq | mul | mulh | mulhu | div | divu | rem | remu | sel | clz | ctz | popc | sext | zext
      | bswap | addi | addiL | andi | andiL | ori | oriL | xori | xoriL | slti | sltiL | sltiu | sltiuL | seqi | seqiL
      | muli | muliL | li | lih | cpre | b | bc | bcL | call | ret | ji | bxtest | nop | yieldctx | fpcDazFtz =>
    exact ⟨_, rfl⟩
  -- an event whose object exists
  case linkRecalibration | stealRequest | stealBackoffExpiry | contextGrant | preemptRequest | spillStart
      | contextRetireComplete | managementSend | hostPortDown | trainingTimeout | trainingRetryTimer =>
    exact answers_if (of_decide_eq_true wf) (answers_ite ⟨_, rfl⟩ ⟨_, rfl⟩)
  case loadDataArrival | regionTranslationComplete | compositorFailure | cellFaultTaken | tileEngineOpStart | matrixKStep
      | tileEngineOpComplete | pageWalkComplete | invalidationAck | watchdogExpiry =>
    exact answers_dif (of_decide_eq_true wf) ⟨_, rfl⟩
  case laneEntryIssue =>
    exact answers_if (of_decide_eq_true wf) ⟨_, rfl⟩
  -- work that ends in `finish`
  case lds | sts | ldc | stc | ldg | stg | ldgv | mzero | tedge | tdone | tcancel | fnew | freg | fres | trec | trecClr
      | tfold | vadd | vaddL | vsub | vsubL | vmul | vmulL | vfma | vfmaL | vfms | vfmsL | vfnma | vfnmaL | vmin | vminL
      | vmax | vmaxL | vabs | vabsL | vneg | vnegL | vdiv | vdivL | vsqrt | vsqrtL | vsel | vselL | vmov | vmovL | exp2
      | exp2L | log2 | rcp | rsq | tanh | sigm | vcmp | vcmpL | pand | pandL | por | porL | pnot | pnotL | pcnt | pcntL
      | pfirst | vrsum | vrsumL | vrmax | vrmaxL | vrmin | vrminL | vramax | vramaxL | vscan | vscanL | vsortk | vsortkL
      | vmergek | vmergekL | vperm | vpermL | vcvt | vqnt | vqntL | vdqnt | vdqntL | vbcast | vbcastL | vbcastLane | vrng
      | vrngL | vrngRaw | viota | viotaL | vldi | vldiL | vqpop | vqpopL =>
    exact answers_finish _ _ _
  case ldsL | stsL | ldcL | stcL | ldgL | stgL =>
    exact answers_ordered (answers_finish _ _ _)
  case ldgvL | tver | tvwait =>
    exact answers_ite (answers_gangAfter (answers_finish _ _ _)) ⟨_, rfl⟩
  case ldvq | sdset | sdget =>
    exact answers_ite (answers_ite (answers_finish _ _ _) ⟨_, rfl⟩) ⟨_, rfl⟩
  case ldvqL =>
    exact answers_ordered (answers_ite (answers_ite (answers_finish _ _ _) ⟨_, rfl⟩) ⟨_, rfl⟩)
  case stvq | amog | amos | ffail | wfe =>
    exact answers_ite (answers_finish _ _ _) ⟨_, rfl⟩
  case stvqL | amogL | amosL =>
    exact answers_ordered (answers_ite (answers_finish _ _ _) ⟨_, rfl⟩)
  case casg | cass =>
    exact answers_ite ⟨_, rfl⟩ (answers_ite (answers_finish _ _ _) ⟨_, rfl⟩)
  case casgL | cassL =>
    exact answers_ordered (answers_ite ⟨_, rfl⟩ (answers_ite (answers_finish _ _ _) ⟨_, rfl⟩))
  case mma | mwb | mwbRaw | tspawn | tspawnCreate | tspawnArm | tguard | coll | invr | inva | eret | vwin =>
    exact answers_ite ⟨_, rfl⟩ (answers_finish _ _ _)
  case cpy | cpyf | gath | scat | bxexp | bxarr =>
    exact answers_ite ⟨_, rfl⟩ (answers_ite ⟨_, rfl⟩ (answers_finish _ _ _))
  case hwait =>
    exact answers_ite ⟨_, rfl⟩ (answers_ite ⟨_, rfl⟩ ⟨_, rfl⟩)
  case hwaitp | halt =>
    exact answers_ite ⟨_, rfl⟩ (answers_ite ⟨_, rfl⟩ (answers_ite ⟨_, rfl⟩ ⟨_, rfl⟩))
  case brk =>
    exact answers_ite (answers_ite (answers_ite ⟨_, rfl⟩ ⟨_, rfl⟩) ⟨_, rfl⟩) ⟨_, rfl⟩
  -- a branch on what the event or instruction finds
  case powerLost | hostColdStart | streamSkip | stagingBaseAllocate | stagingCopyComplete | shardStart | groupCompletion
      | counterRegister | counterCombine | makeReady | plateSectionReceive | rdmaWrite | rdmaRead | tyield | probe =>
    dsimp only [exec, execPowerLost, execHostColdStart, execStreamSkip, execStagingBaseAllocate, execStagingCopyComplete,
      execShardStart, execGroupCompletion, execCounterRegister, execCounterCombine, execMakeReady, execPlateSectionReceive,
      execRdmaWrite, execRdmaRead, execTyield, execProbe]
    repeat' split
    all_goals exact ⟨_, rfl⟩
  case kernelLoadComplete | taskDispatch | contextEndRequest | resumeRequest | trainingComplete =>
    refine answers_if (of_decide_eq_true wf) ?_
    repeat' split
    all_goals exact ⟨_, rfl⟩
  case kernelUnloadComplete | galleyEntryReclaim | stealAnswer | contextSetupComplete | shadowSwapComplete | spillComplete
      | restoreComplete | supervisorTaskStart | collectiveComplete =>
    refine answers_if (of_decide_eq_true wf) ?_
    dsimp only
    repeat' split
    all_goals exact ⟨_, rfl⟩
  case ldvqFill | tailWrite | queueResume =>
    simp only [Instr.wellFormed, Bool.and_eq_true, decide_eq_true_eq] at wf
    refine answers_if wf ?_
    repeat' split
    all_goals exact ⟨_, rfl⟩
  case eagerTranslationComplete | qpCreate =>
    simp only [Instr.wellFormed, Bool.and_eq_true, decide_eq_true_eq] at wf
    refine answers_if wf ?_
    dsimp only
    repeat' split
    all_goals exact ⟨_, rfl⟩
  case scratchpadLineExchange =>
    simp only [Instr.wellFormed, Bool.and_eq_true, decide_eq_true_eq, and_assoc] at wf
    refine answers_if wf ?_
    dsimp only
    repeat' split
    all_goals exact ⟨_, rfl⟩
  case linkRetrainRequest | laneFailure | linkKeyInstall =>
    refine answers_if wf ?_
    repeat' split
    all_goals exact ⟨_, rfl⟩
  -- shared operations
  case dramPatrolScrub => exact answers_dramPatrolScrub _ _ _ wf
  case sramPatrolScrub => exact answers_sramPatrolScrub _ _ _ wf
  case copyStart | copyBytesDelivered | copyComplete =>
    simp only [Instr.wellFormed, Bool.and_eq_true, decide_eq_true_eq] at wf
    dsimp only [exec, execCopyStart, execCopyBytesDelivered, execCopyComplete]
    exact answers_copyEvent wf
  case graphPacket | loadPacket | unloadPacket | bindPacket | retirePacket | cancelPacket | nopPacket | graphAdmission =>
    simp only [Instr.wellFormed, Bool.and_eq_true, decide_eq_true_eq] at wf
    dsimp only [exec, execGraphPacket, execLoadPacket, execUnloadPacket, execBindPacket, execRetirePacket, execCancelPacket,
      execNopPacket, execGraphAdmission]
    exact answers_packetStep wf
  case flitData | flitAck | flitNak | flitCredit | flitControl =>
    dsimp only [exec, execFlitData, execFlitAck, execFlitNak, execFlitCredit, execFlitControl]
    exact answers_flitIn wf
  case getMeasurements =>
    dsimp only [exec, execGetMeasurements]
    split <;> exact answers_spdmReply _ _ _ _ _
  case finish | keyUpdate | heartbeat => exact answers_inSession fun _ _ => answers_spdmReply _ _ _ _ _
  case endSession => exact answers_inSession fun _ _ => ⟨_, rfl⟩
  case ldr => exact answers_ldrOp _ _ _ _ _ _ _
  case ldrL => exact answers_ordered (answers_ldrOp _ _ _ _ _ _ _)
  case str => exact answers_strOp _ _ _ _ _ _ _
  case strL => exact answers_ordered (answers_strOp _ _ _ _ _ _ _)
  case bxinit => exact answers_ite (answers_ite ⟨_, rfl⟩ (answers_ite ⟨_, rfl⟩ ⟨_, rfl⟩)) ⟨_, rfl⟩
  case bxwait =>
    exact answers_ite (answers_gangAfter (answers_ringWait _ _ _))
      (answers_gangAfter (answers_ite ⟨_, rfl⟩ (answers_ite ⟨_, rfl⟩ ⟨_, rfl⟩)))
  case ringset =>
    exact answers_ite ⟨_, rfl⟩ (answers_ite ⟨_, rfl⟩ (answers_ite ⟨_, rfl⟩ (answers_ite ⟨_, rfl⟩
      (answers_ite ⟨_, rfl⟩ ⟨_, rfl⟩))))
  case fence => exact answers_ite (answers_gangAfter (answers_ite ⟨_, rfl⟩ ⟨_, rfl⟩)) ⟨_, rfl⟩
  case freplayResume | freplayAbort => exact answers_freplayOp _ _ _
  case srd | swr => exact answers_ite ⟨_, rfl⟩ (answers_ite ⟨_, rfl⟩ (answers_meetX fun _ => ⟨_, rfl⟩))
  case qpopa | xqpop =>
    refine answers_ite ?_ ⟨_, rfl⟩
    split <;> exact ⟨_, rfl⟩
  case bq | bqL => exact answers_bqOp _ _ _ _ _ _
  case loop =>
    refine answers_ite ?_ ⟨_, rfl⟩
    split
    · exact answers_putOutcome _ _ _ _ _
    · exact answers_takeOutcome _ _ _ _
  case endl =>
    refine answers_ite ?_ ⟨_, rfl⟩
    dsimp only
    split
    · exact answers_ite (answers_putOutcome _ _ _ _ _) (answers_putOutcome _ _ _ _ _)
    · exact answers_takeOutcome _ _ _ _

/-! ### A step -/

theorem retireLatched_answers {s : State} {w : IWord} {r : Result} (h : Answers r) : Answers (s.retireLatched w r) := by
  obtain ⟨t, rfl⟩ := h
  cases latch : s.bank.latchHere s.turn with
  | none => exact ⟨t, retireLatched_none w _ latch⟩
  | some l =>
    by_cases stays : t.bank.seq s.turn = s.bank.seq s.turn
    · exact ⟨t, retireLatched_same w latch stays⟩
    · obtain ⟨v, e, -⟩ := retireLatched_moved w latch stays
      exact ⟨v, e⟩

/-- A stream's turn answers: what it decodes is well formed. -/
theorem streamStep_answers (s : State) : Answers (streamStep s) := by
  unfold streamStep
  split
  · exact ⟨_, rfl⟩
  · split
    case h_1 decoded => exact retireLatched_answers (exec_answers s (decode_reads decoded).1)
    case h_2 => exact ⟨_, rfl⟩

theorem eventStep_answers {e : Instr} (s : State) (wf : e.wellFormed = true) : Answers (eventStep e s) :=
  answers_ite (exec_answers _ wf) ⟨_, rfl⟩

theorem passTurn_answers {r : Result} (h : Answers r) : Answers (passTurn r) := by
  obtain ⟨t, rfl⟩ := h
  exact ⟨_, rfl⟩

/-- A step answers where its agenda's event is well formed and its agenda's stream stands on a cell. -/
theorem step_answers {s : State} (event : ∀ e rest, s.agenda = .event e :: rest → e.wellFormed = true)
    (stream : ∀ c st rest, s.agenda = .stream c st :: rest → c < 256) : Answers (step s) := by
  match agenda : s.agenda with
  | [] =>
    by_cases engine : s.engine = true
    · exact ⟨_, by simp only [step, agenda, engine, if_true]; rfl⟩
    · rw [step_idle agenda (Bool.eq_false_iff.mpr engine)]
      exact passTurn_answers (streamStep_answers _)
  | .event e :: rest =>
    rw [step_event agenda]
    exact eventStep_answers _ (event e rest agenda)
  | .stream c st :: rest =>
    rw [step_stream (stream c st rest agenda) agenda]
    exact streamStep_answers _
  | .firmware a :: rest => exact ⟨_, step_firmware agenda⟩

/-- Settles O6: each meaning answers, by its form; the step's are those of the instruction that it decodes, which is well formed,
and of the event that the agenda names. -/
theorem nothingIsRefused : Obligations.NothingIsRefused := by
  unfold Obligations.NothingIsRefused
  exact ⟨fun s => step_answers, fun i s => exec_answers s⟩

end Sys2Proof.Machine
end

section
/-! PROOFS. Host queues: the steps of the front end on the packet at HEAD, and of the loader (R65, R67 to R69, R136, R137, R269 to
R272, R285, R340).

`packetStep` decides whether the front end takes a packet; what a packet of each type then does is an equation per case.  An
access that succeeds ends the agent's step with the state that it leaves. -/

namespace Sys2Proof.Machine

open Sys2Proof

/-! ### Writes of a device agent -/

theorem putParts_cells (ps : List RowPart) : ∀ (s : State) (bs : List Byte), (s.putParts ps bs).cells = s.cells := by
  induction ps with
  | nil => intro s bs; rfl
  | cons p ps ih => intro s bs; rw [State.putParts, ih]

theorem agentWrite_cells {s t : State} {x g : Nat} {bs : List Byte} {annotated : Bool}
    (e : s.agentWrite x g bs annotated = .ok t) : t.cells = s.cells := by
  simp only [State.agentWrite, State.writeParts] at e
  split at e
  · split at e
    · cases e
    · cases e
      exact putParts_cells _ s bs
  · cases e

/-! ### Completion, HEAD and the stop of a queue -/

theorem writeCompletion_eq_ok {s u : State} {x : Nat} {compl seq : Word} {status ty : Nat} :
    s.writeCompletion x compl seq status ty = .ok u ↔ compl = 0 ∧ u = s ∨ compl ≠ 0 ∧ s.agentWrite x compl.toNat
      (bytesOfNat 8 seq.toNat ++ bytesOfNat 1 status ++ bytesOfNat 1 ty ++ [0, 0, 0, 0, 0, 0]) true = .ok u := by
  unfold State.writeCompletion
  by_cases none : compl = 0
  · simp [none, eq_comm]
  · simp only [none, if_false, false_and, false_or, ne_eq, not_false_eq_true, true_and]
    rfl

theorem advanceHead_eq_ok {s t : State} {x q len : Nat} : s.advanceHead x q len = .ok t ↔ ∃ d v, s.readQueue x q = .ok d ∧
    s.agentWrite x ((s.ctxAt x).qdesc + 64 * q + 0x10) (bytesOfNat 8 (d.head + 64 * len)) false = .ok v ∧
    t = v.setCtx x { v.ctxAt x with
      tailOrder := (v.ctxAt x).tailOrder.filter fun e => e.1 != q || decide (d.head + 64 * len < e.2) } := by
  simp only [State.advanceHead, bind_ok, Ctx.queueAddr, Except.ok.injEq, exists_and_left, eq_comm (b := t)]

theorem acceptPacket_eq_ok {s t : State} {x q len ty status : Nat} {compl seq : Word} :
    s.acceptPacket x q len ty status compl seq = .ok t ↔
      ∃ u, s.writeCompletion x compl seq status ty = .ok u ∧ u.advanceHead x q len = .ok t := bind_ok _ _ _

theorem stopQueue_of_write {s u : State} {x q cause : Nat}
    (written : s.agentWrite x ((s.ctxAt x).qdesc + 64 * q + 0x0C) [2#8, BitVec.ofNat 8 cause] false = .ok u) :
    s.stopQueue x q cause = (u.dropHold x q).postEvent x .queuePacket q := by
  have state : s.setQueueState x q 2 cause = .ok u := written
  rw [State.stopQueue, state]

/-! ### TAIL and RESUME -/

section Tail
variable {s u : State} {x q : Nat} {v : Word} {d : QueueDesc}

theorem tailSeen_inactive (n : Nat) (read : u.readQueue x q = .ok d) (state : d.state ≠ 1) : u.tailSeen x q n = u := by
  rw [State.tailSeen, read]
  exact if_pos state

theorem tailSeen_bad {n : Nat} (read : u.readQueue x q = .ok d) (state : d.state = 1)
    (bad : n % 64 ≠ 0 ∨ n < d.head ∨ d.head + d.size < n) : u.tailSeen x q n = u.stopQueue x q 6 := by
  rw [State.tailSeen, read]
  exact (if_neg (not_not_intro state)).trans (if_pos bad)

theorem tailSeen_good {n : Nat} (read : u.readQueue x q = .ok d) (state : d.state = 1) (units : n % 64 = 0) (low : d.head ≤ n)
    (high : n ≤ d.head + d.size) :
    u.tailSeen x q n = u.setCtx x { u.ctxAt x with tailOrder := (u.ctxAt x).tailOrder ++ [(q, n)] } := by
  rw [State.tailSeen, read]
  exact (if_neg (not_not_intro state)).trans (if_neg (by omega))

theorem execTailWrite_beyond (v : Word) (range : x < 64 ∧ q < 16) (beyond : (s.ctxAt x).nqueue ≤ q) :
    exec (.tailWrite x q v) s = .next s := (if_pos range).trans (if_pos (.inl beyond))

theorem execTailWrite_written (range : x < 64 ∧ q < 16) (inside : q < (s.ctxAt x).nqueue) (free : (s.ctxAt x).state ≠ .free)
    (loading : (s.ctxAt x).state ≠ .loading)
    (written : s.agentWrite x ((s.ctxAt x).qdesc + 64 * q + 0x18) (bytesOfNat 8 v.toNat) false = .ok u) :
    exec (.tailWrite x q v) s = .next (u.tailSeen x q v.toNat) := by
  have up : ¬ ((s.ctxAt x).nqueue ≤ q ∨ (s.ctxAt x).queuesUp = false) := by simp [Ctx.queuesUp, free, loading, inside]
  have tail : s.agentWrite x ((s.ctxAt x).queueAddr q + 0x18) (w8 v) false = .ok u := written
  show execTailWrite x q v s = _
  simp only [execTailWrite, if_pos range, if_neg up, tail]

theorem execQueueResume_beyond (range : x < 64 ∧ q < 16) (beyond : (s.ctxAt x).nqueue ≤ q) :
    exec (.queueResume x q) s = .next s := (if_pos range).trans (if_pos beyond)

theorem execQueueResume_inside (range : x < 64 ∧ q < 16) (inside : q < (s.ctxAt x).nqueue) :
    exec (.queueResume x q) s = .next (s.resumeQueue x q) := (if_pos range).trans (if_neg (Nat.not_le.mpr inside))

theorem resumeQueue_running (read : s.readQueue x q = .ok d) (state : d.state ≠ 2) : s.resumeQueue x q = s := by
  rw [State.resumeQueue, read]
  exact if_pos state

/-- A resumed queue has its TAIL in the order of tail writes, where it stands there or is still good. -/
theorem resumeQueue_stopped (hx : x < 64) (read : s.readQueue x q = .ok d) (state : d.state = 2)
    (written : s.agentWrite x ((s.ctxAt x).qdesc + 64 * q + 0x0C) [1, 0, 0, 0] false = .ok u) :
    (s.resumeQueue x q).mem = u.mem ∧ (s.resumeQueue x q).cells = s.cells ∧
      (d.tail % 64 = 0 → d.head < d.tail → d.tail ≤ d.head + d.size →
        (q, d.tail) ∈ ((s.resumeQueue x q).ctxAt x).tailOrder) := by
  have active : s.agentWrite x ((s.ctxAt x).queueAddr q + 0x0C) [1#8, 0#8, 0#8, 0#8] false = .ok u := written
  simp only [State.resumeQueue, read, state, ne_eq, not_true_eq_false, if_false, active, setCtx_mem, setCtx_cells,
    setCtx_ctxAt _ _ _ hx, true_and]
  refine ⟨agentWrite_cells written, fun units low high => ?_⟩
  by_cases listed : (q, d.tail) ∈ (u.ctxAt x).tailOrder
  · exact List.mem_append_left _ listed
  · have absent : (u.ctxAt x).tailOrder.all (fun e => e.1 != q || e.2 != d.tail) = true := by
      rw [List.all_eq_true]
      intro e he
      by_cases queue : e.1 = q
      · have tail : e.2 ≠ d.tail := fun same => listed (by rw [← queue, ← same]; exact he)
        simp [tail]
      · simp [queue]
    simp [units, low, high, absent]

end Tail

/-! ### The packet at HEAD -/

section Step
variable {s t : State} {x q ty : Nat} {p : Packet} {act : Packet → State → State}

theorem packetStep_idle (ty : Nat) (act : Packet → State → State) (range : x < 64 ∧ q < 16)
    (idle : (s.ctxAt x).queueBusy q = true ∨ s.queueTurn x q = false ∨ s.parse x q = .ok .idle) :
    packetStep ty x q act s = .next s := by
  by_cases blocked : (s.ctxAt x).queueBusy q = true ∨ s.queueTurn x q = false
  · exact (if_pos range).trans (if_pos blocked)
  · have parsed : s.parse x q = .ok .idle := (or_assoc.mpr idle).resolve_left blocked
    simp only [packetStep, if_pos range, if_neg blocked, parsed]

theorem packetStep_stop (ty : Nat) (act : Packet → State → State) {w : Bool} {k : Nat} (range : x < 64 ∧ q < 16)
    (ready : (s.ctxAt x).queueBusy q = false) (turn : s.queueTurn x q = true) (parsed : s.parse x q = .ok (.stop w k)) :
    packetStep ty x q act s = if s.waits x q w = true then .next s else .next (s.stopQueue x q k) := by
  simp only [packetStep, if_pos range, ready, turn, Bool.false_eq_true, Bool.true_eq_false, or_self, if_false, parsed]

theorem waits_eq_false {w : Bool} (free : w = true → s.inFlight x q = false) : s.waits x q w = false := by
  cases w with
  | false => rfl
  | true => exact free rfl

theorem packetStep_at (h : AtPacket s x q ty p) : packetStep ty x q act s = .next (act p s) := by
  obtain ⟨range, ⟨ready, turn⟩, ⟨d, parsed⟩, kind, free⟩ := h
  simp only [packetStep, if_pos range, ready, turn, Bool.false_eq_true, Bool.true_eq_false, or_self, if_false, parsed, kind,
    waits_eq_false free, ne_eq, not_true_eq_false]

/-- The end of a packet names its own type. -/
theorem AtPacket.ends {u : State} {status : Nat} (h : AtPacket s x q ty p)
    (done : u.acceptPacket x q p.len p.ty status p.compl p.seq = .ok t) :
    u.acceptPacket x q p.len ty status p.compl p.seq = .ok t := h.kind ▸ done

/-- The step of a packet whose work succeeds. -/
theorem packetStep_ok (work : Packet → State → Except Stop State) (h : AtPacket s x q ty p) (done : work p s = .ok t) :
    packetStep ty x q (fun p t => t.agentDo' x 0 (work p t)) s = .next t := by
  rw [packetStep_at h, done, State.agentDo']

theorem execNopPacket_ok (h : AtPacket s x q 7 p) (done : s.acceptPacket x q p.len 7 0 p.compl p.seq = .ok t) :
    exec (.nopPacket x q) s = .next t :=
  packetStep_ok (fun p t => t.acceptPacket x q p.len 7 0 p.compl p.seq) h done

theorem execLoadPacket_ok (h : AtPacket s x q 2 p) (done : s.loadPacket x q p = .ok t) : exec (.loadPacket x q) s = .next t :=
  packetStep_ok (fun p t => t.loadPacket x q p) h done

theorem execUnloadPacket_ok (h : AtPacket s x q 3 p) (done : s.unloadPacket x q p = .ok t) :
    exec (.unloadPacket x q) s = .next t := packetStep_ok (fun p t => t.unloadPacket x q p) h done

theorem execBindPacket_ok (h : AtPacket s x q 4 p) (done : s.bindPacket x q p = .ok t) : exec (.bindPacket x q) s = .next t :=
  packetStep_ok (fun p t => t.bindPacket x q p) h done

theorem execRetirePacket_ok (h : AtPacket s x q 5 p) (done : s.retirePacket x q p = .ok t) :
    exec (.retirePacket x q) s = .next t := packetStep_ok (fun p t => t.retirePacket x q p) h done

/-- The step of a CANCEL whose work succeeds without faults of its tasks. -/
theorem execCancelPacket_ok (h : AtPacket s x q 6 p) (done : s.cancelPacket x q p = .ok ⟨t, []⟩) :
    exec (.cancelPacket x q) s = .next t := by
  show packetStep 6 x q (fun p t => t.agentDo x 0 (t.cancelPacket x q p)) s = _
  rw [packetStep_at h, done]
  rfl

/-- Each packet event is a step of the front end on its type of packet. -/
theorem exec_packetEvent {e : Instr} (s : State) (mem : e ∈ [Instr.graphPacket x q, .graphAdmission x q, .loadPacket x q,
    .unloadPacket x q, .bindPacket x q, .retirePacket x q, .cancelPacket x q, .nopPacket x q]) :
    ∃ ty act, exec e s = packetStep ty x q act s := by
  simp only [List.mem_cons, List.not_mem_nil, or_false] at mem
  obtain rfl | rfl | rfl | rfl | rfl | rfl | rfl | rfl := mem <;>
    dsimp only [exec, execGraphPacket, execGraphAdmission, execLoadPacket, execUnloadPacket, execBindPacket, execRetirePacket,
      execCancelPacket, execNopPacket] <;>
    exact ⟨_, _, rfl⟩

end Step

/-! ### LOAD -/

section Load
variable {s : State} {x q slot : Nat} {p : Packet} {obj : List Byte}

theorem loadPacket_refused (read : s.agentRead x (leAt p.bytes 0x20 8) (leAt p.bytes 0x28 8) false = .ok obj)
    (bad : objCode obj ≠ 0) :
    s.loadPacket x q p = s.acceptPacket x q p.len 2 (objCode obj) p.compl p.seq := by
  rw [State.loadPacket, read]
  refine (if_pos (.inl bad)).trans ?_
  rw [if_pos bad]

theorem loadPacket_taken {k : Kernel} (read : s.agentRead x (leAt p.bytes 0x20 8) (leAt p.bytes 0x28 8) false = .ok obj)
    (good : objCode obj = 0) (there : s.kernelIn x (leAt p.bytes 0x30 2) = some k) :
    s.loadPacket x q p = s.acceptPacket x q p.len 2 7 p.compl p.seq := by
  rw [State.loadPacket, read]
  refine (if_pos (.inr (by rw [there]; rfl))).trans ?_
  rw [if_neg (not_not_intro good)]

/-- The kernel that a LOAD of an object enters in its slot. -/
def loadedKernel (p : Packet) (q : Nat) (obj : List Byte) : Kernel :=
  kernelOf obj (leAt p.bytes 0x30 2) (leAt p.bytes 0x38 8) (leAt p.bytes 0x40 8) (leAt p.bytes 0x48 8) (some (q, p.compl, p.seq))

/-- Enter a kernel in a slot that holds none, and its chunks in the store. -/
def State.enterKernel (s : State) (x : Nat) (k : Kernel) : State :=
  (s.enterChunks x k).setCtx x { s.ctxAt x with kernels := (s.ctxAt x).kernels ++ [k] }

theorem enterKernel_kernelIn {k : Kernel} (hx : x < 64) (free : s.kernelIn x slot = none) (same : k.slot = slot) :
    (s.enterKernel x k).kernelIn x slot = some k := by
  have none_before : (s.ctxAt x).kernels.find? (·.slot == slot) = none := free
  rw [State.kernelIn, State.enterKernel, setCtx_ctxAt _ _ _ hx, List.find?_append, none_before, List.find?_singleton, same,
    beq_self_eq_true]
  rfl

theorem loadPacket_entered (read : s.agentRead x (leAt p.bytes 0x20 8) (leAt p.bytes 0x28 8) false = .ok obj)
    (good : objCode obj = 0) (free : s.kernelIn x (leAt p.bytes 0x30 2) = none) :
    s.loadPacket x q p = .ok (s.enterKernel x (loadedKernel p q obj)) := by
  rw [State.loadPacket, read]
  exact if_neg (by simp [good, free])

end Load

/-! ### UNLOAD -/

section Unload
variable {s : State} {x q : Nat} {p : Packet}

theorem unloadPacket_absent (free : s.kernelIn x (leAt p.bytes 0x20 2) = none) :
    s.unloadPacket x q p = s.acceptPacket x q p.len 3 7 p.compl p.seq := by
  rw [State.unloadPacket, free]

theorem unloadPacket_placed {k : Kernel} (there : s.kernelIn x (leAt p.bytes 0x20 2) = some k) (answered : k.packet = none)
    (placed : k.state = .resident ∨ k.state = .translated) :
    s.unloadPacket x q p = .ok (s.setKernel x { k with
      state := if s.kernelRuns x (leAt p.bytes 0x20 2) = true then .stale else .unloading, packet := some (q, p.compl, p.seq) }) := by
  rw [State.unloadPacket, there]
  refine if_neg ?_
  rcases placed with state | state <;> simp [answered, state]

end Unload

/-! ### BIND and RETIRE -/

section Tensor
variable {s u : State} {x q : Nat} {p : Packet} {d : Desc}

theorem bindPacket_live (read : s.readDesc x (leAt p.bytes 0x20 2) true = .ok d) (live : d.live = true) :
    s.bindPacket x q p = s.acceptPacket x q p.len 4 0x11 p.compl p.seq := by
  rw [State.bindPacket, read]
  exact if_pos live

theorem bindPacket_bad (read : s.readDesc x (leAt p.bytes 0x20 2) true = .ok d) (dead : d.live = false)
    (bad : bindImageOk ((p.bytes.drop 0x40).take 64) = false) :
    s.bindPacket x q p = s.acceptPacket x q p.len 4 0x10 p.compl p.seq := by
  rw [State.bindPacket, read]
  exact (if_neg (Bool.eq_false_iff.mp dead)).trans (if_pos bad)

/-- A record is cleared for a new descriptor, and what graphs have presented to it is discarded (R143). -/
def State.bindRecord (s : State) (x r : Nat) : State :=
  (s.setCtx x { s.ctxAt x with
    records := recordSet (s.ctxAt x).records r (recordAt (s.ctxAt x).records r).cleared }).dropPartials x r

theorem bindPacket_bound (read : s.readDesc x (leAt p.bytes 0x20 2) true = .ok d) (dead : d.live = false)
    (good : bindImageOk ((p.bytes.drop 0x40).take 64) = true)
    (written : s.agentWrite x ((s.ctxAt x).descAddr (leAt p.bytes 0x20 2))
      (boundImage ((p.bytes.drop 0x40).take 64) (leAt p.bytes 0x24 4)) true = .ok u) :
    s.bindPacket x q p =
      (u.bindRecord x (descOf ((p.bytes.drop 0x40).take 64)).record).acceptPacket x q p.len 4 0 p.compl p.seq := by
  rw [State.bindPacket, read]
  refine (if_neg (Bool.eq_false_iff.mp dead)).trans ((if_neg (by rw [good]; decide)).trans ?_)
  rw [written]
  rfl

/-- STATE of a descriptor is bits 6 and 5 of its byte; 2 is RETIRED (R135, R137). -/
theorem retired_stateByte (v : Byte) :
    bytesOfNat 1 (byteAt [v] 0 - bitsAt (byteAt [v] 0) 5 2 * 32 + 64) = [v &&& 0x9F#8 ||| 0x40#8] := by
  revert v
  decide

theorem retireDesc_written {idx : Nat} {v : Byte} (read : s.agentRead x ((s.ctxAt x).descAddr idx + 0x3A) 1 true = .ok [v])
    (written : s.agentWrite x ((s.ctxAt x).descAddr idx + 0x3A) [v &&& 0x9F#8 ||| 0x40#8] true = .ok u) :
    s.retireDesc x idx = .ok u := by
  rw [State.retireDesc, read]
  show s.agentWrite x _ (bytesOfNat 1 (byteAt [v] 0 - bitsAt (byteAt [v] 0) 5 2 * 32 + 64)) true = _
  rw [retired_stateByte, written]

theorem retirePacket_dead (read : s.readDesc x (leAt p.bytes 0x20 2) true = .ok d)
    (first : (s.ctxAt x).retirePending.any (·.1 == leAt p.bytes 0x20 2) = false) (dead : d.live = false) :
    s.retirePacket x q p = s.acceptPacket x q p.len 5 0x12 p.compl p.seq := by
  rw [State.retirePacket, read]
  exact (if_neg (Bool.eq_false_iff.mp first)).trans (if_pos dead)

theorem retirePacket_bound (read : s.readDesc x (leAt p.bytes 0x20 2) true = .ok d)
    (first : (s.ctxAt x).retirePending.any (·.1 == leAt p.bytes 0x20 2) = false) (live : d.live = true)
    (bound : s.boundNow x (leAt p.bytes 0x20 2) = true) :
    s.retirePacket x q p = .ok (s.setCtx x { s.ctxAt x with
      retirePending := (s.ctxAt x).retirePending ++ [(leAt p.bytes 0x20 2, q, p.compl, p.seq)] }) := by
  rw [State.retirePacket, read]
  exact (if_neg (Bool.eq_false_iff.mp first)).trans ((if_neg (by rw [live]; decide)).trans (if_pos bound))

theorem retirePacket_unbound (read : s.readDesc x (leAt p.bytes 0x20 2) true = .ok d)
    (first : (s.ctxAt x).retirePending.any (·.1 == leAt p.bytes 0x20 2) = false) (live : d.live = true)
    (unbound : s.boundNow x (leAt p.bytes 0x20 2) = false) (retired : s.retireDesc x (leAt p.bytes 0x20 2) = .ok u) :
    s.retirePacket x q p = u.acceptPacket x q p.len 5 0 p.compl p.seq := by
  rw [State.retirePacket, read]
  refine (if_neg (Bool.eq_false_iff.mp first)).trans ((if_neg (by rw [live]; decide)).trans
    ((if_neg (Bool.eq_false_iff.mp unbound)).trans ?_))
  rw [retired]
  rfl

end Tensor

/-! ### CANCEL -/

section Cancel
variable {s t : State} {x q : Nat} {p : Packet}

theorem graph_any_iff (s : State) (x no : Nat) : s.sched.graphs.any (fun g => g.ctx == x && g.graphNo == no) = true ↔
    ∃ g ∈ s.sched.graphs, g.ctx = x ∧ g.graphNo = no := by
  simp only [List.any_eq_true, Bool.and_eq_true, beq_iff_eq]

theorem cancelPacket_absent (absent : ¬ ∃ g ∈ s.sched.graphs, g.ctx = x ∧ g.graphNo = leAt p.bytes 0x20 4)
    (done : s.acceptPacket x q p.len 6 0x13 p.compl p.seq = .ok t) : s.cancelPacket x q p = .ok ⟨t, []⟩ := by
  rw [State.cancelPacket]
  refine (if_neg (mt (graph_any_iff s x _).mp absent)).trans ?_
  rw [done]
  rfl

theorem cancelPacket_done {w : Work} (there : ∃ g ∈ s.sched.graphs, g.ctx = x ∧ g.graphNo = leAt p.bytes 0x20 4)
    (steps : cancelAll x (queueDie (s.ctxAt x).part q) (s.cancelTargets x (leAt p.bytes 0x20 4)) ⟨s, []⟩ = .ok w)
    (done : w.s.acceptPacket x q p.len 6 0 p.compl p.seq = .ok t) : s.cancelPacket x q p = .ok ⟨t, w.faults⟩ := by
  rw [State.cancelPacket]
  refine (if_pos ((graph_any_iff s x _).mpr there)).trans ?_
  rw [steps]
  show (w.s.acceptPacket x q p.len 6 0 p.compl p.seq >>= _) = _
  rw [done]
  rfl

end Cancel

/-! ### The loader -/

section Loader
variable {s t : State} {x q slot : Nat} {k : Kernel} {compl seq : Word} {room : Option (List Nat)}

theorem kernelIn_slot (there : s.kernelIn x slot = some k) : k.slot = slot := by
  simpa using List.find?_some there

theorem tellReloc_outbox (s : State) (x : Nat) (k : Kernel) (code : Nat) :
    s.tellReloc x k code = { s with outbox := s.outbox ++
      if code = k.relocCode then (match k.relocAt with | some e => [.relocRejected x k.slot e.1 e.2] | none => []) else [] } := by
  unfold State.tellReloc
  cases k.relocAt with
  | none => simp
  | some e => by_cases same : code = k.relocCode <;> simp [same]

theorem finishLoad_dropped (waits : k.packet = some (q, compl, seq)) (bad : s.placeCode x k room ≠ 0) :
    s.finishLoad x k room =
      ((s.dropKernel x k).tellReloc x k (s.placeCode x k room)).acceptPacket x q 2 2 (s.placeCode x k room) compl seq := by
  simp only [State.finishLoad, waits, if_neg bad]

theorem finishLoad_placed (waits : k.packet = some (q, compl, seq)) (good : s.placeCode x k room = 0) :
    s.finishLoad x k room = (s.placeKernel x k (room.getD [])).acceptPacket x q 2 2 0 compl seq := by
  simp only [State.finishLoad, waits, good, if_true]

theorem execKernelLoadComplete_verified (hx : x < 64) (there : s.kernelIn x slot = some k) (verified : k.state = .verified)
    (served : (s.ctxAt x).served = true) (done : s.finishLoad x k room = .ok t) :
    exec (.kernelLoadComplete x slot room) s = .next t := by
  show execKernelLoadComplete x slot room s = _
  simp only [execKernelLoadComplete, if_pos hx, there, if_pos (And.intro verified served), done, State.agentDo']

theorem execKernelLoadComplete_other (hx : x < 64) (there : s.kernelIn x slot = some k) (other : k.state ≠ .verified) :
    exec (.kernelLoadComplete x slot room) s = .next s := by
  show execKernelLoadComplete x slot room s = _
  simp only [execKernelLoadComplete, if_pos hx, there, other, false_and, if_false]

theorem execKernelUnloadComplete_unloading (hx : x < 64) (there : s.kernelIn x slot = some k) (waits : k.packet = some (q, compl, seq))
    (unloading : k.state = .unloading) (done : (s.dropKernel x k).acceptPacket x q 1 3 0 compl seq = .ok t) :
    exec (.kernelUnloadComplete x slot) s = .next t := by
  show execKernelUnloadComplete x slot s = _
  simp only [execKernelUnloadComplete, if_pos hx, there, unloading, true_or, if_true, State.finishUnload, waits, done, State.agentDo']

theorem execKernelUnloadComplete_placed (hx : x < 64) (there : s.kernelIn x slot = some k)
    (placed : k.state = .resident ∨ k.state = .translated) : exec (.kernelUnloadComplete x slot) s = .next s := by
  show execKernelUnloadComplete x slot s = _
  rcases placed with state | state <;> simp [execKernelUnloadComplete, hx, there, state]

end Loader

/-! ### The statement, clause by clause -/

/-- Settles O54: the accepted packet and the stopped queue, the front end's step by what it finds at HEAD, each type of packet by
what its accesses find, and the loader's ends. -/
theorem queuePackets : Obligations.QueuePackets := by
  unfold Obligations.QueuePackets
  refine ⟨fun s x q len ty status compl seq t => ?_, fun s x q cause u _ => stopQueue_of_write,
    fun s x q hx hq => ⟨fun beyond => ?_, fun inside free loading v u d written read => ?_, fun inside d read => ?_,
      fun e mem => ⟨fun idle => ?_, fun w k ready turn parsed => ?_⟩⟩,
    fun s x q p t => ⟨fun h done => ?_, fun h obj read => ?_, fun h => ?_, fun h d read => ?_, fun h d read first => ?_, fun h => ?_⟩,
    fun s x slot q k compl seq room t hx there waits => ⟨fun verified served => ?_, ?_, ?_, ?_⟩⟩
  -- completion
  · simp only [acceptPacket_eq_ok, writeCompletion_eq_ok, advanceHead_eq_ok, exists_and_left]
  -- TAIL and RESUME
  · exact ⟨execQueueResume_beyond ⟨hx, hq⟩ beyond, fun v => execTailWrite_beyond v ⟨hx, hq⟩ beyond⟩
  · rw [execTailWrite_written ⟨hx, hq⟩ inside free loading written]
    exact ⟨fun state => congrArg _ (tailSeen_inactive _ read state), fun state bad => congrArg _ (tailSeen_bad read state bad),
      fun state units low high => congrArg _ (tailSeen_good read state units low high)⟩
  · rw [execQueueResume_inside ⟨hx, hq⟩ inside]
    exact ⟨fun state => congrArg _ (resumeQueue_running read state),
      fun state u written => ⟨_, rfl, resumeQueue_stopped hx read state written⟩⟩
  -- the step of the front end
  · obtain ⟨ty, act, step⟩ := exec_packetEvent s mem
    rw [step, packetStep_idle ty act ⟨hx, hq⟩ idle]
  · obtain ⟨ty, act, step⟩ := exec_packetEvent s mem
    rw [step, packetStep_stop ty act ⟨hx, hq⟩ ready turn parsed]
    refine ⟨fun ⟨flag, flight⟩ => if_pos ?_, fun free => if_neg ?_⟩
    · rw [State.waits, flag, flight]; rfl
    · rcases free with free | free <;> simp [State.waits, free]
  -- the packets
  · exact execNopPacket_ok h (h.ends done)
  · refine ⟨fun bad done => ?_, fun good ⟨k, there⟩ done => ?_, fun good free => ?_⟩
    · exact execLoadPacket_ok h ((loadPacket_refused read bad).trans (h.ends done))
    · exact execLoadPacket_ok h ((loadPacket_taken read good there).trans (h.ends done))
    · exact ⟨_, loadedKernel p q obj, execLoadPacket_ok h (loadPacket_entered read good free), rfl,
        enterKernel_kernelIn h.range.1 free rfl, rfl, rfl, rfl, rfl, rfl, rfl⟩
  · refine ⟨fun free done => ?_, fun k there answered placed => ?_⟩
    · exact execUnloadPacket_ok h ((unloadPacket_absent free).trans (h.ends done))
    · exact execUnloadPacket_ok h (unloadPacket_placed there answered placed)
  · refine ⟨fun live done => ?_, fun dead bad done => ?_, fun dead good u written done => ?_⟩
    · exact execBindPacket_ok h ((bindPacket_live read live).trans (h.ends done))
    · exact execBindPacket_ok h ((bindPacket_bad read dead bad).trans (h.ends done))
    · exact execBindPacket_ok h ((bindPacket_bound read dead good written).trans (h.ends done))
  · refine ⟨fun dead done => ?_, fun live bound => ?_, fun live unbound v u byte written done => ?_⟩
    · exact execRetirePacket_ok h ((retirePacket_dead read first dead).trans (h.ends done))
    · exact execRetirePacket_ok h (retirePacket_bound read first live bound)
    · exact execRetirePacket_ok h ((retirePacket_unbound read first live unbound (retireDesc_written byte written)).trans (h.ends done))
  · refine ⟨fun absent done => ?_, fun there w steps quiet done => ?_⟩
    · exact execCancelPacket_ok h (cancelPacket_absent absent (h.ends done))
    · exact execCancelPacket_ok h (quiet ▸ cancelPacket_done there steps (h.ends done))
  -- the loader
  · refine ⟨fun bad done => ?_, fun good done => ?_⟩
    · refine execKernelLoadComplete_verified hx there verified served ((finishLoad_dropped waits bad).trans ?_)
      rw [tellReloc_outbox, kernelIn_slot there]
      exact done
    · exact execKernelLoadComplete_verified hx there verified served ((finishLoad_placed waits good).trans done)
  · exact fun other => execKernelLoadComplete_other hx there other
  · exact fun unloading done => execKernelUnloadComplete_unloading hx there waits unloading done
  · exact fun placed => execKernelUnloadComplete_placed hx there placed

end Sys2Proof.Machine
end

section
/-! PROOFS. The integer instructions of the A stream without a wide immediate: three registers, one operand, bit fields, and the
load of an immediate (R94 to R97, R99). -/

namespace Sys2Proof.Machine

open Sys2Proof

/-! ### Three registers -/

/-- Settles O11: each word is its instruction's encoding, and each instruction is `aluA` of its operation. -/
theorem aluResults : Obligations.AluResults := by
  unfold Obligations.AluResults
  refine ⟨fun d a b next x mem => ?_, fun s d a b => ?_⟩
  · simp only [List.mem_cons, List.not_mem_nil, or_false] at mem
    obtain rfl | rfl | rfl | rfl | rfl | rfl | rfl | rfl | rfl | rfl | rfl | rfl | rfl | rfl | rfl | rfl | rfl | rfl | rfl | rfl
      | rfl | rfl | rfl | rfl := mem <;> exact (decode_of_encode_one rfl rfl).2 next
  · exact ⟨answersA_of _ _ _ _ _ rfl, answersA_of _ _ _ _ _ rfl, answersA_of _ _ _ _ _ rfl, answersA_of _ _ _ _ _ rfl,
      answersA_of _ _ _ _ _ rfl, answersA_of _ _ _ _ _ rfl, answersA_of _ _ _ _ _ rfl, answersA_of _ _ _ _ _ rfl,
      answersA_eq rfl (opRotr_eq _ _), answersA_eq rfl (opMin_eq _ _), answersA_eq rfl (opMax_eq _ _),
      answersA_eq rfl (opMinu_eq _ _), answersA_eq rfl (opMaxu_eq _ _), answersA_eq rfl (opSlt_eq _ _),
      answersA_eq rfl (opSltu_eq _ _), answersA_eq rfl (opSeq_eq _ _), answersA_eq rfl (mul_eq_ofInt _ _),
      answersA_eq rfl (opMulh_eq _ _), answersA_eq rfl (opMulhu_eq _ _), answersA_of _ _ _ _ _ rfl,
      answersA_eq rfl (opDivu_eq _ _), answersA_of _ _ _ _ _ rfl, answersA_eq rfl (opRemu_eq _ _),
      answersA_eq rfl (opSel_eq _ _ _)⟩

/-! ### One operand -/

/-- CLZ counts the zeros above the highest 1 bit. -/
theorem clzN_spec (n v : Nat) : clzN n v ≤ n ∧ (∀ i, i < clzN n v → v.testBit (n - 1 - i) = false) ∧
    (clzN n v < n → v.testBit (n - 1 - clzN n v) = true) := by
  induction n with
  | zero => simp [clzN]
  | succ n ih =>
    obtain ⟨bound, zeros, one⟩ := ih
    by_cases top : v.testBit n = true
    · simp [clzN, top]
    · rw [clzN, if_neg top]
      refine ⟨by omega, fun i hi => ?_, fun h => ?_⟩
      · cases i with
        | zero => simpa using top
        | succ i =>
          have := zeros i (by omega)
          rwa [show n + 1 - 1 - (i + 1) = n - 1 - i by omega]
      · have := one (by omega)
        rwa [show n + 1 - 1 - (1 + clzN n v) = n - 1 - clzN n v by omega]

/-- CTZ counts the zeros below the lowest 1 bit. -/
theorem ctzN_spec (n : Nat) : ∀ v, ctzN n v ≤ n ∧ (∀ i, i < ctzN n v → v.testBit i = false) ∧
    (ctzN n v < n → v.testBit (ctzN n v) = true) := by
  induction n with
  | zero => simp [ctzN]
  | succ n ih =>
    intro v
    obtain ⟨bound, zeros, one⟩ := ih (v / 2)
    by_cases low : v % 2 = 1
    · simp [ctzN, low]
    · rw [ctzN, if_neg low]
      refine ⟨by omega, fun i hi => ?_, fun h => ?_⟩
      · cases i with
        | zero => simpa using low
        | succ i => rw [Nat.testBit_succ, zeros i (by omega)]
      · rw [Nat.add_comm 1, Nat.testBit_succ, one (by omega)]

/-- POPC counts the 1 bits. -/
theorem popN_eq_length_filter (n : Nat) : ∀ v, popN n v = ((List.range n).filter v.testBit).length := by
  induction n with
  | zero => intro v; rfl
  | succ n ih =>
    intro v
    have later : v.testBit ∘ Nat.succ = (v / 2).testBit := funext fun i => Nat.testBit_succ v i
    rw [popN, ih, List.range_succ_eq_map, List.filter_cons, List.filter_map, later]
    rcases Nat.mod_two_eq_zero_or_one v with low | low
    · simp [low]
    · simp [low, Nat.add_comm]

/-- The number that the low bits of another spell in two's complement. -/
theorem sextNat_eq (v n : Nat) : sextNat v n = (BitVec.ofNat n v).toInt := by
  rw [sextNat, BitVec.toInt_eq_toNat_cond, BitVec.toNat_ofNat]
  cases n with
  | zero => simp [Nat.mod_one]
  | succ n =>
    have := Nat.pow_succ (n := 2) (m := n)
    split <;> split <;> simp_all <;> omega

/-- A field in two's complement. -/
theorem sextNat_field {w : Nat} (v : BitVec w) (lo n : Nat) : sextNat (field v lo n) n = (v.extractLsb' lo n).toInt := by
  rw [sextNat_eq, field, BitVec.ofNat_toNat, BitVec.setWidth_eq]

theorem getLsbD_sext (x : Word) (n : Nat) {i : Nat} (hi : i < 64) :
    (wordOfInt (sextNat x.toNat (n + 1))).getLsbD i = x.getLsbD (min i n) := by
  rw [sextNat_eq, show wordOfInt (BitVec.ofNat (n + 1) x.toNat).toInt = (BitVec.ofNat (n + 1) x.toNat).signExtend 64 from rfl,
    BitVec.getLsbD_signExtend, BitVec.msb_eq_getLsbD_last]
  simp only [hi, decide_true, Bool.true_and, BitVec.getLsbD_ofNat, Nat.add_sub_cancel]
  by_cases low : i < n + 1
  · rw [if_pos low, Nat.min_eq_left (by omega)]
    simp [low, BitVec.getLsbD]
  · rw [if_neg low, Nat.min_eq_right (by omega)]
    simp [BitVec.getLsbD]

theorem getLsbD_zext (x : Word) (n : Nat) {i : Nat} (hi : i < 64) :
    (wordOfNat (x.toNat % 2 ^ (n + 1))).getLsbD i = (decide (i ≤ n) && x.getLsbD i) := by
  rw [wordOfNat, BitVec.getLsbD_ofNat, Nat.testBit_mod_two_pow]
  simp only [hi, decide_true, Bool.true_and, Nat.lt_succ_iff, BitVec.getLsbD]

/-- A byte of the number that a byte list holds. -/
theorem ofNat_natOfBytes_shiftRight (l : List Byte) : ∀ (i : Nat) (h : i < l.length),
    BitVec.ofNat 8 (natOfBytes l >>> (8 * i)) = l[i] := by
  induction l with
  | nil => intro i h; cases h
  | cons b t ih =>
    intro i h
    have small := b.isLt
    cases i with
    | zero =>
      apply BitVec.eq_of_toNat_eq
      simp only [natOfBytes, BitVec.toNat_ofNat, Nat.mul_zero, Nat.shiftRight_zero, List.getElem_cons_zero]
      omega
    | succ i =>
      have rest : natOfBytes (b :: t) >>> 8 = natOfBytes t := by
        rw [natOfBytes, Nat.shiftRight_eq_div_pow]
        omega
      rw [Nat.mul_succ, Nat.add_comm, Nat.shiftRight_add, rest, List.getElem_cons_succ]
      exact ih i (by simpa using h)

/-- A byte of the bytes of a number. -/
theorem getElem_bytesOfNat (n : Nat) : ∀ (v i : Nat) (h : i < (bytesOfNat n v).length),
    (bytesOfNat n v)[i] = BitVec.ofNat 8 (v >>> (8 * i)) := by
  induction n with
  | zero => intro v i h; cases h
  | succ n ih =>
    intro v i h
    cases i with
    | zero => rfl
    | succ i =>
      simp only [bytesOfNat, List.getElem_cons_succ, ih]
      rw [← Nat.shiftRight_add, Nat.mul_succ, Nat.add_comm]

/-- BSWAP puts byte 7 − i at byte i. -/
theorem extractLsb'_opBswap (x : Word) {i : Nat} (hi : i < 8) :
    (opBswap x).extractLsb' (8 * i) 8 = x.extractLsb' (56 - 8 * i) 8 := by
  have length : (bytesOfNat 8 x.toNat).reverse.length = 8 := by simp
  have small := natOfBytes_lt (bytesOfNat 8 x.toNat).reverse
  rw [length] at small
  have whole : (opBswap x).toNat = natOfBytes (bytesOfNat 8 x.toNat).reverse := by
    rw [opBswap, wordOfNat, BitVec.toNat_ofNat, Nat.mod_eq_of_lt small]
  rw [BitVec.extractLsb', whole, ofNat_natOfBytes_shiftRight _ i (by omega), List.getElem_reverse, getElem_bytesOfNat,
    length_bytesOfNat, show 8 * (8 - 1 - i) = 56 - 8 * i by omega]
  rfl

/-! ### Bit fields -/

theorem bitFieldOk_iff (v : Word) : bitFieldOk v = true ↔ v.toNat < 4096 ∧ v.toNat % 64 + (v.toNat / 64 + 1) ≤ 64 := by
  rw [bitFieldOk, Bool.and_eq_true, decide_eq_true_eq, decide_eq_true_eq, Nat.add_assoc]

/-- m of R97 has its 1 bits at p to p + w. -/
theorem getLsbD_bitFieldMask (v : Word) (j : Nat) : (bitFieldMask v).getLsbD j =
    (decide (j < 64) && (decide (v.toNat % 64 ≤ j) && decide (j < v.toNat % 64 + (v.toNat / 64 + 1)))) := by
  rw [bitFieldMask, wordOfNat, BitVec.getLsbD_ofNat, Nat.testBit_shiftLeft, Nat.testBit_two_pow_sub_one]
  by_cases low : v.toNat % 64 ≤ j
  · simp only [low, decide_true, Bool.true_and]
    congr 2
    exact propext ⟨fun h => by omega, fun h => by omega⟩
  · simp [low]

/-- Bit i of what BFX answers is bit p + i of a[a] within the field, and 0 above it. -/
theorem getLsbD_bfx (x v : Word) (fits : v.toNat % 64 + (v.toNat / 64 + 1) ≤ 64) (i : Nat) :
    ((x &&& bitFieldMask v) >>> (v.toNat % 64)).getLsbD i =
      (decide (i < v.toNat / 64 + 1) && x.getLsbD (v.toNat % 64 + i)) := by
  rw [BitVec.getLsbD_ushiftRight, BitVec.getLsbD_and, getLsbD_bitFieldMask]
  by_cases inside : i < v.toNat / 64 + 1
  · have word : v.toNat % 64 + i < 64 := by omega
    simp [inside, word]
  · simp [inside]

/-- Bit i of what BFI answers is a bit of a[a] within the field, and of a[d] outside it. -/
theorem getLsbD_bfi (old x v : Word) {i : Nat} (hi : i < 64) :
    ((old &&& ~~~(bitFieldMask v)) ||| ((x <<< (v.toNat % 64)) &&& bitFieldMask v)).getLsbD i =
      if v.toNat % 64 ≤ i ∧ i < v.toNat % 64 + (v.toNat / 64 + 1) then x.getLsbD (i - v.toNat % 64) else old.getLsbD i := by
  rw [BitVec.getLsbD_or, BitVec.getLsbD_and, BitVec.getLsbD_and, BitVec.getLsbD_not, BitVec.getLsbD_shiftLeft,
    getLsbD_bitFieldMask]
  by_cases low : v.toNat % 64 ≤ i
  · by_cases high : i < v.toNat % 64 + (v.toNat / 64 + 1)
    · simp [hi, low, high]
    · simp [hi, low, high]
  · simp [hi, low]

theorem bfxOp_ok {len : Nat} {d a : BitVec 6} {v : Word} {s : State}
    (h : v.toNat < 4096 ∧ v.toNat % 64 + (v.toNat / 64 + 1) ≤ 64) :
    bfxOp len d a v s = answerA s len d ((s.bank.readA a.toNat &&& bitFieldMask v) >>> (v.toNat % 64)) :=
  if_pos ((bitFieldOk_iff v).mpr h)

theorem bfiOp_ok {len : Nat} {d a : BitVec 6} {v : Word} {s : State}
    (h : v.toNat < 4096 ∧ v.toNat % 64 + (v.toNat / 64 + 1) ≤ 64) :
    bfiOp len d a v s = answerA s len d ((s.bank.readA d.toNat &&& ~~~(bitFieldMask v)) |||
      ((s.bank.readA a.toNat <<< (v.toNat % 64)) &&& bitFieldMask v)) :=
  if_pos ((bitFieldOk_iff v).mpr h)

theorem bfxOp_refused {len : Nat} {d a : BitVec 6} {v : Word} {s : State}
    (h : ¬ (v.toNat < 4096 ∧ v.toNat % 64 + (v.toNat / 64 + 1) ≤ 64)) : bfxOp len d a v s = s.pcFault .a .operandIllegal :=
  if_neg ((bitFieldOk_iff v).not.mpr h)

theorem bfiOp_refused {len : Nat} {d a : BitVec 6} {v : Word} {s : State}
    (h : ¬ (v.toNat < 4096 ∧ v.toNat % 64 + (v.toNat / 64 + 1) ≤ 64)) : bfiOp len d a v s = s.pcFault .a .operandIllegal :=
  if_neg ((bitFieldOk_iff v).not.mpr h)

/-- Both forms of BFX and BFI are the operation on the sign-extended immediate. -/
theorem exec_bitField {d a : BitVec 6} {v : Word} {len : Nat} {bfx bfi : Instr}
    (form : (∃ im : BitVec 10, v = im.signExtend 64 ∧ len = 1 ∧ bfx = .bfx d a im ∧ bfi = .bfi d a im) ∨
      (∃ im : BitVec 30, v = im.signExtend 64 ∧ len = 2 ∧ bfx = .bfxL d a im ∧ bfi = .bfiL d a im)) (s : State) :
    exec bfx s = bfxOp len d a v s ∧ exec bfi s = bfiOp len d a v s := by
  obtain ⟨im, rfl, rfl, rfl, rfl⟩ | ⟨im, rfl, rfl, rfl, rfl⟩ := form <;> exact ⟨rfl, rfl⟩

/-! ### Words of major 0x02 -/

/-- A b field of 0 and the f field read as one. -/
theorem append_zeros_append (p : BitVec 22) (f : BitVec 4) : p ++ 0#6 ++ f = p ++ f.setWidth 10 := by
  have low : 0#6 ++ f = f.setWidth 10 := by revert f; decide
  rw [← low, BitVec.append_assoc]
  rfl

/-- A code of R96 whose b field must be 0 and is not. -/
theorem decode_unary_undef {d a b : BitVec 6} {f : BitVec 4} (next : Option IWord) (nonzero : b ≠ 0)
    (code : f = 0#4 ∨ f = 1#4 ∨ f = 2#4 ∨ f = 5#4) :
    decode (0#2 ++ 0#1 ++ 2#7 ++ d ++ a ++ b ++ f) next = .error .undef := by
  obtain ⟨w, hw⟩ : ∃ w : IWord, w = 0#2 ++ 0#1 ++ 2#7 ++ d ++ a ++ b ++ f := ⟨_, rfl⟩
  have fields : (fld w 0 32).toNat = (0#2 ++ 0#1 ++ 2#7 ++ d ++ a ++ b ++ f).toNat := (eq_word_iff _ w).mp hw.symm
  rw [← hw]
  simp only [toNat_eq_append_iff] at fields
  simp only [BitVec.toNat_inj, and_assoc, Nat.zero_add, Nat.reduceAdd] at fields
  obtain ⟨tag, long, major, -, -, isB, isF⟩ := fields
  have first : tagOf w ≠ 3#2 := by rw [tagOf, tag]; decide
  have short : ¬ longOf w = true := by rw [longOf_iff, long]; decide
  have zeros (c : BitVec 10) (h : c.extractLsb' 4 6 = 0#6) : (fld w 0 10 == c) = false :=
    fld_beq_false (a := 4) (n := 6) (by decide) isB (h ▸ nonzero.symm)
  have body : decodeBody w none = none := by
    rw [(decodeBody_short w).1 tag]
    unfold decodeAShort majorOf
    rw [major]
    refine (rfl : _ = ite _ _ _).trans ?_
    rw [zeros 0#10 rfl, zeros 1#10 rfl, zeros 2#10 rfl, zeros 5#10 rfl, isF]
    obtain rfl | rfl | rfl | rfl := code <;> rfl
  rw [decode.eq_def, if_neg first, if_neg short, body]
  simp [xshiOutOfRange, tagOf, tag]

/-- Settles O12: the counts and fields by the lemmas above on each operation's bits. -/
theorem bitsAndFields : Obligations.BitsAndFields := by
  unfold Obligations.BitsAndFields
  refine ⟨fun d a n next x mem => ?_, fun d a b next nonzero f mem => ?_, fun d a im il next => ?_, fun s d a n => ?_,
    fun s d a v len bfx bfi form => ?_⟩
  · simp only [List.mem_cons, List.not_mem_nil, or_false] at mem
    obtain rfl | rfl | rfl | rfl | rfl | rfl := mem
    case inr.inr.inr.inl | inr.inr.inr.inr.inl => exact (decode_of_encode_one rfl rfl).2 next
    all_goals exact (congrArg (decode · next) (append_zeros_append _ _)).trans ((decode_of_encode_one rfl rfl).2 next)
  · simp only [List.mem_cons, List.not_mem_nil, or_false] at mem
    exact decode_unary_undef next nonzero mem
  · exact ⟨(decode_of_encode_one rfl rfl).2 next, (decode_of_encode_one rfl rfl).2 next, (decode_of_encode_two rfl rfl).2,
      (decode_of_encode_two rfl rfl).2⟩
  · obtain ⟨clzLe, clzZeros, clzOne⟩ := clzN_spec 64 (s.bank.readA a.toNat).toNat
    obtain ⟨ctzLe, ctzZeros, ctzOne⟩ := ctzN_spec 64 (s.bank.readA a.toNat).toNat
    refine ⟨⟨_, answersA_of _ _ _ _ _ rfl, clzLe, fun i hi => ?_, fun h => ?_⟩,
      ⟨_, answersA_of _ _ _ _ _ rfl, ctzLe, ctzZeros, ctzOne⟩, answersA_eq rfl ?_,
      ⟨_, answersA_of _ _ _ _ _ rfl, fun i hi => getLsbD_sext _ _ hi⟩,
      ⟨_, answersA_of _ _ _ _ _ rfl, fun i hi => getLsbD_zext _ _ hi⟩,
      ⟨_, answersA_of _ _ _ _ _ rfl, fun i hi => extractLsb'_opBswap _ hi⟩⟩
    · rw [BitVec.getMsbD, BitVec.getLsbD, clzZeros i hi, Bool.and_false]
    · rw [BitVec.getMsbD, BitVec.getLsbD, clzOne h, decide_eq_true h, Bool.and_true]
    · exact congrArg (BitVec.ofNat 64) (popN_eq_length_filter 64 _)
  · obtain ⟨isBfx, isBfi⟩ := exec_bitField form s
    refine ⟨fun fits => ⟨⟨_, answersA_of _ _ _ _ _ (isBfx.trans (bfxOp_ok fits)), fun i _ => getLsbD_bfx _ v fits.2 i⟩,
      ⟨_, answersA_of _ _ _ _ _ (isBfi.trans (bfiOp_ok fits)), fun i hi => getLsbD_bfi _ _ v hi⟩⟩, fun ok out => ⟨?_, ?_⟩⟩
    · exact raised_pcFault _ s .a _ ok (isBfx.trans (bfxOp_refused out))
    · exact raised_pcFault _ s .a _ ok (isBfi.trans (bfiOp_refused out))

/-! ### Load immediate -/

/-- Format W by its fields' places. -/
theorem wordW_eq (major : Nat) (d : BitVec 6) (im : BitVec 16) (high : major < 2 ^ 7) :
    BitVec.ofNat 32 (major * 2 ^ 22 + d.toNat * 2 ^ 16 + im.toNat) = 0#2 ++ 0#1 ++ BitVec.ofNat 7 major ++ d ++ im := by
  have low := im.isLt
  have middle := d.isLt
  obtain ⟨w, hw⟩ : ∃ w : IWord, w = BitVec.ofNat 32 (major * 2 ^ 22 + d.toNat * 2 ^ 16 + im.toNat) := ⟨_, rfl⟩
  have value : w.toNat = major * 2 ^ 22 + d.toNat * 2 ^ 16 + im.toNat := by
    rw [hw, BitVec.toNat_ofNat]
    omega
  have fields : (fld w 0 32).toNat = (0#2 ++ 0#1 ++ BitVec.ofNat 7 major ++ d ++ im).toNat := by
    simp only [toNat_eq_append_iff]
    simp only [fld, BitVec.extractLsb'_toNat, BitVec.toNat_ofNat, Nat.shiftRight_eq_div_pow, value]
    omega
  rw [← hw]
  exact ((eq_word_iff _ w).mpr fields).symm

/-- Settles O14: the words are the encodings, and each instruction is the answer that R99 writes. -/
theorem loadImmediate : Obligations.LoadImmediate := by
  unfold Obligations.LoadImmediate
  refine ⟨fun d im next => ⟨?_, ?_⟩, fun s d im => ⟨answersA_of _ _ _ _ _ rfl, answersA_of _ _ _ _ _ rfl⟩,
    (decode_of_encode_one rfl rfl).2 none, (decode_of_encode_one rfl rfl).2 none, (decode_of_encode_one rfl rfl).2 none, by decide⟩
  · rw [wordW_eq 0x13 d im (by decide)]
    exact (decode_of_encode_one rfl rfl).2 next
  · rw [wordW_eq 0x14 d im (by decide)]
    exact (decode_of_encode_one rfl rfl).2 next

end Sys2Proof.Machine
end

section
/-! PROOFS. Atomics and compare-and-swap (R113, R114). -/

namespace Sys2Proof.Machine

open Sys2Proof

/-- What a store at resolved parts leaves, when its instruction has written one a register and retired. -/
theorem storedA_setA {s : State} (len : Nat) (d : BitVec 6) (v : Word) (ps : List RowPart) (bs : List Byte) (hm : s.mem.wf = true) :
    StoredA s ((s.putParts ps bs).setA len d.toNat v) len ps bs ∧ SameRegsBut s ((s.putParts ps bs).setA len d.toNat v) d.toNat ∧
      ((s.putParts ps bs).setA len d.toNat v).bank.readA d.toNat = if d.toNat = 0 then 0#64 else v := by
  obtain ⟨bad, hput⟩ := putParts_eq ps s bs
  rw [hput]
  obtain ⟨dest, ⟨a, lc, sd, xf⟩, ⟨q, sync, eng⟩, ⟨⟨sys, wa, wx, wmaxx⟩, wmaxa, ctl⟩, device, -⟩ :=
    wroteA_setA { s with mem := storedBytes s.mem ps bs, dev := { s.dev with poisoned := bad } } len d v
  exact ⟨⟨rfl, fun k hk => memGet_storedBytes_outside ps k s.mem bs hm hk, ⟨⟨sys, wa, wx, wmaxx⟩, wmaxa, ctl⟩, ⟨q, sync, eng⟩,
    bad, device⟩, ⟨a, lc, sd, xf⟩, dest⟩

/-- The operations of R113 by their codes. -/
theorem amoFn_eq (op : BitVec 2) (old v : Word) : amoFn op old v =
    if op = 0#2 then old + v else if op = 1#2 then old &&& v else if op = 2#2 then old ||| v
      else if old.toNat < v.toNat then v else old := by
  have codes : op = 0#2 ∨ op = 1#2 ∨ op = 2#2 ∨ op = 3#2 := by revert op; decide
  obtain rfl | rfl | rfl | rfl := codes
  · rfl
  · rfl
  · rfl
  · simp [amoFn, BitVec.ult_iff_toNat_lt]

section

variable {s : State} {sp : Space} {len : Nat} {t : BitVec 6} {ea : Word} {ps : List RowPart}

theorem amoOp_ok {op : BitVec 2} (al : ea.toNat % 8 = 0) (h : s.resolve sp (Access.atomic s.level) ea 8 = .ok ps)
    (hc : s.clean ps) (hp : s.storePoison ps = none) :
    let old : Word := BitVec.ofNat 64 (natOfBytes (s.peekParts ps))
    amoOp sp len t op ea s = .next
      ((s.putParts ps (bytesOfWord64 (amoFn op old (s.bank.readA t.toNat)) 8)).setA len t.toNat old) := by
  simp only [amoOp, aligned, al, beq_self_eq_true, if_true, h, bind, Except.bind, readParts_clean s ps hc, State.writeParts, hp]
  rfl

theorem amoOp_align {op : BitVec 2} (al : ea.toNat % 8 ≠ 0) : amoOp sp len t op ea s = .next (s.raise .a .align ea) :=
  if_neg (by simpa [aligned] using al)

variable {sz : BitVec 2}

/-- Compare-and-swap of an operand that is taken: the store is made where the old value equals a[t]. -/
theorem casOp_ok (taken : 2 ≤ sz.toNat ∧ t.toNat % 2 = 0) (al : ea.toNat % 2 ^ sz.toNat = 0)
    (h : s.resolve sp (Access.atomic s.level) ea (2 ^ sz.toNat) = .ok ps) (hc : s.clean ps) (hp : s.storePoison ps = none) :
    casOp sp len t sz ea s = .next
      (State.setA (if natOfBytes (s.peekParts ps) = (s.bank.readA t.toNat).toNat % 2 ^ (8 * 2 ^ sz.toNat) then
          s.putParts ps (bytesOfWord64 (s.bank.readA (t.toNat + 1)) (2 ^ sz.toNat)) else s)
        len t.toNat (BitVec.ofNat 64 (natOfBytes (s.peekParts ps)))) := by
  have legal : ¬ (sz.toNat < 2 ∨ t.toNat % 2 = 1) := by omega
  simp only [casOp, sizeBytes, if_neg legal, aligned, al, beq_self_eq_true, if_true, h, readParts_clean s ps hc, State.writeParts,
    hp, bind, Except.bind]
  by_cases same : natOfBytes (s.peekParts ps) = (s.bank.readA t.toNat).toNat % 2 ^ (8 * 2 ^ sz.toNat)
  · simp only [if_pos same]
    rfl
  · simp only [if_neg same]
    rfl

theorem casOp_align (taken : 2 ≤ sz.toNat ∧ t.toNat % 2 = 0) (al : ea.toNat % 2 ^ sz.toNat ≠ 0) :
    casOp sp len t sz ea s = .next (s.raise .a .align ea) := by
  have legal : ¬ (sz.toNat < 2 ∨ t.toNat % 2 = 1) := by omega
  exact (if_neg legal).trans (if_neg (by simpa [aligned, sizeBytes] using al))

end

theorem orderOk_all_of {sc : BitVec 3} (od : BitVec 2) (h : sc.toNat < 5) : orderOk .all sc od = true := by
  simp [orderOk, h]

/-- Every AMO is the fetch-and-op that its form names, and perhaps a gang transfer. -/
theorem exec_amo {s : State} {i : Instr} {f : MemForm} {op : BitVec 2} (h : amoForm s.bank i = some (f, op)) :
    ∃ gang, exec i s = gangAfter gang s (amoOp f.sp f.len f.reg op f.ea s) := by
  unfold amoForm at h
  split at h
  case h_1 | h_3 => cases h; exact ⟨false, (gangAfter_false _ _).symm⟩
  case h_2 | h_4 =>
    rw [Option.map_eq_some_iff] at h
    obtain ⟨g, form, ⟨⟩⟩ := h
    obtain ⟨⟨hs, -⟩, rfl⟩ := longForm_eq form
    exact ⟨_, ordered_ok s _ (orderOk_all_of _ hs)⟩
  case h_5 => cases h

/-- Every CAS whose operand is taken is the compare-and-swap that its form names, and perhaps a gang transfer. -/
theorem exec_cas {s : State} {i : Instr} {f : MemForm} (h : casForm s.bank i = some f) :
    ∃ gang sz, exec i s = gangAfter gang s (casOp f.sp f.len f.reg sz f.ea s) ∧ f.n = 2 ^ sz.toNat ∧
      2 ≤ sz.toNat ∧ f.reg.toNat % 2 = 0 := by
  unfold casForm at h
  extract_lets ok at h
  split at h
  case h_1 t a sz o | h_3 t a sz o =>
    simp only [ok] at h
    split at h
    next taken => cases h; exact ⟨false, sz, (gangAfter_false _ _).symm, rfl, taken⟩
    · cases h
  case h_2 t a sz sc od off | h_4 t a sz sc od off =>
    simp only [ok] at h
    split at h
    next taken =>
      obtain ⟨⟨hs, -⟩, rfl⟩ := longForm_eq h
      exact ⟨_, sz, ordered_ok s _ (orderOk_all_of _ hs), rfl, taken⟩
    · cases h
  case h_5 => cases h

/-- A fault of an instruction that a gang transfer in reach may follow. -/
theorem raised_gangAfter {i : Instr} {s : State} {gang : Bool} {r : Result} {c : Cause} {g : Word} (he : exec i s = gangAfter gang s r)
    (hr : r = .next (s.raise .a c g)) (ok : s.faultless) (reach : s.unreachable s.ctxNo = none) :
    ∃ t, exec i s = .next t ∧ Raised s t 0 c g := by
  refine ⟨_, ?_, raised_raise s .a c g ok⟩
  rw [he, hr]
  exact gangAfter_reachable _ _ _ ((unreachable_raise _ _ _ _ ok).trans reach)

/-- Settles O20: each form is one fetch-and-op or compare-and-swap at its effective address; what a store leaves is
`storedA_setA`, and what a CAS that stores nothing leaves is `wroteA_setA`. -/
theorem atomics : Obligations.Atomics := by
  unfold Obligations.Atomics
  intro s i f hm reach
  refine ⟨fun op ps form al hr hc hp => ?_, fun ps form al hr hc hp => ?_, fun ok => ⟨fun op form al => ?_, fun form al => ?_⟩⟩
  · obtain ⟨gang, he⟩ := exec_amo form
    obtain ⟨stored, regs, dest⟩ := storedA_setA f.len f.reg (BitVec.ofNat 64 (natOfBytes (s.peekParts ps))) ps
      (bytesOfWord64 (amoFn op (BitVec.ofNat 64 (natOfBytes (s.peekParts ps))) (s.bank.readA f.reg.toNat)) 8) hm
    refine ⟨_, ?_, ?_, regs, dest⟩
    · rw [he, amoOp_ok al hr hc hp]
      exact gangAfter_reachable _ _ _ ((unreachable_stored stored).trans reach)
    · rw [← amoFn_eq]
      exact stored
  · obtain ⟨gang, sz, he, width, taken⟩ := exec_cas form
    rw [width] at al hr ⊢
    intro old
    by_cases same : old = (s.bank.readA f.reg.toNat).toNat % 2 ^ (8 * 2 ^ sz.toNat)
    · obtain ⟨stored, regs, dest⟩ := storedA_setA f.len f.reg (BitVec.ofNat 64 old) ps
        (bytesOfWord64 (s.bank.readA (f.reg.toNat + 1)) (2 ^ sz.toNat)) hm
      refine ⟨_, ?_, regs, dest, by rw [if_pos same]; exact stored⟩
      rw [he, casOp_ok taken al hr hc hp, if_pos same]
      exact gangAfter_reachable _ _ _ ((unreachable_stored stored).trans reach)
    · obtain ⟨dest, regs, -, retired, rest⟩ := wroteA_setA s f.len f.reg (BitVec.ofNat 64 old)
      refine ⟨_, ?_, regs, dest, by rw [if_neg same]; exact ⟨retired, rest⟩⟩
      rw [he, casOp_ok taken al hr hc hp, if_neg same]
      exact gangAfter_reachable _ _ _ ((unreachable_setA _ _ _ _).trans reach)
  · obtain ⟨gang, he⟩ := exec_amo form
    exact raised_gangAfter he (amoOp_align al) ok reach
  · obtain ⟨gang, sz, he, width, taken⟩ := exec_cas form
    rw [width] at al
    exact raised_gangAfter he (casOp_align taken al) ok reach

end Sys2Proof.Machine
end

section
/-! PROOFS. FENCE at GANG scope (R237, R360). -/

namespace Sys2Proof.Machine

open Sys2Proof

/-- An engine fault of the moving shard that stands among the cell's second faults is not raised again (R397). -/
theorem raiseEngineIn_known {s : State} {f : FaultInfo} (shard : s.bank.shardOf s.ctxNo = true)
    (known : s.bank.ctl.second.contains f = true) : s.raiseEngineIn .active s.ctxNo s.cellNo f = s := by
  have running : s.bank.ctl.status ≠ .handler := by
    have both := shard
    rw [Bank.shardOf, Bool.and_eq_true, bne_iff_ne] at both
    exact both.2
  have place : s.bankPlace s.ctxNo s.cellNo = .active := by
    rw [State.bankPlace, cellAt_cellNo]
    exact if_pos shard
  have held : s.bankIn .active s.ctxNo s.cellNo = some s.bank := by
    rw [State.bankIn, cellAt_cellNo]
    rfl
  simp only [State.raiseEngineIn, held, if_neg running, State.raiseEngine, State.bankOf, place, known, or_true, if_true]

theorem gangTransfer_known {s : State} {d : Nat} {code : Word} (out : s.unreachable s.ctxNo = some d)
    (shard : s.bank.shardOf s.ctxNo = true)
    (known : s.bank.ctl.second.contains ⟨2, .link, BitVec.ofNat 64 d, 2, code, none⟩ = true) : s.gangTransfer code = s := by
  simp only [State.gangTransfer, out]
  exact raiseEngineIn_known shard known

theorem retire_ctxNo (s : State) (n : Nat) : (s.retire .a n).ctxNo = s.ctxNo := by
  simp [State.ctxNo, Bank.retire, Bank.advance, Bank.setPc, Bank.setW, Bank.countSeq]

theorem unreachable_retire (s : State) (n : Nat) :
    (s.retire .a n).unreachable (s.retire .a n).ctxNo = s.unreachable s.ctxNo :=
  unreachable_congr (retire_ctxNo s n) rfl rfl rfl rfl

/-- A FENCE at GANG scope whose LINK fault already stands among the cell's second faults retires and raises nothing. -/
theorem execFence_known {s : State} {d : Nat} (k : BitVec 2) (out : s.unreachable s.ctxNo = some d)
    (shard : s.bank.shardOf s.ctxNo = true)
    (known : s.bank.ctl.second.contains ⟨2, .link, BitVec.ofNat 64 d, 2, s.bank.sr.seqa, none⟩ = true) :
    ∃ u, exec (.fence 4#3 k 0#1) s = .next u ∧ u.bank.ctl.fault = s.bank.ctl.fault := by
  have same : (s.retire .a 1).gangTransfer s.bank.sr.seqa = s.retire .a 1 := by
    have ctl : (s.retire .a 1).bank.ctl = s.bank.ctl.overA := (retiredA_retire s s.bank 1 rfl rfl rfl).ctl
    refine gangTransfer_known ((unreachable_retire s 1).trans out) ?_ ?_
    · rw [retire_ctxNo, Bank.shardOf, ctl]
      exact shard
    · rw [ctl]
      exact known
  refine ⟨s.retire .a 1, (rfl : _ = gangAfter true s (.next (s.retire .a 1))).trans ?_, by simp [Control.moved]⟩
  simp only [gangAfter, same, ite_self]

/-- A running shard of a gang context whose gang has a device 1 that no route reaches, on a cell where the LINK fault of this very
transfer already stands among the second faults while no first one is recorded. -/
def linkAwaits : State :=
  let s := (State.reset.setCtx 0 { Ctx.reset with state := .active, gang := true }).setBank
    (Bank.reset.mapCtl fun c => { c with owner := some 0, status := .running, second := [⟨2, .link, 1, 2, 0, none⟩] })
  { s with dev := { s.dev with gangSize := 2 } }

/-- Refutes O22: `raiseEngine` takes a fault that stands among the cell's second faults as raised already, so that in `linkAwaits`
the FENCE at GANG scope retires and no fault is recorded.  The statement lacks the premise that no such fault waits there. -/
theorem not_fencesAndPrefetch : ¬ Obligations.FencesAndPrefetch := by
  unfold Obligations.FencesAndPrefetch
  intro h
  have out : linkAwaits.unreachable linkAwaits.ctxNo = some 1 := by decide +kernel
  have shard : linkAwaits.bank.shardOf linkAwaits.ctxNo = true := by decide +kernel
  have known : linkAwaits.bank.ctl.second.contains ⟨2, .link, BitVec.ofNat 64 1, 2, linkAwaits.bank.sr.seqa, none⟩ = true := by
    decide +kernel
  have none : linkAwaits.bank.ctl.fault = .none := by decide +kernel
  have active : (linkAwaits.ctxAt linkAwaits.ctxNo).state = .active := by decide +kernel
  obtain ⟨gang, -⟩ := h linkAwaits
  obtain ⟨t, step, fault, -⟩ := (gang 1 out none shard active).1 0#2
  obtain ⟨u, retires, same⟩ := execFence_known 0#2 out shard known
  have unique : t = u := Host.Outcome.next.inj (step.symm.trans retires)
  rw [unique, same, none] at fault
  cases fault

end Sys2Proof.Machine
end

section
/-! PROOFS. Stream descriptors, versioned loads and nest levels (R101, R109, R192, R193, R200). -/

namespace Sys2Proof.Machine

open Sys2Proof

/-! ### SDSET and SDGET -/

theorem eaSd_eq (b : Bank) (a : BitVec 6) (im : BitVec 10) : b.eaSd a im = b.readA a.toNat + im.signExtend 64 * 32 := by
  rw [Bank.eaSd, BitVec.shiftLeft_eq_mul_twoPow]
  rfl

theorem execSdset_ok {s : State} {d a : BitVec 6} {im : BitVec 10} {ps : List RowPart} (low : d.toNat < 16)
    (al : (s.bank.eaSd a im).toNat % 32 = 0) (h : s.resolve .s (Access.load s.level) (s.bank.eaSd a im) 32 = .ok ps)
    (hc : s.clean ps) : exec (.sdset d a im) s = .next ((s.setBank
      (s.bank.writeSd d.toNat (BitVec.ofNat 256 (natOfBytes (s.peekParts ps))))).retire .a 1) := by
  have read : s.rd .s false (s.bank.eaSd a im) 32 = .ok (s.peekParts ps) := by
    simp only [State.rd]
    rw [show ({ Access.load s.level with annotated := false } : Access) = Access.load s.level from rfl, h]
    exact readParts_clean s ps hc
  show execSdset d a im s = _
  simp only [execSdset, low, aligned, al, beq_self_eq_true, if_true, read]
  rfl

theorem execSdget_ok {s : State} {d a : BitVec 6} {im : BitVec 10} {ps : List RowPart} (low : d.toNat < 16)
    (al : (s.bank.eaSd a im).toNat % 32 = 0) (h : s.resolve .s (Access.store s.level) (s.bank.eaSd a im) 32 = .ok ps)
    (hp : s.storePoison ps = none) : exec (.sdget d a im) s = .next
      ((s.putParts ps (bytesOfNat 32 (s.bank.readSd d.toNat).toNat)).retire .a 1) := by
  have written : s.wr .s false (s.bank.eaSd a im) (bytesOfNat 32 (s.bank.readSd d.toNat).toNat) =
      .ok (s.putParts ps (bytesOfNat 32 (s.bank.readSd d.toNat).toNat)) := by
    simp only [State.wr, length_bytesOfNat]
    rw [show ({ Access.store s.level with annotated := false } : Access) = Access.store s.level from rfl, h]
    simp only [State.writeParts, hp]
  show execSdget d a im s = _
  simp only [execSdget, low, aligned, al, beq_self_eq_true, if_true, written]
  rfl

/-- SDSET and SDGET refuse a code above 15, and then an address that is not a multiple of 32. -/
theorem exec_sd_refused {s : State} {d a : BitVec 6} {im : BitVec 10} {i : Instr} (form : i = .sdset d a im ∨ i = .sdget d a im) :
    (16 ≤ d.toNat → exec i s = s.pcFault .a .operandIllegal) ∧
    (d.toNat < 16 → (s.bank.eaSd a im).toNat % 32 ≠ 0 → exec i s = .next (s.raise .a .align (s.bank.eaSd a im))) := by
  have refused : (s.bank.eaSd a im).toNat % 32 ≠ 0 → ¬ aligned (s.bank.eaSd a im) 32 = true := by simp [aligned]
  obtain rfl | rfl := form
  all_goals exact ⟨fun high => if_neg (Nat.not_lt.mpr high), fun low al => (if_pos low).trans (if_neg (refused al))⟩

/-! ### LDGV -/

theorem unreachable_stall (s : State) (st : Stream) : (s.stall st).unreachable (s.stall st).ctxNo = s.unreachable s.ctxNo :=
  unreachable_congr (by simp only [State.ctxNo, (waits_stall s st).sys]) rfl rfl rfl rfl

section

variable {s : State} {t : BitVec 6} {len n : Nat} {ea : Word} {acq : Bool} {d : Desc}

/-- LDGV whose a[t] has bits above the tensor index. -/
theorem ldgvOp_format (h : (s.bank.readA t.toNat).toNat / 2 ^ 48 ≠ 0) :
    ldgvOp len t ea n acq s = .next (s.raise .a .operandFormat 0) := by
  have format : field (s.bank.readA t.toNat) 48 16 ≠ 0 := by
    have word := (s.bank.readA t.toNat).isLt
    rw [field, BitVec.extractLsb'_toNat, Nat.shiftRight_eq_div_pow]
    omega
  simp only [ldgvOp, if_pos format]
  rfl

/-- LDGV whose a[t] names a tensor that it may use: the index and the version by their places. -/
theorem ldgvOp_named (h : (s.bank.readA t.toNat).toNat / 2 ^ 48 = 0)
    (used : s.useDesc ((s.bank.readA t.toNat).toNat / 2 ^ 32 % 65536) .any true = .ok d) :
    ldgvOp len t ea n acq s = finish s .a (if (s.bank.readA t.toNat).toNat % 2 ^ 32 ≤ d.version then
      (s.rd .g acq ea n).bind fun bs => .ok (s.setA len t.toNat (wordOfNat (natOfBytes bs))) else .error .wait) := by
  have format : field (s.bank.readA t.toNat) 48 16 = 0 := by
    rw [field, BitVec.extractLsb'_toNat, Nat.shiftRight_eq_div_pow, h]
  have index : field (s.bank.readA t.toNat) 32 16 = (s.bank.readA t.toNat).toNat / 2 ^ 32 % 65536 := by
    rw [field, BitVec.extractLsb'_toNat, Nat.shiftRight_eq_div_pow]
  have version : field (s.bank.readA t.toNat) 0 32 = (s.bank.readA t.toNat).toNat % 2 ^ 32 := by
    rw [field, BitVec.extractLsb'_toNat, Nat.shiftRight_zero]
  have otherwise : ¬ (field (s.bank.readA t.toNat) 48 16 ≠ 0) := not_not.mpr format
  simp only [ldgvOp, if_neg otherwise, index, version, used]
  rfl

end

/-- Both forms of LDGV are the versioned load at its effective address, and perhaps a gang transfer. -/
theorem exec_ldgv {s : State} {i : Instr} {t : BitVec 6} {len n : Nat} {ea : Word} {marked : Bool}
    (form : (∃ b sz o, i = .ldgv t b sz o ∧ len = 1 ∧ n = 2 ^ sz.toNat ∧
        ea = s.bank.readA b.toNat + BitVec.ofNat 64 (o.toNat * n) ∧ marked = false) ∨
      (∃ b sz sc od off, i = .ldgvL t b sz sc od off ∧ sc.toNat < 5 ∧ (od = 0#2 ∨ od = 1#2) ∧ len = 2 ∧ n = 2 ^ sz.toNat ∧
        ea = s.bank.readA b.toNat + off.signExtend 64 ∧ marked = (od != 0#2))) :
    ∃ gang, exec i s = gangAfter gang s (ldgvOp len t ea n marked s) := by
  obtain ⟨b, sz, o, rfl, rfl, rfl, rfl, rfl⟩ | ⟨b, sz, sc, od, off, rfl, scope, order, rfl, rfl, rfl, rfl⟩ := form
  · exact ⟨false, (gangAfter_false _ _).symm⟩
  · exact ⟨_, if_pos (by simp [orderOk, scope, order])⟩

/-! ### NSET -/

/-- Both immediate forms of NSET, and the lc form, write a level of the inactive half. -/
theorem exec_nset {i : Instr} {l : BitVec 3} {a : BitVec 6} {len : Nat} {lc : Option Nat} {trip : Nat}
    (form : (∃ n : BitVec 8, i = .nset l n a ∧ len = 1 ∧ lc = none ∧ trip = n.toNat) ∨
      (∃ c : BitVec 8, i = .nsetLc l c a ∧ len = 1 ∧ lc = some c.toNat ∧ trip = 0) ∨
      (∃ n : BitVec 30, i = .nsetL l a n ∧ len = 2 ∧ lc = none ∧ trip = n.toNat)) (s : State) :
    exec i s = nsetOp len l lc trip a s := by
  obtain ⟨n, rfl, rfl, rfl, rfl⟩ | ⟨n, rfl, rfl, rfl, rfl⟩ | ⟨n, rfl, rfl, rfl, rfl⟩ := form <;> rfl

/-- A level written in one half of the nest table is read there and nowhere else. -/
theorem vget_setLevel (b : Bank) (l : Nat) (v : NestLevel) (g : Fin 2) (m : Nat) (low : l < 6) :
    vget (b.setLevel l v).eng.nests[g] m .reset =
      if g = otherHalf b.eng.activeHalf ∧ m = l then v else vget b.eng.nests[g] m .reset := by
  have half : (b.setLevel l v).eng.nests[g] =
      if g = otherHalf b.eng.activeHalf then vset b.eng.nests[g] l v else b.eng.nests[g] := by
    by_cases same : g = otherHalf b.eng.activeHalf
    · subst same
      simp [Bank.setLevel, vset]
    · have apart : ¬ (otherHalf b.eng.activeHalf : Nat) = g := fun e => same (Fin.ext e.symm)
      simp [Bank.setLevel, vset, apart, same]
  rw [half]
  by_cases same : g = otherHalf b.eng.activeHalf
  · rw [if_pos same]
    by_cases level : m = l
    · rw [if_pos ⟨same, level⟩, level, vget_vset_eq _ _ _ _ low]
    · rw [if_neg fun both => level both.2, vget_vset_ne _ _ _ _ _ (Ne.symm level)]
  · rw [if_neg same, if_neg fun both => same both.1]

theorem levelOf_eq (lc : Option Nat) (trip : Nat) (v : Word) : levelOf lc trip v =
    ⟨lc, trip, (v.extractLsb' 0 24).toInt, (v.extractLsb' 24 24).toInt, (v.extractLsb' 48 16).toInt⟩ := by
  rw [levelOf, sextNat_field, sextNat_field, sextNat_field]

/-- A change of the moving bank that leaves its system registers, walk counts and control retires as any other. -/
theorem retiredA_setBank (s : State) (b : Bank) (n : Nat) (hsr : b.sr = s.bank.sr) (hw : b.walk = s.bank.walk)
    (hc : b.ctl = s.bank.ctl) : RetiredA s ((s.setBank b).retire .a n) n ∧ SameDevice s ((s.setBank b).retire .a n) := by
  rw [State.retire, setBank_bank, setBank_setBank]
  exact ⟨retiredA_retire s b n hsr hw hc, sameDevice_setBank s _⟩

/-- Settles O24: SDSET and LDGV by the bytes that they read, SDGET by `storedA_putParts`, NSET by `vget_setLevel`. -/
theorem descriptors : Obligations.Descriptors := by
  unfold Obligations.Descriptors
  refine ⟨fun s d a im => ?_, fun s i t len ea n marked form reach => ?_, fun s i l a len lc trip form => ?_⟩
  · rw [← eaSd_eq]
    refine ⟨fun low al ps hr hc => ?_, fun hm low al ps hr hp => ?_, fun ok i mem => ?_⟩
    · obtain ⟨retired, device⟩ := retiredA_setBank s
        (s.bank.writeSd d.toNat (BitVec.ofNat 256 (natOfBytes (s.peekParts ps)))) 1 rfl rfl rfl
      refine ⟨_, execSdset_ok low al hr hc, ?_, fun r other => ?_, ?_, ?_, ?_, ⟨?_, ?_, ?_⟩, retired, device⟩
      · simp [Bank.readSd, Bank.writeSd, vget_vset_eq _ _ _ _ low]
      · simp [Bank.readSd, Bank.writeSd, vget_vset_ne _ _ _ _ _ (Ne.symm other)]
      all_goals simp [Bank.writeSd]
    · obtain ⟨stored, same⟩ := storedA_putParts 1 ps (bytesOfNat 32 (s.bank.readSd d.toNat).toNat) hm
      exact ⟨_, execSdget_ok low al hr hp, same, stored⟩
    · simp only [List.mem_cons, List.not_mem_nil, or_false] at mem
      obtain ⟨high, align⟩ := exec_sd_refused (s := s) mem
      exact ⟨fun h => raised_pcFault i s .a _ ok (high h), fun low al => ⟨_, align low al, raised_raise s .a _ _ ok⟩⟩
  · obtain ⟨gang, he⟩ := exec_ldgv form
    refine ⟨fun ok format => raised_gangAfter he (ldgvOp_format format) ok reach, fun format d used => ⟨fun early => ?_,
      fun reached ps hr hc => ?_⟩⟩
    · refine ⟨s.stall .a, ?_, waits_stall s .a⟩
      rw [he, ldgvOp_named format used, if_neg (Nat.not_le.mpr early)]
      exact gangAfter_reachable _ _ _ ((unreachable_stall s .a).trans reach)
    · refine answersA_of i s len t _ ?_
      rw [he, ldgvOp_named format used, if_pos reached, State.rd, hr]
      simp only [readParts_clean s ps hc]
      exact gangAfter_reachable _ _ _ ((unreachable_setA _ _ _ _).trans reach)
  · rw [exec_nset form s]
    refine ⟨fun low code => ?_, fun ok high => ⟨_, if_neg (by omega), raised_raise s .a _ _ ok⟩⟩
    obtain ⟨retired, device⟩ := retiredA_setBank s
      (s.bank.setLevel l.toNat (levelOf lc trip (s.bank.readA a.toNat))) len rfl rfl rfl
    refine ⟨_, if_pos ⟨low, code⟩, ?_, fun g m other => ?_, ?_, ⟨?_, ?_⟩, ?_, ?_, retired, device⟩
    · rw [retire_bank, bankRetire_eng, setBank_bank, ← levelOf_eq]
      exact (vget_setLevel _ _ _ _ _ low).trans (if_pos ⟨rfl, rfl⟩)
    · rw [retire_bank, bankRetire_eng, setBank_bank]
      exact (vget_setLevel _ _ _ _ _ low).trans (if_neg fun both => other.elim (· both.1) (· both.2))
    all_goals simp [Bank.setLevel]

end Sys2Proof.Machine
end

section
/-! PROOFS. Admission of GRAPH packets (R138, R273, R274, R276). -/

namespace Sys2Proof.Machine

open Sys2Proof

/-! ### Bytes of an image -/

theorem getElem?_overlay {bs v : List Byte} {o : Nat} (inside : o + v.length ≤ bs.length) (k : Nat) :
    (overlay bs o v)[k]? = if o ≤ k ∧ k < o + v.length then v[k - o]? else bs[k]? := by
  have front : (bs.take o).length = o := List.length_take_of_le (by omega)
  rw [overlay, List.append_assoc]
  by_cases before : k < o
  · rw [List.getElem?_append_left (by omega), List.getElem?_take_of_lt before, if_neg (by omega)]
  · rw [List.getElem?_append_right (by omega), front]
    by_cases within : k < o + v.length
    · rw [List.getElem?_append_left (by omega), if_pos (by omega)]
    · rw [List.getElem?_append_right (by omega), List.getElem?_drop, if_neg (by omega)]
      congr 1
      omega

theorem length_overlay (bs v : List Byte) (o : Nat) :
    (overlay bs o v).length = min o bs.length + v.length + (bs.length - (o + v.length)) := by
  simp only [overlay, List.length_append, List.length_take, List.length_drop]

theorem getElem?_bytesOfNat {n i : Nat} (v : Nat) (h : i < n) : (bytesOfNat n v)[i]? = some (BitVec.ofNat 8 (v / 256 ^ i)) := by
  rw [List.getElem?_eq_getElem (by rwa [length_bytesOfNat]), getElem_bytesOfNat, Nat.shiftRight_eq_div_pow, pow_mul]
  rfl

theorem length_flatMap_bytesOfNat (n : Nat) (l : List Nat) : (l.flatMap (bytesOfNat n)).length = n * l.length := by
  induction l with
  | nil => rfl
  | cons v l ih => rw [List.flatMap_cons, List.length_append, length_bytesOfNat, ih, List.length_cons, Nat.mul_succ, Nat.add_comm]

/-- The bytes of a list of numbers, `n` of each, and zeros behind them. -/
theorem getElem?_flatMap_bytesOfNat {n : Nat} (pos : 0 < n) (l : List Nat) : ∀ {m k : Nat}, k < n * l.length + m →
    (l.flatMap (bytesOfNat n) ++ List.replicate m 0#8)[k]? = some (BitVec.ofNat 8 (l.getD (k / n) 0 / 256 ^ (k % n))) := by
  induction l with
  | nil =>
    intro m k h
    rw [List.length_nil, Nat.mul_zero, Nat.zero_add] at h
    rw [List.flatMap_nil, List.nil_append, List.getElem?_replicate_of_lt h, List.getD_nil, Nat.zero_div]
  | cons v l ih =>
    intro m k h
    rw [List.flatMap_cons, List.append_assoc]
    by_cases first : k < n
    · rw [List.getElem?_append_left (by rwa [length_bytesOfNat]), getElem?_bytesOfNat v first, Nat.div_eq_of_lt first,
        Nat.mod_eq_of_lt first, List.getD_cons_zero]
    · obtain ⟨i, rfl⟩ := Nat.exists_eq_add_of_le (Nat.not_lt.mp first)
      rw [List.length_cons, Nat.mul_succ] at h
      rw [List.getElem?_append_right (by rw [length_bytesOfNat]; omega), length_bytesOfNat, Nat.add_sub_cancel_left, ih (by omega),
        Nat.add_div_left _ pos, Nat.add_mod_left, List.getD_cons_succ]

/-! ### The TCB of a local task (R273, R274) -/

theorem statewBytes_state (state : Nat) : statewBytes state 0 0 false = bytesOfNat 8 state := rfl

/-- The inline successors of a TCB, and zeros behind them. -/
def inlineSucc (succ : List Nat) : List Byte :=
  (succ.take 8).flatMap (bytesOfNat 4) ++ List.replicate (32 - ((succ.take 8).flatMap (bytesOfNat 4)).length) 0#8

theorem length_inlineSucc (succ : List Nat) : (inlineSucc succ).length = 32 := by
  rw [inlineSucc, List.length_append, List.length_replicate, length_flatMap_bytesOfNat, List.length_take]
  omega

theorem getElem?_inlineSucc (succ : List Nat) {k : Nat} (h : k < 32) :
    (inlineSucc succ)[k]? = some (BitVec.ofNat 8 (succ.getD (k / 4) 0 / 256 ^ (k % 4))) := by
  have early : k / 4 < 8 := by omega
  rw [inlineSucc, getElem?_flatMap_bytesOfNat (by omega) _ (by rw [length_flatMap_bytesOfNat]; omega), List.getD_eq_getElem?_getD,
    List.getElem?_take_of_lt early, ← List.getD_eq_getElem?_getD]

/-- The parts that admission writes over an image. -/
def overTcb (img : List Byte) (graphNo pred : Nat) (succ : List Nat) : List Byte :=
  overlay (overlay (overlay (overlay (overlay img 0 (bytesOfNat 8 (if pred = 0 then 1 else 2))) 8 (bytesOfNat 4 pred))
    0x22 (bytesOfNat 2 succ.length)) 0x48 (inlineSucc succ)) 0x70 (bytesOfNat 4 graphNo)

theorem admittedTcb_eq {g : GraphIn} {j : Nat} {img : List Byte} (image : g.images[j]? = some img) :
    admittedTcb g j = overTcb img g.graphNo (tcbPred img + (g.edges.filter (·.2 == j)).length)
      ((g.edges.filter (·.1 == j)).map fun e => g.tcb0 + e.2) := by
  have own : g.images.getD j [] = img := by rw [List.getD_eq_getElem?_getD, image, Option.getD_some]
  rw [admittedTcb, own]
  rfl

theorem getElem?_overTcb {img : List Byte} (size : img.length = 128) (graphNo pred : Nat) (succ : List Nat) (k : Nat) :
    (overTcb img graphNo pred succ)[k]? =
      if 0x70 ≤ k ∧ k < 0x74 then (bytesOfNat 4 graphNo)[k - 0x70]?
      else if 0x48 ≤ k ∧ k < 0x68 then (inlineSucc succ)[k - 0x48]?
      else if 0x22 ≤ k ∧ k < 0x24 then (bytesOfNat 2 succ.length)[k - 0x22]?
      else if 8 ≤ k ∧ k < 12 then (bytesOfNat 4 pred)[k - 8]?
      else if k < 8 then (bytesOfNat 8 (if pred = 0 then 1 else 2))[k]?
      else img[k]? := by
  simp [overTcb, getElem?_overlay, length_overlay, length_inlineSucc, size]

/-- STATE of an admitted TCB is CREATED or WAITING, and the rest of STATEW is clear. -/
theorem getElem?_statew {k : Nat} (h : k < 8) (pred : Nat) : (bytesOfNat 8 (if pred = 0 then 1 else 2))[k]? =
    some (if k = 0 then (if pred = 0 then 1#8 else 2#8) else 0#8) := by
  by_cases ready : pred = 0 <;> simp only [ready, if_true, if_false] <;> interval_cases k <;> rfl

theorem admittedTcb_bytes {g : GraphIn} {j k : Nat} {img : List Byte} (image : g.images[j]? = some img) (size : img.length = 128) :
    let succ := (g.edges.filter (·.1 == j)).map fun e => g.tcb0 + e.2
    let pred := tcbPred img + (g.edges.filter (·.2 == j)).length
    (admittedTcb g j)[k]? =
      if k = 0 then some (if pred = 0 then 1#8 else 2#8)
      else if k < 8 then some 0#8
      else if k < 12 then some (BitVec.ofNat 8 (pred / 256 ^ (k - 8)))
      else if k = 0x22 ∨ k = 0x23 then some (BitVec.ofNat 8 (succ.length / 256 ^ (k - 0x22)))
      else if 0x48 ≤ k ∧ k < 0x68 then some (BitVec.ofNat 8 (succ.getD ((k - 0x48) / 4) 0 / 256 ^ ((k - 0x48) % 4)))
      else if 0x70 ≤ k ∧ k < 0x74 then some (BitVec.ofNat 8 (g.graphNo / 256 ^ (k - 0x70)))
      else img[k]? := by
  intro succ pred
  rw [admittedTcb_eq image, getElem?_overTcb size]
  by_cases statew : k < 8
  · rw [if_neg (by omega), if_neg (by omega), if_neg (by omega), if_neg (by omega), if_pos statew, getElem?_statew statew]
    by_cases first : k = 0
    · rw [if_pos first, if_pos first]
    · rw [if_neg first, if_neg first, if_pos statew]
  rw [if_neg (show ¬ k = 0 by omega), if_neg statew, if_neg statew]
  by_cases preds : k < 12
  · rw [if_neg (by omega), if_neg (by omega), if_neg (by omega), if_pos (by omega), if_pos preds, getElem?_bytesOfNat _ (by omega)]
  rw [if_neg preds]
  by_cases count : k = 0x22 ∨ k = 0x23
  · rw [if_neg (by omega), if_neg (by omega), if_pos (by omega), if_pos count, getElem?_bytesOfNat _ (by omega)]
  rw [if_neg count]
  by_cases succs : 0x48 ≤ k ∧ k < 0x68
  · rw [if_neg (by omega), if_pos succs, if_pos succs, getElem?_inlineSucc _ (by omega)]
  rw [if_neg succs, if_neg succs]
  by_cases graph : 0x70 ≤ k ∧ k < 0x74
  · rw [if_pos graph, if_pos graph, getElem?_bytesOfNat _ (by omega)]
  · rw [if_neg graph, if_neg (by omega), if_neg (by omega), if_neg graph]

/-! ### What the front end finds (R138, R273) -/

theorem graphHeld_iff (s : State) (x n : Nat) (binds : List (List (BitVec 32))) : s.graphHeld x n binds = true ↔
    ∃ g ∈ s.sched.graphs, g.ctx = x ∧ g.parseNo < n ∧ ∃ b ∈ g.bindings, ∃ l ∈ binds, listsConflict b.2 l = true := by
  simp only [State.graphHeld, List.any_eq_true, Bool.and_eq_true, beq_iff_eq, decide_eq_true_eq, and_assoc]

/-- The end of a graph of free tasks by its key: the conflict rule, the hold, or admission. -/
def State.graphEnd (s : State) (x q : Nat) (p : Packet) (binds : List (List (BitVec 32))) :
    Option Digest → Except (Nat × Stop) GraphEnd
  | none => .ok (.stop 4)
  | some key =>
    if graphConflict (graphIn p.bytes) binds = true then .ok (.stop 5)
    else if s.graphHeld x (s.parseNo x q) binds = true then .ok .held
    else (s.admitGraph x q p (graphIn p.bytes) binds key).map .admitted

section
variable {s : State} {x q : Nat} {p : Packet} {tcbs : List (List Byte)} {binds : List (List (BitVec 32))}

theorem graphPacket_bad (bad : ¬ (graphBodyOk p (s.ctxAt x).tcbCount = true ∧ predsFit (graphIn p.bytes) = true)) :
    s.graphPacket x q p = .ok (.stop 4) := by
  have refused : graphBodyOk p (s.ctxAt x).tcbCount = false ∨ predsFit (graphIn p.bytes) = false := by
    simpa only [not_and_or, Bool.not_eq_true] using bad
  exact if_pos refused

variable (good : graphBodyOk p (s.ctxAt x).tcbCount = true ∧ predsFit (graphIn p.bytes) = true)
  (read : (List.range (graphIn p.bytes).nt).mapM
    (fun j => serving (s.localTcb x (graphIn p.bytes) j) (s.readTcb x ((graphIn p.bytes).tcb0 + j))) = .ok tcbs)
include good read

theorem graphPacket_taken
    (taken : ∃ j, j < (graphIn p.bytes).nt ∧ s.tcbOpen x ((graphIn p.bytes).tcb0 + j) (tcbs.getD j []) = false) :
    s.graphPacket x q p = .ok (.stop 4) := by
  obtain ⟨body, preds⟩ := good
  have closed : ((List.range (graphIn p.bytes).nt).all fun j => s.tcbOpen x ((graphIn p.bytes).tcb0 + j) (tcbs.getD j [])) = false := by
    simpa only [List.all_eq_false, List.mem_range, Bool.not_eq_true] using taken
  simp only [State.graphPacket, body, preds, Bool.true_eq_false, or_self, if_false, read, bind, Except.bind, closed, if_true]

variable (free : ∀ j, j < (graphIn p.bytes).nt → s.tcbOpen x ((graphIn p.bytes).tcb0 + j) (tcbs.getD j []) = true)
  (bound : (List.range (graphIn p.bytes).nt).mapM
    (fun j => serving (s.localTcb x (graphIn p.bytes) j) (s.readBinds x ((graphIn p.bytes).images.getD j []))) = .ok binds)
include free bound

theorem graphPacket_shaped {key : Option Digest} (shape : s.shapeKey x (graphIn p.bytes) binds = .ok key) :
    s.graphPacket x q p = s.graphEnd x q p binds key := by
  obtain ⟨body, preds⟩ := good
  have opened : ((List.range (graphIn p.bytes).nt).all fun j => s.tcbOpen x ((graphIn p.bytes).tcb0 + j) (tcbs.getD j [])) = true := by
    simpa only [List.all_eq_true, List.mem_range] using free
  simp only [State.graphPacket, body, preds, Bool.true_eq_false, or_self, if_false, read, bind, Except.bind, opened, bound, shape]
  cases key <;> rfl

end

/-! ### Admission (R273) -/

/-- Where the device's accesses succeed a graph is admitted: TCBs, descriptors, plate, READY tasks and HEAD. -/
theorem admitGraph_ok {s s1 s3 s4 t : State} {x q : Nat} {p : Packet} {g : GraphIn} {binds : List (List (BitVec 32))} {key : Digest}
    {shapes : List (Nat × List Byte)}
    (written : (List.range g.nt).foldlM (fun t j => do
      let t1 ← serving (s.localTcb x g j) (t.writeTcb x (g.tcb0 + j) 0 (admittedTcb g j))
      serving (s.localTcb x g j) (t1.putOverflow x g j)) s = .ok s1)
    (shaped : s1.shapesOf x binds = .ok shapes)
    (plate : State.startPlate { s1 with sched := { s1.sched with
        graphs := s1.sched.graphs ++ [s1.newGraph x q p g binds key shapes]
        nextId := (s1.newGraph x q p g binds key shapes).id + 1 } }
      (s1.newGraph x q p g binds key shapes) key (g.images.map fun i => (s.shapeKernel x i).1) = .ok s3)
    (ready : (List.range g.nt).foldlM (fun t j =>
      if leAt (admittedTcb g j) 8 4 = 0 then
        serving (s.localTcb x g j) (t.makeReady x (g.tcb0 + j) (s1.newGraph x q p g binds key shapes).die)
      else .ok t) s3 = .ok s4)
    (moved : (s4.dropHold x q).advanceHead x q p.len = .ok t) : s.admitGraph x q p g binds key = .ok t := by
  rw [State.admitGraph, written]
  simp only [bind, Except.bind, shaped, plate, serving] at ready ⊢
  rw [ready]
  simp only [moved]

/-! ### The two steps of the front end -/

/-- What GRAPH_PACKET leaves of a packet's end. -/
def GraphEnd.afterPacket (s : State) (x q : Nat) : GraphEnd → State
  | .stop cause => s.stopQueue x q cause
  | .held => s.holdGraph x q
  | .admitted t => t

/-- What GRAPH_ADMISSION leaves of a packet's end: it takes only a graph that is admitted. -/
def GraphEnd.afterAdmission (s : State) : GraphEnd → State
  | .admitted t => t
  | _ => s

theorem exec_graphEnd {s : State} {x q : Nat} {p : Packet} {e : GraphEnd} (h : AtPacket s x q 1 p)
    (found : s.graphPacket x q p = .ok e) :
    exec (.graphPacket x q) s = .next (e.afterPacket s x q) ∧ exec (.graphAdmission x q) s = .next (e.afterAdmission s) := by
  show execGraphPacket x q s = _ ∧ execGraphAdmission x q s = _
  rw [execGraphPacket, execGraphAdmission, packetStep_at h, packetStep_at h, found]
  cases e <;> exact ⟨rfl, rfl⟩

/-- Settles O55: the admitted TCB part by part, the packet by the first of its checks that ends it, the hold by its search. -/
theorem graphAdmission : Obligations.GraphAdmission := by
  unfold Obligations.GraphAdmission
  refine ⟨fun g j k img image size _ => admittedTcb_bytes image size, fun s x q p h => ⟨fun bad => ?_, fun tcbs good read =>
    ⟨fun taken => ?_, fun binds key free bound shape => ?_⟩⟩, graphHeld_iff⟩
  · exact exec_graphEnd h (graphPacket_bad bad)
  · exact (exec_graphEnd h (graphPacket_taken good read taken)).1
  · have found := graphPacket_shaped (q := q) good read free bound shape
    refine ⟨?_, ?_⟩
    · rintro rfl
      exact (exec_graphEnd h found).1
    · rintro d rfl
      rw [State.graphEnd] at found
      refine ⟨fun conflict => ?_, fun agree held => ?_, fun agree unheld s1 shapes written named s3 s4 t plate ready moved => ?_⟩
      · rw [if_pos conflict] at found
        exact (exec_graphEnd h found).1
      · rw [if_neg (Bool.eq_false_iff.mp agree), if_pos held] at found
        exact exec_graphEnd h found
      · rw [if_neg (Bool.eq_false_iff.mp agree), if_neg (Bool.eq_false_iff.mp unheld),
          admitGraph_ok written named plate ready moved] at found
        exact exec_graphEnd h found

end Sys2Proof.Machine
end

section
/-! PROOFS. Statistics records, versions and link status (R141 to R143, R148 to R151, R368). -/

namespace Sys2Proof.Machine

open Sys2Proof

/-! ### A bank at its place -/

theorem bankPlace_active_iff (s : State) (x : Nat) : s.bankPlace x s.cellNo = .active ↔ s.bank.shardOf x = true := by
  rw [State.bankPlace, cellAt_cellNo, ← State.bank]
  by_cases shard : s.bank.shardOf x = true
  · simp only [shard, if_true]
  · rw [if_neg shard]
    split_ifs <;> simp [shard]

theorem bankOf_active {s : State} {x : Nat} (place : s.bankPlace x s.cellNo = .active) : s.bankOf x s.cellNo = some s.bank := by
  rw [State.bankOf, place, State.bankIn, cellAt_cellNo, State.bank]

theorem setBankOf_active {s : State} {x : Nat} (place : s.bankPlace x s.cellNo = .active) (b : Bank) :
    s.setBankOf x s.cellNo b = s.setBank b := by
  rw [State.setBankOf, place, State.setBankIn, cellAt_cellNo, setCell_cellNo, State.setBank]

theorem setBankIn_ctxs (s : State) (p : BankPlace) (x c : Nat) (b : Bank) : (s.setBankIn p x c b).ctxs = s.ctxs := by
  cases p <;> rfl

theorem setCell_bank_of_ne {s : State} {c : Nat} (other : c ≠ s.cellNo) (e : Cell) : (s.setCell c e).bank = s.bank := by
  have same : (s.setCell c e).cellAt s.cellNo = s.cellAt s.cellNo := setCell_cellAt_ne s c s.cellNo e other
  rw [cellAt_cellNo, show s.cellNo = (s.setCell c e).cellNo from rfl, cellAt_cellNo] at same
  rw [State.bank, same, State.bank]

/-- A change of the bank at a place is one of the moving bank where that is the place, and leaves it alone elsewhere. -/
theorem setBankIn_bank (s : State) (p : BankPlace) (x c : Nat) (b : Bank) :
    (s.setBankIn p x c b).bank = if p = .active ∧ c = s.cellNo then b else s.bank := by
  cases p with
  | saved => rfl
  | none => rfl
  | active =>
    by_cases here : c = s.cellNo
    · rw [if_pos ⟨rfl, here⟩, here, State.setBankIn, setCell_cellNo, withCell_bank]
    · rw [if_neg fun both => here both.2, State.setBankIn, setCell_bank_of_ne here]
  | shadow =>
    rw [if_neg fun both => BankPlace.noConfusion both.1]
    by_cases here : c = s.cellNo
    · rw [here, State.setBankIn, setCell_cellNo, withCell_bank, cellAt_cellNo, State.bank]
    · exact setCell_bank_of_ne here _

/-! ### An instruction that changes the bank's control only -/

theorem bankRetire_sr (b : Bank) : (b.retire .a 1).sr = { b.sr with pca := b.sr.pca + 4, seqa := b.sr.seqa + 1 } := rfl

theorem retire_ofControl {s u : State} {f : Control → Control} (bank : u.bank = s.bank.mapCtl f) :
    SameRegs s (u.retire .a 1) ∧ SameUnits s (u.retire .a 1) ∧
      (u.retire .a 1).bank.sr = { s.bank.sr with pca := s.bank.sr.pca + 4, seqa := s.bank.sr.seqa + 1 } := by
  refine ⟨⟨?_, ?_⟩, ⟨?_, ?_, ?_⟩, ?_⟩ <;> rw [retire_bank, bank]
  case refine_6 => rfl
  all_goals simp

theorem mapCtl_enginesDone (b : Bank) (f : Control → Control) : (b.mapCtl f).enginesDone = b.enginesDone := rfl

theorem onlyRetiredA_retire (s : State) (n : Nat) : OnlyRetiredA s (s.retire .a n) n := by
  refine ⟨⟨?_, ?_⟩, ⟨?_, ?_, ?_⟩, retiredA_retire s s.bank n rfl rfl rfl, sameDevice_setBank s _⟩ <;> rw [retire_bank] <;> simp

/-! ### Operands -/

theorem indexIn_ok {v : Word} (h : v.toNat < 65536) : indexIn v = .ok v.toNat := if_pos h

theorem versionIn_ok {v : Word} (h : v.toNat < 2 ^ 32) : versionIn v = .ok v.toNat := if_pos h

theorem indexIn_beyond {v : Word} (h : 65536 ≤ v.toNat) : indexIn v = .error (.fault .operandFormat 0) := if_neg (Nat.not_lt.mpr h)

/-- An index above 65535 ends every instruction that takes one. -/
theorem exec_index_beyond {s : State} {im : BitVec 6} {i : Instr} (h : 65536 ≤ (s.bank.readA im.toNat).toNat) (b : BitVec 6)
    (mem : i ∈ [Instr.trec b im, .trecClr im, .tfold im]) : exec i s = .next (s.raise .a .operandFormat 0) := by
  have beyond := indexIn_beyond h
  simp only [List.mem_cons, List.not_mem_nil, or_false] at mem
  obtain rfl | rfl | rfl := mem
  · show execTrec b im s = _
    rw [execTrec, beyond]
    rfl
  · show execTrecClr im s = _
    rw [execTrecClr, beyond]
    rfl
  · show execTfold im s = _
    rw [execTfold, beyond]
    rfl

/-! ### TREC -/

theorem length_snapshotBytes {r : StatRecord} (bins : r.hist.length = 48) : (snapshotBytes r).length = 256 := by
  simp [snapshotBytes, bins]

section
variable {s : State} {b im : BitVec 6} {d : Desc} (index : (s.bank.readA im.toNat).toNat < 65536)
include index

theorem execTrec_ok {ps : List RowPart} (used : s.useDesc (s.bank.readA im.toNat).toNat .s false = .ok d)
    (bins : (s.snapshotOf d.record).hist.length = 48) (al : (s.bank.readA b.toNat).toNat % 64 = 0)
    (parts : s.resolve .s (Access.store s.level) (s.bank.readA b.toNat) 256 = .ok ps) (good : s.storePoison ps = none) :
    exec (.trec b im) s = .next ((s.putParts ps (snapshotBytes (s.snapshotOf d.record))).retire .a 1) := by
  have written : s.wr .s false (s.bank.readA b.toNat) (snapshotBytes (s.snapshotOf d.record)) =
      .ok (s.putParts ps (snapshotBytes (s.snapshotOf d.record))) := by
    rw [State.wr, length_snapshotBytes bins, show ({ Access.store s.level with annotated := false } : Access) = Access.store s.level from rfl,
      parts]
    simp only [State.writeParts, good]
  show execTrec b im s = _
  simp only [execTrec, indexIn_ok index, used, bind, Except.bind, aligned, al, beq_self_eq_true, if_true, written]
  rfl

theorem execTrec_align (used : s.useDesc (s.bank.readA im.toNat).toNat .s false = .ok d)
    (al : (s.bank.readA b.toNat).toNat % 64 ≠ 0) : exec (.trec b im) s = .next (s.raise .a .align (s.bank.readA b.toNat)) := by
  have refused : ¬ aligned (s.bank.readA b.toNat) 64 = true := by simpa [aligned] using al
  show execTrec b im s = _
  simp only [execTrec, indexIn_ok index, used, bind, Except.bind, if_neg refused]
  rfl

/-! ### TREC CLR -/

theorem execTrecClr_idle {g : Group} (used : s.useDesc (s.bank.readA im.toNat).toNat .c false = .ok d)
    (group : s.curGroup = some g) (idle : s.bank.enginesDone = true) :
    exec (.trecClr im) s = .next ((s.clearRecord g d.record).retire .a 1) := by
  show execTrecClr im s = _
  simp only [execTrecClr, indexIn_ok index, used, bind, Except.bind, idle, if_true, group]
  rfl

theorem execTrecClr_busy (used : s.useDesc (s.bank.readA im.toNat).toNat .c false = .ok d) (busy : s.bank.enginesDone = false) :
    exec (.trecClr im) s = .next (s.stall .a) := by
  show execTrecClr im s = _
  simp only [execTrecClr, indexIn_ok index, used, bind, Except.bind, busy, Bool.false_eq_true, if_false]
  rfl

end

/-! ### A record cleared (R143) -/

theorem recordAt_recordSet (l : List (Nat × StatRecord)) (i : Nat) (r : StatRecord) (j : Nat) :
    recordAt (recordSet l i r) j = if j = i then r else recordAt l j := by
  have keyed : ((fun e : Nat × StatRecord => e.1 == j) ∘ fun p => if (p.1 == i) = true then (i, r) else p) = fun e => e.1 == j := by
    funext e
    by_cases here : e.1 = i <;> simp [here]
  rw [recordSet]
  split
  case isTrue there =>
    rw [recordAt, recordAt, List.find?_map, keyed]
    cases found : l.find? (·.1 == j) with
    | none =>
      have other : j ≠ i := by
        rintro rfl
        rw [← List.isSome_find?, found] at there
        cases there
      rw [if_neg other]
      rfl
    | some e =>
      obtain rfl : e.1 = j := by simpa using List.find?_some found
      by_cases here : e.1 = i <;> simp [here]
  case isFalse absent =>
    rw [recordAt, recordAt, List.find?_append, List.find?_singleton]
    by_cases here : j = i
    · subst here
      rw [← List.isSome_find?, Option.not_isSome_iff_eq_none] at absent
      simp [absent]
    · simp [here, Ne.symm here]

/-- The updates of a record that a shard of a group has presented are taken off its bank's list. -/
def State.clearPresented (t : State) (g : Group) (idx c : Nat) : State :=
  match t.bankOf g.ctx c with
  | some b =>
    if b.ctl.group = some g.id then
      t.setBankOf g.ctx c (b.mapCtl fun k => { k with presented := k.presented.filter fun p => p.2.1 != idx })
    else t
  | none => t

/-- A clear changes its context's record, leaves the cells to `clearPresented`, and the contexts to the record. -/
theorem clearRecord_eq (s : State) (g : Group) (idx : Nat) : ∃ u : State,
    s.clearRecord g idx = g.cells.foldl (fun t c => t.clearPresented g idx c) u ∧ u.bank = s.bank ∧
      u.ctxs = (s.setCtx g.ctx { s.ctxAt g.ctx with
        records := recordSet (s.ctxAt g.ctx).records idx (recordAt (s.ctxAt g.ctx).records idx).cleared }).ctxs := by
  refine ⟨_, rfl, ?_, ?_⟩ <;> split <;> rfl

/-- A bank that differs from another at most by the updates that it lists. -/
def DiffersInPresented (b c : Bank) : Prop := ∃ l, c = b.mapCtl fun k => { k with presented := l }

theorem clearPresented_same (t : State) (g : Group) (idx c : Nat) :
    (t.clearPresented g idx c).ctxs = t.ctxs ∧ DiffersInPresented t.bank (t.clearPresented g idx c).bank := by
  unfold State.clearPresented
  split
  case h_2 => exact ⟨rfl, _, rfl⟩
  case h_1 b found =>
    split
    case isFalse => exact ⟨rfl, _, rfl⟩
    case isTrue =>
      refine ⟨setBankIn_ctxs _ _ _ _ _, ?_⟩
      rw [State.setBankOf, setBankIn_bank]
      split
      case isFalse => exact ⟨_, rfl⟩
      case isTrue here =>
        obtain ⟨place, rfl⟩ := here
        rw [bankOf_active place] at found
        cases found
        exact ⟨_, rfl⟩

theorem clearRecord_same (s : State) (g : Group) (idx : Nat) :
    (s.clearRecord g idx).ctxs = (s.setCtx g.ctx { s.ctxAt g.ctx with
        records := recordSet (s.ctxAt g.ctx).records idx (recordAt (s.ctxAt g.ctx).records idx).cleared }).ctxs ∧
      DiffersInPresented s.bank (s.clearRecord g idx).bank := by
  obtain ⟨u, clear, bank, ctxs⟩ := clearRecord_eq s g idx
  rw [clear, ← ctxs, ← bank]
  refine List.foldlRecOn (motive := fun t : State => t.ctxs = u.ctxs ∧ DiffersInPresented u.bank t.bank) g.cells _ ⟨rfl, _, rfl⟩
    fun t same c _ => ?_
  obtain ⟨ctxs, l, bank⟩ := same
  obtain ⟨ctxs', m, bank'⟩ := clearPresented_same t g idx c
  exact ⟨ctxs'.trans ctxs, m, by rw [bank', bank]; rfl⟩

/-! ### TFOLD (R149) -/

/-- The bank stands at its next TFOLD, of this index. -/
def State.atFold (s : State) (idx : Nat) : State :=
  s.setBank (s.bank.mapCtl fun k => { k with foldReady := s.bank.ctl.foldDone + 1, foldIdx := idx, foldWalk := s.bank.walk.wa })

theorem passFold_bank (s : State) :
    s.passFold.bank = (s.bank.mapCtl fun k => { k with foldDone := k.foldDone + 1 }).retire .a 1 := by
  rw [State.passFold, retire_bank, State.countLoss, count_bank, setBank_bank]

theorem passFold_groupAt (s : State) (n : Nat) : s.passFold.groupAt n = s.groupAt n := rfl

/-- What a pass of a TFOLD leaves of a state that differs from `s` in the bank's control only. -/
theorem passFold_same {s u : State} (bank : u.bank = { s.bank with ctl := u.bank.ctl }) (mem : u.mem = s.mem)
    (done : u.bank.ctl.foldDone = s.bank.ctl.foldDone) :
    u.passFold.bank.ctl.foldDone = s.bank.ctl.foldDone + 1 ∧ SameRegs s u.passFold ∧ SameUnits s u.passFold ∧ SameMemory s u.passFold ∧
      u.passFold.bank.sr = { s.bank.sr with pca := s.bank.sr.pca + 4, seqa := s.bank.sr.seqa + 1 } := by
  have counted : ((u.setBank (u.bank.mapCtl fun k => { k with foldDone := k.foldDone + 1 })).countLoss).bank =
      s.bank.mapCtl fun _ => { u.bank.ctl with foldDone := u.bank.ctl.foldDone + 1 } := by
    rw [State.countLoss, count_bank, setBank_bank, bank]
    rfl
  obtain ⟨regs, units, sys⟩ := retire_ofControl counted
  refine ⟨?_, regs, units, fun k => by rw [passFold_mem, mem], sys⟩
  rw [passFold_bank, bankRetire_ctl]
  exact congrArg (· + 1) done

/-- A bank's shard is where the fold of its group looks for it. -/
theorem foldBank_active {s : State} {x id : Nat} (place : s.bankPlace x s.cellNo = .active) (mine : s.bank.ctl.group = some id)
    (idx : Nat) (r : StatRecord) : foldBank idx id (s, r) x s.cellNo =
      (s.setBank (s.bank.mapCtl fun k => { k with
        presented := k.presented.filter fun p => !(foldTakes s.bank.ctl.foldWalk idx p) }),
       (s.bank.ctl.presented.filter (foldTakes s.bank.ctl.foldWalk idx)).foldl (fun r p => r.fold p.2.2) r) := by
  simp only [foldBank, bankOf_active place, Option.filter_some, mine, beq_self_eq_true, if_true, setBankOf_active place]

/-- The record that a fold of one shard leaves in its group's snapshot. -/
def foldedAlone (b : Bank) (g : Group) (idx : Nat) : StatRecord :=
  (g.gone.filter fun p => p.2.1 == idx).foldl (fun r p => r.fold p.2.2)
    ((b.ctl.presented.filter (foldTakes b.ctl.foldWalk idx)).foldl (fun r p => r.fold p.2.2) (recordAt g.snapshot idx))

theorem foldGroup_alone {s : State} {g : Group} (place : s.bankPlace g.ctx s.cellNo = .active) (mine : s.bank.ctl.group = some g.id)
    (cells : g.cells = [s.cellNo]) (idx : Nat) : s.foldGroup g idx =
      (s.setBank (s.bank.mapCtl fun k => { k with
        presented := k.presented.filter fun p => !(foldTakes s.bank.ctl.foldWalk idx p) })).setGroup
      { g with
        snapshot := recordSet g.snapshot idx (foldedAlone s.bank g idx), folds := g.folds + 1
        gone := g.gone.filter fun p => p.2.1 != idx } := by
  rw [State.foldGroup, cells, List.foldl_cons, List.foldl_nil, foldBank_active place mine]
  rfl

theorem atFold_place {s : State} {x : Nat} (place : s.bankPlace x s.cellNo = .active) (idx : Nat) :
    (s.atFold idx).bankPlace x (s.atFold idx).cellNo = .active := by
  rw [bankPlace_active_iff] at place ⊢
  rw [State.atFold, setBank_bank]
  exact place

theorem atFold_drained {s : State} (idx : Nat) (met : s.bank.walk.wa ≤ s.bank.walk.wx) (idle : s.bank.enginesDone = true) :
    (s.atFold idx).bank.ctl.foldIdx = idx ∧ (s.atFold idx).bank.foldReached (s.bank.ctl.foldDone + 1) = true ∧
      (s.atFold idx).bank.foldDrained = true := by
  rw [State.atFold, setBank_bank]
  simp [Bank.foldReached, Bank.foldDrained, mapCtl_enginesDone, met, idle]

theorem foldBanks_alone {s : State} {g : Group} (place : s.bankPlace g.ctx s.cellNo = .active) (cells : g.cells = [s.cellNo])
    (running : g.halted = [false]) : s.foldBanks g = [(s.cellNo, some s.bank)] := by
  rw [State.foldBanks, cells, running, ← bankOf_active place]
  rfl

section
variable {s : State} {im : BitVec 6} {d : Desc} {g : Group} (index : (s.bank.readA im.toNat).toNat < 65536)
  (used : s.useDesc (s.bank.readA im.toNat).toNat .s false = .ok d) (group : s.curGroup = some g)
include index used group

theorem execTfold_paired (folded : s.bank.ctl.foldDone + 1 ≤ g.folds) : exec (.tfold im) s = .next s.passFold := by
  show execTfold im s = _
  simp only [execTfold, indexIn_ok index, used, bind, Except.bind, group, folded, if_true]
  rfl

/-- The only shard of a group folds at once, when its X stream and its engines have come to the TFOLD. -/
theorem execTfold_alone (ahead : g.folds < s.bank.ctl.foldDone + 1) (cells : g.cells = [s.cellNo]) (running : g.halted = [false])
    (place : s.bankPlace g.ctx s.cellNo = .active) (met : s.bank.walk.wa ≤ s.bank.walk.wx) (idle : s.bank.enginesDone = true) :
    exec (.tfold im) s = .next ((s.atFold (s.bank.readA im.toNat).toNat).foldGroup g d.record).passFold := by
  have alone := foldBanks_alone (atFold_place place (s.bank.readA im.toNat).toNat) cells running
  have apart : ¬ s.bank.ctl.foldDone + 1 ≤ g.folds := by omega
  obtain ⟨here, reached, drained⟩ := atFold_drained (s.bank.readA im.toNat).toNat met idle
  show execTfold im s = _
  simp only [execTfold, indexIn_ok index, used, bind, Except.bind, group, if_neg apart]
  rw [← State.atFold]
  simp only [alone, List.all_cons, List.all_nil, List.head?_cons, Option.any_some, reached, drained, here, beq_self_eq_true,
    Bool.and_true, Bool.true_eq_false, ne_eq, not_true_eq_false, if_false, if_true]
  rfl

end

theorem curGroup_group {s : State} {g : Group} (h : s.curGroup = some g) : s.bank.ctl.group = some g.id := by
  obtain ⟨n, running, found⟩ := Option.bind_eq_some_iff.mp h
  have id : g.id = n := by simpa using List.find?_some found
  rw [id]
  exact running

/-- What the fold of a group's only shard leaves: the bank but for its control, the fold counted, and in the snapshot what the shard
and the halted ones presented. -/
theorem foldGroup_alone_same {s : State} {g : Group} (idx r : Nat) (group : s.curGroup = some g) (cells : g.cells = [s.cellNo])
    (place : s.bankPlace g.ctx s.cellNo = .active) :
    let u := (s.atFold idx).foldGroup g r
    u.bank = { s.bank with ctl := u.bank.ctl } ∧ u.bank.ctl.foldDone = s.bank.ctl.foldDone ∧
      ∃ h, u.groupAt g.id = some h ∧ h.folds = g.folds + 1 ∧ recordAt h.snapshot r = foldedAlone (s.atFold idx).bank g r := by
  intro u
  have atFold : (s.atFold idx).bank = s.bank.mapCtl fun k =>
      { k with foldReady := s.bank.ctl.foldDone + 1, foldIdx := idx, foldWalk := s.bank.walk.wa } := setBank_bank _ _
  have mine : (s.atFold idx).bank.ctl.group = some g.id := by
    rw [atFold]
    exact curGroup_group group
  have shape : u = _ := foldGroup_alone (atFold_place place idx) mine cells r
  have bank : u.bank = _ := (congrArg State.bank shape).trans (setBank_bank _ _)
  have found := curGroup_groupAt group
  have there : u.groupAt g.id = some _ :=
    (congrArg (State.groupAt · g.id) shape).trans (setGroup_groupAt (s := (s.atFold idx).setBank _) found rfl)
  refine ⟨?_, ?_, _, there, rfl, ?_⟩
  · rw [bank, atFold]
    rfl
  · rw [bank, atFold]
    rfl
  · rw [recordAt_recordSet, if_pos rfl]

/-! ### TVER and TVWAIT (R150, R151) -/

section
variable {s : State} {im v : BitVec 6} {z : BitVec 3} {d : Desc} (scope : z = 3#3 ∨ z = 4#3)
  (index : (s.bank.readA im.toNat).toNat < 65536) (version : (s.bank.readA v.toNat).toNat < 2 ^ 32)
include scope index version

theorem exec_tver (used : s.useDesc (s.bank.readA im.toNat).toNat .v true = .ok d) :
    exec (.tver im v z) s = gangAfter (z == 4#3) s (finish s .a
      (if (s.bank.readA v.toNat).toNat ≤ d.version then .error (.fault .operandFormat 0)
      else if s.bank.enginesDone = true then
        (s.agentWrite s.ctxNo ((s.ctxAt s.ctxNo).descAddr (s.bank.readA im.toNat).toNat + 0x2C)
          (bytesOfNat 4 (s.bank.readA v.toNat).toNat) true).bind fun t => .ok (t.retire .a 1)
      else .error .wait)) := by
  have known : versionScopeOk z = true := by simpa [versionScopeOk] using scope
  show execTver im v z s = _
  simp only [execTver, known, if_true, indexIn_ok index, versionIn_ok version, used, bind, Except.bind]

theorem exec_tvwait (used : s.useDesc (s.bank.readA im.toNat).toNat .any true = .ok d) :
    exec (.tvwait im v z) s = gangAfter (z == 4#3) s (finish s .a
      (if (s.bank.readA v.toNat).toNat ≤ d.version then .ok (s.retire .a 1) else .error .wait)) := by
  have known : versionScopeOk z = true := by simpa [versionScopeOk] using scope
  show execTvwait im v z s = _
  simp only [execTvwait, known, if_true, indexIn_ok index, versionIn_ok version, used, bind, Except.bind]

end

/-- A scope code that is neither DEVICE's nor GANG's ends TVER and TVWAIT. -/
theorem exec_version_scope {s : State} {im v : BitVec 6} {z : BitVec 3} {i : Instr} (device : z ≠ 3#3) (gang : z ≠ 4#3)
    (mem : i ∈ [Instr.tver im v z, .tvwait im v z]) : exec i s = s.pcFault .a .operandIllegal := by
  have refused : ¬ versionScopeOk z = true := by simp [versionScopeOk, device, gang]
  simp only [List.mem_cons, List.not_mem_nil, or_false] at mem
  obtain rfl | rfl := mem
  · exact if_neg refused
  · exact if_neg refused

theorem agentWrite_ok {s : State} {x g : Nat} {bs : List Byte} {annotated : Bool} {ps : List RowPart}
    (parts : s.resolveG none x { Access.store .supervisor with annotated := annotated } g bs.length = .ok ps)
    (good : s.storePoison ps = none) : s.agentWrite x g bs annotated = .ok (s.putParts ps bs) := by
  simp only [State.agentWrite, parts, State.writeParts, good]

/-- A wait of an instruction that a gang transfer in reach may follow. -/
theorem waits_gangAfter {i : Instr} {s : State} {gang : Bool} (he : exec i s = gangAfter gang s (.next (s.stall .a)))
    (reach : s.unreachable s.ctxNo = none) : ∃ t, exec i s = .next t ∧ Waits s t .a :=
  ⟨_, he.trans (gangAfter_reachable _ _ _ ((unreachable_stall s .a).trans reach)), waits_stall s .a⟩

/-! ### The statement, clause by clause -/

/-- Settles O47: TREC by its stored bytes, TREC CLR and TFOLD by what they change of the bank's control and of the records, TVER and
TVWAIT by the version that they compare. -/
theorem tensorRecords : Obligations.TensorRecords := by
  unfold Obligations.TensorRecords
  refine fun s => ⟨fun b im d ps index used => ⟨fun hm bins al parts good => ?_, fun ok al => ?_⟩,
    fun im d g index used group => ⟨fun idle own low => ?_, fun busy => ?_⟩,
    fun im d g index used group => ⟨fun folded => ?_, fun ahead cells running own place met idle => ?_⟩,
    fun im v z d scope reach index version => ⟨fun used => ⟨fun newer idle ps parts good hm => ?_, fun newer busy => ?_, fun ok old => ?_⟩,
      fun used => ⟨fun reached => ?_, fun early => ?_⟩⟩,
    fun d p => ⟨fun port => ?_, fun ok beyond => ?_⟩, fun ok b im v z => ⟨fun beyond i mem => ?_, fun device gang i mem => ?_⟩⟩
  · obtain ⟨stored, same⟩ := storedA_putParts 1 ps (snapshotBytes (s.snapshotOf d.record)) hm
    exact ⟨_, execTrec_ok index used bins al parts good, same, stored⟩
  · exact ⟨_, execTrec_align index used al, raised_raise s .a _ _ ok⟩
  · obtain ⟨ctxs, l, bank⟩ := clearRecord_same s g d.record
    obtain ⟨regs, units, sys⟩ := retire_ofControl bank
    have records : (((s.clearRecord g d.record).retire .a 1).ctxAt g.ctx).records =
        recordSet (s.ctxAt g.ctx).records d.record (recordAt (s.ctxAt g.ctx).records d.record).cleared := by
      have same : ((s.clearRecord g d.record).retire .a 1).ctxAt g.ctx = _ := congrArg (fun l => vget l g.ctx Ctx.reset) ctxs
      rw [same]
      exact congrArg Ctx.records (setCtx_ctxAt _ _ _ (own ▸ low))
    refine ⟨_, execTrecClr_idle index used group idle, regs, units, fun k => ?_, ?_, fun j other => ?_, sys⟩
    · rw [retire_mem, clearRecord_mem]
    · rw [records, recordAt_recordSet, if_pos rfl]
      rfl
    · rw [records, recordAt_recordSet, if_neg other]
  · exact ⟨_, execTrecClr_busy index used busy, waits_stall s .a⟩
  · exact ⟨_, execTfold_paired index used group folded, passFold_same rfl rfl rfl⟩
  · obtain ⟨bank, count, h, there, folds, snapshot⟩ :=
      foldGroup_alone_same (s.bank.readA im.toNat).toNat d.record group cells (own ▸ place)
    obtain ⟨done, regs, units, mem, -⟩ := passFold_same bank (foldGroup_mem _ _ _) count
    refine ⟨_, execTfold_alone index used group ahead cells running (own ▸ place) met idle, done, regs, units, mem, ?_⟩
    rw [passFold_groupAt, there, Option.map_some, folds, snapshot, foldedAlone, State.atFold, setBank_bank]
    rfl
  · obtain ⟨stored, same⟩ := storedA_putParts 1 ps (bytesOfNat 4 (s.bank.readA v.toNat).toNat) hm
    refine ⟨_, ?_, same, stored⟩
    have written := agentWrite_ok (bs := bytesOfNat 4 (s.bank.readA v.toNat).toNat) parts good
    rw [exec_tver scope index version used, if_neg (Nat.not_le.mpr newer), if_pos idle, written]
    exact gangAfter_reachable _ _ _ ((unreachable_stored stored).trans reach)
  · refine waits_gangAfter (gang := z == 4#3) ?_ reach
    rw [exec_tver scope index version used, if_neg (Nat.not_le.mpr newer), if_neg (Bool.eq_false_iff.mp busy)]
    rfl
  · refine raised_gangAfter (exec_tver scope index version used) ?_ ok reach
    rw [if_pos old]
    rfl
  · refine ⟨_, ?_, onlyRetiredA_retire s 1⟩
    rw [exec_tvwait scope index version used, if_pos reached]
    exact gangAfter_reachable _ _ _ ((unreachable_retire s 1).trans reach)
  · refine waits_gangAfter (gang := z == 4#3) ?_ reach
    rw [exec_tvwait scope index version used, if_neg (Nat.not_le.mpr early)]
    rfl
  · exact answersA_of _ s 1 d _ (if_neg (Nat.not_lt.mpr port))
  · exact ⟨_, if_pos beyond, raised_raise s .a _ _ ok⟩
  · exact ⟨_, exec_index_beyond beyond b mem, raised_raise s .a _ _ ok⟩
  · exact raised_pcFault i s .a _ ok (exec_version_scope device gang mem)

end Sys2Proof.Machine
end

section
/-! PROOFS. XLI and XLIH (O15), the immediate instructions of the X stream and VWIN (O35). -/

namespace Sys2Proof.Machine

open Sys2Proof

/-! ### Load immediate on the X stream -/

/-- Format W of a tagged word by its fields' places. -/
theorem wordW_tagged_eq (tag : BitVec 2) (major : Nat) (d : BitVec 6) (im : BitVec 16) (high : major < 2 ^ 7) :
    BitVec.ofNat 32 (tag.toNat * 2 ^ 30 + major * 2 ^ 22 + d.toNat * 2 ^ 16 + im.toNat) =
      tag ++ 0#1 ++ BitVec.ofNat 7 major ++ d ++ im := by
  have low := im.isLt
  have middle := d.isLt
  have top := tag.isLt
  obtain ⟨w, hw⟩ : ∃ w : IWord, w = BitVec.ofNat 32 (tag.toNat * 2 ^ 30 + major * 2 ^ 22 + d.toNat * 2 ^ 16 + im.toNat) := ⟨_, rfl⟩
  have value : w.toNat = tag.toNat * 2 ^ 30 + major * 2 ^ 22 + d.toNat * 2 ^ 16 + im.toNat := by
    rw [hw, BitVec.toNat_ofNat]
    omega
  have fields : (fld w 0 32).toNat = (tag ++ 0#1 ++ BitVec.ofNat 7 major ++ d ++ im).toNat := by
    simp only [toNat_eq_append_iff]
    simp only [fld, BitVec.extractLsb'_toNat, BitVec.toNat_ofNat, Nat.shiftRight_eq_div_pow, value]
    omega
  rw [← hw]
  exact ((eq_word_iff _ w).mpr fields).symm

/-- An X instruction that writes x[d] once its codes are found in range, as they are. -/
theorem answersX_answerX {i : Instr} {s : State} {len : Nat} {ok : Bool} {d : BitVec 6} {v w : Word}
    (e : exec i s = answerX len ok d v s) (inRange : ok = true) (hd : d.toNat < 32) (h : v = w) : AnswersX i s len d w :=
  answersX_of i s len d w hd (e.trans ((if_pos inRange).trans (by rw [h])))

/-- An X instruction that refuses its codes. -/
theorem raised_answerX {i : Instr} {s : State} {len : Nat} {ok : Bool} {d : BitVec 6} {v : Word}
    (e : exec i s = answerX len ok d v s) (refused : ok = false) (first : s.faultless) :
    ∃ t, exec i s = .next t ∧ Raised s t 1 .operandIllegal s.bank.sr.pcx :=
  raised_pcFault i s .x .operandIllegal first (e.trans (if_neg (by simp [refused])))

theorem xOk_low {r : BitVec 6} (h : r.toNat < 32) : xOk r = true := decide_eq_true h

theorem xOk_high {r : BitVec 6} (h : 32 ≤ r.toNat) : xOk r = false := decide_eq_false (Nat.not_lt.mpr h)

/-- Settles O15: the words are the encodings, and each instruction is the answer that R160 writes. -/
theorem loadImmediateX : Obligations.LoadImmediateX := by
  unfold Obligations.LoadImmediateX
  refine ⟨fun d im next => ⟨?_, ?_⟩, fun s d im => ⟨fun low => ⟨?_, ?_⟩, fun first high i mem => ?_⟩⟩
  · rw [show 2 ^ 30 = (1#2).toNat * 2 ^ 30 from rfl, wordW_tagged_eq 1#2 0x04 d im (by decide)]
    exact (decode_of_encode_one rfl rfl).2 next
  · rw [show 2 ^ 30 = (1#2).toNat * 2 ^ 30 from rfl, wordW_tagged_eq 1#2 0x05 d im (by decide)]
    exact (decode_of_encode_one rfl rfl).2 next
  · exact answersX_answerX rfl (xOk_low low) low rfl
  · exact answersX_answerX rfl (xOk_low low) low rfl
  · simp only [List.mem_cons, List.not_mem_nil, or_false] at mem
    obtain rfl | rfl := mem
    all_goals exact raised_answerX rfl (xOk_high high) first

/-! ### The immediate instructions of R159 -/

theorem xOk_both {d a : BitVec 6} (hd : d.toNat < 32) (ha : a.toNat < 32) : (xOk d && xOk a) = true := by
  rw [xOk_low hd, xOk_low ha, Bool.and_self]

theorem xOk_either {d a : BitVec 6} (h : 32 ≤ d.toNat ∨ 32 ≤ a.toNat) : (xOk d && xOk a) = false := by
  rcases h with h | h
  · rw [xOk_high h, Bool.false_and]
  · rw [xOk_high h, Bool.and_false]

/-- A six-bit immediate is its own shift count. -/
theorem shiftCount_setWidth (k : BitVec 6) : shiftCount (k.setWidth 64) = k.toNat := by
  have low := k.isLt
  rw [shiftCount, BitVec.toNat_setWidth]
  omega

theorem opShl_setWidth (x : Word) (k : BitVec 6) : opShl x (k.setWidth 64) = x <<< k.toNat := by
  rw [opShl, shiftCount_setWidth]

theorem opShr_setWidth (x : Word) (k : BitVec 6) : opShr x (k.setWidth 64) = x >>> k.toNat := by
  rw [opShr, shiftCount_setWidth]

theorem opSra_setWidth (x : Word) (k : BitVec 6) : opSra x (k.setWidth 64) = x.sshiftRight k.toNat := by
  rw [opSra, shiftCount_setWidth]

theorem opRotr_setWidth (x : Word) (k : BitVec 6) : opRotr x (k.setWidth 64) = x.rotateRight k.toNat :=
  (opRotr_eq _ _).trans (congrArg x.rotateRight (shiftCount_setWidth k))

/-! ### VWIN -/

/-- The bank that a VWIN leaves before it retires (R182). -/
def Bank.windowed (b : Bank) (c : BitVec 3) (w : BitVec 16) : Bank :=
  let k := b.mapSr fun r => { r with vwin := w.setWidth 64 }
  match retagOf c with
  | some g => { k with xf := { k.xf with tags := vset k.xf.tags (w.toNat / 128) g } }
  | none => k

theorem retagCode_cases {c : BitVec 3} (low : c.toNat ≤ 4) : c = 0 ∨ c = 1 ∨ c = 2 ∨ c = 3 ∨ c = 4 := by
  revert c
  decide

/-- What a VWIN changes of its bank: sr.vwin and tags. -/
theorem windowed_eq (b : Bank) (c : BitVec 3) (w : BitVec 16) :
    b.windowed c w = { b with sr := { b.sr with vwin := w.setWidth 64 }, xf := { b.xf with tags := (b.windowed c w).xf.tags } } := by
  unfold Bank.windowed
  cases retagOf c <;> rfl

/-- The tile of the window takes the tag that the code names, and no other tile a new one. -/
theorem windowed_tags (b : Bank) (c : BitVec 3) {w : BitVec 16} (low : w.toNat ≤ 4032) (n : Nat) :
    vget (b.windowed c w).xf.tags n .i32 =
      if n = w.toNat / 128 then (retagOf c).getD (vget b.xf.tags n .i32) else vget b.xf.tags n .i32 := by
  have tile : w.toNat / 128 < 32 := by omega
  cases named : retagOf c with
  | none => simp [Bank.windowed, named]
  | some g => simp [Bank.windowed, named, vget_vset, tile]

section

variable {s : State} {c : BitVec 3} {w : BitVec 16}

/-- A VWIN whose fields are in order. -/
theorem execVwin_fits (code : c.toNat ≤ 4) (whole : w.toNat % 64 = 0) (low : w.toNat ≤ 4032) :
    exec (.vwin c w) s = if c ≠ 0 ∧ s.tileHeld (w.toNat / 128) = true then .next (s.stall .x)
      else .next ((s.setBank (s.bank.windowed c w)).retire .x 1) := by
  have fits : ¬ (c.toNat > 4 ∨ w.toNat % 64 ≠ 0 ∨ w.toNat > 4032) := by omega
  show execVwin c w s = _
  rw [execVwin, if_neg fits, apply_ite (finish s .x)]
  rfl

/-- A VWIN whose fields are out of order. -/
theorem execVwin_refused (h : 4 < c.toNat ∨ w.toNat % 64 ≠ 0 ∨ 4032 < w.toNat) :
    exec (.vwin c w) s = s.pcFault .x .operandIllegal := if_pos h

end

/-- The frame of a VWIN that completes. -/
theorem retiredX_windowed (s : State) (c : BitVec 3) (w : BitVec 16) :
    RetiredX s ((s.setBank (s.bank.windowed c w)).retire .x 1) 1 := by
  rw [windowed_eq]
  constructor <;> simp [Bank.retire, Bank.advance, Bank.setPc, Bank.setW, Bank.pc, Bank.w, Bank.countSeq, Control.moved, wordOfNat]

theorem sameDevice_retire (s : State) (b : Bank) (st : Stream) (n : Nat) : SameDevice s ((s.setBank b).retire st n) := by
  rw [State.retire, setBank_bank, setBank_setBank]
  exact sameDevice_setBank s _

/-- Settles O35: each immediate instruction is `immX` of its operation, and VWIN is `Bank.windowed`. -/
theorem xImmediates : Obligations.XImmediates := by
  unfold Obligations.XImmediates
  refine ⟨fun s d a k im il => ⟨fun hd ha => ?_, fun first h i mem => ?_⟩,
    fun s c w => ⟨fun code whole low => ⟨fun free => ?_, fun retags held => ?_⟩, fun first h => ?_⟩⟩
  · have ok := xOk_both hd ha
    exact ⟨answersX_answerX rfl ok hd rfl, answersX_answerX rfl ok hd rfl,
      answersX_answerX rfl ok hd (opShl_setWidth _ _), answersX_answerX rfl ok hd (opShl_setWidth _ _),
      answersX_answerX rfl ok hd (opShr_setWidth _ _), answersX_answerX rfl ok hd (opShr_setWidth _ _),
      answersX_answerX rfl ok hd (opSra_setWidth _ _), answersX_answerX rfl ok hd (opSra_setWidth _ _),
      answersX_answerX rfl ok hd (opRotr_setWidth _ _), answersX_answerX rfl ok hd (opRotr_setWidth _ _)⟩
  · have refused := xOk_either h
    simp only [List.mem_cons, List.not_mem_nil, or_false] at mem
    obtain rfl | rfl | rfl | rfl | rfl | rfl | rfl | rfl | rfl | rfl := mem
    all_goals exact raised_answerX rfl refused first
  · have runs : ¬ (c ≠ 0 ∧ s.tileHeld (w.toNat / 128) = true) := fun ⟨retags, held⟩ =>
      free.elim retags (fun clear => Bool.false_ne_true (clear.symm.trans held))
    refine ⟨_, (execVwin_fits code whole low).trans (if_neg runs), ?_, fun n hn => ?_, ?_, ?_, ?_, ?_, ⟨?_, ?_, ?_⟩,
      retiredX_windowed s c w, sameDevice_retire s _ .x 1⟩
    · rw [windowed_eq]
      simp [Bank.retire, Bank.advance, Bank.setPc, Bank.setW, Bank.countSeq]
    · rw [retire_bank, bankRetire_xf, setBank_bank, windowed_tags _ _ low]
      by_cases here : n = w.toNat / 128
      · obtain rfl | rfl | rfl | rfl | rfl := retagCode_cases code <;> simp [here, retagOf]
      · rw [if_neg here, if_neg fun both => here both.1]
    all_goals
      rw [windowed_eq]
      simp
  · exact ⟨_, (execVwin_fits code whole low).trans (if_pos ⟨retags, held⟩), waits_stall s .x⟩
  · exact raised_pcFault _ s .x .operandIllegal first (execVwin_refused h)

end Sys2Proof.Machine
end

section
/-! PROOFS. The matrix instructions and the steps of the tile engine (R157, R185 to R187, R192 to R203). -/

namespace Sys2Proof.Machine

open Sys2Proof

/-! ### Writes at distinct keys

The lanes of a row, the rows of a K-step and the bytes of a write-back are each a fold of writes, of which no two have one key:
what stands at a key afterwards is what its own write makes of what stood there before. -/

theorem foldl_writes {σ α κ β : Type} [DecidableEq κ] (get : σ → κ → β) (key : α → κ) (upd : α → β → β) (step : σ → α → σ)
    (good : σ → Prop) (l : List α)
    (write : ∀ a ∈ l, ∀ s, good s → good (step s a) ∧ ∀ k, get (step s a) k = if k = key a then upd a (get s k) else get s k)
    (apart : (l.map key).Nodup) : ∀ s, good s → good (l.foldl step s) ∧
      (∀ a ∈ l, get (l.foldl step s) (key a) = upd a (get s (key a))) ∧ ∀ k, k ∉ l.map key → get (l.foldl step s) k = get s k := by
  induction l with
  | nil => exact fun s hs => ⟨hs, fun _ h => absurd h List.not_mem_nil, fun _ _ => rfl⟩
  | cons a t ih =>
    intro s hs
    obtain ⟨kept, after⟩ := write a List.mem_cons_self s hs
    obtain ⟨fresh, apart⟩ := List.nodup_cons.mp apart
    obtain ⟨ends, there, others⟩ := ih (fun b hb => write b (List.mem_cons_of_mem a hb)) apart (step s a) kept
    refine ⟨ends, fun b hb => ?_, fun k hk => ?_⟩
    · rcases List.mem_cons.mp hb with rfl | hb
      · exact (others _ fresh).trans ((after _).trans (if_pos rfl))
      · have other : key b ≠ key a := fun e => fresh (e ▸ List.mem_map_of_mem hb)
        rw [List.foldl_cons, there b hb, after, if_neg other]
    · rw [List.map_cons, List.mem_cons, not_or] at hk
      rw [List.foldl_cons, others k hk.2, after, if_neg hk.1]

theorem mem_range_zip {α : Type} {l : List α} {n i : Nat} (d : α) (size : l.length = n) (h : i < n) :
    (i, l.getD i d) ∈ (List.range n).zip l := by
  refine List.mem_iff_getElem.mpr ⟨i, by simpa [size] using h, ?_⟩
  simp [size, h]

theorem map_range_zip {α β : Type} {l : List α} {n : Nat} (f : Nat → β) (size : l.length = n) :
    ((List.range n).zip l).map (fun p => f p.1) = (List.range n).map f := by
  rw [show (fun p : Nat × α => f p.1) = f ∘ Prod.fst from rfl, ← List.map_map, List.map_fst_zip (by simp [size])]

/-- Bytes written at distinct keys are read there, and nothing else has changed. -/
theorem memGet_memWriteAll {m : Memory} {l : List (Nat × Byte)} (wf : m.wf = true) (apart : (l.map (·.1)).Nodup) :
    (∀ p ∈ l, memGet (memWriteAll m l) p.1 = p.2) ∧ ∀ k, k ∉ l.map (·.1) → memGet (memWriteAll m l) k = memGet m k :=
  (foldl_writes memGet (fun p : Nat × Byte => p.1) (fun p _ => p.2) _ (fun m => m.wf = true) l
    (fun p _ m wf => ⟨memPut_wf m p.1 p.2 wf, fun k => memGet_memPut m p.1 k p.2 wf⟩) apart m wf).2

/-! ### Elements of a row -/

theorem getLsbD_putField {w : Nat} (v : BitVec w) (lo n x i : Nat) (inside : lo + n ≤ w) :
    (putField v lo n x).getLsbD i = if lo ≤ i ∧ i < lo + n then x.testBit (i - lo) else v.getLsbD i := by
  simp only [putField, BitVec.getLsbD_or, BitVec.getLsbD_and, BitVec.getLsbD_not, BitVec.getLsbD_ofNat, Nat.testBit_shiftLeft,
    Nat.testBit_two_pow_sub_one, Nat.testBit_mod_two_pow]
  by_cases h : lo ≤ i ∧ i < lo + n
  · have inW : i < w := by omega
    have below : i - lo < n := by omega
    simp [h, inW, below]
  · by_cases inW : i < w
    · by_cases low : lo ≤ i
      · have above : ¬ i - lo < n := by omega
        rw [if_neg h]
        simp [inW, low, above]
      · simp [inW, low]
    · simp [h, inW, BitVec.getLsbD_of_ge v i (by omega)]

theorem testBit_field {w : Nat} (v : BitVec w) (lo n k : Nat) : (field v lo n).testBit k = (decide (k < n) && v.getLsbD (lo + k)) := by
  rw [field, BitVec.testBit_toNat, BitVec.getLsbD_extractLsb']

/-- A 32-bit lane that is replaced, and the other lanes. -/
theorem rowElem_putElem (r : Row) {i : Nat} (v j : Nat) (h : i < 128) :
    rowElem (putElem r 32 i v) 32 j = if j = i then v % 2 ^ 32 else rowElem r 32 j := by
  apply Nat.eq_of_testBit_eq
  intro k
  have bits := fun p => getLsbD_putField r (32 * i) 32 v p (by omega)
  rw [rowElem, testBit_field, putElem, bits]
  by_cases low : k < 32
  · by_cases here : j = i
    · have inside : 32 * i ≤ 32 * j + k ∧ 32 * j + k < 32 * i + 32 := by omega
      rw [if_pos inside, if_pos here, Nat.testBit_mod_two_pow, here, Nat.add_sub_cancel_left]
    · have outside : ¬ (32 * i ≤ 32 * j + k ∧ 32 * j + k < 32 * i + 32) := by omega
      rw [if_neg outside, if_neg here, rowElem, testBit_field]
  · by_cases here : j = i
    · rw [if_pos here, Nat.testBit_mod_two_pow]
      simp [low]
    · rw [if_neg here, rowElem, testBit_field]
      simp [low]

/-! ### A K-step -/

/-- What a step leaves in a lane of its result that held `old` (R196). -/
def MmaOp.lane (o : MmaOp) (old : Nat) (pairs : List (Num × Num)) : Nat :=
  (laneStep (placeInt o.place) (o.daz && o.step == 0) o.ftz old pairs).1 % 2 ^ 32

/-- An integer lane gains its products modulo 2^32; any other is rounded as `laneStep` does. -/
theorem lane_eq (o : MmaOp) (old : Nat) (pairs : List (Num × Num)) : o.lane old pairs =
    if placeInt o.place = true then
      (((old : Int) + (pairs.map fun (p : Num × Num) => numInt p.1 * numInt p.2).sum) % 2 ^ 32).toNat
    else (laneStep false (o.daz && o.step == 0) o.ftz old pairs).1 % 2 ^ 32 := by
  rw [MmaOp.lane]
  cases placeInt o.place with
  | false => rfl
  | true =>
    rw [if_pos rfl, laneStep, if_pos rfl, laneStepI, ← List.sum_eq_foldl]
    omega

/-- One lane of a step's result row: its new value, and the flags so far. -/
def MmaOp.stepLane (o : MmaOp) (old : Row) (a : List Num) (acc : Row × Flags) (p : Nat × List Num) : Row × Flags :=
  let i := placeClane o.place + p.1
  let r := laneStep (placeInt o.place) (o.daz && o.step == 0) o.ftz (rowElem old 32 i) (a.zip p.2)
  (putElem acc.1 32 i r.1, acc.2 ||| r.2)

theorem stepRow_eq (o : MmaOp) (old : Row) (a : List Num) (bs : List (List Num)) :
    stepRow o old a bs = ((List.range o.n).zip bs).foldl (o.stepLane old a) (old, 0) := rfl

/-- The lanes of a step's result row: those of the nest's columns are stepped, and no other lane changes. -/
theorem rowElem_stepRow (o : MmaOp) (old : Row) (a : List Num) {bs : List (List Num)} (size : bs.length = o.n)
    (fits : placeClane o.place + o.n ≤ 128) (j : Nat) :
    rowElem (stepRow o old a bs).1 32 j =
      if placeClane o.place ≤ j ∧ j < placeClane o.place + o.n then
        o.lane (rowElem old 32 j) (a.zip (bs.getD (j - placeClane o.place) []))
      else rowElem old 32 j := by
  have keys := map_range_zip (fun i => placeClane o.place + i) size
  obtain ⟨-, there, others⟩ := foldl_writes (fun (r : Row × Flags) j => rowElem r.1 32 j)
    (fun p : Nat × List Num => placeClane o.place + p.1)
    (fun p _ => o.lane (rowElem old 32 (placeClane o.place + p.1)) (a.zip p.2)) (o.stepLane old a) (fun _ => True)
    ((List.range o.n).zip bs)
    (fun p hp r _ => ⟨trivial, fun j => rowElem_putElem r.1 _ j
      (Nat.lt_of_lt_of_le (Nat.add_lt_add_left (List.mem_range.mp (List.of_mem_zip hp).1) _) fits)⟩)
    (by rw [keys]; exact List.nodup_range.map (add_right_injective _)) (old, 0) trivial
  rw [stepRow_eq]
  by_cases h : placeClane o.place ≤ j ∧ j < placeClane o.place + o.n
  · obtain ⟨i, rfl⟩ := Nat.exists_eq_add_of_le h.1
    rw [if_pos h, Nat.add_sub_cancel_left]
    exact there _ (mem_range_zip [] size (by omega))
  · rw [if_neg h]
    refine others j ?_
    rw [keys, List.mem_map]
    rintro ⟨i, hi, rfl⟩
    exact h ⟨Nat.le_add_right _ _, Nat.add_lt_add_left (List.mem_range.mp hi) _⟩

/-- `c` is the bank `b` but for its rows, which are in ascending order. -/
def OnlyRows (b c : Bank) : Prop := rowsAscend c.xf.acc = true ∧ c = { b with xf := { b.xf with acc := c.xf.acc } }

theorem onlyRows_writeRow {b c : Bank} (h : OnlyRows b c) (r : Nat) (v : Row) : OnlyRows b (c.writeRow r v) := by
  obtain ⟨asc, same⟩ := h
  refine ⟨rowsAscend_rowPut _ r v asc, ?_⟩
  rw [same]
  rfl

theorem readRow_writeRow {b : Bank} (asc : rowsAscend b.xf.acc = true) (r q : Nat) (v : Row) :
    (b.writeRow r v).readRow q = if q = r then v else b.readRow q := rowGet_rowPut _ r q v asc

/-- The first result row of the step that a nest is at. -/
def MmaOp.stepFirst (o : MmaOp) : Int := (placeCrow o.place : Int) + offsetAt (·.sc) o.levels o.iter

/-- One row of a step: the bank with it, and the flags so far. -/
def MmaOp.stepBank (o : MmaOp) (bs : List (List Num)) (acc : Bank × Flags) (p : Nat × List Num) : Bank × Flags :=
  let r := (o.stepFirst + p.1).toNat
  let q := stepRow o (acc.1.readRow r) p.2 bs
  (acc.1.writeRow r q.1, acc.2 ||| q.2)

section

variable (s : State) (x c : Nat) (b : Bank) (o : MmaOp)

theorem nestStep_eq : nestStep s x c b o =
    ((List.range o.m).zip (operandA s x c b o (kStep (sdTy o.sdb).width) o.stepLen)).foldl
      (o.stepBank (operandB s x c o o.stepLen)) (b, 0) := rfl

theorem length_operandA (k n : Nat) : (operandA s x c b o k n).length = o.m := by simp [operandA]

theorem length_operandB (n : Nat) : (operandB s x c o n).length = o.n := by simp [operandB]

/-- The rows that a step leaves: those of the result by `stepRow`, and every other row as it was. -/
theorem nestStep_rows (asc : rowsAscend b.xf.acc = true) (low : 0 ≤ o.stepFirst) :
    OnlyRows b (nestStep s x c b o).1 ∧
    (∀ i, i < o.m → (nestStep s x c b o).1.readRow (o.stepFirst.toNat + i) =
      (stepRow o (b.readRow (o.stepFirst.toNat + i))
        ((operandA s x c b o (kStep (sdTy o.sdb).width) o.stepLen).getD i []) (operandB s x c o o.stepLen)).1) ∧
    ∀ r : Nat, (r : Int) < o.stepFirst ∨ o.stepFirst + o.m ≤ r → (nestStep s x c b o).1.readRow r = b.readRow r := by
  have size := length_operandA s x c b o (kStep (sdTy o.sdb).width) o.stepLen
  have keys := map_range_zip (fun i : Nat => (o.stepFirst + (i : Nat)).toNat) size
  obtain ⟨only, there, others⟩ := foldl_writes (fun (z : Bank × Flags) r => z.1.readRow r)
    (fun p : Nat × List Num => (o.stepFirst + (p.1 : Nat)).toNat)
    (fun p old => (stepRow o old p.2 (operandB s x c o o.stepLen)).1) (o.stepBank (operandB s x c o o.stepLen))
    (fun z => OnlyRows b z.1) ((List.range o.m).zip (operandA s x c b o (kStep (sdTy o.sdb).width) o.stepLen))
    (fun p _ z only => ⟨onlyRows_writeRow only _ _, fun r => (readRow_writeRow only.1 _ r _).trans (by
      split_ifs with h
      · rw [h]
      · rfl)⟩)
    (by
      rw [keys]
      exact List.nodup_range.map fun i j (h : (o.stepFirst + (i : Nat)).toNat = (o.stepFirst + (j : Nat)).toNat) => by omega)
    (b, 0) ⟨asc, rfl⟩
  rw [nestStep_eq]
  refine ⟨only, fun i hi => ?_, fun r hr => ?_⟩
  · have key : o.stepFirst.toNat + i = (o.stepFirst + (i : Nat)).toNat := by omega
    rw [key]
    exact there _ (mem_range_zip [] size hi)
  · refine others r ?_
    rw [keys, List.mem_map]
    rintro ⟨i, hi, rfl⟩
    have := List.mem_range.mp hi
    omega

/-- The lanes of the rows that a step leaves: those of the nest's columns are stepped. -/
theorem nestStep_lane (asc : rowsAscend b.xf.acc = true) (low : 0 ≤ o.stepFirst) (fits : placeClane o.place + o.n ≤ 128) {i : Nat}
    (hi : i < o.m) (j : Nat) : rowElem ((nestStep s x c b o).1.readRow (o.stepFirst.toNat + i)) 32 j =
      if placeClane o.place ≤ j ∧ j < placeClane o.place + o.n then
        o.lane (rowElem (b.readRow (o.stepFirst.toNat + i)) 32 j)
          (((operandA s x c b o (kStep (sdTy o.sdb).width) o.stepLen).getD i []).zip
            ((operandB s x c o o.stepLen).getD (j - placeClane o.place) []))
      else rowElem (b.readRow (o.stepFirst.toNat + i)) 32 j := by
  obtain ⟨-, there, -⟩ := nestStep_rows s x c b o asc low
  rw [there i hi]
  exact rowElem_stepRow o _ _ (length_operandB s x c o o.stepLen) fits j

end

/-! ### The engine's queue -/

/-- An operation has joined the queue at the A stream's walk count, and its instruction has retired. -/
theorem forked_retire (s : State) (e : Engines) (work : TileWork) :
    let t := (s.setBank (({ s.bank with eng := e } : Bank).fork work 0)).retire .a 1
    t.bank.eng = { e with tileQ := e.tileQ ++ [⟨s.bank.walk.wa, false, work, 0⟩] } ∧ SameRegs s t ∧ t.bank.q = s.bank.q ∧
      t.bank.sync = s.bank.sync ∧ RetiredA s t 1 ∧ SameDevice s t := by
  obtain ⟨retired, device⟩ := retiredA_setBank s (({ s.bank with eng := e } : Bank).fork work 0) 1 rfl rfl rfl
  refine ⟨?_, ⟨?_, ?_⟩, ?_, ?_, retired, device⟩
  all_goals
    rw [State.retire, setBank_bank]
    simp [Bank.fork]

/-- An operation joins the queue of a bank whose engines are then `e`, or waits for room (R185). -/
def State.joinTileQ (s : State) (e : Engines) (work : TileWork) : Except Stop State :=
  if s.bank.engineRoom then .ok ((s.setBank (({ s.bank with eng := e } : Bank).fork work 0)).retire .a 1) else .error .wait

section

variable {i : Instr} {s : State} {e : Engines} {work : TileWork}

theorem joins_room (h : exec i s = finish s .a (s.joinTileQ e work)) (room : s.bank.eng.tileQ.length < 2) :
    ∃ t, exec i s = .next t ∧ t.bank.eng = { e with tileQ := e.tileQ ++ [⟨s.bank.walk.wa, false, work, 0⟩] } ∧ SameRegs s t ∧
      t.bank.q = s.bank.q ∧ t.bank.sync = s.bank.sync ∧ RetiredA s t 1 ∧ SameDevice s t := by
  refine ⟨_, ?_, forked_retire s e work⟩
  rw [h, State.joinTileQ, Bank.engineRoom, if_pos (decide_eq_true room)]
  rfl

theorem waits_full (h : exec i s = finish s .a (s.joinTileQ e work)) (full : 2 ≤ s.bank.eng.tileQ.length) :
    ∃ t, exec i s = .next t ∧ Waits s t .a := by
  refine ⟨_, ?_, waits_stall s .a⟩
  rw [h, State.joinTileQ, Bank.engineRoom, if_neg (by simpa using Nat.not_lt.mpr full)]
  rfl

end

/-! ### MMA -/

/-- The nest that an MMA issues (R194). -/
def Bank.mmaOp (b : Bank) (sa sb : BitVec 4) (m : BitVec 2) (n d : BitVec 3) (x : BitVec 6) : MmaOp :=
  { sda := b.readSd sa.toNat, sdb := b.readSd sb.toNat, m := rowsOfCode m, n := colsOfCode n, place := b.readA x.toNat,
    levels := b.captureLevels (otherHalf b.eng.activeHalf) d.toNat, daz := (b.controlsA 0).daz, ftz := (b.controlsA 0).ftz,
    iter := 0, step := 0 }

section

variable {s : State} {sa sb : BitVec 4} {m : BitVec 2} {n d : BitVec 3} {x : BitVec 6}

/-- An MMA whose fields are in order: its checks, then the queue. -/
theorem execMma_fits (fits : m ≠ 3 ∧ 1 ≤ d.toNat ∧ d.toNat ≤ 6) : exec (.mma sa sb m n d x) s =
    finish s .a ((s.checkMma (s.bank.mmaOp sa sb m n d x)).bind fun _ =>
      s.joinTileQ { s.bank.eng with activeHalf := otherHalf s.bank.eng.activeHalf } (.mma (s.bank.mmaOp sa sb m n d x))) := by
  obtain ⟨rows, deep, shallow⟩ := fits
  exact if_neg (by rintro (h | h | h); exacts [rows h, by omega, by omega])

theorem execMma_refused (h : ¬ (m ≠ 3 ∧ 1 ≤ d.toNat ∧ d.toNat ≤ 6)) :
    exec (.mma sa sb m n d x) s = s.pcFault .a .operandIllegal := by
  have field : m = 3 ∨ d.toNat = 0 ∨ d.toNat > 6 := by
    by_cases rows : m = 3
    · exact .inl rows
    · exact .inr (by_contra fun fits => h ⟨rows, by omega, by omega⟩)
  exact if_pos field

end

/-- A level as it is captured: it holds the trip that its lc register held at issue (R192). -/
def Bank.captured (b : Bank) (l : NestLevel) : NestLevel :=
  match l.lc with
  | some r => { l with lc := none, trip := (b.readLc r).toNat }
  | none => l

theorem captureLevels_eq (b : Bank) (half : Fin 2) (depth : Nat) :
    b.captureLevels half depth = ((b.eng.nests[half]).toList.take depth).map b.captured := rfl

theorem captureLevels_getElem? (b : Bank) (half : Fin 2) {depth l : Nat} (file : l < 6) (deep : l < depth) :
    (b.captureLevels half depth)[l]? = some (b.captured (vget b.eng.nests[half] l .reset)) := by
  simp [captureLevels_eq, deep, vget, file]

/-! ### MZERO -/

theorem field_word_toNat (v : Word) (lo n : Nat) : field v lo n = v.toNat / 2 ^ lo % 2 ^ n := by
  rw [field, BitVec.extractLsb'_toNat, Nat.shiftRight_eq_div_pow]

/-- MZERO: the check of its rows, then the queue (R199). -/
theorem execMzero_eq {s : State} {a : BitVec 6} : exec (.mzero a) s =
    let v := (s.bank.readA a.toNat).toNat
    let first := v % 4096
    let count := v / 4096 % 8192
    finish s .a (if count ≠ 0 ∧ v / 2 ^ 25 = 0 ∧ first + count ≤ 4096 then s.joinTileQ s.bank.eng (.mzero first count)
      else badFormat) := by
  have word := (s.bank.readA a.toNat).isLt
  have first : field (s.bank.readA a.toNat) 0 12 = (s.bank.readA a.toNat).toNat % 4096 := by
    rw [field_word_toNat]
    omega
  have count : field (s.bank.readA a.toNat) 12 13 = (s.bank.readA a.toNat).toNat / 4096 % 8192 := field_word_toNat _ _ _
  have rest : field (s.bank.readA a.toNat) 25 39 = (s.bank.readA a.toNat).toNat / 2 ^ 25 := by
    rw [field_word_toNat]
    omega
  show execMzero a s = _
  rw [execMzero, first, count, rest]
  simp only [require, Bool.and_eq_true, bne_iff_ne, beq_iff_eq, decide_eq_true_eq, and_assoc]
  by_cases fits : (s.bank.readA a.toNat).toNat / 4096 % 8192 ≠ 0 ∧ (s.bank.readA a.toNat).toNat / 2 ^ 25 = 0 ∧
      (s.bank.readA a.toNat).toNat % 4096 + (s.bank.readA a.toNat).toNat / 4096 % 8192 ≤ 4096
  · rw [if_pos fits, if_pos fits]
    rfl
  · rw [if_neg fits, if_neg fits]
    rfl

/-! ### MWB -/

/-- The plain write-back that an MWB issues (R201 to R203). -/
def Bank.mwbOf (b : Bank) (raw : Bool) (d : BitVec 4) (m : BitVec 2) (n : BitVec 3) (z : BitVec 6) (desc : Option Desc)
    (parts : List RowPart) : MwbOp :=
  let k := b.controlsA (field (b.readA z.toNat) 24 3)
  ⟨b.readSd d.toNat, b.readA z.toNat, rowsOfCode m, colsOfCode n, raw, k.rm, k.daz, k.ftz, (desc.map (·.ieee)).getD false,
    framesOf parts, desc.map fun t => (t.record, t.hbase)⟩

/-- A plain MWB whose checks pass goes to the queue. -/
theorem mwbOp_plain {s : State} {raw : Bool} {d : BitVec 4} {m : BitVec 2} {n : BitVec 3} {z b : BitVec 6} {desc : Option Desc}
    {parts : List RowPart} (rows : m ≠ 3) (plain : quantising (s.bank.readSd d.toNat) raw = false)
    (place : mwbPlaceOk (s.bank.readA z.toNat) (rowsOfCode m) (colsOfCode n) false b.toNat (s.bank.readA b.toNat) = true)
    (fixed : (s.bank.controlsA (field (s.bank.readA z.toNat) 24 3)).rm ≠ 6)
    (bare : raw = true → sdTv (s.bank.readSd d.toNat) = false ∧ sdBgeom (s.bank.readSd d.toNat) = 0)
    (checked : s.checkSd (s.bank.readSd d.toNat) (storedRows (s.bank.readSd d.toNat) (rowsOfCode m) (colsOfCode n)).2 .w = .ok desc)
    (located : s.mwbParts (s.bank.readSd d.toNat) (rowsOfCode m) (colsOfCode n)
      (storedRows (s.bank.readSd d.toNat) (rowsOfCode m) (colsOfCode n)).1 = .ok parts) :
    mwbOp raw d m n z b s = finish s .a (s.joinTileQ s.bank.eng (.mwb (s.bank.mwbOf raw d m n z desc parts))) := by
  have unmarked : (!raw || (!sdTv (s.bank.readSd d.toNat) && sdBgeom (s.bank.readSd d.toNat) == 0)) = true := by
    cases raw with
    | false => rfl
    | true => simp [bare rfl]
  have steady : (s.bank.controlsA (field (s.bank.readA z.toNat) 24 3)).stochastic = false := by simp [Controls.stochastic, fixed]
  refine (if_neg rows).trans ?_
  simp only [plain, place, checked, unmarked, steady, located, require, Bool.not_false, Bool.false_eq_true, if_true, if_false]
  cases desc <;> rfl

/-! ### The steps of the engine -/

theorem setHead_eq {b : Bank} {o p : TileOp} {rest : List TileOp} (head : b.eng.tileQ = o :: rest) :
    b.setHead p = { b with eng := { b.eng with tileQ := p :: rest } } := by rw [Bank.setHead, head, List.tail_cons]

theorem retireTile_eq {b : Bank} {o : TileOp} {rest : List TileOp} (head : b.eng.tileQ = o :: rest) (f : Flags) :
    b.retireTile f = { b with eng := { b.eng with
      tileQ := rest, tileFlags := b.eng.tileFlags ++ [(o.walk, o.flags ||| f)], engSeq := b.eng.engSeq + 1 } } := by
  rw [Bank.retireTile, head]

section

variable {s : State} {w : Int} {work : TileWork} {f : Flags} {rest : List TileOp}

theorem startTileOp_starts (head : s.bank.eng.tileQ = ⟨w, false, work, f⟩ :: rest) (runs : s.enginesRun = true)
    (lines : s.linesReady = true) (free : s.xPending w work.tiles = false) (versions : s.versionsOf s.ctxNo work = .ok true) :
    s.startTileOp = s.setBank (s.bank.setHead ⟨w, true, work, f⟩) := by
  simp only [State.startTileOp, head, runs, lines, free, versions]
  rfl

/-- The bank that a K-step leaves: the rows of `nestStep`, the head one step on, and the lanes as the power alarm has them. -/
def State.stepped (s : State) (o : MmaOp) (w : Int) (f : Flags) : Bank :=
  let r := nestStep s s.ctxNo s.cellNo s.bank o
  let b := r.1.setHead ⟨w, true, .mma o.advance, f ||| r.2⟩
  { b with eng := { b.eng with narrow := s.dev.alarm } }

/-- A K-step that reads no poison, by what it leaves. -/
theorem stepTileOp_steps {o : MmaOp} (head : s.bank.eng.tileQ = ⟨w, true, .mma o, f⟩ :: rest) (more : o.finished = false)
    (stays : (s.ctxAt s.ctxNo).swapping = false) (lines : s.linesReady = true)
    (sound : stepPoison s s.ctxNo s.cellNo o o.stepLen = none) :
    s.stepTileOp.cur = s.cur ∧ s.stepTileOp.mem = s.mem ∧ s.stepTileOp.bank = s.stepped o w f := by
  have steps : ∃ g, s.stepTileOp = if s.dev.alarm = true then (s.setBank (s.stepped o w f)).count g
      else s.setBank (s.stepped o w f) := by
    simp only [State.stepTileOp, head, more, stays, lines, sound]
    exact ⟨_, rfl⟩
  obtain ⟨g, steps⟩ := steps
  rw [steps]
  split_ifs
  · exact ⟨rfl, rfl, by rw [count_bank, setBank_bank]⟩
  · exact ⟨rfl, rfl, setBank_bank _ _⟩

/-- A K-step changes rows and the engine only. -/
theorem stepped_eq {o : MmaOp} {p : TileOp} (head : s.bank.eng.tileQ = p :: rest) (asc : rowsAscend s.bank.xf.acc = true)
    (low : 0 ≤ o.stepFirst) : ∃ fl, s.stepped o w f = { s.bank with
      xf := { s.bank.xf with acc := (nestStep s s.ctxNo s.cellNo s.bank o).1.xf.acc }
      eng := { s.bank.eng with tileQ := ⟨w, true, .mma o.advance, f ||| fl⟩ :: rest, narrow := s.dev.alarm } } := by
  obtain ⟨⟨-, same⟩, -, -⟩ := nestStep_rows s s.ctxNo s.cellNo s.bank o asc low
  have engine : (nestStep s s.ctxNo s.cellNo s.bank o).1.eng = s.bank.eng := by rw [same]
  refine ⟨(nestStep s s.ctxNo s.cellNo s.bank o).2, ?_⟩
  rw [State.stepped, setHead_eq (engine ▸ head), same]

theorem finishTileOp_mma {o : MmaOp} (head : s.bank.eng.tileQ = ⟨w, true, .mma o, f⟩ :: rest) (lines : s.linesReady = true)
    (done : o.finished = true) : s.finishTileOp = s.setBank (s.bank.retireTile 0) := by
  simp only [State.finishTileOp, head, lines, done]
  rfl

theorem finishTileOp_mzero {r n : Nat} (head : s.bank.eng.tileQ = ⟨w, true, .mzero r n, f⟩ :: rest) (lines : s.linesReady = true) :
    s.finishTileOp = s.setBank ((s.bank.zeroRows r n).retireTile 0) := by
  simp only [State.finishTileOp, head, lines]
  rfl

theorem finishTileOp_mwb {o : MwbOp} (head : s.bank.eng.tileQ = ⟨w, true, .mwb o, f⟩ :: rest) (lines : s.linesReady = true) :
    s.finishTileOp = s.finishMwb o := by
  simp only [State.finishTileOp, head, lines]
  rfl

theorem putBytes_sound (sound : s.dev.poisoned = []) (l : List (Nat × Byte)) :
    s.putBytes l = .ok { s with mem := memWriteAll s.mem l, dev := { s.dev with poisoned := [] } } := by
  simp [State.putBytes, sound]

/-- A plain write-back of a tensor that shows nothing, from rows and to memory without poison. -/
theorem finishMwb_plain {o : MwbOp} (hidden : o.shown = none) (sound : s.dev.poisoned = []) (rows : o.poison s.bank = none) :
    ∃ fl, s.finishMwb o = ({ s with
      mem := memWriteAll s.mem (o.writes s.ctxNo s.cellNo (o.codes s.bank fun _ _ => -(sdEts o.sd)))
      dev := { s.dev with poisoned := [] } } : State).setBank (s.bank.retireTile fl) := by
  simp only [State.finishMwb, rows, putBytes_sound sound, hidden]
  exact ⟨_, rfl⟩

end

/-- MZERO's rows read zero and no other row has changed; its bank differs in the rows and their poison only. -/
theorem zeroRows_spec (b : Bank) (r : Nat) (asc : rowsAscend b.xf.acc = true) (n : Nat) :
    rowsAscend (b.zeroRows r n).xf.acc = true ∧
    (b.zeroRows r n = { b with xf := { b.xf with acc := (b.zeroRows r n).xf.acc, bad := (b.zeroRows r n).xf.bad } }) ∧
    ∀ q, (b.zeroRows r n).readRow q = if r ≤ q ∧ q < r + n then 0 else b.readRow q := by
  induction n with
  | zero => exact ⟨asc, rfl, fun q => (if_neg (by omega)).symm⟩
  | succ n ih =>
    obtain ⟨asc, same, rows⟩ := ih
    refine ⟨rowsAscend_rowPut _ _ _ asc, ?_, fun q => ?_⟩
    · rw [Bank.zeroRows, same]
      rfl
    · refine (readRow_writeRow asc (r + n) q 0).trans ?_
      rw [rows]
      grind

/-- The state in which a step of a cell is done: that cell moves. -/
def State.movingAt (s : State) {cell : Nat} (h : cell < 256) : State := { s with cur := ⟨cell, h⟩ }

/-- A step of one cell, by the bank that it leaves there. -/
theorem onCell_moves (s : State) {cell : Nat} (h : cell < 256) (f : State → State) {b : Bank}
    (cur : (f (s.movingAt h)).cur = ⟨cell, h⟩) (bank : (f (s.movingAt h)).bank = b) :
    ∃ t, s.onCell cell f = .next t ∧ (t.cellAt cell).active = b ∧ t.mem = (f (s.movingAt h)).mem ∧
      t = { f (s.movingAt h) with cur := s.cur } :=
  ⟨_, onCell_runs s cell h f, (cellAt_active_moved _ cell h s.cur cur).trans bank, rfl, rfl⟩

/-- A step of one cell that replaces its bank only. -/
theorem onCell_setBank (s : State) {cell : Nat} (h : cell < 256) (f : State → State) {b : Bank}
    (e : f (s.movingAt h) = (s.movingAt h).setBank b) :
    ∃ t, s.onCell cell f = .next t ∧ (t.cellAt cell).active = b ∧ SameMemory s t ∧
      t = s.setCell cell { s.cellAt cell with active := (t.cellAt cell).active } := by
  obtain ⟨t, ran, after, mem, whole⟩ := onCell_moves s h f (congrArg State.cur e) ((congrArg State.bank e).trans (setBank_bank _ _))
  refine ⟨t, ran, after, fun k => ?_, ?_⟩
  · rw [mem, e]
    rfl
  · rw [after, whole, e, State.setBank, ← setCell_cellNo, ← cellAt_cellNo]
    rfl

/-- Settles O46: an instruction is refused, or joins the queue or waits (`joins_room`, `waits_full`); a step of the engine is a
new bank of its cell. -/
theorem matrixEngine : Obligations.MatrixEngine := by
  unfold Obligations.MatrixEngine
  refine ⟨fun s a b m n d x => ⟨fun fits checked => ?_, fun ok => ⟨fun c g fits failed => ?_, fun refused => ?_⟩,
      fun l file deep => ?_⟩,
    fun s a => ⟨fun fits room => ?_, fun fits full => ?_, fun ok refused => ?_⟩,
    fun s raw d m n z b i form => ⟨fun ok rows => ?_, fun rows plain place fixed bare desc parts checked located => ?_⟩,
    fun s cell h w st work f rest head lines => ?_⟩
  · have joins := execMma_fits (s := s) (sa := a) (sb := b) (n := n) (x := x) fits
    rw [show s.checkMma (s.bank.mmaOp a b m n d x) = .ok () from checked] at joins
    exact ⟨joins_room joins, waits_full joins⟩
  · refine ⟨_, (execMma_fits fits).trans ?_, raised_raise s .a c g ok⟩
    rw [show s.checkMma (s.bank.mmaOp a b m n d x) = .error (.fault c g) from failed]
    rfl
  · exact raised_pcFault _ s .a .operandIllegal ok (execMma_refused refused)
  · exact captureLevels_getElem? s.bank (otherHalf s.bank.eng.activeHalf) file deep
  · exact joins_room (execMzero_eq.trans (congrArg (finish s .a) (if_pos fits))) room
  · exact waits_full (execMzero_eq.trans (congrArg (finish s .a) (if_pos fits))) full
  · exact ⟨_, execMzero_eq.trans (congrArg (finish s .a) (if_neg refused)), raised_raise s .a _ _ ok⟩
  · obtain ⟨rfl, rfl⟩ | ⟨rfl, rfl, rfl⟩ := form
    all_goals exact raised_pcFault _ s .a .operandIllegal ok (if_pos rows)
  · have joins : exec i s = finish s .a (s.joinTileQ s.bank.eng (.mwb (s.bank.mwbOf raw d m n z desc parts))) := by
      have plain := mwbOp_plain rows plain place fixed bare checked located
      obtain ⟨rfl, rfl⟩ | ⟨rfl, rfl, rfl⟩ := form <;> exact plain
    exact ⟨joins_room joins, waits_full joins⟩
  · replace head : (s.movingAt h).bank.eng.tileQ = ⟨w, st, work, f⟩ :: rest := head
    refine ⟨fun idle runs free versions => ?_, fun o started nest more stays sound low fits asc => ?_,
      fun started => ⟨fun o nest done => ?_, fun r n zeroes asc => ?_, fun o store hidden clean rows wf apart => ?_⟩⟩
    · subst idle
      obtain ⟨t, ran, after, -, whole⟩ := onCell_setBank s h _ (startTileOp_starts head runs lines free versions)
      exact ⟨t, ran, after.trans (setHead_eq head), whole⟩
    · subst started nest
      obtain ⟨cur, mem, bank⟩ := stepTileOp_steps head more stays lines sound
      obtain ⟨fl, left⟩ := stepped_eq head asc low
      obtain ⟨-, -, others⟩ := nestStep_rows (s.movingAt h) _ cell _ o asc low
      obtain ⟨t, ran, after, same, -⟩ := onCell_moves s h _ cur (bank.trans left)
      have leaves := fun {α : Type} (part : Bank → α) => congrArg part after
      refine ⟨t, fl, ran, fun i j hi hj => ?_, fun r hr => (leaves fun b => b.readRow r).trans (others r hr),
        leaves Bank.eng, leaves Bank.af, leaves Bank.sr, leaves fun b => b.xf.x, leaves fun b => b.xf.p,
        leaves fun b => b.xf.tags, fun k => congrArg (memGet · k) (same.trans mem)⟩
      refine (leaves fun b => rowElem (b.readRow _) 32 j).trans ((nestStep_lane _ _ cell _ o asc low fits hi j).trans ?_)
      rw [lane_eq]
      rfl
    · subst started nest
      obtain ⟨t, ran, after, mem, -⟩ := onCell_setBank s h _ (finishTileOp_mma head lines done)
      have leaves := fun {α : Type} (part : Bank → α) => congrArg part (after.trans (retireTile_eq head 0))
      exact ⟨t, ran, leaves Bank.eng, leaves Bank.xf, leaves Bank.af, leaves Bank.sr, mem⟩
    · subst started zeroes
      obtain ⟨-, same, zero⟩ := zeroRows_spec (s.movingAt h).bank r asc n
      have queue := (congrArg (fun b : Bank => b.eng.tileQ) same).trans head
      obtain ⟨t, ran, after, mem, -⟩ := onCell_setBank s h _ (finishTileOp_mzero head lines)
      have leaves := fun {α : Type} (part : Bank → α) => congrArg part (after.trans (retireTile_eq queue 0))
      have keeps := fun {α : Type} (part : Bank → α) => congrArg part same
      refine ⟨t, ran, (leaves Bank.eng).trans ?_, fun q => (leaves fun b => b.readRow q).trans (zero q),
        (leaves fun b => b.xf.x).trans (keeps fun b => b.xf.x), (leaves fun b => b.xf.p).trans (keeps fun b => b.xf.p),
        (leaves fun b => b.xf.tags).trans (keeps fun b => b.xf.tags), (leaves Bank.af).trans (keeps Bank.af),
        (leaves Bank.sr).trans (keeps Bank.sr), mem⟩
      rw [same]
      rfl
    · subst started store
      obtain ⟨fl, done⟩ := finishMwb_plain (s := s.movingAt h) hidden clean rows
      rw [retireTile_eq head, ← finishTileOp_mwb head lines] at done
      obtain ⟨t, ran, after, mem, -⟩ := onCell_moves s h _ (congrArg State.cur done)
        ((congrArg State.bank done).trans (setBank_bank _ _))
      have leaves := fun {α : Type} (part : Bank → α) => congrArg part after
      have stored := mem.trans (congrArg State.mem done)
      obtain ⟨written, others⟩ := memGet_memWriteAll wf apart
      exact ⟨t, fl, ran, leaves Bank.eng, fun p hp => (congrArg (memGet · p.1) stored).trans (written p hp),
        fun k hk => (congrArg (memGet · k) stored).trans (others k hk), leaves Bank.xf, leaves Bank.af, leaves Bank.sr⟩

end Sys2Proof.Machine
end

section
/-! PROOFS. INVR, INVA, PROBE and FREPLAY (R222 to R225). -/

namespace Sys2Proof.Machine

open Sys2Proof

/-! ### The moving cell among the cells -/

theorem setBank_eq_setCell (s : State) (b : Bank) : s.setBank b = s.setCell s.cellNo { s.cellAt s.cellNo with active := b } := by
  rw [setCell_cellNo, cellAt_cellNo, State.setBank]

/-- A change of the moving bank leaves the other cells alone, and of its own cell all but that bank. -/
theorem setBank_cellAt (s : State) (b : Bank) (c : Nat) :
    (s.setBank b).cellAt c = { s.cellAt c with active := if c = s.cellNo then b else (s.cellAt c).active } := by
  rw [setBank_eq_setCell]
  by_cases here : c = s.cellNo
  · rw [here, setCell_cellAt _ s.cellNo _ s.cur.isLt, if_pos rfl]
  · rw [setCell_cellAt_ne _ _ _ _ (Ne.symm here), if_neg here]

theorem setBank_tlb (s : State) (b : Bank) (c : Nat) : ((s.setBank b).cellAt c).tlb = (s.cellAt c).tlb := by
  rw [setBank_cellAt]

/-! ### Invalidations (R223) -/

/-- The translations that the range covers are gone from every cell's TLB, and no others. -/
abbrev Dropped (s t : State) (r : InvRange) : Prop :=
  ∀ d e, d < 256 → (e ∈ (t.cellAt d).tlb ↔ e ∈ (s.cellAt d).tlb ∧ r.covers e = false)

theorem dropped_dropTlb (s : State) (r : InvRange) : Dropped s (s.dropTlb r) r := by
  intro d e hd
  rw [State.cellAt, State.dropTlb, vget_map _ _ d (Cell.reset 0) _ hd]
  simp [State.cellAt]

/-- What follows in the moving bank drops no more. -/
theorem Dropped.setBank {s t : State} {r : InvRange} (drop : Dropped s t r) (b : Bank) : Dropped s (t.setBank b) r := by
  intro d e hd
  rw [setBank_tlb]
  exact drop d e hd

@[simp] theorem dropTlb_bank (s : State) (r : InvRange) : (s.dropTlb r).bank = s.bank := by
  simp [State.bank, State.cell, State.dropTlb]

/-- A stall after a change of the bank's control only. -/
theorem waits_ofControl {s u : State} {f : Control → Control} (bank : u.bank = s.bank.mapCtl f) (mem : u.mem = s.mem) :
    Waits s (u.stall .a) .a := by
  obtain ⟨mark, ⟨af, xf⟩, ⟨q, sync, eng⟩, sys, walk, memory⟩ := waits_stall u .a
  rw [bank] at af xf q sync eng sys walk
  exact ⟨mark, ⟨af, xf⟩, ⟨q, sync, eng⟩, sys, walk, fun k => by rw [memory k, mem]⟩

section

variable {i : Instr} {s : State} {r : InvRange} (runs : exec i s = .next (s.invalidate r))

include runs

/-- An invalidation whose uses are settled retires. -/
theorem invalidates_settled (settled : s.bank.ctl.invAck = true ∨ (s.dropTlb r).settled s.ctxNo r = true) :
    ∃ t, exec i s = .next t ∧ SameRegs s t ∧ SameUnits s t ∧ SameMemory s t ∧
      t.bank.sr = { s.bank.sr with pca := s.bank.sr.pca + 4, seqa := s.bank.sr.seqa + 1 } ∧ Dropped s t r := by
  refine ⟨_, runs, ?_⟩
  rw [State.invalidate, if_pos settled, dropTlb_bank]
  obtain ⟨regs, units, sys⟩ := retire_ofControl (setBank_bank (s.dropTlb r) (s.bank.mapCtl _))
  exact ⟨regs, units, fun _ => rfl, sys, ((dropped_dropTlb s r).setBank _).setBank _⟩

/-- An invalidation with a use that is not settled waits, its translations dropped. -/
theorem invalidates_waits (fresh : s.bank.ctl.invAck = false) (used : (s.dropTlb r).settled s.ctxNo r = false) :
    ∃ t, exec i s = .next t ∧ Waits s t .a ∧ Dropped s t r := by
  refine ⟨_, runs, ?_⟩
  rw [State.invalidate, if_neg (by simp [fresh, used]), dropTlb_bank]
  exact ⟨waits_ofControl (setBank_bank _ _) rfl, ((dropped_dropTlb s r).setBank _).setBank _⟩

end

/-! ### The operands of INVR and INVA (R222, R223) -/

section

variable {s : State} {v : Word}

theorem invAsid_wide (wide : 65536 ≤ v.toNat) : s.invAsid v = .error (.fault .operandFormat 0) := by
  have word := v.isLt
  refine if_pos ?_
  rw [field_word_toNat]
  omega

theorem asid_fits (low : v.toNat < 65536) : ¬ field v 16 48 ≠ 0 := by
  rw [field_word_toNat]
  omega

theorem invAsid_own (low : v.toNat < 65536) (own : v = s.bank.sr.asid) (plain : (s.ctxAt s.ctxNo).conf = false) :
    s.invAsid v = .ok v.toNat := by
  rw [State.invAsid, if_neg (asid_fits low), if_neg (by simp [own, plain])]

theorem invAsid_foreign (low : v.toNat < 65536) (other : v ≠ s.bank.sr.asid ∨ (s.ctxAt s.ctxNo).conf = true) :
    s.invAsid v = .error (.fault .priv 0) := by
  rw [State.invAsid, if_neg (asid_fits low), if_pos other]

end

section

variable {s : State} {a n im : BitVec 6}

/-- A supervisor's INVR: the ASID, then the range. -/
theorem exec_invr (sup : s.level = .supervisor) : exec (.invr a n im) s = finish s .a (do
    let asid ← s.invAsid (s.bank.readA im.toNat)
    let g := (s.bank.readA a.toNat).toNat
    let len := (s.bank.readA n.toNat).toNat
    if g % 65536 ≠ 0 ∨ len % 65536 ≠ 0 ∨ len = 0 ∨ g + len > 2 ^ 56 then .error (.fault .operandFormat 0)
    else .ok (s.invalidate ⟨asid, g, g + len⟩)) :=
  if_neg (by simp [sup])

/-- A supervisor's INVA: the ASID. -/
theorem exec_inva (sup : s.level = .supervisor) : exec (.inva im) s = finish s .a (do
    let asid ← s.invAsid (s.bank.readA im.toNat)
    .ok (s.invalidate ⟨asid, 0, 2 ^ 56⟩)) :=
  if_neg (by simp [sup])

/-- An ASID that is refused ends both. -/
theorem exec_invalidation_refused {c : Cause} (sup : s.level = .supervisor)
    (refused : s.invAsid (s.bank.readA im.toNat) = .error (.fault c 0)) :
    ∀ i ∈ [Instr.invr a n im, .inva im], exec i s = .next (s.raise .a c 0) := by
  intro i mem
  simp only [List.mem_cons, List.not_mem_nil, or_false] at mem
  obtain rfl | rfl := mem
  · rw [exec_invr sup, refused]
    rfl
  · rw [exec_inva sup, refused]
    rfl

variable (sup : s.level = .supervisor) (own : s.invAsid (s.bank.readA im.toNat) = .ok (s.bank.readA im.toNat).toNat)

include sup own

theorem exec_inva_own : exec (.inva im) s = .next (s.invalidate ⟨(s.bank.readA im.toNat).toNat, 0, 2 ^ 56⟩) := by
  rw [exec_inva sup, own]
  rfl

theorem exec_invr_own (start : (s.bank.readA a.toNat).toNat % 65536 = 0) (whole : (s.bank.readA n.toNat).toNat % 65536 = 0)
    (nonempty : (s.bank.readA n.toNat).toNat ≠ 0) (fits : (s.bank.readA a.toNat).toNat + (s.bank.readA n.toNat).toNat ≤ 2 ^ 56) :
    exec (.invr a n im) s = .next (s.invalidate ⟨(s.bank.readA im.toNat).toNat, (s.bank.readA a.toNat).toNat,
      (s.bank.readA a.toNat).toNat + (s.bank.readA n.toNat).toNat⟩) := by
  rw [exec_invr sup, own]
  simp only [bind, Except.bind]
  rw [if_neg (by omega)]
  rfl

theorem exec_invr_badRange (bad : (s.bank.readA a.toNat).toNat % 65536 ≠ 0 ∨ (s.bank.readA n.toNat).toNat % 65536 ≠ 0 ∨
      (s.bank.readA n.toNat).toNat = 0 ∨ 2 ^ 56 < (s.bank.readA a.toNat).toNat + (s.bank.readA n.toNat).toNat) :
    exec (.invr a n im) s = .next (s.raise .a .operandFormat 0) := by
  rw [exec_invr sup, own]
  simp only [bind, Except.bind]
  rw [if_pos bad]
  rfl

end

/-! ### PROBE (R224) -/

theorem inG_one_iff (g : Nat) : inG g 1 = true ↔ 0x10000 ≤ g ∧ g < 0xFFFF0000000000 := by
  simp only [inG, Bool.and_eq_true, decide_eq_true_eq]
  omega

theorem exec_probe_outside {s : State} {d a : BitVec 6} (outside : inG (s.bank.readA a.toNat).toNat 1 = false) :
    exec (.probe d a) s = answerA s 1 d 0x400 :=
  if_pos outside

theorem exec_probe_inside {s : State} {d a : BitVec 6} (inside : inG (s.bank.readA a.toNat).toNat 1 = true)
    (clean : ∀ k, s.lookup (some s.cellNo) s.ctxNo (s.bank.readA a.toNat).toNat ≠ .lost k) :
    exec (.probe d a) s = answerA s 1 d (probeWord s.level (s.ctxAt s.ctxNo).conf
      (keyIn (s.bank.readA a.toNat).toNat (s.lookup (some s.cellNo) s.ctxNo (s.bank.readA a.toNat).toNat))
      (s.lookup (some s.cellNo) s.ctxNo (s.bank.readA a.toNat).toNat)) := by
  show execProbe d a s = _
  rw [execProbe, if_neg (by simp [inside])]
  split
  next k lost => exact absurd lost (clean k)
  next => rfl

/-- The frame that PROBE reports (R224): none to a task, and none in a confidential context. -/
def probeFrame (level : Level) (conf : Bool) (frame : Nat) : Nat := if level = .task ∨ conf then 0 else frame / 65536 % 2 ^ 36

theorem probeFrame_lt (level : Level) (conf : Bool) (frame : Nat) : probeFrame level conf frame < 2 ^ 36 := by
  unfold probeFrame
  split <;> omega

/-- The word of PROBE as a number: its fields at their places. -/
theorem probeWord_leaf_toNat (level : Level) (conf : Bool) (frame : Nat) (x : Xlat) (ord : x.ord < 4) (size : x.size < 4) :
    (probeWord level conf frame (.leaf x)).toNat = x.ord * 2 ^ 62 + probeFrame level conf frame * 2 ^ 16 +
      (if x.ord = 3 then 3 else 0) * 2 ^ 8 + x.size * 2 ^ 6 + x.pin.toNat * 2 ^ 5 + x.ex.toNat * 2 ^ 4 + x.wr.toNat * 2 ^ 3 +
      x.rd.toNat * 2 ^ 2 + x.task.toNat * 2 ^ 1 + x.far.toNat * 2 ^ 0 := by
  have bit : ∀ (b : Bool) (k : Nat), (if b then 2 ^ k else 0) = b.toNat * 2 ^ k := by simp [Bool.toNat, Bool.cond_eq_ite]
  have frame := probeFrame_lt level conf frame
  have pin := x.pin.toNat_lt
  have ex := x.ex.toNat_lt
  have wr := x.wr.toNat_lt
  have rd := x.rd.toNat_lt
  have task := x.task.toNat_lt
  have far := x.far.toNat_lt
  simp only [probeWord, wordOfNat, BitVec.toNat_ofNat, bit]
  rw [← probeFrame]
  refine Nat.mod_eq_of_lt ?_
  split <;> omega

theorem extractLsb'_of_div {w : Word} {lo n k : Nat} (h : w.toNat / 2 ^ lo % 2 ^ n = k) : w.extractLsb' lo n = BitVec.ofNat n k := by
  apply BitVec.eq_of_toNat_eq
  rw [BitVec.extractLsb'_toNat, BitVec.toNat_ofNat, Nat.shiftRight_eq_div_pow, ← h, Nat.mod_mod]

theorem getLsbD_of_div {w : Word} {k : Nat} {b : Bool} (h : w.toNat / 2 ^ k % 2 = b.toNat) : w.getLsbD k = b := by
  rw [BitVec.getLsbD, Nat.testBit_eq_decide_div_mod_eq, h]
  cases b <;> rfl

/-- The fields of the word of PROBE (R224). -/
theorem probeWord_leaf (level : Level) (conf : Bool) (frame : Nat) (x : Xlat) (ord : x.ord < 4) (size : x.size < 4) :
    let w := probeWord level conf frame (.leaf x)
    w.extractLsb' 62 2 = BitVec.ofNat 2 x.ord ∧ w.extractLsb' 8 2 = (if x.ord = 3 then 3#2 else 0#2) ∧
      w.extractLsb' 6 2 = BitVec.ofNat 2 x.size ∧ w.getLsbD 5 = x.pin ∧ w.getLsbD 4 = x.ex ∧ w.getLsbD 3 = x.wr ∧
      w.getLsbD 2 = x.rd ∧ w.getLsbD 1 = x.task ∧ w.getLsbD 0 = x.far ∧
      w.extractLsb' 16 36 = BitVec.ofNat 36 (probeFrame level conf frame) := by
  intro w
  have whole : w.toNat = _ := probeWord_leaf_toNat level conf frame x ord size
  have low := probeFrame_lt level conf frame
  have pin := x.pin.toNat_lt
  have ex := x.ex.toNat_lt
  have wr := x.wr.toNat_lt
  have rd := x.rd.toNat_lt
  have task := x.task.toNat_lt
  have far := x.far.toNat_lt
  have status : (if x.ord = 3 then 3 else 0) < 4 := by split <;> decide
  rw [show (if x.ord = 3 then 3#2 else 0#2) = BitVec.ofNat 2 (if x.ord = 3 then 3 else 0) by split <;> rfl]
  generalize (if x.ord = 3 then 3 else 0) = st at whole status ⊢
  refine ⟨extractLsb'_of_div ?_, extractLsb'_of_div ?_, extractLsb'_of_div ?_, getLsbD_of_div ?_, getLsbD_of_div ?_,
    getLsbD_of_div ?_, getLsbD_of_div ?_, getLsbD_of_div ?_, getLsbD_of_div ?_, extractLsb'_of_div ?_⟩
  all_goals omega

/-! ### A bank changed at its place -/

theorem find?_replaceSaved {x c : Nat} (b : Bank) {l : List SavedBank} {e : SavedBank}
    (found : l.find? (fun e => e.ctx == x && e.cell == c) = some e) :
    (replaceSaved x c b l).find? (fun e => e.ctx == x && e.cell == c) = some { e with bank := b } := by
  induction l with
  | nil => cases found
  | cons a l ih =>
    by_cases here : (a.ctx == x && a.cell == c) = true
    · simp only [List.find?_cons, here, Option.some_inj] at found
      subst found
      simp only [replaceSaved, here, if_true, List.find?_cons]
    · simp only [List.find?_cons, here] at found
      simp only [replaceSaved, List.find?_cons, here, Bool.false_eq_true, if_false]
      exact ih found

/-- A bank that is changed at its place is found there. -/
theorem mapBankIn_bankIn {s : State} {p : BankPlace} {x c : Nat} {b : Bank} (f : Bank → Bank) (there : s.bankIn p x c = some b)
    (inside : p ≠ .saved → c < 256) : (s.mapBankIn p x c f).bankIn p x c = some (f b) := by
  rw [State.mapBankIn, there]
  cases p with
  | active => exact congrArg (fun k : Cell => some k.active) (setCell_cellAt s c _ (inside nofun))
  | shadow => exact congrArg (fun k : Cell => some k.shadow) (setCell_cellAt s c _ (inside nofun))
  | saved =>
    obtain ⟨e, found, -⟩ := Option.map_eq_some_iff.mp there
    exact congrArg (Option.map SavedBank.bank) (find?_replaceSaved (f b) found)
  | none => cases there

theorem mapBankIn_ctxAt (s : State) (p : BankPlace) (x c : Nat) (f : Bank → Bank) (y : Nat) :
    (s.mapBankIn p x c f).ctxAt y = s.ctxAt y := by
  rw [State.mapBankIn]
  split
  · rw [State.ctxAt, setBankIn_ctxs, State.ctxAt]
  · rfl

theorem getElem?_setAt {α : Type} (l : List α) (i : Nat) (y : α) (h : i < (setAt l i y).length) : (setAt l i y)[i]? = some y := by
  induction l generalizing i with
  | nil => cases h
  | cons a l ih =>
    cases i with
    | zero => rfl
    | succ i => exact ih i (Nat.lt_of_succ_lt_succ h)

theorem setCopy_channel (b : Bank) {ch : Nat} (i : Nat) (o : CopyOp) (h : ch < 4) :
    (b.setCopy ch i o).channel ch = setAt (b.channel ch) i o :=
  vget_vset_eq _ _ _ _ h

/-! ### Faults leave the replay entries of a context -/

theorem loseCtx_replays (s : State) (x reason : Nat) (cause fva : Word) (fcell kind : Nat) (fseq tcb frame : Word) (hx : x < 64) :
    ((s.loseCtx x reason cause fva fcell kind fseq tcb frame).ctxAt x).replays = (s.ctxAt x).replays := by
  unfold State.loseCtx
  extract_lets k lost bytes written
  split
  · rfl
  · have same : (lost.ctxAt x).replays = (s.ctxAt x).replays := by rw [setCtx_ctxAt _ _ _ hx]
    rw [State.ctxAt, show ∀ t : State, ((t.leavePlates x true).releaseCells x).ctxs = t.ctxs from fun _ => rfl]
    simp only [written]
    split
    next t saved => rw [saveWrite_ctxs saved, ← State.ctxAt, same]
    next => rw [← State.ctxAt, same]

theorem raiseEngine_ctxs (s : State) (x c : Nat) (f : FaultInfo) : (s.raiseEngine x c f).ctxs = s.ctxs := by
  unfold State.raiseEngine State.setBankOf
  split
  · rfl
  · split_ifs
    · rfl
    · exact setBankIn_ctxs _ _ _ _ _
    · exact setBankIn_ctxs _ _ _ _ _

theorem raiseEngineIn_replays (s : State) (p : BankPlace) (x c : Nat) (f : FaultInfo) (hx : x < 64) :
    ((s.raiseEngineIn p x c f).ctxAt x).replays = (s.ctxAt x).replays := by
  unfold State.raiseEngineIn
  split
  · split_ifs
    · exact loseCtx_replays _ _ _ _ _ _ _ _ _ _ hx
    · rw [State.ctxAt, raiseEngine_ctxs, State.ctxAt]
  · rfl

theorem copyFault_replays (s : State) (p : BankPlace) (x c ch i : Nat) (o : CopyOp) (cause : Cause) (fva : Nat) (hx : x < 64) :
    ((s.copyFault p x c ch i o cause fva).ctxAt x).replays = (s.ctxAt x).replays := by
  rw [State.copyFault, raiseEngineIn_replays _ _ _ _ _ hx, mapBankIn_ctxAt]

/-! ### The copy of a replay token (R220, R225) -/

/-- A bank that is active or a shadow stands on one of the device's cells. -/
theorem places_inside {s : State} {c : Nat} {q : BankPlace × Nat} (mem : q ∈ s.places c) (moves : q.1 ≠ .saved) : c < 256 := by
  by_contra beyond
  have absent : s.cellAt c = .reset 0 := by simp [State.cellAt, vget, beyond]
  simp only [State.places, absent, List.mem_append, List.mem_map] at mem
  obtain (⟨⟨⟩⟩ | ⟨⟨⟩⟩) | ⟨e, -, rfl⟩ := mem
  exact moves rfl

/-- The bank that holds the copy of a token. -/
theorem replayed_bank {s : State} {x c token i : Nat} {p : BankPlace} {o : CopyOp} (h : s.replayed x c token = some (p, i, o)) :
    ∃ b, s.bankIn p x c = some b ∧ (p ≠ .saved → c < 256) := by
  obtain ⟨q, mem, here⟩ := List.exists_of_findSome?_eq_some h
  split at here
  · obtain ⟨b, there, copy⟩ := Option.bind_eq_some_iff.mp here
    split at copy
    · obtain ⟨o, -, ⟨⟩⟩ := Option.map_eq_some_iff.mp copy
      exact ⟨b, there, places_inside mem⟩
    · cases copy
  · cases here

/-- The copy of a token depends on the owners of the banks and on their channels only. -/
theorem replayed_congr {s t : State} {x c : Nat} (places : t.places c = s.places c)
    (channels : ∀ p, (t.bankIn p x c).map (·.channel 2) = (s.bankIn p x c).map (·.channel 2)) (token : Nat) :
    t.replayed x c token = s.replayed x c token := by
  rw [State.replayed, State.replayed, places]
  congr 1
  funext q
  have same := channels q.1
  split
  · cases left : t.bankIn q.1 x c <;> cases right : s.bankIn q.1 x c <;> simp_all
  · rfl

/-- The state in which FREPLAY has retired and freed the slot of a token. -/
def State.freed (s : State) (token : Nat) : State :=
  (s.retire .a 1).setCtx s.ctxNo
    { s.ctxAt s.ctxNo with replays := (s.ctxAt s.ctxNo).replays.filter fun r => r.token != token }

theorem freed_replays (s : State) (token : Nat) (hx : s.ctxNo < 64) :
    ((s.freed token).ctxAt s.ctxNo).replays = (s.ctxAt s.ctxNo).replays.filter fun r => r.token != token := by
  rw [State.freed, setCtx_ctxAt _ _ _ hx]

theorem freed_cellAt (s : State) (token c : Nat) : (s.freed token).cellAt c =
    { s.cellAt c with active := if c = s.cellNo then s.bank.retire .a 1 else (s.cellAt c).active } :=
  setBank_cellAt s (s.bank.retire .a 1) c

/-- The slot that is freed changes no bank's owner and no channel, so the token still names its copy. -/
theorem freed_replayed (s : State) (token x c k : Nat) : (s.freed token).replayed x c k = s.replayed x c k := by
  have shadow : ((s.freed token).cellAt c).shadow = (s.cellAt c).shadow := by rw [freed_cellAt]
  have active : ((s.freed token).cellAt c).active.ctl.owner = (s.cellAt c).active.ctl.owner ∧
      ((s.freed token).cellAt c).active.eng = (s.cellAt c).active.eng := by
    rw [freed_cellAt]
    by_cases here : c = s.cellNo
    · rw [if_pos here, here, cellAt_cellNo, ← State.bank, bankRetire_ctl, bankRetire_eng]
      exact ⟨rfl, rfl⟩
    · rw [if_neg here]
      exact ⟨rfl, rfl⟩
  obtain ⟨owner, eng⟩ := active
  refine replayed_congr ?_ (fun p => ?_) k
  · simp only [State.places, shadow, owner]
    rfl
  · cases p with
    | active => exact congrArg (fun e : Engines => some (vget e.channels 2 [])) eng
    | shadow => exact congrArg (fun b : Bank => some (b.channel 2)) shadow
    | saved | none => rfl

/-- The state in which copy `i` of a bank's channel 2 runs again. -/
def State.resumed (s : State) (p : BankPlace) (x c i : Nat) (o : CopyOp) : State :=
  s.mapBankIn p x c fun b => b.setCopy 2 i { o with phase := .running }

/-- FREPLAY RESUME lets the copy run. -/
theorem freed_resumed {s : State} {p : BankPlace} {x c i k token : Nat} {o : CopyOp} (named : s.replayed x c k = some (p, i, o)) :
    ∃ d, ((s.freed token).resumed p x c i o).bankIn p x c = some d ∧
      (i < (d.channel 2).length → ((d.channel 2)[i]?).map (·.phase) = some .running) := by
  obtain ⟨b, there, inside⟩ := replayed_bank ((freed_replayed s token x c k).trans named)
  refine ⟨_, mapBankIn_bankIn _ there inside, fun held => ?_⟩
  rw [setCopy_channel _ _ _ (by decide)] at held ⊢
  rw [getElem?_setAt _ _ _ held]
  rfl

theorem resumed_replays (s : State) (p : BankPlace) (x c i : Nat) (o : CopyOp) :
    ((s.resumed p x c i o).ctxAt x).replays = (s.ctxAt x).replays :=
  congrArg Ctx.replays (mapBankIn_ctxAt s p x c _ x)

/-- FREPLAY of a token whose copy has gone frees the slot and does nothing else. -/
theorem freed_onlyRetired (s : State) (token : Nat) :
    SameRegs s (s.freed token) ∧ RetiredA s (s.freed token) 1 ∧ SameMemory s (s.freed token) := by
  obtain ⟨⟨af, xf⟩, -, ⟨⟨sys, wa, wx, wmaxx⟩, wmaxa, ctl⟩, -⟩ := onlyRetiredA_retire s 1
  exact ⟨⟨af, xf⟩, ⟨⟨sys, wa, wx, wmaxx⟩, wmaxa, ctl⟩, fun _ => rfl⟩

section

variable {s : State} {t : BitVec 6} {abort : Bool}

/-- Both forms of FREPLAY are the one operation. -/
theorem exec_freplay {i : Instr} (mem : i ∈ [Instr.freplayResume t, .freplayAbort t]) : ∃ abort, exec i s = freplayOp abort t s := by
  simp only [List.mem_cons, List.not_mem_nil, or_false] at mem
  obtain rfl | rfl := mem
  · exact ⟨false, rfl⟩
  · exact ⟨true, rfl⟩

/-- A supervisor's FREPLAY of an outstanding token (R225). -/
theorem freplayOp_found {e : ReplayEntry} (sup : s.level = .supervisor) (low : (s.bank.readA t.toNat).toNat < 2 ^ 32)
    (found : (s.ctxAt s.ctxNo).replays.find? (fun e => e.token == (s.bank.readA t.toNat).toNat) = some e) :
    freplayOp abort t s = match s.replayed s.ctxNo e.cell e.token with
      | none => .next (s.freed e.token)
      | some (p, i, o) =>
        if abort then .next ((s.freed e.token).copyFault p s.ctxNo e.cell 2 i o e.cause e.fva.toNat)
        else .next ((s.freed e.token).resumed p s.ctxNo e.cell i o) := by
  have high : field (s.bank.readA t.toNat) 32 32 = 0 := by
    rw [field_word_toNat]
    omega
  rw [freplayOp, if_neg (by simp [sup])]
  simp only [if_pos high, found]
  rw [← freed_replayed s e.token]
  rfl

/-- A supervisor's FREPLAY of a token that no slot holds. -/
theorem freplayOp_unknown (sup : s.level = .supervisor) (unknown : 2 ^ 32 ≤ (s.bank.readA t.toNat).toNat ∨
      (s.ctxAt s.ctxNo).replays.find? (fun e => e.token == (s.bank.readA t.toNat).toNat) = none) :
    freplayOp abort t s = .next (s.raise .a .operandFormat 0) := by
  have no_slot : (if field (s.bank.readA t.toNat) 32 32 = 0 then
      (s.ctxAt s.ctxNo).replays.find? fun e => e.token == (s.bank.readA t.toNat).toNat else none) = none := by
    have word := (s.bank.readA t.toNat).isLt
    rw [field_word_toNat]
    split_ifs with low
    · exact unknown.resolve_left (by omega)
    · rfl
  rw [freplayOp, if_neg (by simp [sup])]
  simp only [no_slot]

end

/-! ### Task level (R222) -/

theorem exec_page_task {s : State} (a n im : BitVec 6) (task : s.level = .task) :
    ∀ i ∈ [Instr.invr a n im, .inva im, .freplayResume im, .freplayAbort im], exec i s = s.pcFault .a .priv := by
  intro i mem
  simp only [List.mem_cons, List.not_mem_nil, or_false] at mem
  obtain rfl | rfl | rfl | rfl := mem
  all_goals exact if_pos task

/-- Settles O33: each invalidation runs `State.invalidate` of its range once its operands pass, PROBE answers the fields of
`probeWord`, and FREPLAY frees the slot, which leaves the copy of its token where it was. -/
theorem pageInstructions : Obligations.PageInstructions := by
  unfold Obligations.PageInstructions
  intro s a n im g len v c invalidates
  have invalidates_of : ∀ {i : Instr} {r : InvRange}, exec i s = .next (s.invalidate r) → invalidates i r := fun runs =>
    ⟨invalidates_settled runs, invalidates_waits runs⟩
  refine ⟨fun sup own low plain => ?_, fun sup first i mem => ⟨fun wide => ?_, fun low other => ?_⟩, fun above below clean => ?_,
    fun outside => ?_, fun sup hx e found low gone i mem => ?_, fun sup hx e p k o found low named => ?_,
    fun sup first unknown i mem => ?_, fun task first i mem => ?_⟩
  · have asid := invAsid_own low own plain
    exact ⟨fun start whole nonempty fits => invalidates_of (exec_invr_own sup asid start whole nonempty fits),
      invalidates_of (exec_inva_own sup asid),
      fun first bad => ⟨_, exec_invr_badRange sup asid bad, raised_raise s .a _ _ first⟩⟩
  · exact ⟨_, exec_invalidation_refused sup (invAsid_wide wide) i mem, raised_raise s .a _ _ first⟩
  · exact ⟨_, exec_invalidation_refused sup (invAsid_foreign low other) i mem, raised_raise s .a _ _ first⟩
  · refine ⟨_, answersA_of _ s 1 n _ (exec_probe_inside ((inG_one_iff g).mpr ⟨above, below⟩) clean), fun ends => ?_, fun ends => ?_,
      fun x ends ord size => ?_⟩
    · rw [ends]
      rfl
    · rw [ends]
      rfl
    · rw [ends]
      obtain ⟨ordAt, status, sizeAt, pin, ex, wr, rd, task, far, frame⟩ :=
        probeWord_leaf s.level c.conf (keyIn g (.leaf x)) x ord size
      refine ⟨ordAt, status, sizeAt, pin, ex, wr, rd, task, far, fun hidden => frame.trans ?_, fun sup plain => frame.trans ?_⟩
      · rw [probeFrame, if_pos hidden]
      · rw [probeFrame, if_neg (by simp [sup, plain])]
        exact BitVec.eq_of_toNat_eq (by simp [keyIn])
  · refine answersA_of _ s 1 n _ (exec_probe_outside ?_)
    rw [← Bool.not_eq_true, inG_one_iff]
    omega
  · obtain ⟨abort, runs⟩ := exec_freplay mem
    rw [freplayOp_found sup low found, gone] at runs
    obtain ⟨regs, retired, memory⟩ := freed_onlyRetired s e.token
    exact ⟨_, runs, regs, retired, memory, freed_replays s e.token hx⟩
  · have answers := fun abort => freplayOp_found (abort := abort) sup low found
    simp only [named] at answers
    exact ⟨⟨_, answers false, freed_resumed named, (resumed_replays _ _ _ _ _ _).trans (freed_replays s e.token hx)⟩,
      _, answers true, (copyFault_replays _ _ _ _ _ _ _ _ _ hx).trans (freed_replays s e.token hx)⟩
  · obtain ⟨abort, runs⟩ := exec_freplay mem
    exact ⟨_, runs.trans (freplayOp_unknown sup unknown), raised_raise s .a .operandFormat 0 first⟩
  · exact raised_pcFault i s .a .priv first (exec_page_task a n im task i mem)

end Sys2Proof.Machine
end

section
/-! PROOFS. Barriers, rings and their instructions (R228, R238 to R246). -/

namespace Sys2Proof.Machine

open Sys2Proof

/-! ### One item at a barrier (R240) -/

theorem pendingOk_iff (v : Int) : pendingOk v = true ↔ -(2 ^ 36 : Int) ≤ v ∧ v ≤ 2 ^ 36 - 1 := by
  rw [pendingOk, Bool.and_eq_true, decide_eq_true_eq, decide_eq_true_eq]

theorem met_iff (b : Barrier) : b.met = true ↔ b.arrived = b.expect ∧ b.pending = 0 := by
  rw [Barrier.met, Bool.and_eq_true, beq_iff_eq, beq_iff_eq]

theorem settle_unmet {b : Barrier} (open_ : ¬ (b.arrived = b.expect ∧ b.pending = 0)) : b.settle = b :=
  if_neg (mt (met_iff b).mp open_)

section

variable {b : Barrier} (done : b.arrived = b.expect ∧ b.pending = 0)

include done

theorem settle_once (next : ¬ ((heldSum b.held).1 = b.expect ∧ (heldSum b.held).2 = 0)) : b.settle = b.flip :=
  (if_pos ((met_iff b).mpr done)).trans (if_neg (mt (met_iff b.flip).mp next))

/-- The held items complete the new phase at once: both phases are over, and the phase bit is what it was. -/
theorem settle_twice (next : (heldSum b.held).1 = b.expect ∧ (heldSum b.held).2 = 0) :
    b.settle = { b with arrived := 0, pending := 0, held := [], phases := b.phases + 2 } := by
  refine ((if_pos ((met_iff b).mpr done)).trans (if_pos ((met_iff b.flip).mpr next))).trans ?_
  simp [Barrier.flip, heldSum]

end

section

variable {b : Barrier} {cnt : Nat} {bytes : Int}

theorem item_open (fits : b.arrived + cnt ≤ b.expect ∧ -(2 ^ 36 : Int) ≤ b.pending + bytes ∧ b.pending + bytes ≤ 2 ^ 36 - 1) :
    b.item cnt bytes b.phase = .applied ({ b with arrived := b.arrived + cnt, pending := b.pending + bytes } : Barrier).settle :=
  (if_pos rfl).trans (if_pos ⟨fits.1, (pendingOk_iff _).mpr fits.2⟩)

theorem item_open_beyond
    (outside : ¬ (b.arrived + cnt ≤ b.expect ∧ -(2 ^ 36 : Int) ≤ b.pending + bytes ∧ b.pending + bytes ≤ 2 ^ 36 - 1)) :
    b.item cnt bytes b.phase = .beyond :=
  (if_pos rfl).trans (if_neg fun fits => outside ⟨fits.1, (pendingOk_iff _).mp fits.2⟩)

variable {par : Bool} (other : par ≠ b.phase)

include other

theorem item_full (full : 15 ≤ b.held.length) : b.item cnt bytes par = .full :=
  (if_neg other).trans (if_pos full)

variable (room : b.held.length < 15)

include room

theorem item_held (fits : (heldSum b.held).1 + cnt ≤ b.expect ∧
      -(2 ^ 36 : Int) ≤ (heldSum b.held).2 + bytes ∧ (heldSum b.held).2 + bytes ≤ 2 ^ 36 - 1) :
    b.item cnt bytes par = .applied { b with held := b.held ++ [⟨cnt, bytes⟩] } :=
  (if_neg other).trans ((if_neg (Nat.not_le.mpr room)).trans (if_pos ⟨fits.1, (pendingOk_iff _).mpr fits.2⟩))

theorem item_held_beyond (outside : ¬ ((heldSum b.held).1 + cnt ≤ b.expect ∧
      -(2 ^ 36 : Int) ≤ (heldSum b.held).2 + bytes ∧ (heldSum b.held).2 + bytes ≤ 2 ^ 36 - 1)) :
    b.item cnt bytes par = .beyond :=
  (if_neg other).trans ((if_neg (Nat.not_le.mpr room)).trans (if_neg fun fits => outside ⟨fits.1, (pendingOk_iff _).mp fits.2⟩))

end

/-! ### The barriers, rings and handles of a bank -/

/-- A barrier read after one is replaced; a number past the file's end names none. -/
theorem setBarrier_barrier (b : Bank) (n : Nat) (v : Barrier) (m : Nat) :
    (b.setBarrier n v).barrier m = if m = n ∧ n < 32 then v else b.barrier m := by
  unfold Bank.setBarrier Bank.barrier
  split
  case isTrue here => rw [here.1, vget_vset_eq _ _ _ _ here.2]
  case isFalse apart =>
    by_cases same : n = m
    · rw [vset_big _ _ _ (by omega)]
    · rw [vget_vset_ne _ _ _ _ _ same]

@[simp] theorem setBarrier_handles (b : Bank) (n : Nat) (v : Barrier) : (b.setBarrier n v).sync.handles = b.sync.handles := rfl
@[simp] theorem setBarrier_rings (b : Bank) (n : Nat) (v : Barrier) : (b.setBarrier n v).sync.rings = b.sync.rings := rfl
@[simp] theorem setBarrier_ring (b : Bank) (n : Nat) (v : Barrier) (k : Nat) : (b.setBarrier n v).ring k = b.ring k := rfl
@[simp] theorem setRing_barrier (b : Bank) (k : Nat) (r : Ring) (m : Nat) : (b.setRing k r).barrier m = b.barrier m := rfl
@[simp] theorem setRing_handles (b : Bank) (k : Nat) (r : Ring) : (b.setRing k r).sync.handles = b.sync.handles := rfl
@[simp] theorem setRing_barriers (b : Bank) (k : Nat) (r : Ring) : (b.setRing k r).sync.barriers = b.sync.barriers := rfl

theorem setRing_ring (b : Bank) {k : Nat} (r : Ring) (low : k < 8) (j : Nat) :
    (b.setRing k r).ring j = if j = k then r else b.ring j := by
  unfold Bank.setRing Bank.ring
  split
  case isTrue here => rw [here, vget_vset_eq _ _ _ _ low]
  case isFalse apart => rw [vget_vset_ne _ _ _ _ _ (Ne.symm apart)]

@[simp] theorem putBarrier_handles (b : Bank) (n : Nat) (v : Barrier) : (b.putBarrier n v).sync.handles = b.sync.handles := rfl

theorem putBarrier_barrier (b : Bank) {n : Nat} (v : Barrier) (low : n < 32) (m : Nat) :
    (b.putBarrier n v).barrier m = if m = n then v else b.barrier m := by
  rw [show (b.putBarrier n v).barrier m = (b.setBarrier n v).barrier m from rfl, setBarrier_barrier]
  simp only [low, and_true]

@[simp] theorem bankRetire_barrier (b : Bank) (st : Stream) (len n : Nat) : (b.retire st len).barrier n = b.barrier n := by
  rw [Bank.barrier, bankRetire_sync, Bank.barrier]
@[simp] theorem bankRetire_ring (b : Bank) (st : Stream) (len k : Nat) : (b.retire st len).ring k = b.ring k := by
  rw [Bank.ring, bankRetire_sync, Bank.ring]

/-- An instruction that changes handles, barriers and rings only, and retires. -/
theorem syncStep_retire (s : State) (y : SyncFile) : SyncStep s ((s.setBank { s.bank with sync := y }).retire .a 1) := by
  have step : (s.setBank { s.bank with sync := y }).retire .a 1 = s.setBank (({ s.bank with sync := y } : Bank).retire .a 1) := by
    rw [State.retire, setBank_bank, setBank_setBank]
  rw [step]
  refine ⟨⟨?_, ?_⟩, ?_, ?_, retiredA_retire s _ 1 rfl rfl rfl, sameDevice_setBank s _⟩ <;> rw [setBank_bank] <;> simp

theorem setBank_retire_bank (s : State) (b : Bank) : ((s.setBank b).retire .a 1).bank = b.retire .a 1 := by
  rw [retire_bank, setBank_bank]

/-- A barrier that is set up stands alone: no other one, no handle and no ring changes. -/
theorem syncStep_setBarrier (s : State) {n : Nat} (v : Barrier) (low : n < 32) :
    let t := (s.setBank (s.bank.setBarrier n v)).retire .a 1
    SyncStep s t ∧ t.bank.barrier n = v ∧ (∀ m, m ≠ n → t.bank.barrier m = s.bank.barrier m) ∧
      t.bank.sync.handles = s.bank.sync.handles ∧ t.bank.sync.rings = s.bank.sync.rings := by
  intro t
  have bank : t.bank = (s.bank.setBarrier n v).retire .a 1 := setBank_retire_bank s _
  refine ⟨syncStep_retire s _, ?_, fun m other => ?_, ?_, ?_⟩ <;> rw [bank]
  · rw [bankRetire_barrier, setBarrier_barrier, if_pos ⟨rfl, low⟩]
  · rw [bankRetire_barrier, setBarrier_barrier, if_neg fun both => other both.1]
  · rw [bankRetire_sync, setBarrier_handles]
  · rw [bankRetire_sync, setBarrier_rings]

/-- A ring that is replaced stands alone: no other one, no handle and no barrier changes. -/
theorem syncStep_setRing (s : State) {k : Nat} (r : Ring) (low : k < 8) :
    let t := (s.setBank (s.bank.setRing k r)).retire .a 1
    SyncStep s t ∧ t.bank.sync.handles = s.bank.sync.handles ∧ t.bank.sync.barriers = s.bank.sync.barriers ∧
      ∀ j, t.bank.ring j = if j = k then r else s.bank.ring j := by
  intro t
  have bank : t.bank = (s.bank.setRing k r).retire .a 1 := setBank_retire_bank s _
  refine ⟨syncStep_retire s _, ?_, ?_, fun j => ?_⟩ <;> rw [bank]
  · rw [bankRetire_sync, setRing_handles]
  · rw [bankRetire_sync, setRing_barriers]
  · rw [bankRetire_ring, setRing_ring _ _ low]

/-! ### Gang transfers -/

/-- Where the system registers stand as before, no instruction has retired and no gang transfer follows. -/
theorem gangAfter_sameSys (gang : Bool) {s t : State} (sys : t.bank.sr = s.bank.sr) : gangAfter gang s (.next t) = .next t := by
  simp only [gangAfter, sys, bne_self_eq_false, Bool.and_false, Bool.false_and, Bool.false_eq_true, if_false]

/-- A barrier or ring of another scope than GANG's, or one whose devices are all in reach. -/
theorem gangAfter_scope {scope : Nat} {s t : State} (near : scope ≠ 4 ∨ s.unreachable s.ctxNo = none)
    (same : t.unreachable t.ctxNo = s.unreachable s.ctxNo) : gangAfter (scope == 4) s (.next t) = .next t := by
  rcases near with other | reach
  · rw [beq_false_of_ne other, gangAfter_false]
  · exact gangAfter_reachable _ _ _ (same.trans reach)

theorem gangTransfer_reachable {s : State} (code : Word) (reach : s.unreachable s.ctxNo = none) : s.gangTransfer code = s := by
  rw [State.gangTransfer, reach]

theorem unreachable_setBank_retire (s : State) {b : Bank} (sys : b.sr = s.bank.sr) :
    ((s.setBank b).retire .a 1).unreachable ((s.setBank b).retire .a 1).ctxNo = s.unreachable s.ctxNo :=
  (unreachable_retire _ 1).trans (unreachable_congr (by rw [State.ctxNo, setBank_bank, sys, State.ctxNo]) rfl rfl rfl rfl)

/-! ### BXINIT (R240, R241) -/

section

variable {s : State} {x : BitVec 5} {z : BitVec 3} {e : BitVec 6}

/-- A barrier that BXINIT may not set up: LIVE, and a stage barrier, one that holds or awaits something, or one that a copy names. -/
def State.barrierHeld (s : State) (n : Nat) : Prop :=
  let b := s.bank.barrier n
  b.live = true ∧ (b.ring = true ∨ b.arrived ≠ 0 ∨ b.pending ≠ 0 ∨ b.held ≠ [] ∨ s.copyNames n = true)

theorem quiet_iff (b : Barrier) : b.quiet = true ↔ b.arrived = 0 ∧ b.pending = 0 ∧ b.held = [] := by
  simp [Barrier.quiet, and_assoc]

theorem barrierHeld_iff (s : State) (n : Nat) : s.barrierHeld n ↔
    ((s.bank.barrier n).live && ((s.bank.barrier n).ring || !(s.bank.barrier n).quiet || s.copyNames n)) = true := by
  have quiet := quiet_iff (s.bank.barrier n)
  rw [State.barrierHeld, Bool.and_eq_true, Bool.or_eq_true, Bool.or_eq_true, Bool.not_eq_true', ← Bool.not_eq_true, quiet]
  tauto

theorem exec_bxinit_ok (scope : z.toNat < 5) (low : 1 ≤ (s.bank.readA e.toNat).toNat) (high : (s.bank.readA e.toNat).toNat ≤ 2047)
    (free : ¬ s.barrierHeld x.toNat) : exec (.bxinit x z e) s =
      .next ((s.setBank (s.bank.setBarrier x.toNat (barrierSet false z.toNat (s.bank.readA e.toNat).toNat))).retire .a 1) :=
  (if_pos (decide_eq_true scope)).trans ((if_neg (by omega)).trans (if_neg (mt (barrierHeld_iff s _).mpr free)))

theorem exec_bxinit_refused (scope : z.toNat < 5)
    (bad : (s.bank.readA e.toNat).toNat = 0 ∨ 2047 < (s.bank.readA e.toNat).toNat ∨ s.barrierHeld x.toNat) :
    exec (.bxinit x z e) s = .next (s.raise .a .operandFormat 0) := by
  refine (if_pos (decide_eq_true scope)).trans ?_
  rcases or_assoc.mpr bad with count | held
  · exact if_pos count
  · split
    · rfl
    · exact if_pos ((barrierHeld_iff s _).mp held)

theorem exec_bxinit_scope (scope : 5 ≤ z.toNat) : exec (.bxinit x z e) s = s.pcFault .a .operandIllegal :=
  if_neg (by simpa [scopeOk] using scope)

end

/-! ### Arrivals and byte adjustments (R239, R242) -/

/-- The stage of a ring that SEL names. -/
abbrev Ring.stageAt (r : Ring) (z : BitVec 1) : Nat := if z = 1#1 then r.rc - 1 else r.rp

/-- The barrier of the moving bank that a form without PEER names, with the parity of the phase that it is for. -/
def State.ownTarget (s : State) (x : BitVec 5) (g z : BitVec 1) (w : Word) : ArriveAt :=
  let r := s.bank.ring x.toNat
  ⟨s.cellNo, if g = 1#1 then (if z = 1#1 then r.eb else r.fb) + r.stageAt z % r.n else x.toNat,
    if g = 1#1 then r.stageAt z / r.n % 2 == 1 else w.getLsbD 0⟩

/-- A ring form names a stage of a ring that is set up, and for its empty barriers one that has been consumed. -/
def State.stageKnown (s : State) (x : BitVec 5) (g z : BitVec 1) : Prop :=
  g = 1#1 → (s.bank.ring x.toNat).isSet = true ∧ (z = 1#1 → (s.bank.ring x.toNat).rc ≠ 0)

section

variable {s : State} {x : BitVec 5} {g z : BitVec 1} {c : BitVec 3} {w : Word}

theorem arriveTarget_own (known : s.stageKnown x g z) :
    s.arriveTarget x g z 0#1 c (w.getLsbD 0) = .ok (s.ownTarget x g z w) := by
  rw [State.arriveTarget]
  split
  case isTrue ring =>
    obtain ⟨set, consumed⟩ := known ring
    refine (if_neg ?_).trans ?_
    · rintro (unset | ⟨empty, none⟩)
      · rw [set] at unset
        cases unset
      · exact consumed empty none
    · simp only [State.ownTarget, if_pos ring, stageBarrier, beq_iff_eq]
  case isFalse own =>
    simp only [State.ownTarget, if_neg own]
    rfl

theorem arriveTarget_unknown (unknown : ¬ s.stageKnown x g z) :
    s.arriveTarget x g z 0#1 c (w.getLsbD 0) = .error (.fault .operandFormat 0) := by
  rw [State.stageKnown, Classical.not_imp] at unknown
  obtain ⟨ring, bad⟩ := unknown
  refine (if_pos ring).trans (if_pos ?_)
  cases set : (s.bank.ring x.toNat).isSet with
  | false => exact .inl rfl
  | true => exact .inr (by simpa [set] using bad)

/-- A barrier of a peer, wherever the bank of that cell stands. -/
theorem peerBarrier_ok {ctx cell n : Nat} {b : Bank} (part : (s.ctxAt ctx).part.getLsbD cell = true)
    (apart : cell ≠ s.cellNo → s.bankPlace ctx cell ≠ .saved)
    (there : (if cell = s.cellNo then some s.bank else s.bankOf ctx cell) = some b) (live : (b.barrier n).live = true)
    (plain : (b.barrier n).ring = false) (shared : (b.barrier n).scope ≠ 0) : s.peerBarrier ctx cell n = .ok (b.barrier n) := by
  refine (if_neg (by simp [part])).trans ((if_neg fun away => apart away.1 away.2).trans ?_)
  simp only [there]
  exact if_neg (by simp [live, plain, shared])

theorem peerBarrier_saved {ctx cell n : Nat} (part : (s.ctxAt ctx).part.getLsbD cell = true) (other : cell ≠ s.cellNo)
    (saved : s.bankPlace ctx cell = .saved) : s.peerBarrier ctx cell n = .error .wait :=
  (if_neg (by simp [part])).trans (if_pos ⟨other, saved⟩)

theorem arriveTarget_peer {par : Bool} {v : Barrier}
    (peer : s.peerBarrier s.ctxNo (peerCell s.cellNo c.toNat) x.toNat = .ok v) :
    s.arriveTarget x 0#1 z 1#1 c par = .ok ⟨peerCell s.cellNo c.toNat, x.toNat, par⟩ := by
  simp only [State.arriveTarget, if_neg (show ¬ (0#1 = 1#1) by decide), if_true, peer]

theorem arriveTarget_peer_error {par : Bool} {e : Stop}
    (peer : s.peerBarrier s.ctxNo (peerCell s.cellNo c.toNat) x.toNat = .error e) : s.arriveTarget x 0#1 z 1#1 c par = .error e := by
  simp only [State.arriveTarget, if_neg (show ¬ (0#1 = 1#1) by decide), if_true, peer]

end

/-- The count of arrivals in an arrival word. -/
abbrev arrivals (w : Word) : Nat := w.toNat / 2 % 2048
/-- The bytes in an arrival word. -/
abbrev arrivalBytes (w : Word) : Int := sextNat (w.toNat / 2 ^ 12 % 2 ^ 37) 37

section

variable {s : State} {arr : Bool} {x : BitVec 5} {g z p : BitVec 1} {c : BitVec 3} {a : BitVec 6}

theorem arriveOp_illegal (peer : p = 1#1) (ring : g = 1#1) : arriveOp arr x g z p c a s = s.pcFault .a .operandIllegal :=
  if_pos ⟨peer, ring⟩

variable (legal : ¬ (p = 1#1 ∧ g = 1#1))

include legal

/-- A word with a reserved bit, or with arrivals where the instruction takes bytes or the other way round. -/
theorem arriveOp_unformed
    (unformed : ¬ ((s.bank.readA a.toNat).toNat / 2 ^ 49 = 0 ∧ (arrivals (s.bank.readA a.toNat) ≠ 0 ↔ arr = true))) :
    arriveOp arr x g z p c a s = .next (s.raise .a .operandFormat 0) := by
  have word := (s.bank.readA a.toNat).isLt
  refine (if_neg legal).trans (if_pos ?_)
  rw [field_word_toNat, field_word_toNat]
  by_contra formed
  rw [not_or, not_not, not_not] at formed
  obtain ⟨high, count⟩ := formed
  refine unformed ⟨by omega, ?_⟩
  rw [← count, bne_iff_ne]
  rfl

variable (formed : (s.bank.readA a.toNat).toNat / 2 ^ 49 = 0 ∧ (arrivals (s.bank.readA a.toNat) ≠ 0 ↔ arr = true))

include formed

theorem arriveOp_formed : arriveOp arr x g z p c a s = finish s .a (do
    let t ← s.arriveTarget x g z p c ((s.bank.readA a.toNat).getLsbD 0)
    let u ← s.arriveHere t (arrivals (s.bank.readA a.toNat)) (arrivalBytes (s.bank.readA a.toNat))
    .ok (if arr && s.scopeAt t == 4 then (u.retire .a 1).gangTransfer s.bank.sr.seqa else u.retire .a 1)) := by
  obtain ⟨high, count⟩ := formed
  refine (if_neg legal).trans ((if_neg ?_).trans ?_)
  · rw [field_word_toNat, field_word_toNat, high, not_or, not_not, not_not]
    exact ⟨rfl, Bool.eq_iff_iff.mpr (bne_iff_ne.trans count)⟩
  · rw [field_word_toNat, field_word_toNat]
    rfl

/-- An arrival with no barrier to go to ends as its target does. -/
theorem arriveOp_error {e : Stop} (target : s.arriveTarget x g z p c ((s.bank.readA a.toNat).getLsbD 0) = .error e) :
    arriveOp arr x g z p c a s = .next (s.stop .a e) := by
  rw [arriveOp_formed legal formed, target]
  rfl

variable {t : ArriveAt} (target : s.arriveTarget x g z p c ((s.bank.readA a.toNat).getLsbD 0) = .ok t)

include target

theorem arriveOp_stopped {e : Stop}
    (stop : s.arriveHere t (arrivals (s.bank.readA a.toNat)) (arrivalBytes (s.bank.readA a.toNat)) = .error e) :
    arriveOp arr x g z p c a s = .next (s.stop .a e) := by
  rw [arriveOp_formed legal formed, target]
  simp only [bind, Except.bind, stop]
  rfl

/-- An arrival that its barrier takes retires; the gang transfer at GANG scope asks nothing more where the devices are in reach. -/
theorem arriveOp_taken {u : State}
    (taken : s.arriveHere t (arrivals (s.bank.readA a.toNat)) (arrivalBytes (s.bank.readA a.toNat)) = .ok u)
    (near : s.scopeAt t ≠ 4 ∨ (u.retire .a 1).unreachable (u.retire .a 1).ctxNo = none) :
    arriveOp arr x g z p c a s = .next (u.retire .a 1) := by
  rw [arriveOp_formed legal formed, target]
  simp only [bind, Except.bind, taken, finish]
  split
  case isFalse => rfl
  case isTrue release =>
    rw [Bool.and_eq_true, beq_iff_eq] at release
    rw [gangTransfer_reachable _ (near.resolve_left fun other => other release.2)]

end

/-! ### Arrivals at the moving bank -/

section

variable {s : State} {t : ArriveAt} {cnt : Nat} {bytes : Int} (here : t.cell = s.cellNo)

include here

theorem arriveHere_unset (unset : (s.bank.barrier t.bx).live = false) :
    s.arriveHere t cnt bytes = .error (.fault .operandFormat 0) :=
  (if_pos here).trans (if_pos unset)

theorem scopeAt_here : s.scopeAt t = (s.bank.barrier t.bx).scope := by
  rw [State.scopeAt, if_pos here]
  rfl

variable (live : (s.bank.barrier t.bx).live = true)

include live

theorem arriveHere_applied {v : Barrier} (applied : (s.bank.barrier t.bx).item cnt bytes t.par = .applied v) :
    s.arriveHere t cnt bytes = .ok (s.setBank (s.bank.putBarrier t.bx v)) := by
  simp only [State.arriveHere, here, if_true, live, Bool.true_eq_false, if_false, applied]

theorem arriveHere_full (full : (s.bank.barrier t.bx).item cnt bytes t.par = .full) : s.arriveHere t cnt bytes = .error .wait := by
  simp only [State.arriveHere, here, if_true, live, Bool.true_eq_false, if_false, full]

theorem arriveHere_beyond (beyond : (s.bank.barrier t.bx).item cnt bytes t.par = .beyond) :
    s.arriveHere t cnt bytes = .error (.fault .barrierOver 0) := by
  simp only [State.arriveHere, here, if_true, live, Bool.true_eq_false, if_false, beyond]

end

/-- What an arrival at the moving bank's barrier `n` does: the item is applied there and no other barrier changes. -/
theorem syncStep_putBarrier (s : State) {n : Nat} (v : Barrier) (low : n < 32) :
    let t := (s.setBank (s.bank.putBarrier n v)).retire .a 1
    SyncStep s t ∧ t.bank.barrier n = v ∧ (∀ m, m ≠ n → t.bank.barrier m = s.bank.barrier m) ∧
      t.bank.sync.handles = s.bank.sync.handles ∧ t.bank.sync.rings = (s.bank.putBarrier n v).sync.rings := by
  intro t
  have bank : t.bank = (s.bank.putBarrier n v).retire .a 1 := setBank_retire_bank s _
  refine ⟨syncStep_retire s _, ?_, fun m other => ?_, ?_, ?_⟩ <;> rw [bank]
  · rw [bankRetire_barrier, putBarrier_barrier _ _ low, if_pos rfl]
  · rw [bankRetire_barrier, putBarrier_barrier _ _ low, if_neg other]
  · rw [bankRetire_sync, putBarrier_handles]
  · rw [bankRetire_sync]

section

variable {s : State} {arr : Bool} {x : BitVec 5} {g z p : BitVec 1} {c : BitVec 3} {a : BitVec 6} {t : ArriveAt}
  (legal : ¬ (p = 1#1 ∧ g = 1#1))
  (formed : (s.bank.readA a.toNat).toNat / 2 ^ 49 = 0 ∧ (arrivals (s.bank.readA a.toNat) ≠ 0 ↔ arr = true))
  (target : s.arriveTarget x g z p c ((s.bank.readA a.toNat).getLsbD 0) = .ok t) (here : t.cell = s.cellNo)
  (live : (s.bank.barrier t.bx).live = true)

include legal formed target here live

theorem arriveOp_applied {v : Barrier} (near : (s.bank.barrier t.bx).scope ≠ 4 ∨ s.unreachable s.ctxNo = none)
    (applied : (s.bank.barrier t.bx).item (arrivals (s.bank.readA a.toNat)) (arrivalBytes (s.bank.readA a.toNat)) t.par = .applied v) :
    arriveOp arr x g z p c a s = .next ((s.setBank (s.bank.putBarrier t.bx v)).retire .a 1) := by
  refine arriveOp_taken legal formed target (arriveHere_applied here live applied) ?_
  rw [scopeAt_here here]
  exact near.imp_right (unreachable_setBank_retire s (b := s.bank.putBarrier t.bx v) rfl).trans

theorem arriveOp_full
    (full : (s.bank.barrier t.bx).item (arrivals (s.bank.readA a.toNat)) (arrivalBytes (s.bank.readA a.toNat)) t.par = .full) :
    arriveOp arr x g z p c a s = .next (s.stall .a) :=
  arriveOp_stopped (e := .wait) legal formed target (arriveHere_full here live full)

theorem arriveOp_beyond
    (beyond : (s.bank.barrier t.bx).item (arrivals (s.bank.readA a.toNat)) (arrivalBytes (s.bank.readA a.toNat)) t.par = .beyond) :
    arriveOp arr x g z p c a s = .next (s.raise .a .barrierOver 0) :=
  arriveOp_stopped (e := .fault .barrierOver 0) legal formed target (arriveHere_beyond here live beyond)

end

/-- Both instructions are the one operation: BXARR where its word counts arrivals. -/
theorem exec_arrival {s : State} {x : BitVec 5} {g z p : BitVec 1} {c : BitVec 3} {a : BitVec 6} {i : Instr}
    (form : i = .bxexp x g z p c a ∨ i = .bxarr x g z p c a) :
    ∃ arr, exec i s = arriveOp arr x g z p c a s ∧ (i = .bxarr x g z p c a ↔ arr = true) := by
  obtain rfl | rfl := form
  · exact ⟨false, rfl, by simp⟩
  · exact ⟨true, rfl, by simp⟩

/-- An arrival that is not formed, or that names no stage or no barrier that is LIVE, is refused. -/
theorem arriveOp_refused {s : State} {arr : Bool} {x : BitVec 5} {g z : BitVec 1} {c : BitVec 3} {a : BitVec 6}
    (refused : ((s.bank.readA a.toNat).toNat / 2 ^ 49 = 0 ∧ (arrivals (s.bank.readA a.toNat) ≠ 0 ↔ arr = true)) →
      s.stageKnown x g z → (s.bank.barrier (s.ownTarget x g z (s.bank.readA a.toNat)).bx).live = false) :
    arriveOp arr x g z 0#1 c a s = .next (s.raise .a .operandFormat 0) := by
  have legal : ¬ (0#1 = 1#1 ∧ g = 1#1) := fun both => absurd both.1 (by decide)
  by_cases formed : (s.bank.readA a.toNat).toNat / 2 ^ 49 = 0 ∧ (arrivals (s.bank.readA a.toNat) ≠ 0 ↔ arr = true)
  · by_cases known : s.stageKnown x g z
    · exact arriveOp_stopped (e := .fault .operandFormat 0) legal formed (arriveTarget_own known)
        (arriveHere_unset rfl (refused formed known))
    · exact arriveOp_error (e := .fault .operandFormat 0) legal formed (arriveTarget_unknown known)
  · exact arriveOp_unformed legal formed

/-! ### Arrivals at a peer (R242) -/

theorem peerCell_lt {cell : Nat} (c : Nat) (h : cell < 256) : peerCell cell c < 256 := by
  rw [peerCell]
  omega

theorem setBankIn_unreachable (s : State) (p : BankPlace) (x c : Nat) (b : Bank) (y : Nat) :
    (s.setBankIn p x c b).unreachable y = s.unreachable y := by
  cases p <;> rfl

/-- A bank that replaces another of its control is found where that one was. -/
theorem setBankOf_bankOf {s : State} {x c : Nat} {b v : Bank} (low : c < 256) (stands : s.bankPlace x c ≠ .saved)
    (there : s.bankOf x c = some b) (ctl : v.ctl = b.ctl) : (s.setBankOf x c v).bankOf x c = some v := by
  have shard : v.shardOf x = b.shardOf x := by rw [Bank.shardOf, ctl, Bank.shardOf]
  by_cases active : (s.cellAt c).active.shardOf x = true
  · have place : s.bankPlace x c = .active := if_pos active
    rw [State.bankOf, place, State.bankIn, Option.some_inj] at there
    rw [State.setBankOf, place, State.setBankIn, State.bankOf, State.bankPlace, setCell_cellAt _ _ _ low, shard, ← there, if_pos active,
      State.bankIn, setCell_cellAt _ _ _ low]
  · by_cases shadow : (s.cellAt c).shadow.shardOf x = true
    · have place : s.bankPlace x c = .shadow := (if_neg active).trans (if_pos shadow)
      rw [State.bankOf, place, State.bankIn, Option.some_inj] at there
      rw [State.setBankOf, place, State.setBankIn, State.bankOf, State.bankPlace, setCell_cellAt _ _ _ low, shard, ← there,
        if_neg active, if_pos shadow, State.bankIn, setCell_cellAt _ _ _ low]
    · rw [State.bankPlace, if_neg active, if_neg shadow] at stands
      rw [State.bankOf, State.bankPlace, if_neg active, if_neg shadow] at there
      split at there
      case isTrue saved => exact absurd (if_pos saved) stands
      case isFalse => cases there

/-- A change of the moving bank leaves the banks of the other cells where they are. -/
theorem setBank_bankOf_ne (s : State) (b : Bank) (x : Nat) {c : Nat} (other : c ≠ s.cellNo) :
    (s.setBank b).bankOf x c = s.bankOf x c := by
  have cell : (s.setBank b).cellAt c = s.cellAt c := by rw [setBank_cellAt, if_neg other]
  have place : (s.setBank b).bankPlace x c = s.bankPlace x c := by
    rw [State.bankPlace, cell]
    rfl
  rw [State.bankOf, place, State.bankOf]
  generalize s.bankPlace x c = q
  cases q with
  | active => rw [State.bankIn, cell]; rfl
  | shadow => rw [State.bankIn, cell]; rfl
  | saved => rfl
  | none => rfl

theorem setBankOf_bank_ne {s : State} {c : Nat} (other : c ≠ s.cellNo) (x : Nat) (b : Bank) : (s.setBankOf x c b).bank = s.bank := by
  rw [State.setBankOf, setBankIn_bank, if_neg fun both => other both.2]

theorem setBankOf_cellNo (s : State) (x c : Nat) (b : Bank) : (s.setBankOf x c b).cellNo = s.cellNo := by
  rw [State.setBankOf]
  cases s.bankPlace x c <;> rfl

/-- A retirement is one of `s` where the moving bank stands as in `s`. -/
theorem retiredA_sameBank {s u : State} (bank : u.bank = s.bank) (n : Nat) : RetiredA s (u.retire .a n) n := by
  obtain ⟨⟨sys, wa, wx, wmaxx⟩, wmaxa, ctl⟩ := retiredA_retire u u.bank n rfl rfl rfl
  rw [bank] at sys wa wx wmaxx wmaxa ctl
  rw [State.retire, bank]
  exact ⟨⟨sys, wa, wx, wmaxx⟩, wmaxa, ctl⟩

section

variable {s : State} {arr : Bool} {x : BitVec 5} {z : BitVec 1} {c : BitVec 3} {a : BitVec 6} {b : Bank} {v : Barrier}
  (formed : (s.bank.readA a.toNat).toNat / 2 ^ 49 = 0 ∧ (arrivals (s.bank.readA a.toNat) ≠ 0 ↔ arr = true))
  (other : peerCell s.cellNo c.toNat ≠ s.cellNo) (part : (s.ctxAt s.ctxNo).part.getLsbD (peerCell s.cellNo c.toNat) = true)

include formed other part

theorem arriveOp_peer_saved (saved : s.bankPlace s.ctxNo (peerCell s.cellNo c.toNat) = .saved) :
    arriveOp arr x 0#1 z 1#1 c a s = .next (s.stall .a) :=
  arriveOp_error (by decide) formed (arriveTarget_peer_error (peerBarrier_saved part other saved))

variable (stands : s.bankPlace s.ctxNo (peerCell s.cellNo c.toNat) ≠ .saved)
  (there : s.bankOf s.ctxNo (peerCell s.cellNo c.toNat) = some b) (live : (b.barrier x.toNat).live = true)

include stands there live

theorem arriveOp_peer (plain : (b.barrier x.toNat).ring = false) (shared : (b.barrier x.toNat).scope ≠ 0)
    (reach : s.unreachable s.ctxNo = none)
    (applied : (b.barrier x.toNat).item (arrivals (s.bank.readA a.toNat)) (arrivalBytes (s.bank.readA a.toNat))
      ((s.bank.readA a.toNat).getLsbD 0) = .applied v) :
    arriveOp arr x 0#1 z 1#1 c a s =
      .next ((s.setBankOf s.ctxNo (peerCell s.cellNo c.toNat) (b.putBarrier x.toNat v)).retire .a 1) := by
  have peer := peerBarrier_ok part (fun _ => stands) (by rw [if_neg other, there]) live plain shared
  refine arriveOp_taken (by decide) formed (arriveTarget_peer peer) ?_ (.inr ?_)
  · simp only [State.arriveHere, if_neg other, State.arrive, there, live, Bool.true_eq_false, if_false, applied]
  · rw [unreachable_retire, State.setBankOf, setBankIn_unreachable, State.ctxNo, ← State.setBankOf, setBankOf_bank_ne other]
    exact reach

end

theorem peer_retired {s : State} {cell n : Nat} {b : Bank} {v : Barrier} (low : cell < 256) (other : cell ≠ s.cellNo)
    (stands : s.bankPlace s.ctxNo cell ≠ .saved) (there : s.bankOf s.ctxNo cell = some b) :
    let t := (s.setBankOf s.ctxNo cell (b.putBarrier n v)).retire .a 1
    SameRegs s t ∧ SameUnits s t ∧ RetiredA s t 1 ∧ SameMemory s t ∧ t.bankOf s.ctxNo cell = some (b.putBarrier n v) := by
  intro t
  have bank := setBankOf_bank_ne other s.ctxNo (b.putBarrier n v)
  obtain ⟨regs, units, -⟩ := retire_ofControl (f := id) bank
  refine ⟨regs, units, retiredA_sameBank bank 1, fun k => ?_, ?_⟩
  · rw [retire_mem, setBankOf_mem]
  · refine (setBank_bankOf_ne _ _ _ ?_).trans (setBankOf_bankOf low stands there rfl)
    rwa [setBankOf_cellNo]

/-! ### BXWAIT and BXTEST (R243, R244) -/

section

variable {s : State} {x : BitVec 5} {z : BitVec 1} {p : BitVec 6}

theorem exec_bxwait_barrier : exec (.bxwait x 0 z p) s = gangAfter ((s.bank.barrier x.toNat).scope == 4) s
    (if field (s.bank.readA p.toNat) 1 63 ≠ 0 ∨ (s.bank.barrier x.toNat).live = false then .next (s.raise .a .operandFormat 0)
    else if (s.bank.barrier x.toNat).phase = (s.bank.readA p.toNat).getLsbD 0 then .next (s.stall .a)
    else .next (s.retire .a 1)) := rfl

theorem exec_bxwait_formed (word : (s.bank.readA p.toNat).toNat / 2 = 0) (live : (s.bank.barrier x.toNat).live = true) :
    exec (.bxwait x 0 z p) s = gangAfter ((s.bank.barrier x.toNat).scope == 4) s
      (if (s.bank.barrier x.toNat).phase = (s.bank.readA p.toNat).getLsbD 0 then .next (s.stall .a) else .next (s.retire .a 1)) := by
  have formed : ¬ (field (s.bank.readA p.toNat) 1 63 ≠ 0 ∨ (s.bank.barrier x.toNat).live = false) := by
    rw [field_word_toNat, live, Nat.pow_one, word]
    simp
  rw [exec_bxwait_barrier, if_neg formed]

/-- The phase is over: the wait retires. -/
theorem exec_bxwait_over (word : (s.bank.readA p.toNat).toNat / 2 = 0) (live : (s.bank.barrier x.toNat).live = true)
    (other : (s.bank.barrier x.toNat).phase ≠ (s.bank.readA p.toNat).getLsbD 0)
    (near : (s.bank.barrier x.toNat).scope ≠ 4 ∨ s.unreachable s.ctxNo = none) :
    exec (.bxwait x 0 z p) s = .next (s.retire .a 1) := by
  rw [exec_bxwait_formed word live, if_neg other]
  exact gangAfter_scope near (unreachable_retire s 1)

/-- The phase is open: the wait goes on, and no transfer follows it at any scope. -/
theorem exec_bxwait_open (word : (s.bank.readA p.toNat).toNat / 2 = 0) (live : (s.bank.barrier x.toNat).live = true)
    (same : (s.bank.barrier x.toNat).phase = (s.bank.readA p.toNat).getLsbD 0) :
    exec (.bxwait x 0 z p) s = .next (s.stall .a) := by
  rw [exec_bxwait_formed word live, if_pos same]
  exact gangAfter_sameSys _ (waits_stall s .a).sys

theorem exec_bxwait_refused (ok : s.faultless)
    (bad : (s.bank.readA p.toNat).toNat / 2 ≠ 0 ∨ (s.bank.barrier x.toNat).live = false) :
    exec (.bxwait x 0 z p) s = .next (s.raise .a .operandFormat 0) := by
  have word := (s.bank.readA p.toNat).isLt
  have unformed : field (s.bank.readA p.toNat) 1 63 ≠ 0 ∨ (s.bank.barrier x.toNat).live = false := by
    rw [field_word_toNat]
    exact bad.imp_left (by omega)
  rw [exec_bxwait_barrier, if_pos unformed]
  exact gangAfter_sameSys _ (raised_raise s .a _ _ ok).sys

/-- The stage that a wait of the ring form is for has been reached. -/
abbrev Ring.reached (r : Ring) (z : BitVec 1) : Prop := if z = 1#1 then r.waitCons + 1 ≤ r.rc else r.waitProd + 1 ≤ r.rp

/-- The ring after a wait of its consumer or producer. -/
abbrev Ring.waited (r : Ring) (z : BitVec 1) : Ring :=
  if z = 1#1 then { r with waitCons := r.waitCons + 1 } else { r with waitProd := r.waitProd + 1 }

theorem ringWait_set {k : Nat} (set : (s.bank.ring k).isSet = true) (z : BitVec 1) : ringWait k (z == 1#1) s =
    if (s.bank.ring k).reached z then .next ((s.setBank (s.bank.setRing k ((s.bank.ring k).waited z))).retire .a 1)
    else .next (s.stall .a) := by
  refine (if_neg (by simp [set])).trans ?_
  by_cases consumer : z = 1#1
  · simp only [consumer, beq_self_eq_true, if_true, Ring.reached, Ring.waited]
  · simp only [beq_false_of_ne consumer, Bool.false_eq_true, if_false, if_neg consumer, Ring.reached, Ring.waited]

theorem exec_bxwait_ring : exec (.bxwait x 1 z p) s =
    gangAfter ((s.bank.ring x.toNat).scope == 4) s (ringWait x.toNat (z == 1#1) s) := rfl

theorem exec_bxwait_reached (set : (s.bank.ring x.toNat).isSet = true) (done : (s.bank.ring x.toNat).reached z)
    (near : (s.bank.ring x.toNat).scope ≠ 4 ∨ s.unreachable s.ctxNo = none) : exec (.bxwait x 1 z p) s =
      .next ((s.setBank (s.bank.setRing x.toNat ((s.bank.ring x.toNat).waited z))).retire .a 1) := by
  rw [exec_bxwait_ring, ringWait_set set, if_pos done]
  exact gangAfter_scope near (unreachable_setBank_retire s rfl)

theorem exec_bxwait_early (set : (s.bank.ring x.toNat).isSet = true) (early : ¬ (s.bank.ring x.toNat).reached z) :
    exec (.bxwait x 1 z p) s = .next (s.stall .a) := by
  rw [exec_bxwait_ring, ringWait_set set, if_neg early]
  exact gangAfter_sameSys _ (waits_stall s .a).sys

theorem exec_bxwait_unset (ok : s.faultless) (unset : (s.bank.ring x.toNat).isSet = false) :
    exec (.bxwait x 1 z p) s = .next (s.raise .a .operandFormat 0) := by
  have refused : ringWait x.toNat (z == 1#1) s = .next (s.raise .a .operandFormat 0) := if_pos unset
  rw [exec_bxwait_ring, refused]
  exact gangAfter_sameSys _ (raised_raise s .a _ _ ok).sys

end

/-- The word of BXTEST by its fields (R238): PENDING modulo 2^32. -/
theorem barrierWord_eq (b : Barrier) : b.word =
    let bit := fun (q : Bool) (k : Nat) => if q = true then 2 ^ k else 0
    BitVec.ofNat 64 (bit b.phase 63 + b.scope * 2 ^ 60 + bit b.live 59 + bit b.ring 58 + b.arrived * 2 ^ 47 + b.expect * 2 ^ 36 +
      b.held.length * 2 ^ 32 + (b.pending % 2 ^ 32).toNat) := by
  rw [Barrier.word, BitVec.toNat_ofInt]
  rfl

theorem ringWord_eq (r : Ring) : r.word = if r.isSet = true then
    BitVec.ofNat 64 (2 ^ 63 + (r.n - 1) * 2 ^ 32 + r.rp % 65536 * 65536 + r.rc % 65536) else 0 := by
  rw [Ring.word]
  split
  · rw [wordOfNat]
  · rfl

theorem exec_bxtest_barrier {s : State} {x : BitVec 5} {d : BitVec 6} :
    exec (.bxtest x 0 d) s = answerA s 1 d (s.bank.barrier x.toNat).word := by
  show execBxtest x 0 d s = _
  rw [execBxtest, if_neg (show ¬ (0 : BitVec 1) = 1#1 by decide)]

theorem exec_bxtest_ring {s : State} {x : BitVec 5} {d : BitVec 6} :
    exec (.bxtest x 1 d) s = answerA s 1 d (s.bank.ring x.toNat).word := by
  show execBxtest x 1 d s = _
  rw [execBxtest, if_pos (show (1 : BitVec 1) = 1#1 by decide)]

/-! ### The stage barriers of a ring (R245) -/

/-- A bank that differs from another at most in its barriers and rings. -/
def SameButStages (b c : Bank) : Prop :=
  ∃ l m, c = { b with sync := { b.sync with barriers := l, rings := m } }

theorem SameButStages.refl (b : Bank) : SameButStages b b := ⟨b.sync.barriers, b.sync.rings, rfl⟩

theorem SameButStages.setBarrier {b c : Bank} (same : SameButStages b c) (n : Nat) (v : Barrier) : SameButStages b (c.setBarrier n v) := by
  obtain ⟨l, m, rfl⟩ := same
  exact ⟨vset l n v, m, rfl⟩

theorem SameButStages.setRing {b c : Bank} (same : SameButStages b c) (k : Nat) (r : Ring) : SameButStages b (c.setRing k r) := by
  obtain ⟨l, m, rfl⟩ := same
  exact ⟨l, vset m k r, rfl⟩

/-- An instruction that changes barriers and rings only, and retires. -/
theorem SameButStages.syncStep {s : State} {c : Bank} (same : SameButStages s.bank c) :
    SyncStep s ((s.setBank c).retire .a 1) ∧ ((s.setBank c).retire .a 1).bank.sync.handles = s.bank.sync.handles := by
  rw [setBank_retire_bank, bankRetire_sync]
  obtain ⟨l, m, rfl⟩ := same
  exact ⟨syncStep_retire s _, rfl⟩

/-- Barriers of a list that are taken down, the others, and the rings. -/
theorem foldl_reset_barrier (l : List Nat) : ∀ (b : Bank) (m : Nat),
    (l.foldl (fun t n => t.setBarrier n .reset) b).barrier m = if m ∈ l then .reset else b.barrier m := by
  induction l with
  | nil => intro b m; rw [List.foldl_nil, if_neg List.not_mem_nil]
  | cons n l ih =>
    intro b m
    rw [List.foldl_cons, ih, setBarrier_barrier]
    by_cases rest : m ∈ l
    · rw [if_pos rest, if_pos (List.mem_cons_of_mem n rest)]
    · rw [if_neg rest]
      by_cases first : m = n
      · subst first
        rw [if_pos List.mem_cons_self]
        by_cases low : m < 32
        · rw [if_pos ⟨rfl, low⟩]
        · rw [if_neg fun both => low both.2, Bank.barrier, vget, dif_neg low]
      · rw [if_neg fun both => first both.1, if_neg (by simp [first, rest])]

theorem dropRing_same (b : Bank) (k : Nat) : SameButStages b (b.dropRing k) :=
  SameButStages.setRing (List.foldlRecOn (motive := SameButStages b) _ _ (.refl b) fun _ same n _ => same.setBarrier n .reset) k .reset

theorem dropRing_barrier (b : Bank) (k m : Nat) :
    (b.dropRing k).barrier m = if m ∈ (b.ring k).stages then .reset else b.barrier m := by
  rw [Bank.dropRing, setRing_barrier, foldl_reset_barrier]

theorem foldl_setBarrier_ring {α : Type} (f : Bank → α → Bank) (same : ∀ b a k, (f b a).ring k = b.ring k) (l : List α) (b : Bank)
    (k : Nat) : (l.foldl f b).ring k = b.ring k :=
  List.foldlRecOn (motive := fun t : Bank => t.ring k = b.ring k) l f rfl fun t kept a _ => (same t a k).trans kept

theorem dropRing_ring (b : Bank) {k : Nat} (low : k < 8) (j : Nat) : (b.dropRing k).ring j = if j = k then .reset else b.ring j := by
  rw [Bank.dropRing, setRing_ring _ _ low, foldl_setBarrier_ring (fun t n => t.setBarrier n .reset) fun _ _ _ => rfl]

/-- The two barriers of stage `i` are set up. -/
def stageSet (r : Ring) (fexp eexp : Nat) (t : Bank) (i : Nat) : Bank :=
  (t.setBarrier (r.fb + i) (barrierSet true r.scope fexp)).setBarrier (r.eb + i) (barrierSet true r.scope eexp)

theorem setUpRing_eq (b : Bank) (k : Nat) (r : Ring) (fexp eexp : Nat) :
    b.setUpRing k r fexp eexp = (List.range r.n).foldl (stageSet r fexp eexp) ((b.dropRing k).setRing k r) := rfl

/-- The stage barriers of a ring lie among the barriers, and the full ones apart from the empty ones. -/
structure Ring.Fits (r : Ring) : Prop where
  full : r.fb + r.n ≤ 32
  empty : r.eb + r.n ≤ 32
  apart : r.fb + r.n ≤ r.eb ∨ r.eb + r.n ≤ r.fb

theorem foldl_stageSet_barrier {r : Ring} (fits : r.Fits) (fexp eexp : Nat) (b : Bank) (m : Nat) : ∀ c, c ≤ r.n →
    ((List.range c).foldl (stageSet r fexp eexp) b).barrier m =
      if r.fb ≤ m ∧ m < r.fb + c then barrierSet true r.scope fexp
      else if r.eb ≤ m ∧ m < r.eb + c then barrierSet true r.scope eexp
      else b.barrier m := by
  obtain ⟨full, empty, apart⟩ := fits
  intro c
  induction c with
  | zero =>
    intro _
    rw [if_neg (by omega), if_neg (by omega)]
    rfl
  | succ c ih =>
    intro low
    rw [List.range_succ, List.foldl_append, List.foldl_cons, List.foldl_nil, stageSet, setBarrier_barrier, setBarrier_barrier,
      ih (by omega)]
    by_cases isEmpty : m = r.eb + c
    · rw [if_pos ⟨isEmpty, by omega⟩, if_neg (by omega), if_pos (by omega)]
    · rw [if_neg fun both => isEmpty both.1]
      by_cases isFull : m = r.fb + c
      · rw [if_pos ⟨isFull, by omega⟩, if_pos (by omega)]
      · rw [if_neg fun both => isFull both.1]
        simp only [show (r.fb ≤ m ∧ m < r.fb + (c + 1)) ↔ (r.fb ≤ m ∧ m < r.fb + c) by omega,
          show (r.eb ≤ m ∧ m < r.eb + (c + 1)) ↔ (r.eb ≤ m ∧ m < r.eb + c) by omega]

theorem mem_stages_iff {r : Ring} (set : r.isSet = true) (m : Nat) :
    m ∈ r.stages ↔ (r.fb ≤ m ∧ m < r.fb + r.n) ∨ (r.eb ≤ m ∧ m < r.eb + r.n) := by
  rw [Ring.stages, if_pos set, List.mem_append, List.mem_map, List.mem_map]
  simp only [List.mem_range]
  constructor
  · rintro (⟨i, low, rfl⟩ | ⟨i, low, rfl⟩) <;> omega
  · rintro (⟨lo, hi⟩ | ⟨lo, hi⟩)
    · exact .inl ⟨m - r.fb, by omega, by omega⟩
    · exact .inr ⟨m - r.eb, by omega, by omega⟩

theorem setUpRing_same (b : Bank) (k : Nat) (r : Ring) (fexp eexp : Nat) : SameButStages b (b.setUpRing k r fexp eexp) :=
  List.foldlRecOn (motive := SameButStages b) _ _ ((dropRing_same b k).setRing k r) fun _ same i _ =>
    (same.setBarrier (r.fb + i) _).setBarrier (r.eb + i) _

theorem setUpRing_ring (b : Bank) {k : Nat} (r : Ring) (fexp eexp : Nat) (low : k < 8) (j : Nat) :
    (b.setUpRing k r fexp eexp).ring j = if j = k then r else b.ring j := by
  rw [setUpRing_eq, foldl_setBarrier_ring (stageSet r fexp eexp) fun _ _ _ => rfl, setRing_ring _ _ low, dropRing_ring _ low]
  split <;> rfl

theorem setUpRing_barrier (b : Bank) (k : Nat) {r : Ring} (fits : r.Fits) (fexp eexp m : Nat) :
    (b.setUpRing k r fexp eexp).barrier m =
      if r.fb ≤ m ∧ m < r.fb + r.n then barrierSet true r.scope fexp
      else if r.eb ≤ m ∧ m < r.eb + r.n then barrierSet true r.scope eexp
      else if m ∈ (b.ring k).stages then .reset else b.barrier m := by
  rw [setUpRing_eq, foldl_stageSet_barrier fits _ _ _ _ _ le_rfl, setRing_barrier, dropRing_barrier]

/-- A ring that is taken down: its stage barriers are LIVE no longer, and no other barrier or ring changes. -/
theorem syncStep_dropRing (s : State) {k : Nat} (low : k < 8) :
    let t := (s.setBank (s.bank.dropRing k)).retire .a 1
    SyncStep s t ∧ (t.bank.ring k).isSet = false ∧ (∀ j, j ≠ k → t.bank.ring j = s.bank.ring j) ∧
      t.bank.sync.handles = s.bank.sync.handles ∧ ∀ m, (m ∈ (s.bank.ring k).stages → (t.bank.barrier m).live = false) ∧
        (m ∉ (s.bank.ring k).stages → t.bank.barrier m = s.bank.barrier m) := by
  intro t
  have bank : t.bank = (s.bank.dropRing k).retire .a 1 := setBank_retire_bank s _
  obtain ⟨step, handles⟩ := (dropRing_same s.bank k).syncStep
  refine ⟨step, ?_, fun j other => ?_, handles, fun m => ⟨fun there => ?_, fun gone => ?_⟩⟩ <;> rw [bank]
  · rw [bankRetire_ring, dropRing_ring _ low, if_pos rfl, Ring.reset]
  · rw [bankRetire_ring, dropRing_ring _ low, if_neg other]
  · rw [bankRetire_barrier, dropRing_barrier, if_pos there, Barrier.reset]
  · rw [bankRetire_barrier, dropRing_barrier, if_neg gone]

/-- A ring that is set up: its stage barriers are, those that only the ring in its place had are LIVE no longer, and no other barrier
or ring changes. -/
theorem syncStep_setUpRing (s : State) {k : Nat} {r : Ring} (fexp eexp : Nat) (low : k < 8) (fits : r.Fits) (set : r.isSet = true) :
    let t := (s.setBank (s.bank.setUpRing k r fexp eexp)).retire .a 1
    SyncStep s t ∧ t.bank.ring k = r ∧ (∀ j, j ≠ k → t.bank.ring j = s.bank.ring j) ∧ t.bank.sync.handles = s.bank.sync.handles ∧
      (∀ i, i < r.n → t.bank.barrier (r.fb + i) = barrierSet true r.scope fexp ∧
        t.bank.barrier (r.eb + i) = barrierSet true r.scope eexp) ∧
      ∀ m, m ∉ r.stages → (m ∈ (s.bank.ring k).stages → (t.bank.barrier m).live = false) ∧
        (m ∉ (s.bank.ring k).stages → t.bank.barrier m = s.bank.barrier m) := by
  intro t
  have bank : t.bank = (s.bank.setUpRing k r fexp eexp).retire .a 1 := setBank_retire_bank s _
  obtain ⟨step, handles⟩ := (setUpRing_same s.bank k r fexp eexp).syncStep
  have barrier : ∀ m, t.bank.barrier m = _ := fun m =>
    (congrArg (Bank.barrier · m) bank).trans ((bankRetire_barrier _ _ _ m).trans (setUpRing_barrier s.bank k fits fexp eexp m))
  refine ⟨step, ?_, fun j other => ?_, handles, fun i hi => ⟨?_, ?_⟩, fun m out => ?_⟩
  · rw [bank, bankRetire_ring, setUpRing_ring _ _ _ _ low, if_pos rfl]
  · rw [bank, bankRetire_ring, setUpRing_ring _ _ _ _ low, if_neg other]
  · rw [barrier, if_pos (by omega)]
  · obtain ⟨-, -, apart⟩ := fits
    rw [barrier, if_neg (by omega), if_pos (by omega)]
  · rw [mem_stages_iff set, not_or] at out
    rw [barrier, if_neg out.1, if_neg out.2]
    exact ⟨fun there => by rw [if_pos there, Barrier.reset], fun gone => if_neg gone⟩

/-! ### RINGSET (R245) -/

theorem ringOf_eq (w : Word) : ringOf w = ⟨true, w.toNat / 2 ^ 48 % 8, 64 * (w.toNat % 2 ^ 17), 64 * (w.toNat / 2 ^ 17 % 2 ^ 17),
    w.toNat / 2 ^ 34 % 16 + 1, w.toNat / 2 ^ 38 % 32, w.toNat / 2 ^ 43 % 32, 0, 0, 0, 0⟩ := by
  simp only [ringOf, field_word_toNat, pow_zero, Nat.div_one, Nat.reducePow]

/-- The two words of RINGSET describe a ring of two stages or more (R245). -/
def RingFormed (w v : Word) : Prop :=
  w.toNat / 2 ^ 51 = 0 ∧ v.toNat / 2 ^ 22 = 0 ∧ 2 ≤ (ringOf w).n ∧ (ringOf w).slot ≠ 0 ∧ (ringOf w).scope ≤ 4 ∧
    v.toNat % 2048 ≠ 0 ∧ v.toNat / 2048 % 2048 ≠ 0

/-- The stage barriers of a ring may be taken for it, and the ring that stood in its place may be taken down (R245). -/
def State.ringPlaced (s : State) (k : Nat) (r : Ring) : Prop :=
  r.fb + r.n ≤ 32 ∧ r.eb + r.n ≤ 32 ∧ (r.fb + r.n ≤ r.eb ∨ r.eb + r.n ≤ r.fb) ∧ (∀ m ∈ r.stages, s.stageFree k m = true) ∧
    (∀ m ∈ (s.bank.ring k).stages, (s.bank.barrier m).quiet = true) ∧ s.bank.copyNamesRing k = false

section

variable {s : State} {k : BitVec 3} {c : BitVec 6}

theorem exec_ringset_odd (odd : c.toNat % 2 = 1) : exec (.ringset k c) s = s.pcFault .a .operandIllegal := if_pos odd

variable (even : c.toNat % 2 = 0)

include even

theorem exec_ringset_down (first : s.bank.readA c.toNat = 0) (second : s.bank.readA (c.toNat + 1) = 0) :
    exec (.ringset k c) s = .next ((s.setBank (s.bank.dropRing k.toNat)).retire .a 1) :=
  (if_neg (by omega)).trans (if_pos ⟨first, second⟩)

theorem exec_ringset_unformed (some_ : s.bank.readA c.toNat ≠ 0 ∨ s.bank.readA (c.toNat + 1) ≠ 0)
    (unformed : ¬ RingFormed (s.bank.readA c.toNat) (s.bank.readA (c.toNat + 1))) :
    exec (.ringset k c) s = .next (s.raise .a .operandFormat 0) := by
  refine (if_neg (by omega)).trans ((if_neg (not_and_or.mpr some_)).trans (if_pos ?_))
  have first := (s.bank.readA c.toNat).isLt
  have second := (s.bank.readA (c.toNat + 1)).isLt
  rw [RingFormed, ringOf_eq] at unformed
  simp only [field_word_toNat, ringOf_eq] at unformed ⊢
  omega

variable (formed : RingFormed (s.bank.readA c.toNat) (s.bank.readA (c.toNat + 1)))

include formed

/-- What RINGSET checks of a ring that is formed: its slots lie in S space, and then its place. -/
theorem exec_ringset_formed : exec (.ringset k c) s =
    let r := ringOf (s.bank.readA c.toNat)
    let v := (s.bank.readA (c.toNat + 1)).toNat
    if r.base + r.n * r.slot > 0x600000 then .next (s.raise .a .accessRange 0x600000)
    else if r.fb + r.n > 32 ∨ r.eb + r.n > 32 ∨ (r.fb < r.eb + r.n ∧ r.eb < r.fb + r.n) ∨
        r.stages.all (s.stageFree k.toNat) = false ∨
        (s.bank.ring k.toNat).stages.all (fun n => (s.bank.barrier n).quiet) = false ∨ s.bank.copyNamesRing k.toNat = true then
      .next (s.raise .a .operandFormat 0)
    else .next ((s.setBank (s.bank.setUpRing k.toNat r (v % 2048) (v / 2048 % 2048))).retire .a 1) := by
  have some_ : ¬ (s.bank.readA c.toNat = 0 ∧ s.bank.readA (c.toNat + 1) = 0) := by
    rintro ⟨first, -⟩
    obtain ⟨-, -, -, slot, -⟩ := formed
    exact slot (by rw [first]; decide)
  refine (if_neg (by omega)).trans ((if_neg some_).trans ((if_neg ?_).trans ?_))
  · rw [RingFormed, ringOf_eq] at formed
    simp only [field_word_toNat, ringOf_eq] at formed ⊢
    omega
  · simp only [field_word_toNat, pow_zero, Nat.div_one]
    rfl

theorem exec_ringset_beyond
    (beyond : 0x600000 <
      (ringOf (s.bank.readA c.toNat)).base + (ringOf (s.bank.readA c.toNat)).n * (ringOf (s.bank.readA c.toNat)).slot) :
    exec (.ringset k c) s = .next (s.raise .a .accessRange 0x600000) :=
  (exec_ringset_formed even formed).trans (if_pos beyond)

variable (inside :
  (ringOf (s.bank.readA c.toNat)).base + (ringOf (s.bank.readA c.toNat)).n * (ringOf (s.bank.readA c.toNat)).slot ≤ 0x600000)

include inside

theorem exec_ringset_unplaced (unplaced : ¬ s.ringPlaced k.toNat (ringOf (s.bank.readA c.toNat))) :
    exec (.ringset k c) s = .next (s.raise .a .operandFormat 0) := by
  refine (exec_ringset_formed even formed).trans ((if_neg (Nat.not_lt.mpr inside)).trans (if_pos ?_))
  by_contra free
  simp only [not_or, Bool.not_eq_false, List.all_eq_true] at free
  obtain ⟨full, empty, apart, stages, quiet, named⟩ := free
  exact unplaced ⟨by omega, by omega, by omega, stages, quiet, by simpa using named⟩

theorem exec_ringset_up (placed : s.ringPlaced k.toNat (ringOf (s.bank.readA c.toNat))) : exec (.ringset k c) s =
    .next ((s.setBank (s.bank.setUpRing k.toNat (ringOf (s.bank.readA c.toNat)) ((s.bank.readA (c.toNat + 1)).toNat % 2048)
      ((s.bank.readA (c.toNat + 1)).toNat / 2048 % 2048))).retire .a 1) := by
  refine (exec_ringset_formed even formed).trans ((if_neg (Nat.not_lt.mpr inside)).trans (if_neg ?_))
  obtain ⟨full, empty, apart, stages, quiet, named⟩ := placed
  simp only [not_or, Bool.not_eq_false, List.all_eq_true]
  exact ⟨by omega, by omega, by omega, stages, quiet, by simp [named]⟩

end

/-! ### The statement, instruction by instruction -/

/-- Settles O43: a barrier by the four cases of its item, each instruction by what it checks and by the bank that it retires with. -/
theorem barriers : Obligations.Barriers := by
  unfold Obligations.Barriers
  refine ⟨fun b cnt bytes par => ⟨?_, fun other => ⟨item_full other, item_held other, item_held_beyond other⟩⟩,
    fun s x z e => ⟨fun scope low high free => ?_, fun ok scope bad => ?_, fun ok scope => ?_⟩,
    fun s x g z p c a i form => ?_, fun s x z p d => ?_, fun s k c => ?_⟩
  · rintro rfl
    refine ⟨fun fits => ?_, item_open_beyond⟩
    rw [item_open fits]
    exact ⟨fun open_ => congrArg _ (settle_unmet (not_and_or.mpr open_)), fun done next => congrArg _ (settle_once done next),
      fun done next => congrArg _ (settle_twice done next)⟩
  · exact ⟨_, exec_bxinit_ok scope low high free, syncStep_setBarrier s _ x.isLt⟩
  · exact ⟨_, exec_bxinit_refused scope bad, raised_raise s .a _ _ ok⟩
  · exact raised_pcFault _ s .a _ ok (exec_bxinit_scope scope)
  · obtain ⟨arr, runs, isArr⟩ := exec_arrival form
    intro w cnt bytes r stage n par formed known
    have word : formed → w.toNat / 2 ^ 49 = 0 ∧ (arrivals w ≠ 0 ↔ arr = true) := fun h => ⟨h.1, h.2.trans isArr⟩
    refine ⟨fun form known low near => ?_, fun ok => ⟨fun own bad => ?_, fun peer ring => ?_⟩, fun form peer plain reach => ?_⟩
    · obtain ⟨rfl, ring, live⟩ := known
      have target := arriveTarget_own (c := c) (w := w) ring
      have legal : ¬ (0#1 = 1#1 ∧ g = 1#1) := fun both => absurd both.1 (by decide)
      refine ⟨fun v applied => ?_, fun full => ?_, fun ok beyond => ?_⟩
      · exact ⟨_, runs.trans (arriveOp_applied legal (word form) target rfl live near applied), syncStep_putBarrier s v low⟩
      · exact ⟨_, runs.trans (arriveOp_full legal (word form) target rfl live full), waits_stall s .a⟩
      · exact ⟨_, runs.trans (arriveOp_beyond legal (word form) target rfl live beyond), raised_raise s .a _ _ ok⟩
    · subst own
      exact ⟨_, runs.trans (arriveOp_refused fun form ring => by_contra fun live => bad ⟨⟨form.1, form.2.trans isArr.symm⟩,
        rfl, ring, Bool.eq_true_of_not_eq_false live⟩), raised_raise s .a _ _ ok⟩
    · exact raised_pcFault i s .a _ ok (runs.trans (arriveOp_illegal peer ring))
    · subst peer plain
      refine ⟨fun here part live plain shared v applied => ?_, fun other saved => ?_,
        fun other part stands b v there live plain shared applied => ?_⟩
      · have target := arriveTarget_peer (z := z) (par := w.getLsbD 0)
          (peerBarrier_ok part (fun other => absurd here other) (if_pos here) live plain shared)
        obtain ⟨step, barrier, -⟩ := syncStep_putBarrier s v x.isLt
        exact ⟨_, runs.trans (arriveOp_applied (by decide) (word form) target here live (.inr reach) applied), step, barrier⟩
      · by_cases part : (s.ctxAt s.ctxNo).part.getLsbD (peerCell s.cellNo c.toNat) = true
        · exact ⟨_, runs.trans (arriveOp_peer_saved (word form) other part saved), fun _ => waits_stall s .a⟩
        · exact ⟨_, runs.trans (arriveOp_error (by decide) (word form) (arriveTarget_peer_error (if_pos (by simpa using part)))),
            fun inside => absurd inside part⟩
      · exact ⟨_, runs.trans (arriveOp_peer (word form) other part stands there live plain shared reach applied),
          peer_retired (peerCell_lt _ s.cur.isLt) other stands there⟩
  · refine ⟨fun word live => ⟨fun other near => ?_, fun same => ?_⟩, fun set low => ⟨fun done near => ?_, fun early => ?_⟩,
      fun ok => ⟨fun bad => ?_, fun unset => ?_⟩, answersA_eq exec_bxtest_barrier (barrierWord_eq _),
      answersA_eq exec_bxtest_ring (ringWord_eq _)⟩
    · exact ⟨_, exec_bxwait_over word live other near, onlyRetiredA_retire s 1⟩
    · exact ⟨_, exec_bxwait_open word live same, waits_stall s .a⟩
    · exact ⟨_, exec_bxwait_reached set done near, syncStep_setRing s _ low⟩
    · exact ⟨_, exec_bxwait_early set early, waits_stall s .a⟩
    · exact ⟨_, exec_bxwait_refused ok bad, raised_raise s .a _ _ ok⟩
    · exact ⟨_, exec_bxwait_unset ok unset, raised_raise s .a _ _ ok⟩
  · have low : k.toNat < 8 := k.isLt
    intro w v n fb eb was r formed placed
    have ring : ringOf (s.bank.readA c.toNat) = r := ringOf_eq _
    have form : formed → RingFormed (s.bank.readA c.toNat) (s.bank.readA (c.toNat + 1)) := fun h => by rwa [RingFormed, ring]
    refine ⟨fun even first second => ?_, fun even h inside place => ?_, fun ok => ⟨fun odd => ?_, fun even some_ h => ?_,
      fun even h beyond => ?_, fun even h inside h' => ?_⟩⟩
    · obtain ⟨step, unset, rings, handles, after⟩ := syncStep_dropRing s low
      exact ⟨_, exec_ringset_down even (BitVec.eq_of_toNat_eq first) (BitVec.eq_of_toNat_eq second), step, unset, rings, handles,
        fun m _ => after m⟩
    · have up := exec_ringset_up even (form h) (by rwa [ring]) (by rwa [ring])
      rw [ring] at up
      obtain ⟨full, empty, apart, -⟩ := place
      obtain ⟨step, set, rings, handles, stages, after⟩ :=
        syncStep_setUpRing s (v % 2048) (v / 2048 % 2048) low (r := r) ⟨full, empty, apart⟩ rfl
      exact ⟨_, up, step, set, rings, handles, stages, fun m _ => after m⟩
    · exact raised_pcFault _ s .a _ ok (exec_ringset_odd odd)
    · refine ⟨_, exec_ringset_unformed even (some_.imp ?_ ?_) fun f => h ?_, raised_raise s .a _ _ ok⟩
      · exact fun nonzero zero => nonzero (congrArg BitVec.toNat zero)
      · exact fun nonzero zero => nonzero (congrArg BitVec.toNat zero)
      · rwa [RingFormed, ring] at f
    · exact ⟨_, exec_ringset_beyond even (form h) (by rwa [ring]), raised_raise s .a _ _ ok⟩
    · exact ⟨_, exec_ringset_unplaced even (form h) (by rwa [ring]) (by rwa [ring]), raised_raise s .a _ _ ok⟩

end Sys2Proof.Machine
end

section
/-! PROOFS. The steps of a copy: its start, the delivery of its bytes and its completion (R240, R251, R254, R257, R258, R263). -/

namespace Sys2Proof.Machine

open Sys2Proof

/-! ### A step at the active bank of a cell -/

/-- A device step finds the active bank first, where that bank meets its test. -/
theorem copyEvent_active {s : State} {cell ch x : Nat} {test : BankPlace × Nat → Bank → Bool} (f : BankPlace → Nat → State → State)
    (low : cell < 256) (inside : ch < 4) (owner : (s.cellAt cell).active.ctl.owner = some x)
    (meets : test (.active, x) (s.cellAt cell).active = true) : copyEvent cell ch test f s = .next (f .active x s) := by
  obtain ⟨l, places⟩ := places_active s cell x owner
  have first : s.placeWhere cell test = some (.active, x) := by
    rw [State.placeWhere, places]
    exact List.find?_cons_of_pos (by simpa [State.bankIn] using meets)
  simp only [copyEvent, low, inside, and_self, if_true, first]

/-- The cell of a step after its active bank is replaced. -/
theorem setBankIn_active {s : State} {cell : Nat} (x : Nat) (b : Bank) (low : cell < 256) :
    (s.setBankIn .active x cell b).cellAt cell = { s.cellAt cell with active := b } := setCell_cellAt s cell _ low

/-- The mapped bank of a step is its cell's active one. -/
theorem mapBankIn_active (s : State) (x cell : Nat) (f : Bank → Bank) :
    s.mapBankIn .active x cell f = s.setBankIn .active x cell (f (s.cellAt cell).active) := rfl

/-! ### A copy at its place in a channel -/

theorem setChannel_channel (b : Bank) {ch : Nat} (l : List CopyOp) (h : ch < 4) : (b.setChannel ch l).channel ch = l :=
  vget_vset_eq _ _ _ _ h

theorem setHandle_handle (b : Bank) {h : Nat} (v : Handle) (low : h < 64) : (b.setHandle h v).handle h = v :=
  vget_vset_eq _ _ _ _ low

section

variable {pre post : List CopyOp} {o : CopyOp}

theorem getElem?_middle : (pre ++ o :: post)[pre.length]? = some o := by simp

theorem setAt_middle (p : CopyOp) : setAt (pre ++ o :: post) pre.length p = pre ++ p :: post := by
  induction pre with
  | nil => rfl
  | cons c pre ih => rw [List.cons_append, List.length_cons, setAt, ih, List.cons_append]

theorem findIdx?_middle {p : CopyOp → Bool} (before : ∀ c ∈ pre, p c = false) (here : p o = true) :
    (pre ++ o :: post).findIdx? p = some pre.length := by
  rw [List.findIdx?_append, List.findIdx?_eq_none_iff.mpr before, Option.none_or, List.findIdx?_cons, if_pos here]
  simp

theorem setCopy_middle {b : Bank} {ch : Nat} (channel : b.channel ch = pre ++ o :: post) (p : CopyOp) :
    b.setCopy ch pre.length p = b.setChannel ch (pre ++ p :: post) := by
  rw [Bank.setCopy, channel, setAt_middle]

/-- The first copy of a channel that has not begun (R251, R257). -/
theorem nextStart_middle (begun : ∀ c ∈ pre, c.phase ≠ .queued) (queued : o.phase = .queued) :
    nextStart (pre ++ o :: post) = some pre.length :=
  findIdx?_middle (fun c hc => beq_false_of_ne (begun c hc)) (by simp [queued])

/-- The first copy of a channel with bytes to deliver, when it runs or waits. -/
theorem movingCopy_middle (delivered : ∀ c ∈ pre, c.total ≤ c.wp ∧ c.phase = .running) (more : o.wp < o.total)
    (moves : o.phase = .running ∨ o.phase = .waiting) : movingCopy (pre ++ o :: post) = some (pre.length, o) := by
  have first : (pre ++ o :: post).findIdx? (fun o => decide (o.wp < o.total) || o.phase != .running) = some pre.length :=
    findIdx?_middle (fun c hc => by simp [delivered c hc]) (by simp [more])
  simp only [movingCopy, first, getElem?_middle, moves, if_true]

end

/-! ### Start (R257, R258) -/

section

variable {s : State} {cell ch x : Nat} {pre post : List CopyOp} {o : CopyOp}
  (channel : (s.cellAt cell).active.channel ch = pre ++ o :: post) (begun : ∀ c ∈ pre, c.phase ≠ .queued) (queued : o.phase = .queued)

include channel begun queued

theorem startCopy_ready (ready : (copyDescOf o.desc).ver = false ∨ o.total = 0 ∨
      ∃ t, s.readDesc x (copyDescOf o.desc).tidx true = .ok t ∧ (copyDescOf o.desc).expver ≤ t.version) :
    s.startCopy .active x cell ch =
      s.setBankIn .active x cell ((s.cellAt cell).active.setChannel ch (pre ++ { o with phase := .running } :: post)) := by
  simp only [State.startCopy, State.bankIn, channel, nextStart_middle begun queued, getElem?_middle, setCopy_middle channel]
  split
  case isFalse => rfl
  case isTrue versioned =>
    obtain ⟨ver, some_⟩ := versioned
    obtain plain | empty | ⟨t, read, reached⟩ := ready
    · rw [ver] at plain
      cases plain
    · exact absurd empty some_
    · simp only [read, reached, if_true]

end

/-! ### Delivery (R254, R257) -/

/-- Byte `i` of a copy between places of S space: its destination's key, and what its source holds. -/
def State.byteMoved (s : State) (x cell : Nat) (o : CopyOp) (i : Nat) : Nat × Byte :=
  (spadKey x cell ((copyDescOf o.desc).dstAddr o.kind o.idx o.slotBase i),
    memGet s.mem (spadKey x cell ((copyDescOf o.desc).srcAddr o.kind o.idx i)))

section

variable {s : State} {x cell : Nat} {o : CopyOp} (source : (copyDescOf o.desc).sspace = 0)
  (dest : (copyDescOf o.desc).dspace = 0 ∨ (copyDescOf o.desc).dspace = 2)

theorem copyS_held (m : Mover) {sp : Nat} (local_ : sp ≠ 1) {a : Nat} (held : s.imageHeld m.ctx m.cell a = true) :
    s.copyS m sp [m.cell] a = some [spadKey m.ctx m.cell a] := by
  rw [State.copyS, if_neg local_, if_pos (by simpa using held)]
  rfl

include source dest

/-- The bytes of a copy between places of S space whose lines the cell holds are gathered one by one. -/
theorem gather_held (clean : s.dev.poisoned = []) (b : Bank) (n : Nat) : ∀ (i : Nat) (g : Gathered),
    (∀ j, i ≤ j → j < i + n → s.imageHeld x cell ((copyDescOf o.desc).srcAddr o.kind o.idx j) = true ∧
      s.imageHeld x cell ((copyDescOf o.desc).dstAddr o.kind o.idx o.slotBase j) = true) →
    s.gather (moverOf b x cell) (copyDescOf o.desc) o.kind o.idx o.slotBase n i g =
      { g with bytes := g.bytes ++ (List.range' i n).map fun j => ⟨[(s.byteMoved x cell o j).1], (s.byteMoved x cell o j).2⟩ } := by
  induction n with
  | zero => intro i g _; simp [State.gather]
  | succ n ih =>
    intro i g held
    obtain ⟨src, dst⟩ := held i le_rfl (by omega)
    have read : s.copySrc (moverOf b x cell) (copyDescOf o.desc) (o.kind == .cpyf) g.srcHeld
        ((copyDescOf o.desc).srcAddr o.kind o.idx i) = .ok (spadKey x cell ((copyDescOf o.desc).srcAddr o.kind o.idx i), g.srcHeld) := by
      rw [State.copySrc, if_neg (by omega), copyS_held (moverOf b x cell) (by omega) src]
      rfl
    have written : s.copyDst (moverOf b x cell) (copyDescOf o.desc) g.dstHeld
        ((copyDescOf o.desc).dstAddr o.kind o.idx o.slotBase i) =
          .ok ([spadKey x cell ((copyDescOf o.desc).dstAddr o.kind o.idx o.slotBase i)], g.dstHeld) := by
      rw [State.copyDst, if_neg (by omega), show (moverOf b x cell).dstCells = [(moverOf b x cell).cell] from rfl,
        copyS_held (moverOf b x cell) (by omega) dst]
      rfl
    simp only [State.gather, read, written, clean, firstPoison, List.find?_nil]
    rw [ih _ _ fun j lo hi => held j (by omega) (by omega), List.range'_succ, List.map_cons]
    simp [State.byteMoved]

end

/-- Bytes that are set where no word is poisoned. -/
theorem putBytes_clean {s : State} (clean : s.dev.poisoned = []) (l : List (Nat × Byte)) :
    s.putBytes l = .ok { s with mem := memWriteAll s.mem l } := by
  obtain ⟨cells, ctxs, mem, saved, sched, net, dev, cur, turn, engine, agenda, outbox, freeCtr⟩ := s
  obtain ⟨state, cold, failed, installed, alarm, inhibit, bg, poisoned, service, recovery, measured, sessions, index, gang⟩ := dev
  simp only at clean
  subst clean
  rfl

theorem flatMap_keys (l : List Nat) (f : Nat → Nat × Byte) :
    ((l.map fun j => (⟨[(f j).1], (f j).2⟩ : MovedByte)).flatMap fun m => m.keys.map fun a => (a, m.val)) = l.map f := by
  rw [List.flatMap_map]
  exact List.map_eq_flatMap.symm

section

variable {s : State} {cell ch x n : Nat} {pre post : List CopyOp} {o : CopyOp}
  (channel : (s.cellAt cell).active.channel ch = pre ++ o :: post)
  (delivered : ∀ c ∈ pre, c.total ≤ c.wp ∧ c.phase = .running) (more : o.wp < o.total)
  (moves : o.phase = .running ∨ o.phase = .waiting)

include channel delivered more moves

/-- A delivery of bytes between places of S space, for a copy with no barrier and no tensor to present to. -/
theorem deliver_held (alone : o.bar = none) (hidden : o.shown = none) (source : (copyDescOf o.desc).sspace = 0)
    (dest : (copyDescOf o.desc).dspace = 0 ∨ (copyDescOf o.desc).dspace = 2) (clean : s.dev.poisoned = [])
    (held : ∀ j, o.wp ≤ j → j < o.wp + min n (o.total - o.wp) →
      s.imageHeld x cell ((copyDescOf o.desc).srcAddr o.kind o.idx j) = true ∧
        s.imageHeld x cell ((copyDescOf o.desc).dstAddr o.kind o.idx o.slotBase j) = true) :
    s.deliver .active x cell ch n false =
      ({ s with mem := memWriteAll s.mem ((List.range' o.wp (min n (o.total - o.wp))).map (s.byteMoved x cell o)) } : State).setBankIn
        .active x cell (((s.cellAt cell).active.setChannel ch
          (pre ++ { o with wp := o.wp + min n (o.total - o.wp), phase := .running, written := [] } :: post)).moveWp o.handle
          (o.wp + min n (o.total - o.wp))) := by
  have gathered := gather_held source dest clean (s.cellAt cell).active (min n (o.total - o.wp)) o.wp
    ⟨[], o.srcHeld, o.dstHeld, .ran⟩ held
  simp only [State.deliver, State.bankIn, channel, movingCopy_middle delivered more moves, gathered, alone, hidden, List.nil_append,
    Bool.false_eq_true, false_and, if_false, putBytes_clean clean, List.length_map, List.length_range', Option.isSome_none]
  rw [List.take_of_length_le (by simp), flatMap_keys, mapBankIn_active, ← setCopy_middle channel]
  rfl

end

/-- The bytes of a delivery at distinct addresses: each goes to its own key, and no other key is written. -/
theorem memGet_delivered {s : State} {x cell i m : Nat} {o : CopyOp} (wf : s.mem.wf = true)
    (apart : ∀ j l, j < m → l < m → (copyDescOf o.desc).dstAddr o.kind o.idx o.slotBase (i + j) =
      (copyDescOf o.desc).dstAddr o.kind o.idx o.slotBase (i + l) → j = l) :
    let after := memWriteAll s.mem ((List.range' i m).map (s.byteMoved x cell o))
    (∀ j, j < m → memGet after (s.byteMoved x cell o (i + j)).1 = (s.byteMoved x cell o (i + j)).2) ∧
      ∀ k, (∀ j, j < m → k ≠ (s.byteMoved x cell o (i + j)).1) → memGet after k = memGet s.mem k := by
  have keys : ((List.range' i m).map (s.byteMoved x cell o)).map (·.1) = (List.range' i m).map fun j => (s.byteMoved x cell o j).1 :=
    List.map_map
  have distinct : (((List.range' i m).map (s.byteMoved x cell o)).map (·.1)).Nodup := by
    rw [keys]
    refine List.Nodup.map_on (fun j hj l hl same => ?_) List.nodup_range'
    rw [List.mem_range'_1] at hj hl
    have equal := apart (j - i) (l - i) (by omega) (by omega)
    rw [Nat.add_sub_cancel' hj.1, Nat.add_sub_cancel' hl.1] at equal
    have addresses : (copyDescOf o.desc).dstAddr o.kind o.idx o.slotBase j = (copyDescOf o.desc).dstAddr o.kind o.idx o.slotBase l :=
      Nat.add_left_cancel same
    have := equal addresses
    omega
  obtain ⟨there, others⟩ := memGet_memWriteAll wf distinct
  refine ⟨fun j hj => there _ (List.mem_map_of_mem (List.mem_range'_1.mpr ⟨by omega, by omega⟩)), fun k none => others k ?_⟩
  rw [keys, List.mem_map]
  rintro ⟨j, hj, rfl⟩
  rw [List.mem_range'_1] at hj
  exact none (j - i) (by omega) (by rw [Nat.add_sub_cancel' hj.1])

/-! ### Completion (R240, R251, R258, R263) -/

/-- A release at another scope than GANG's, or one whose devices are all in reach, asks nothing more. -/
theorem gangRelease_near {scope : Nat} {s t : State} {p : BankPlace} {x c : Nat} {seqa : Word}
    (near : scope ≠ 4 ∨ s.unreachable x = none) (same : t.unreachable x = s.unreachable x) :
    t.gangRelease (scope == 4) p x c seqa = t := by
  rw [State.gangRelease, same]
  rcases near with other | reach
  · rw [beq_false_of_ne other]
    rfl
  · rw [reach, ite_self]

theorem handle_completed (h : Handle) : h.completed =
    { h with state := if h.state = .draining then .free else .full, wp := if h.state = .draining then h.wp else h.total } := by
  unfold Handle.completed
  split <;> rfl

/-- What the departure of a channel's head copy leaves: the rest of the channel, the handle completed, one more copy counted, and all
else as it was. -/
theorem dropCopy_leaves (s : State) (x : Nat) {cell ch : Nat} {b : Bank} {o : CopyOp} {post : List CopyOp} (low : cell < 256)
    (inside : ch < 4) (handle : o.handle < 64) (channel : b.channel ch = o :: post) :
    let t := s.setBankIn .active x cell (b.dropCopy ch o)
    let u := (t.cellAt cell).active
    (u.channel ch = post ∧ u.handle o.handle = { b.handle o.handle with
        state := if (b.handle o.handle).state = .draining then .free else .full,
        wp := if (b.handle o.handle).state = .draining then (b.handle o.handle).wp else (b.handle o.handle).total } ∧
      vget u.eng.chSeq ch 0 = vget b.eng.chSeq ch 0 + 1 ∧ u.sr = b.sr ∧ u.af = b.af ∧ u.xf = b.xf ∧ SameMemory s t) ∧
    u.sync.barriers = b.sync.barriers := by
  intro t u
  have bank : u = b.dropCopy ch o := congrArg Cell.active (setBankIn_active x _ low)
  rw [bank]
  refine ⟨⟨?_, ?_, vget_vset_eq _ _ _ _ inside, rfl, rfl, rfl, fun _ => rfl⟩, rfl⟩
  · refine (setChannel_channel (b.setHandle o.handle _) _ inside).trans ?_
    rw [channel, List.tail_cons]
  · rw [← handle_completed]
    exact setHandle_handle b _ handle

section

variable {s : State} {cell ch x : Nat} {post : List CopyOp} {o : CopyOp} (channel : (s.cellAt cell).active.channel ch = o :: post)
  (all : o.wp = o.total) (moves : o.phase = .running ∨ o.phase = .waiting) (hidden : o.shown = none)

include channel all moves hidden

/-- A head copy whose bytes are all there makes its arrival; with no tensor to present to it does nothing before. -/
theorem finishCopy_arrives :
    s.finishCopy .active x cell ch = s.arriveCopy .active x cell ch { o with shown := none, written := [] } := by
  have due : ¬ ((o.phase ≠ .running ∧ o.phase ≠ .waiting) ∨ o.wp < o.total) := by
    rw [all, not_or, not_and_or, not_not, not_not]
    exact ⟨moves, Nat.lt_irrefl _⟩
  simp only [State.finishCopy, State.bankIn, channel, if_neg due, State.presentCopy, hidden]

/-- A copy without a barrier leaves its channel. -/
theorem finishCopy_alone (alone : o.bar = none) :
    s.finishCopy .active x cell ch = s.setBankIn .active x cell ((s.cellAt cell).active.dropCopy ch o) := by
  rw [finishCopy_arrives channel all moves hidden]
  simp only [State.arriveCopy, alone]
  rfl

variable {r : BarRef} (bar : o.bar = some r) (own : r.cell = cell)

include bar own

/-- A copy whose barrier is no longer LIVE leaves its channel. -/
theorem finishCopy_unset (unset : ((s.cellAt cell).active.barrier r.bx).live = false) :
    s.finishCopy .active x cell ch = s.setBankIn .active x cell ((s.cellAt cell).active.dropCopy ch o) := by
  rw [finishCopy_arrives channel all moves hidden]
  simp only [State.arriveCopy, bar, State.copyBar, own, if_true, State.bankIn, unset, reduceCtorEq, if_false]
  rfl

/-- A copy whose barrier takes its arrival leaves its channel, and the barrier is as the item leaves it. -/
theorem finishCopy_taken {v : Barrier} (low : cell < 256) (live : ((s.cellAt cell).active.barrier r.bx).live = true)
    (near : ((s.cellAt cell).active.barrier r.bx).scope ≠ 4 ∨ s.unreachable x = none)
    (applied : ((s.cellAt cell).active.barrier r.bx).item 1 0 r.par = .applied v) :
    s.finishCopy .active x cell ch =
      (s.setBankIn .active x cell ((s.cellAt cell).active.putBarrier r.bx v)).setBankIn .active x cell
        (((s.cellAt cell).active.putBarrier r.bx v).dropCopy ch o) := by
  rw [finishCopy_arrives channel all moves hidden]
  simp only [State.arriveCopy, bar, State.copyBar, own, if_true, State.bankIn, live, reduceCtorEq, if_false, applied, Bool.true_eq_false]
  refine (gangRelease_near near ?_).trans ?_
  · rw [mapBankIn_active, setBankIn_unreachable, setBankIn_unreachable]
  · rw [mapBankIn_active, setBankIn_active x _ low]
    rfl

end

/-! ### The events of a channel -/

section

variable {s : State} {cell ch x : Nat} {pre post : List CopyOp} {o : CopyOp} (low : cell < 256) (inside : ch < 4)
  (owner : (s.cellAt cell).active.ctl.owner = some x)

include low inside owner

theorem exec_copyStart (channel : (s.cellAt cell).active.channel ch = pre ++ o :: post)
    (may : s.mayBegin (.active, x) (s.cellAt cell).active = true) (begun : ∀ c ∈ pre, c.phase ≠ .queued)
    (queued : o.phase = .queued) : exec (.copyStart cell ch) s = .next (s.startCopy .active x cell ch) := by
  refine copyEvent_active (fun p y t => t.startCopy p y cell ch) low inside owner ?_
  rw [State.canStartCopy, may, channel, nextStart_middle begun queued]
  rfl

theorem exec_copyBytesDelivered (n : Nat) (channel : (s.cellAt cell).active.channel ch = pre ++ o :: post)
    (delivered : ∀ c ∈ pre, c.total ≤ c.wp ∧ c.phase = .running) (more : o.wp < o.total)
    (moves : o.phase = .running ∨ o.phase = .waiting) :
    exec (.copyBytesDelivered cell ch n false) s = .next (s.deliver .active x cell ch n false) := by
  refine copyEvent_active (fun p y t => t.deliver p y cell ch n false) low inside owner ?_
  rw [canMoveCopy, channel, movingCopy_middle delivered more moves]
  rfl

theorem exec_copyComplete (channel : (s.cellAt cell).active.channel ch = o :: post) (all : o.wp = o.total)
    (moves : o.phase = .running ∨ o.phase = .waiting) : exec (.copyComplete cell ch) s = .next (s.finishCopy .active x cell ch) := by
  refine copyEvent_active (fun p y t => t.finishCopy p y cell ch) low inside owner ?_
  simp only [canFinishCopy, channel, all, le_refl, decide_true, Bool.and_true, Bool.or_eq_true, beq_iff_eq]
  exact moves

end

/-! ### The statement, step by step -/

/-- Settles O45: a start changes the copy's phase, a delivery writes the bytes that `gather_held` lists, and a completion is the
departure of the channel's head copy, after the arrival at its barrier. -/
theorem copySteps : Obligations.CopySteps := by
  unfold Obligations.CopySteps
  intro s cell ch x pre post o low inside handle b d owner channel
  refine ⟨fun may begun queued ready => ?_, fun n wf delivered more moves alone hidden _ source dest clean => ?_,
    fun first all moves hidden => ?_⟩
  · refine ⟨_, exec_copyStart low inside owner channel may begun queued, ?_⟩
    rw [startCopy_ready channel begun queued ready, setBankIn_active x _ low]
    exact ⟨rfl, rfl⟩
  · intro m src dst held apart
    refine ⟨_, exec_copyBytesDelivered low inside owner n channel delivered more moves, ?_⟩
    rw [deliver_held channel delivered more moves alone hidden source dest clean fun j lo hi => ?_, setBankIn_mem,
      setBankIn_active x _ low]
    · obtain ⟨there, others⟩ := memGet_delivered (x := x) (cell := cell) wf apart
      exact ⟨there, others, setChannel_channel _ _ inside, setHandle_handle _ _ handle, rfl, rfl, rfl⟩
    · obtain ⟨srcHeld, dstHeld, -⟩ := held (j - o.wp) (by omega)
      rw [← Nat.add_sub_cancel' lo]
      exact ⟨srcHeld, dstHeld⟩
  · intro left done
    subst first
    have runs := exec_copyComplete low inside owner channel all moves
    refine ⟨fun alone => ⟨_, runs, ?_⟩, fun r bar own inFile => ⟨fun unset => ⟨_, runs, ?_⟩, fun v live near applied => ⟨_, runs, ?_⟩⟩⟩
    · rw [finishCopy_alone channel all moves hidden alone]
      exact dropCopy_leaves s x low inside handle channel
    · rw [finishCopy_unset channel all moves hidden bar own unset]
      exact dropCopy_leaves s x low inside handle channel
    · rw [finishCopy_taken channel all moves hidden bar own low live near applied]
      obtain ⟨same, barriers⟩ := dropCopy_leaves (s.setBankIn .active x cell (b.putBarrier r.bx v)) x low inside handle
        (b := b.putBarrier r.bx v) channel
      refine ⟨same, ?_⟩
      rw [Bank.barrier, barriers]
      exact (putBarrier_barrier b v inFile r.bx).trans (if_pos rfl)

end Sys2Proof.Machine
end
